-- ==== Sys2Proof/Word.lean ====
section
/-! DEFINITION. The machine's words: bytes, 32-bit registers, 64-bit pairs (R8, R9, R12). -/
namespace Sys2Proof

/-- One byte of any store. -/
abbrev Byte := BitVec 8

/-- A 32-bit register or instruction word (R12, R247). -/
abbrev Word := BitVec 32

/-- A 64-bit pair, mask or global address (R8, R12, R55). -/
abbrev Dword := BitVec 64

/-- A 48-bit local virtual address, as the program counter holds it (R184, R247). -/
abbrev Addr := BitVec 48

/-- A 7-bit register field of an instruction word, decoded under R139. -/
abbrev RegField := BitVec 7

end Sys2Proof
end

