-- ==== Sys2Proof/Syntax.lean ====
section
/-! DEFINITION. The rows of the opcode table as one inductive type, and the plain data its event rows carry. -/
namespace Sys2Proof

/-- A team: its core and its teamid on that core (R13, R124). -/
structure TeamId where
  core : Nat
  team : Nat
  deriving DecidableEq, Repr

/-- A group of a team (R13). -/
structure GroupId where
  core : Nat
  team : Nat
  grp  : Nat
  deriving DecidableEq, Repr

/-- A thread: member `mem` of a group (R13). -/
structure ThreadId where
  core : Nat
  team : Nat
  grp  : Nat
  mem  : Nat
  deriving DecidableEq, Repr

/-- The group of a thread. -/
def ThreadId.group (t : ThreadId) : GroupId := ⟨t.core, t.team, t.grp⟩

/-- The team of a thread. -/
def ThreadId.teamId (t : ThreadId) : TeamId := ⟨t.core, t.team⟩

/-- The team of a group. -/
def GroupId.teamId (g : GroupId) : TeamId := ⟨g.core, g.team⟩

/-- What the patrol scrubber or an access finds in one 32-byte sector (R26). -/
inductive ScrubResult where
  | clean | correctable | uncorrectable
  deriving DecidableEq, Repr

/-- Which access of a thread an ACCESS_RETURN row is about: an operand-log entry, or a store that the memory
pipeline has accepted and that is now performed (R152, R191). -/
inductive AccessRef where
  | entry (index : Nat)
  | buffered (stamp : Nat)
  deriving DecidableEq, Repr

/-- The choices of an ACCESS_RETURN: the lines that L2 evicts, whether the access allocates none, and for each byte of a load how many writes
back it is taken, or which bytes of a store are performed now (R166, R190). -/
structure ReturnChoice where
  evicted : List Nat
  pick    : List Nat
  bypass  : Bool := false
  deriving DecidableEq, Repr

/-- What a TRANSLATION_WALK caches (R187): a page, the core of the die whose L1 TLB takes it too, and whether the die had evicted it. -/
structure WalkedPage where
  page  : Nat
  l1    : Option Nat
  fresh : Bool
  deriving DecidableEq, Repr

/-- A coherent access of the host (R205, R207): the bytes written, none for a read, and whether it is a part of a host CPU's atomic. -/
structure HostAccess where
  data   : Option (List Byte)
  atomic : Bool
  deriving DecidableEq, Repr

/-- What a tier move takes (R24, R165, R166, R347): a handle, what the oldest `rhdem` or `pref` asks for, or a page of no handle. -/
inductive MoveRef where
  | handle (k : Nat)
  | asked
  | page (asid page : Nat)
  deriving DecidableEq, Repr

/-- What the outside answers to a remote or peer access (R77, R95, R314). -/
inductive Remote where
  | none
  | data (bytes : List Byte)
  | failed
  deriving DecidableEq, Repr

/-- What comes for an element of a read stream (R144, R190): the outside's answer, and how many writes back each byte is taken. -/
structure ElementAnswer where
  remote : Remote
  back   : List Nat
  deriving DecidableEq, Repr

/-- A host-port request that gets no completion (R86, R95). -/
inductive HostRequest where
  | copy (queue : Nat) (seq : Word)
  | peerLoad (thread : ThreadId) (entry : Nat)
  deriving DecidableEq, Repr

/-- A read of a pod member that the device waits for (R44): of an access in a thread's operand log, of an element of a stream of its, or of a
piece or element that an engine moves for it. -/
inductive PodWait where
  | entry (index : Nat)
  | stream (stream : Nat)
  | piece (core request piece : Nat)
  | element (core chain element : Nat)
  deriving DecidableEq, Repr

/-- What a flit carries (R51): a response for a thread's return buffer, or for an element of a stream of its, or bytes of which the spec names
no more than that they are for some unit. -/
inductive FlitBody where
  | answer (thread : ThreadId) (entry : Nat) (remote : Remote)
  | element (thread : ThreadId) (stream : Nat) (remote : Remote)
  | raw (bytes : List Byte)
  deriving DecidableEq, Repr

/-- A unit that stops at its own boundary in a consistent cut (R122). -/
inductive CutUnit where
  | queues | transport
  | thread (t : ThreadId)
  | headgate (core : Nat) | flume (core : Nat) | matrix (core : Nat)
  deriving DecidableEq, Repr

/-- Why a piece or element of an engine fails (R175, R179). -/
inductive PieceFault where
  | denied | permission | poison | network
  deriving DecidableEq, Repr

/-- What a signalled write or a plain store, load or atomic carries over Ethernet (R46, R71). -/
inductive PacketKind where
  | write (data : List Byte) (signalled : Bool) (ctr : Option Nat)
  | read (size : Nat)
  | atomic (op : Nat) (wide : Bool) (value compare : Nat)
  deriving DecidableEq, Repr

/-- An Ethernet packet as it reaches the target (R46, R48). `release` says that it belongs to a release, and which writes to the target's
memory happen before that, as its source knows them, by their numbers in the target's history (R193, R194). `port` is the Ethernet port that it
arrives on (R51). -/
structure Packet where
  source  : Nat
  psn     : Word
  job     : Nat
  region  : Nat
  offset  : Nat
  key     : Word
  msg     : Nat
  msgOff  : Nat
  msgLen  : Nat
  trimmed : Bool
  kind    : PacketKind
  release : Option (List Nat) := none
  port    : Nat := 0
  deriving DecidableEq, Repr

/-- What a UALink request asks of the target (R41, R71, R314). -/
inductive PodKind where
  | write (data : List Byte)
  | read (size : Nat)
  | atomic (op : Nat) (wide : Bool) (value compare : Nat) (ret : Bool)
  | count (ctr bytes : Nat)
  | flush (bulk : Bool)
  deriving DecidableEq, Repr

/-- A UALink request as it reaches the target (R41, R65); `bulk` is its class (R36), `release` as in a packet. -/
structure PodRequest where
  member : Nat
  port   : Nat
  region : Nat
  offset : Nat
  key    : Word
  signalled : Bool
  kind   : PodKind
  bulk   : Bool := false
  release : Option (List Nat) := none
  deriving DecidableEq, Repr

/-- A reduction packet (R52, R73). `port` is the fabric port that it arrives on, in the numbering of R38. -/
structure ReductionPacket where
  source : Nat
  psn    : Word
  job    : Nat
  key    : Word
  gid    : Nat
  gen    : Byte
  home   : Nat
  op     : Nat
  first  : Nat
  last   : Nat
  elem   : Nat
  data   : List Word
  port   : Nat := 18
  deriving DecidableEq, Repr

/-- A host AtomicOp (R39, R207). -/
inductive HostAtomic where
  | fetchAdd | swap | cas
  deriving DecidableEq, Repr

/-- The group and lane that a debugger operation addresses (R224), and the master that wrote dbgcmd. -/
structure DebugTarget where
  master : Nat
  core   : Nat
  team   : Nat
  grp    : Nat
  lane   : Nat
  dflt   : Bool
  deriving DecidableEq, Repr


/-- Every row of spec/opcode_table.json: 260 instruction words, whose arguments are the row's fields, and 118
operations and events of the device, whose arguments are what the outside (or the device's own timing) supplies. -/
inductive Instr where
  /-- R269 -/ | add (w : BitVec 1) (d : BitVec 7) (a : BitVec 7) (b : BitVec 7)
  /-- R269 -/ | sub (w : BitVec 1) (d : BitVec 7) (a : BitVec 7) (b : BitVec 7)
  /-- R269 -/ | mul (w : BitVec 1) (d : BitVec 7) (a : BitVec 7) (b : BitVec 7)
  /-- R269 -/ | mulhI (w : BitVec 1) (d : BitVec 7) (a : BitVec 7) (b : BitVec 7)
  /-- R269 -/ | mulhN (w : BitVec 1) (d : BitVec 7) (a : BitVec 7) (b : BitVec 7)
  /-- R269 -/ | minI (w : BitVec 1) (d : BitVec 7) (a : BitVec 7) (b : BitVec 7)
  /-- R269 -/ | maxI (w : BitVec 1) (d : BitVec 7) (a : BitVec 7) (b : BitVec 7)
  /-- R269 -/ | minN (w : BitVec 1) (d : BitVec 7) (a : BitVec 7) (b : BitVec 7)
  /-- R269 -/ | maxN (w : BitVec 1) (d : BitVec 7) (a : BitVec 7) (b : BitVec 7)
  /-- R269 -/ | and (w : BitVec 1) (d : BitVec 7) (a : BitVec 7) (b : BitVec 7)
  /-- R269 -/ | or (w : BitVec 1) (d : BitVec 7) (a : BitVec 7) (b : BitVec 7)
  /-- R269 -/ | xor (w : BitVec 1) (d : BitVec 7) (a : BitVec 7) (b : BitVec 7)
  /-- R269 -/ | andn (w : BitVec 1) (d : BitVec 7) (a : BitVec 7) (b : BitVec 7)
  /-- R269 -/ | shl (w : BitVec 1) (d : BitVec 7) (a : BitVec 7) (b : BitVec 7)
  /-- R269 -/ | shr (w : BitVec 1) (d : BitVec 7) (a : BitVec 7) (b : BitVec 7)
  /-- R269 -/ | sar (w : BitVec 1) (d : BitVec 7) (a : BitVec 7) (b : BitVec 7)
  /-- R270 -/ | rot (w : BitVec 1) (d : BitVec 7) (a : BitVec 7) (b : BitVec 7)
  /-- R270 -/ | mad (w : BitVec 1) (d : BitVec 7) (a : BitVec 7) (b : BitVec 7)
  /-- R270 -/ | clz (w : BitVec 1) (d : BitVec 7) (a : BitVec 7)
  /-- R270 -/ | ctz (w : BitVec 1) (d : BitVec 7) (a : BitVec 7)
  /-- R270 -/ | popc (w : BitVec 1) (d : BitVec 7) (a : BitVec 7)
  /-- R270 -/ | brev (w : BitVec 1) (d : BitVec 7) (a : BitVec 7)
  /-- R271 -/ | bfxI (w : BitVec 1) (d : BitVec 7) (a : BitVec 7) (b : BitVec 7)
  /-- R271 -/ | bfxN (w : BitVec 1) (d : BitVec 7) (a : BitVec 7) (b : BitVec 7)
  /-- R271 -/ | bfi (w : BitVec 1) (d : BitVec 7) (a : BitVec 7) (b : BitVec 7)
  /-- R270 -/ | absd (w : BitVec 1) (d : BitVec 7) (a : BitVec 7) (b : BitVec 7)
  /-- R270 -/ | sext8 (w : BitVec 1) (d : BitVec 7) (a : BitVec 7)
  /-- R270 -/ | sext16 (w : BitVec 1) (d : BitVec 7) (a : BitVec 7)
  /-- R270 -/ | zext8 (w : BitVec 1) (d : BitVec 7) (a : BitVec 7)
  /-- R270 -/ | zext16 (w : BitVec 1) (d : BitVec 7) (a : BitVec 7)
  /-- R270 -/ | mulwI (w : BitVec 1) (d : BitVec 7) (a : BitVec 7) (b : BitVec 7)
  /-- R270 -/ | mulwN (w : BitVec 1) (d : BitVec 7) (a : BitVec 7) (b : BitVec 7)
  /-- R272 -/ | cmp (w : BitVec 1) (k : BitVec 4) (c : BitVec 3) (a : BitVec 7) (b : BitVec 7)
  /-- R273 -/ | sel (w : BitVec 1) (s : BitVec 1) (c : BitVec 3) (d : BitVec 7) (a : BitVec 7) (b : BitVec 7)
  /-- R274 -/ | addi (w : BitVec 1) (d : BitVec 7) (a : BitVec 7) (i : BitVec 11)
  /-- R274 -/ | andi (w : BitVec 1) (d : BitVec 7) (a : BitVec 7) (i : BitVec 11)
  /-- R274 -/ | ori (w : BitVec 1) (d : BitVec 7) (a : BitVec 7) (i : BitVec 11)
  /-- R274 -/ | xori (w : BitVec 1) (d : BitVec 7) (a : BitVec 7) (i : BitVec 11)
  /-- R274 -/ | shli (w : BitVec 1) (d : BitVec 7) (a : BitVec 7) (n : BitVec 9)
  /-- R274 -/ | shri (w : BitVec 1) (d : BitVec 7) (a : BitVec 7) (n : BitVec 9)
  /-- R274 -/ | sari (w : BitVec 1) (d : BitVec 7) (a : BitVec 7) (n : BitVec 9)
  /-- R274 -/ | roti (w : BitVec 1) (d : BitVec 7) (a : BitVec 7) (n : BitVec 9)
  /-- R272 -/ | cmpi (w : BitVec 1) (k : BitVec 4) (c : BitVec 3) (a : BitVec 7) (i : BitVec 11)
  /-- R274 -/ | muli (w : BitVec 1) (d : BitVec 7) (a : BitVec 7) (i : BitVec 11)
  /-- R275 -/ | padd8 (w : BitVec 1) (d : BitVec 7) (a : BitVec 7) (b : BitVec 7)
  /-- R275 -/ | psub8 (w : BitVec 1) (d : BitVec 7) (a : BitVec 7) (b : BitVec 7)
  /-- R275 -/ | paddsI8 (w : BitVec 1) (d : BitVec 7) (a : BitVec 7) (b : BitVec 7)
  /-- R275 -/ | paddsN8 (w : BitVec 1) (d : BitVec 7) (a : BitVec 7) (b : BitVec 7)
  /-- R275 -/ | psubsI8 (w : BitVec 1) (d : BitVec 7) (a : BitVec 7) (b : BitVec 7)
  /-- R275 -/ | psubsN8 (w : BitVec 1) (d : BitVec 7) (a : BitVec 7) (b : BitVec 7)
  /-- R275 -/ | pminI8 (w : BitVec 1) (d : BitVec 7) (a : BitVec 7) (b : BitVec 7)
  /-- R275 -/ | pmaxI8 (w : BitVec 1) (d : BitVec 7) (a : BitVec 7) (b : BitVec 7)
  /-- R275 -/ | pminN8 (w : BitVec 1) (d : BitVec 7) (a : BitVec 7) (b : BitVec 7)
  /-- R275 -/ | pmaxN8 (w : BitVec 1) (d : BitVec 7) (a : BitVec 7) (b : BitVec 7)
  /-- R275 -/ | pabsd8 (w : BitVec 1) (d : BitVec 7) (a : BitVec 7) (b : BitVec 7)
  /-- R275 -/ | pshl8 (w : BitVec 1) (d : BitVec 7) (a : BitVec 7) (b : BitVec 7)
  /-- R275 -/ | pshr8 (w : BitVec 1) (d : BitVec 7) (a : BitVec 7) (b : BitVec 7)
  /-- R275 -/ | psar8 (w : BitVec 1) (d : BitVec 7) (a : BitVec 7) (b : BitVec 7)
  /-- R275 -/ | pavgN8 (w : BitVec 1) (d : BitVec 7) (a : BitVec 7) (b : BitVec 7)
  /-- R276 -/ | pdot8 (w : BitVec 1) (d : BitVec 7) (a : BitVec 7) (b : BitVec 7)
  /-- R275 -/ | padd16 (w : BitVec 1) (d : BitVec 7) (a : BitVec 7) (b : BitVec 7)
  /-- R275 -/ | psub16 (w : BitVec 1) (d : BitVec 7) (a : BitVec 7) (b : BitVec 7)
  /-- R275 -/ | paddsI16 (w : BitVec 1) (d : BitVec 7) (a : BitVec 7) (b : BitVec 7)
  /-- R275 -/ | paddsN16 (w : BitVec 1) (d : BitVec 7) (a : BitVec 7) (b : BitVec 7)
  /-- R275 -/ | psubsI16 (w : BitVec 1) (d : BitVec 7) (a : BitVec 7) (b : BitVec 7)
  /-- R275 -/ | psubsN16 (w : BitVec 1) (d : BitVec 7) (a : BitVec 7) (b : BitVec 7)
  /-- R275 -/ | pminI16 (w : BitVec 1) (d : BitVec 7) (a : BitVec 7) (b : BitVec 7)
  /-- R275 -/ | pmaxI16 (w : BitVec 1) (d : BitVec 7) (a : BitVec 7) (b : BitVec 7)
  /-- R275 -/ | pminN16 (w : BitVec 1) (d : BitVec 7) (a : BitVec 7) (b : BitVec 7)
  /-- R275 -/ | pmaxN16 (w : BitVec 1) (d : BitVec 7) (a : BitVec 7) (b : BitVec 7)
  /-- R275 -/ | pabsd16 (w : BitVec 1) (d : BitVec 7) (a : BitVec 7) (b : BitVec 7)
  /-- R275 -/ | pshl16 (w : BitVec 1) (d : BitVec 7) (a : BitVec 7) (b : BitVec 7)
  /-- R275 -/ | pshr16 (w : BitVec 1) (d : BitVec 7) (a : BitVec 7) (b : BitVec 7)
  /-- R275 -/ | psar16 (w : BitVec 1) (d : BitVec 7) (a : BitVec 7) (b : BitVec 7)
  /-- R275 -/ | pavgN16 (w : BitVec 1) (d : BitVec 7) (a : BitVec 7) (b : BitVec 7)
  /-- R276 -/ | pdot16 (w : BitVec 1) (d : BitVec 7) (a : BitVec 7) (b : BitVec 7)
  /-- R277 -/ | addD (w : BitVec 1) (d : BitVec 7) (a : BitVec 7) (b : BitVec 7)
  /-- R277 -/ | subD (w : BitVec 1) (d : BitVec 7) (a : BitVec 7) (b : BitVec 7)
  /-- R277 -/ | shlD (w : BitVec 1) (d : BitVec 7) (a : BitVec 7) (b : BitVec 7)
  /-- R277 -/ | shrD (w : BitVec 1) (d : BitVec 7) (a : BitVec 7) (b : BitVec 7)
  /-- R277 -/ | sarD (w : BitVec 1) (d : BitVec 7) (a : BitVec 7) (b : BitVec 7)
  /-- R277 -/ | addxI (w : BitVec 1) (d : BitVec 7) (a : BitVec 7) (b : BitVec 7)
  /-- R277 -/ | addxN (w : BitVec 1) (d : BitVec 7) (a : BitVec 7) (b : BitVec 7)
  /-- R277 -/ | andD (w : BitVec 1) (d : BitVec 7) (a : BitVec 7) (b : BitVec 7)
  /-- R277 -/ | orD (w : BitVec 1) (d : BitVec 7) (a : BitVec 7) (b : BitVec 7)
  /-- R277 -/ | xorD (w : BitVec 1) (d : BitVec 7) (a : BitVec 7) (b : BitVec 7)
  /-- R278 -/ | fadd (w : BitVec 1) (d : BitVec 7) (a : BitVec 7) (b : BitVec 7)
  /-- R278 -/ | fsub (w : BitVec 1) (d : BitVec 7) (a : BitVec 7) (b : BitVec 7)
  /-- R278 -/ | fmul (w : BitVec 1) (d : BitVec 7) (a : BitVec 7) (b : BitVec 7)
  /-- R278 -/ | ffma (w : BitVec 1) (d : BitVec 7) (a : BitVec 7) (b : BitVec 7)
  /-- R278 -/ | fnma (w : BitVec 1) (d : BitVec 7) (a : BitVec 7) (b : BitVec 7)
  /-- R279 -/ | fmin (w : BitVec 1) (d : BitVec 7) (a : BitVec 7) (b : BitVec 7)
  /-- R279 -/ | fmax (w : BitVec 1) (d : BitVec 7) (a : BitVec 7) (b : BitVec 7)
  /-- R279 -/ | fabs (w : BitVec 1) (d : BitVec 7) (a : BitVec 7)
  /-- R279 -/ | fneg (w : BitVec 1) (d : BitVec 7) (a : BitVec 7)
  /-- R279 -/ | fsgnj (w : BitVec 1) (d : BitVec 7) (a : BitVec 7) (b : BitVec 7)
  /-- R278 -/ | faddF64 (w : BitVec 1) (d : BitVec 7) (a : BitVec 7) (b : BitVec 7)
  /-- R278 -/ | fsubF64 (w : BitVec 1) (d : BitVec 7) (a : BitVec 7) (b : BitVec 7)
  /-- R278 -/ | fmulF64 (w : BitVec 1) (d : BitVec 7) (a : BitVec 7) (b : BitVec 7)
  /-- R278 -/ | ffmaF64 (w : BitVec 1) (d : BitVec 7) (a : BitVec 7) (b : BitVec 7)
  /-- R278 -/ | fnmaF64 (w : BitVec 1) (d : BitVec 7) (a : BitVec 7) (b : BitVec 7)
  /-- R279 -/ | fminF64 (w : BitVec 1) (d : BitVec 7) (a : BitVec 7) (b : BitVec 7)
  /-- R279 -/ | fmaxF64 (w : BitVec 1) (d : BitVec 7) (a : BitVec 7) (b : BitVec 7)
  /-- R279 -/ | fabsF64 (w : BitVec 1) (d : BitVec 7) (a : BitVec 7)
  /-- R279 -/ | fnegF64 (w : BitVec 1) (d : BitVec 7) (a : BitVec 7)
  /-- R279 -/ | fsgnjF64 (w : BitVec 1) (d : BitVec 7) (a : BitVec 7) (b : BitVec 7)
  /-- R280 -/ | faddPk (w : BitVec 1) (t : BitVec 1) (d : BitVec 7) (a : BitVec 7) (b : BitVec 7)
  /-- R280 -/ | fsubPk (w : BitVec 1) (t : BitVec 1) (d : BitVec 7) (a : BitVec 7) (b : BitVec 7)
  /-- R280 -/ | fmulPk (w : BitVec 1) (t : BitVec 1) (d : BitVec 7) (a : BitVec 7) (b : BitVec 7)
  /-- R280 -/ | ffmaPk (w : BitVec 1) (t : BitVec 1) (d : BitVec 7) (a : BitVec 7) (b : BitVec 7)
  /-- R280 -/ | fnmaPk (w : BitVec 1) (t : BitVec 1) (d : BitVec 7) (a : BitVec 7) (b : BitVec 7)
  /-- R280 -/ | fminPk (w : BitVec 1) (t : BitVec 1) (d : BitVec 7) (a : BitVec 7) (b : BitVec 7)
  /-- R280 -/ | fmaxPk (w : BitVec 1) (t : BitVec 1) (d : BitVec 7) (a : BitVec 7) (b : BitVec 7)
  /-- R280 -/ | fnegPk (w : BitVec 1) (t : BitVec 1) (d : BitVec 7) (a : BitVec 7)
  /-- R281 -/ | frcp (w : BitVec 1) (d : BitVec 7) (a : BitVec 7)
  /-- R281 -/ | frsq (w : BitVec 1) (d : BitVec 7) (a : BitVec 7)
  /-- R281 -/ | fsqrt (w : BitVec 1) (d : BitVec 7) (a : BitVec 7)
  /-- R281 -/ | fexp2 (w : BitVec 1) (d : BitVec 7) (a : BitVec 7)
  /-- R281 -/ | flog2 (w : BitVec 1) (d : BitVec 7) (a : BitVec 7)
  /-- R281 -/ | fsin (w : BitVec 1) (d : BitVec 7) (a : BitVec 7)
  /-- R281 -/ | fcos (w : BitVec 1) (d : BitVec 7) (a : BitVec 7)
  /-- R281 -/ | ftanh (w : BitVec 1) (d : BitVec 7) (a : BitVec 7)
  /-- R281 -/ | fclass (w : BitVec 1) (d : BitVec 7) (a : BitVec 7)
  /-- R282 -/ | fcmp (w : BitVec 1) (k : BitVec 3) (c : BitVec 3) (a : BitVec 7) (b : BitVec 7)
  /-- R282 -/ | fcmpF64 (w : BitVec 1) (k : BitVec 3) (c : BitVec 3) (a : BitVec 7) (b : BitVec 7)
  /-- R283 -/ | cvtF32I32 (w : BitVec 1) (d : BitVec 7) (a : BitVec 7)
  /-- R283 -/ | cvtF32N32 (w : BitVec 1) (d : BitVec 7) (a : BitVec 7)
  /-- R283 -/ | cvtI32F32 (w : BitVec 1) (d : BitVec 7) (a : BitVec 7)
  /-- R283 -/ | cvtN32F32 (w : BitVec 1) (d : BitVec 7) (a : BitVec 7)
  /-- R283 -/ | cvtF64F32 (w : BitVec 1) (d : BitVec 7) (a : BitVec 7)
  /-- R283 -/ | cvtF32F64 (w : BitVec 1) (d : BitVec 7) (a : BitVec 7)
  /-- R283 -/ | cvtF64I32 (w : BitVec 1) (d : BitVec 7) (a : BitVec 7)
  /-- R283 -/ | cvtF64N32 (w : BitVec 1) (d : BitVec 7) (a : BitVec 7)
  /-- R283 -/ | cvtI32F64 (w : BitVec 1) (d : BitVec 7) (a : BitVec 7)
  /-- R283 -/ | cvtN32F64 (w : BitVec 1) (d : BitVec 7) (a : BitVec 7)
  /-- R283 -/ | cvtF32Bf16 (w : BitVec 1) (d : BitVec 7) (a : BitVec 7)
  /-- R283 -/ | cvtF32F16 (w : BitVec 1) (d : BitVec 7) (a : BitVec 7)
  /-- R283 -/ | cvtBf16F32 (w : BitVec 1) (d : BitVec 7) (a : BitVec 7)
  /-- R283 -/ | cvtF16F32 (w : BitVec 1) (d : BitVec 7) (a : BitVec 7)
  /-- R285 -/ | cvtdn (w : BitVec 1) (o : BitVec 2) (r : BitVec 2) (d : BitVec 7) (a : BitVec 7) (f : BitVec 3) (j : BitVec 4)
  /-- R286 -/ | cvtup (w : BitVec 1) (d : BitVec 7) (a : BitVec 7) (f : BitVec 3) (j : BitVec 4)
  /-- R287 -/ | mov (w : BitVec 1) (d : BitVec 7) (a : BitVec 7)
  /-- R288 -/ | movcRead (w : BitVec 1) (d : BitVec 7)
  /-- R288 -/ | movcWrite (w : BitVec 1) (a : BitVec 7)
  /-- R289 -/ | xget (w : BitVec 1) (d : BitVec 7) (x : BitVec 3)
  /-- R289 -/ | xset (w : BitVec 1) (x : BitVec 3) (b : BitVec 7)
  /-- R289 -/ | xadj (w : BitVec 1) (x : BitVec 3) (b : BitVec 7)
  /-- R290 -/ | fget (w : BitVec 1) (d : BitVec 7) (f : BitVec 3)
  /-- R290 -/ | fset (w : BitVec 1) (f : BitVec 3) (b : BitVec 7)
  /-- R291 -/ | mget (w : BitVec 1) (d : BitVec 7) (g : BitVec 3)
  /-- R291 -/ | mset (w : BitVec 1) (g : BitVec 3) (b : BitVec 7)
  /-- R287 -/ | movi (w : BitVec 1) (d : BitVec 7) (i : BitVec 18)
  /-- R293 -/ | csrr (w : BitVec 1) (d : BitVec 7) (n : BitVec 10)
  /-- R293 -/ | csrw (w : BitVec 1) (a : BitVec 7) (n : BitVec 10)
  /-- R294 -/ | sdef (w : BitVec 1) (q : BitVec 2) (a : BitVec 7)
  /-- R296 -/ | sstop (w : BitVec 1) (q : BitVec 2)
  /-- R298 -/ | br (w : BitVec 1) (s : BitVec 1) (c : BitVec 3) (f : BitVec 21)
  /-- R298 -/ | jmp (w : BitVec 1) (f : BitVec 17)
  /-- R298 -/ | call (w : BitVec 1) (d : BitVec 7) (f : BitVec 17)
  /-- R298 -/ | brx (w : BitVec 1) (a : BitVec 7)
  /-- R298 -/ | callx (w : BitVec 1) (d : BitVec 7) (a : BitVec 7)
  /-- R298 -/ | ret (w : BitVec 1) (a : BitVec 7)
  /-- R299 -/ | nop (w : BitVec 1)
  /-- R132 -/ | exit (w : BitVec 1)
  /-- R299 -/ | yield (w : BitVec 1)
  /-- R299 -/ | park (w : BitVec 1) (n : BitVec 16)
  /-- R223 -/ | brk (w : BitVec 1) (n : BitVec 20)
  /-- R297 -/ | bstr (w : BitVec 1) (q : BitVec 2) (k : BitVec 2) (s : BitVec 1) (f : BitVec 15)
  /-- R312 -/ | ldLn (w : BitVec 1) (o : BitVec 3) (d : BitVec 7) (a : BitVec 7) (f : BitVec 8)
  /-- R312 -/ | stLn (w : BitVec 1) (o : BitVec 3) (d : BitVec 7) (a : BitVec 7) (f : BitVec 8)
  /-- R312 -/ | ldCo (w : BitVec 1) (o : BitVec 3) (d : BitVec 7) (a : BitVec 7) (f : BitVec 8)
  /-- R312 -/ | stCo (w : BitVec 1) (o : BitVec 3) (d : BitVec 7) (a : BitVec 7) (f : BitVec 8)
  /-- R312 -/ | ldCl (w : BitVec 1) (o : BitVec 3) (d : BitVec 7) (a : BitVec 7) (f : BitVec 8)
  /-- R312 -/ | stCl (w : BitVec 1) (o : BitVec 3) (d : BitVec 7) (a : BitVec 7) (f : BitVec 8)
  /-- R312 -/ | ldCh (w : BitVec 1) (o : BitVec 3) (d : BitVec 7) (a : BitVec 7) (f : BitVec 8)
  /-- R312 -/ | stCh (w : BitVec 1) (o : BitVec 3) (d : BitVec 7) (a : BitVec 7) (f : BitVec 8)
  /-- R312 -/ | ldGl (w : BitVec 1) (o : BitVec 3) (d : BitVec 7) (a : BitVec 7) (f : BitVec 8)
  /-- R312 -/ | stGl (w : BitVec 1) (o : BitVec 3) (d : BitVec 7) (a : BitVec 7) (f : BitVec 8)
  /-- R316 -/ | atomAdd (w : BitVec 1) (s : BitVec 3) (z : BitVec 1) (r : BitVec 1) (d : BitVec 7) (a : BitVec 7)
  /-- R316 -/ | atomAnd (w : BitVec 1) (s : BitVec 3) (z : BitVec 1) (r : BitVec 1) (d : BitVec 7) (a : BitVec 7)
  /-- R316 -/ | atomOr (w : BitVec 1) (s : BitVec 3) (z : BitVec 1) (r : BitVec 1) (d : BitVec 7) (a : BitVec 7)
  /-- R316 -/ | atomXor (w : BitVec 1) (s : BitVec 3) (z : BitVec 1) (r : BitVec 1) (d : BitVec 7) (a : BitVec 7)
  /-- R316 -/ | atomMinI (w : BitVec 1) (s : BitVec 3) (z : BitVec 1) (r : BitVec 1) (d : BitVec 7) (a : BitVec 7)
  /-- R316 -/ | atomMaxI (w : BitVec 1) (s : BitVec 3) (z : BitVec 1) (r : BitVec 1) (d : BitVec 7) (a : BitVec 7)
  /-- R316 -/ | atomMinN (w : BitVec 1) (s : BitVec 3) (z : BitVec 1) (r : BitVec 1) (d : BitVec 7) (a : BitVec 7)
  /-- R316 -/ | atomMaxN (w : BitVec 1) (s : BitVec 3) (z : BitVec 1) (r : BitVec 1) (d : BitVec 7) (a : BitVec 7)
  /-- R316 -/ | atomSwap (w : BitVec 1) (s : BitVec 3) (z : BitVec 1) (r : BitVec 1) (d : BitVec 7) (a : BitVec 7)
  /-- R316 -/ | atomCas (w : BitVec 1) (s : BitVec 3) (z : BitVec 1) (r : BitVec 1) (d : BitVec 7) (a : BitVec 7)
  /-- R316 -/ | atomFadd (w : BitVec 1) (s : BitVec 3) (z : BitVec 1) (r : BitVec 1) (d : BitVec 7) (a : BitVec 7)
  /-- R320 -/ | fence (w : BitVec 1)
  /-- R321 -/ | drainNt (w : BitVec 1)
  /-- R322 -/ | pflush (w : BitVec 1) (a : BitVec 7)
  /-- R323 -/ | cwait (w : BitVec 1) (c : BitVec 7) (n : BitVec 7)
  /-- R323 -/ | cadd (w : BitVec 1) (c : BitVec 7) (n : BitVec 7)
  /-- R323 -/ | cpoll (w : BitVec 1) (d : BitVec 7) (c : BitVec 7)
  /-- R324 -/ | wsig (w : BitVec 1) (a : BitVec 7)
  /-- R325 -/ | wred (w : BitVec 1) (a : BitVec 7)
  /-- R301 -/ | pickK (w : BitVec 1) (m : BitVec 3) (d : BitVec 7) (a : BitVec 7) (n : BitVec 4)
  /-- R301 -/ | pickR (w : BitVec 1) (m : BitVec 3) (d : BitVec 7) (a : BitVec 7) (k : BitVec 4)
  /-- R301 -/ | pickXor (w : BitVec 1) (m : BitVec 3) (d : BitVec 7) (a : BitVec 7) (n : BitVec 4)
  /-- R301 -/ | pickAdd (w : BitVec 1) (m : BitVec 3) (d : BitVec 7) (a : BitVec 7) (n : BitVec 4)
  /-- R301 -/ | pickSub (w : BitVec 1) (m : BitVec 3) (d : BitVec 7) (a : BitVec 7) (n : BitVec 4)
  /-- R301 -/ | census (w : BitVec 1) (m : BitVec 3) (r : BitVec 3) (p : BitVec 4)
  /-- R301 -/ | kin (w : BitVec 1) (m : BitVec 3) (r : BitVec 3) (a : BitVec 7) (z : BitVec 1)
  /-- R301 -/ | agreeAll (w : BitVec 1) (m : BitVec 3) (x : BitVec 1) (r : BitVec 3) (c : BitVec 3) (p : BitVec 4)
  /-- R301 -/ | agreeAny (w : BitVec 1) (m : BitVec 3) (x : BitVec 1) (r : BitVec 3) (c : BitVec 3) (p : BitVec 4)
  /-- R301 -/ | agreeSame (w : BitVec 1) (m : BitVec 3) (x : BitVec 1) (r : BitVec 3) (c : BitVec 3) (p : BitVec 4)
  /-- R242 -/ | combAdd (w : BitVec 1) (m : BitVec 3) (d : BitVec 7) (a : BitVec 7) (t : BitVec 2)
  /-- R301 -/ | combMin (w : BitVec 1) (m : BitVec 3) (d : BitVec 7) (a : BitVec 7) (t : BitVec 2)
  /-- R301 -/ | combMax (w : BitVec 1) (m : BitVec 3) (d : BitVec 7) (a : BitVec 7) (t : BitVec 2)
  /-- R242 -/ | scanAdd (w : BitVec 1) (m : BitVec 3) (d : BitVec 7) (a : BitVec 7) (t : BitVec 2)
  /-- R302 -/ | fenceGrp (w : BitVec 1) (m : BitVec 3)
  /-- R303 -/ | xiss (w : BitVec 1) (a : BitVec 7)
  /-- R304 -/ | rsend (w : BitVec 1) (s : BitVec 4) (b : BitVec 7) (n : BitVec 5)
  /-- R304 -/ | rrecv (w : BitVec 1) (s : BitVec 4) (b : BitVec 7) (n : BitVec 5)
  /-- R307 -/ | bar (w : BitVec 1) (b : BitVec 4) (n : BitVec 6)
  /-- R307 -/ | barCl (w : BitVec 1) (b : BitVec 4)
  /-- R307 -/ | arrive (w : BitVec 1) (b : BitVec 4) (n : BitVec 6) (c : BitVec 1)
  /-- R308 -/ | gdef (w : BitVec 1) (g : BitVec 3) (a : BitVec 7)
  /-- R328 -/ | tdef (w : BitVec 1) (t : BitVec 8) (i : BitVec 11)
  /-- R328 -/ | tdefReg (w : BitVec 1) (t : BitVec 8) (a : BitVec 7)
  /-- R329 -/ | tfree (w : BitVec 1) (t : BitVec 8)
  /-- R329 -/ | tstate (w : BitVec 1) (t : BitVec 8) (d : BitVec 7)
  /-- R331 -/ | kick (w : BitVec 1) (a : BitVec 7) (n : BitVec 8)
  /-- R330 -/ | barm (w : BitVec 1) (a : BitVec 7) (b : BitVec 7)
  /-- R330 -/ | barmT (w : BitVec 1) (t : BitVec 8) (b : BitVec 7)
  /-- R330 -/ | bwait (w : BitVec 1) (a : BitVec 7) (b : BitVec 7)
  /-- R330 -/ | bwaitT (w : BitVec 1) (t : BitVec 8) (b : BitVec 7)
  /-- R332 -/ | task (w : BitVec 1) (a : BitVec 7)
  /-- R333 -/ | chain (w : BitVec 1) (a : BitVec 7)
  /-- R334 -/ | cres (w : BitVec 1) (k : BitVec 4) (a : BitVec 7)
  /-- R334 -/ | crel (w : BitVec 1) (k : BitVec 4)
  /-- R338 -/ | mldb (w : BitVec 1) (g : BitVec 3) (o : BitVec 7)
  /-- R336 -/ | mma (w : BitVec 1) (g : BitVec 3) (s : BitVec 7) (o : BitVec 7) (l : BitVec 2) (u : BitVec 1)
  /-- R336 -/ | mmap (w : BitVec 1) (g : BitVec 3) (s : BitVec 7) (o : BitVec 7) (l : BitVec 2) (u : BitVec 1)
  /-- R338 -/ | mzero (w : BitVec 1) (g : BitVec 3) (c : BitVec 4)
  /-- R338 -/ | mst (w : BitVec 1) (g : BitVec 3) (o : BitVec 7)
  /-- R339 -/ | mrd (w : BitVec 1) (c : BitVec 4) (d : BitVec 7) (a : BitVec 7)
  /-- R342 -/ | ssx (w : BitVec 1) (g : BitVec 3) (a : BitVec 7)
  /-- R346 -/ | ssq (w : BitVec 1) (d : BitVec 7) (a : BitVec 7) (x : BitVec 1)
  /-- R347 -/ | rhset (w : BitVec 1) (d : BitVec 7) (a : BitVec 7)
  /-- R347 -/ | rhpri (w : BitVec 1) (a : BitVec 7) (b : BitVec 7)
  /-- R347 -/ | rhdem (w : BitVec 1) (a : BitVec 7)
  /-- R347 -/ | pref (w : BitVec 1) (a : BitVec 7) (b : BitVec 7)
  /-- R348 -/ | svc (w : BitVec 1) (a : BitVec 7) (n : BitVec 13)
  /-- R349 -/ | trap (w : BitVec 1) (c : BitVec 8) (a : BitVec 7)
  /-- R216 -/ | tret (w : BitVec 1)
  /-- R350 -/ | spawn (w : BitVec 1) (d : BitVec 7) (a : BitVec 7)
  /-- R351 -/ | cacheopClean (w : BitVec 1) (a : BitVec 7) (b : BitVec 7)
  /-- R351 -/ | cacheopEv1 (w : BitVec 1) (a : BitVec 7) (b : BitVec 7)
  /-- R351 -/ | cacheopEv2 (w : BitVec 1) (a : BitVec 7) (b : BitVec 7)
  /-- R351 -/ | cacheopPod (w : BitVec 1) (a : BitVec 7) (b : BitVec 7)
  /-- R352 -/ | tlbinv (w : BitVec 1) (a : BitVec 7) (b : BitVec 7)
  /-- R353 -/ | wfe (w : BitVec 1) (a : BitVec 7)
  /-- R252 -/ | hintImm (i : BitVec 22)
  /-- R251 -/ | hintOpi (i : BitVec 22)
  /-- R251 -/ | hintScope (s : BitVec 3)
  /-- R251 -/ | hintRnd (o : BitVec 2) (p : BitVec 1) (r : BitVec 3)
  /-- R251 -/ | hintCache (z : BitVec 3) (b : BitVec 2) (a : BitVec 2)
  /-- R253 -/ | hintAdd (e : BitVec 7)
  /-- R31 -/ | fundamentalReset
  /-- R31 -/ | bootStageAdvance (trainFail : Option Byte)
  /-- R31 -/ | hostLinkUp
  /-- R5 -/ | powerRemoval
  /-- R28 -/ | thermalShutdown
  /-- R34 -/ | spdmRequest (req : List Byte)
  /-- R29 -/ | coreFrequencyChange (core steps : Nat)
  /-- R30 -/ | l2HomeMove (handle die : Nat)
  /-- R28 -/ | powerCapWrite (master : Nat) (value : Word)
  /-- R26 -/ | patrolScrub (granule : Nat) (found : ScrubResult)
  /-- R25 -/ | tierMoveStart (what : MoveRef) (demote : Bool) (dests : List Nat)
  /-- R25 -/ | tierMoveComplete (asid page : Nat)
  /-- R384 -/ | registerWrite (master off size : Nat) (value : Dword)
  /-- R35 -/ | mailboxErase (master slot : Nat)
  /-- R35 -/ | mailboxWrite (master slot : Nat)
  /-- R35 -/ | mailboxVerify (master slot : Nat)
  /-- R35 -/ | mailboxRestart (master : Nat)
  /-- R35 -/ | mailboxCommandDone (flashError : Bool)
  /-- R38 -/ | portEnable (master port : Nat) (value : Word)
  /-- R38 -/ | portDisable (master port : Nat) (value : Word)
  /-- R38 -/ | portTrainingDone (port : Nat) (up : Bool)
  /-- R38 -/ | portLinkLoss (port : Nat)
  /-- R83 -/ | claim (master reg : Nat) (id : BitVec 3) (seq : Word)
  /-- R83 -/ | requestHandover (master reg : Nat) (id : BitVec 3) (seq : Word)
  /-- R83 -/ | acceptHandover (master reg : Nat) (id : BitVec 3) (seq : Word)
  /-- R83 -/ | release (master reg : Nat) (id : BitVec 3) (seq : Word)
  /-- R83 -/ | masterLinkDown (master : Nat)
  /-- R76 -/ | jobEnable (master : Nat)
  /-- R56 -/ | jobDisable (master : Nat)
  /-- R62 -/ | jinval (master : Nat)
  /-- R62 -/ | jinvalComplete
  /-- R84 -/ | queueEnable (master queue : Nat) (value : Word)
  /-- R84 -/ | queueDisable (master queue : Nat) (value : Word)
  /-- R85 -/ | commandDoorbell (queue : Nat) (tail : Word)
  /-- R85 -/ | completionDoorbell (queue : Nat) (head : Word)
  /-- R92 -/ | spawnWindowStore (queue : Nat) (whole : Bool) (record : List Byte)
  /-- R91 -/ | queueReset (master queue : Nat)
  /-- R91 -/ | queueAdopt (master queue : Nat) (gen : Word)
  /-- R91 -/ | endReattach (master : Nat)
  /-- R87 -/ | commandFetch (queue : Nat)
  /-- R100 -/ | launch (queue : Nat) (seq : Word)
  /-- R86 -/ | wait (queue : Nat) (seq : Word)
  /-- R86 -/ | waitComplete (queue : Nat) (seq : Word)
  /-- R86 -/ | signal (queue : Nat) (seq : Word)
  /-- R86 -/ | copy (queue : Nat) (seq : Word)
  /-- R86 -/ | copyComplete (queue : Nat) (seq : Word) (failed : Bool) (written : List Nat)
  /-- R86 -/ | nopCommand (queue : Nat) (seq : Word)
  /-- R86 -/ | hostPortTimeout (request : HostRequest)
  /-- R87 -/ | launchComplete (queue : Nat) (seq : Word)
  /-- R88 -/ | completionWrite (queue : Nat)
  /-- R102 -/ | pmapWrite (master : Nat) (value : Dword)
  /-- R106 -/ | dispatchDecision
  /-- R117 -/ | teamFlush (team : TeamId)
  /-- R118 -/ | teamSave (team : TeamId)
  /-- R116 -/ | drainTimeout (team : TeamId)
  /-- R109 -/ | parkSwap (core : Nat)
  /-- R109 -/ | issueSwap (core : Nat)
  /-- R122 -/ | cutStop (master : Nat)
  /-- R121 -/ | cutStopSave (master : Nat)
  /-- R123 -/ | cutResume (master : Nat)
  /-- R122 -/ | unitStop (unit : CutUnit)
  /-- R51 -/ | stoppedUnitFlit (rx cls : Nat) (payload : FlitBody)
  /-- R111 -/ | serviceBatchTimeout (group : GroupId) (kind : Nat)
  /-- R111 -/ | serviceBatchPost (index : Nat)
  /-- R113 -/ | serviceAnswer (die slot : Nat)
  /-- R187 -/ | translationWalk (die asid : Nat) (walked : WalkedPage)
  /-- R147 -/ | accessReturn (thread : ThreadId) (which : AccessRef) (remote : Remote) (choice : ReturnChoice)
  /-- R148 -/ | markerCommit (thread : ThreadId)
  /-- R218 -/ | asyncErrorArrival (thread : ThreadId) (cause : Byte) (tval : Dword)
  /-- R215 -/ | groupFaultStop (thread : ThreadId)
  /-- R137 -/ | pairTimeout (team : TeamId) (g : Nat)
  /-- R174 -/ | copyRequestCheck (core : Nat)
  /-- R168 -/ | copyRequestDispatch (core request : Nat)
  /-- R175 -/ | copyPieceComplete (core request piece : Nat) (fault : Option PieceFault) (remote : Remote)
  /-- R177 -/ | dataflowDispatch (core : Nat)
  /-- R179 -/ | flumeElement (core chain element : Nat) (remote : Remote)
  /-- R340 -/ | matrixOpStart (core : Nat)
  /-- R337 -/ | matrixOpComplete (core : Nat)
  /-- R342 -/ | ssxChunkComplete (core : Nat)
  /-- R345 -/ | ssxStop (core : Nat) (written : List (Nat × Byte))
  /-- R296 -/ | streamElementFetch (thread : ThreadId) (stream : Nat) (answer : ElementAnswer)
  /-- R169 -/ | tileWaitRelease (thread : ThreadId)
  /-- R323 -/ | counterWaitRelease (thread : ThreadId)
  /-- R330 -/ | bwaitRelease (thread : ThreadId)
  /-- R320 -/ | fenceComplete (thread : ThreadId)
  /-- R346 -/ | ssqWaitRelease (thread : ThreadId)
  /-- R352 -/ | tlbinvComplete (thread : ThreadId)
  /-- R299 -/ | parkExpire (thread : ThreadId)
  /-- R353 -/ | wfeTimeout (thread : ThreadId)
  /-- R47 -/ | packetSend (rank : Nat)
  /-- R49 -/ | packetArrival (packet : Packet)
  /-- R49 -/ | ackReceived (rank : Nat) (cum : Word) (bitmap : Dword) (ecn : List Nat)
  /-- R50 -/ | nackReceived (rank : Nat) (psn : Word) (code : Nat)
  /-- R50 -/ | resendRequestReceived (rank : Nat) (psn : Word)
  /-- R50 -/ | retransmissionTimeout (rank : Nat) (psn : Word)
  /-- R77 -/ | ethernetResponse (rank : Nat) (psn : Word) (data : List Byte)
  /-- R47 -/ | pathProbe (pfx : Dword) (set path : Nat) (ok : Bool)
  /-- R65 -/ | podRequestArrival (request : PodRequest)
  /-- R44 -/ | podFlushComplete (peer : Nat) (code : Nat)
  /-- R44 -/ | podRequestTimeout (thread : ThreadId) (entry : PodWait)
  /-- R74 -/ | reductionPacketArrival (packet : ReductionPacket)
  /-- R54 -/ | reductionAbort (gid : Nat)
  /-- R94 -/ | directApertureAccess (off size : Nat) (data : Option (List Byte))
  /-- R96 -/ | transformWindowEnable (master window : Nat) (value : Word)
  /-- R97 -/ | transformWindowWrite (off : Nat) (data : List Byte)
  /-- R97 -/ | transformBlockProcess (window block : Nat) (poisoned : Bool)
  /-- R207 -/ | hostAtomicop (pa width : Nat) (op : HostAtomic) (value compare : Nat)
  /-- R205 -/ | hostCoherentAccess (pa size : Nat) (access : HostAccess)
  /-- R224 -/ | debugHalt (cmd : DebugTarget)
  /-- R224 -/ | debugResume (cmd : DebugTarget)
  /-- R225 -/ | debugStep (cmd : DebugTarget)
  /-- R224 -/ | debugRead (cmd : DebugTarget) (sel : Nat)
  /-- R224 -/ | debugWrite (cmd : DebugTarget) (sel : Nat)
  /-- R224 -/ | debugCatchOn (cmd : DebugTarget)
  /-- R224 -/ | debugCatchOff (cmd : DebugTarget)
  /-- R41 -/ | linkLevelReplay (port : Nat)
  /-- R109 -/ | swapThresholdAdjust (core cycles : Nat)
  /-- R29 -/ | congestionThresholdAdjust (pfx : Dword) (set mark trim : Nat)
  deriving DecidableEq, Repr

end Sys2Proof
end

