-- ==== Sys2Proof/WellFormed.lean ====
section
/-! DEFINITION. Well-formed rows: the selector codes that R256 to R258 and R300 assign, and the ranges of what an event
row carries. A word whose row is ill-formed is no instruction (R259). -/
namespace Sys2Proof

/-- The op cells of R257 that space `space` assigns: 0 `.ln`, 1 `.co`, 2 `.cl`, 3 `.ch`, 4 `.gl`. -/
def memOpAssigned (space : Nat) (op : BitVec 3) : Bool :=
  if op.toNat ≤ 4 then true else if op.toNat ≤ 6 then space != 0 else space == 4

/-- A core of R19. -/
def coreInRange (c : Nat) : Bool := c < 4096
/-- A master of R81. -/
def masterInRange (m : Nat) : Bool := m < 8
/-- A work queue of R84. -/
def queueInRange (q : Nat) : Bool := q < 16384
/-- A fabric port: UALink 0 to 17, Ethernet e as 18 + e (R20, R38). -/
def portInRange (p : Nat) : Bool := p < 26
/-- A team of R13, R103. -/
def TeamId.inRange (t : TeamId) : Bool := t.core < 4096 && t.team < 4
/-- A group of R13, R124. -/
def GroupId.inRange (g : GroupId) : Bool := g.core < 4096 && g.team < 4 && g.grp < 32
/-- A thread of R13, R124. -/
def ThreadId.inRange (t : ThreadId) : Bool := t.core < 4096 && t.team < 4 && t.grp < 32 && t.mem < 64
/-- A reduction packet of R52: a 16-bit group, an operation of 0 or 1, and at most 1,024 elements. -/
def ReductionPacket.wf (p : ReductionPacket) : Bool := p.gid < 65536 && p.op < 2 && p.data.length ≤ 1024 && portInRange p.port
/-- A packet of R46: at most 4,096 bytes of a message of 1 to 2^24, on an Ethernet port. -/
def Packet.wf (p : Packet) : Bool :=
  p.source < 131072 && p.port < 8 && p.region < 64 && p.offset < 1099511627776 && (match p.kind with
    | .write b _ _ => 1 ≤ b.length && b.length ≤ 4096 && p.msgOff + b.length ≤ p.msgLen && p.msgLen ≤ 16777216
    | .read n => 1 ≤ n && n ≤ 4096
    | .atomic op _ _ _ => op < 11)
/-- `n` bytes that lie in one 256-byte block (R41). -/
def inBlock (off n : Nat) : Bool := 1 ≤ n && off % 256 + n ≤ 256
/-- A request of a pod member (R41, R42): a read or write of 1 to 256 bytes in one block, an atomic, an increment, or a zero-length read. -/
def PodRequest.wf (q : PodRequest) : Bool :=
  q.member < 1152 && q.port < 18 && q.region < 64 && q.offset < 1099511627776 && (match q.kind with
    | .write b => inBlock q.offset b.length
    | .read n => inBlock q.offset n
    | .atomic op wide _ _ _ => op < 11 && inBlock q.offset (if wide then 8 else 4)
    | .count _ n => 1 ≤ n && n ≤ 16777216
    | .flush _ => true)
/-- A debugger target of R224. -/
def DebugTarget.inRange (d : DebugTarget) : Bool :=
  d.master < 8 && d.core < 4096 && d.team < 4 && d.grp < 32 && d.lane < 64

/-- The checks of a row: `true` where every selector is assigned and every operand of an event is in its range. -/
def Instr.wf (i : Instr) : Bool :=
  match i with
  | .fundamentalReset => true
  | .bootStageAdvance _ => true
  | .hostLinkUp => true
  | .powerRemoval => true
  | .thermalShutdown => true
  | .spdmRequest _ => true
  | .coreFrequencyChange core steps => coreInRange core && decide (12 ≤ steps) && decide (steps ≤ 36)
  | .l2HomeMove handle die => decide (handle < 4096) && decide (die < 8)
  | .powerCapWrite master _ => masterInRange master
  | .patrolScrub granule _ => decide (granule < 281474976710656)
  | .tierMoveStart what _ _ =>
    (match what with
    | .handle k => decide (k < 4096)
    | .asked => true
    | .page asid page => decide (asid < 65536) && decide (page < 2 ^ 32))
  | .tierMoveComplete asid _ => decide (asid < 65536)
  | .registerWrite master off size _ => masterInRange master && decide (off < 33554432) && (size == 1 || size == 2 || size == 4 || size == 8)
  | .mailboxErase master slot => masterInRange master && decide (slot < 2)
  | .mailboxWrite master slot => masterInRange master && decide (slot < 2)
  | .mailboxVerify master slot => masterInRange master && decide (slot < 2)
  | .mailboxRestart master => masterInRange master
  | .mailboxCommandDone _ => true
  | .portEnable master port _ => masterInRange master && portInRange port
  | .portDisable master port _ => masterInRange master && portInRange port
  | .portTrainingDone port _ => portInRange port
  | .portLinkLoss port => portInRange port
  | .claim master reg _ _ => masterInRange master && decide (reg < 8)
  | .requestHandover master reg _ _ => masterInRange master && decide (reg < 8)
  | .acceptHandover master reg _ _ => masterInRange master && decide (reg < 8)
  | .release master reg _ _ => masterInRange master && decide (reg < 8)
  | .masterLinkDown master => masterInRange master
  | .jobEnable master => masterInRange master
  | .jobDisable master => masterInRange master
  | .jinval master => masterInRange master
  | .jinvalComplete => true
  | .queueEnable master queue _ => masterInRange master && queueInRange queue
  | .queueDisable master queue _ => masterInRange master && queueInRange queue
  | .commandDoorbell queue _ => queueInRange queue
  | .completionDoorbell queue _ => queueInRange queue
  | .spawnWindowStore queue _ record => queueInRange queue && decide (record.length ≤ 64)
  | .queueReset master queue => masterInRange master && queueInRange queue
  | .queueAdopt master queue _ => masterInRange master && queueInRange queue
  | .endReattach master => masterInRange master
  | .commandFetch queue => queueInRange queue
  | .launch queue _ => queueInRange queue
  | .wait queue _ => queueInRange queue
  | .waitComplete queue _ => queueInRange queue
  | .signal queue _ => queueInRange queue
  | .copy queue _ => queueInRange queue
  | .copyComplete queue _ _ _ => queueInRange queue
  | .nopCommand queue _ => queueInRange queue
  | .hostPortTimeout _ => true
  | .launchComplete queue _ => queueInRange queue
  | .completionWrite queue => queueInRange queue
  | .pmapWrite master _ => masterInRange master
  | .dispatchDecision => true
  | .teamFlush team => team.inRange
  | .teamSave team => team.inRange
  | .drainTimeout team => team.inRange
  | .parkSwap core => coreInRange core
  | .issueSwap core => coreInRange core
  | .cutStop master => masterInRange master
  | .cutStopSave master => masterInRange master
  | .cutResume master => masterInRange master
  | .unitStop _ => true
  | .stoppedUnitFlit _ _ _ => true
  | .serviceBatchTimeout group kind => group.inRange && decide (kind < 2)
  | .serviceBatchPost _ => true
  | .serviceAnswer die slot => decide (die < 16) && decide (slot < 64)
  | .translationWalk die asid w => decide (die < 16) && decide (asid < 65536) && decide (w.page < 4294967296) && w.l1.all coreInRange
  | .accessReturn thread _ _ _ => thread.inRange
  | .markerCommit thread => thread.inRange
  | .asyncErrorArrival thread cause _ => thread.inRange && (cause == 0x14 || cause == 0x15)
  | .groupFaultStop thread => thread.inRange
  | .pairTimeout team g => team.inRange && decide (g < 8)
  | .copyRequestCheck core => coreInRange core
  | .copyRequestDispatch core _ => coreInRange core
  | .copyPieceComplete core _ _ _ _ => coreInRange core
  | .dataflowDispatch core => coreInRange core
  | .flumeElement core _ _ _ => coreInRange core
  | .matrixOpStart core => coreInRange core
  | .matrixOpComplete core => coreInRange core
  | .ssxChunkComplete core => coreInRange core
  | .ssxStop core _ => coreInRange core
  | .streamElementFetch thread stream _ => thread.inRange && decide (stream < 4)
  | .tileWaitRelease thread => thread.inRange
  | .counterWaitRelease thread => thread.inRange
  | .bwaitRelease thread => thread.inRange
  | .fenceComplete thread => thread.inRange
  | .ssqWaitRelease thread => thread.inRange
  | .tlbinvComplete thread => thread.inRange
  | .parkExpire thread => thread.inRange
  | .wfeTimeout thread => thread.inRange
  | .packetSend rank => decide (rank < 131072)
  | .packetArrival packet => packet.wf
  | .ackReceived rank _ _ _ => decide (rank < 131072)
  | .nackReceived rank _ _ => decide (rank < 131072)
  | .resendRequestReceived rank _ => decide (rank < 131072)
  | .retransmissionTimeout rank _ => decide (rank < 131072)
  | .ethernetResponse rank _ _ => decide (rank < 131072)
  | .pathProbe _ set path _ => decide (set < 512) && decide (path < 64)
  | .podRequestArrival request => request.wf
  | .podFlushComplete _ _ => true
  | .podRequestTimeout thread _ => thread.inRange
  | .reductionPacketArrival packet => packet.wf
  | .reductionAbort gid => decide (gid < 65536)
  | .directApertureAccess off size _ => decide (off < 137438953472) && decide (off % 4096 + size ≤ 4096)
  | .transformWindowEnable master window _ => masterInRange master && decide (window < 64)
  | .transformWindowWrite off data => decide (off < 137438953472) && decide (off % 4096 + data.length ≤ 4096)
  | .transformBlockProcess window block _ => decide (window < 64) && decide (block < 65536)
  | .hostAtomicop _ width _ _ _ => (width == 4 || width == 8 || width == 16)
  | .hostCoherentAccess _ _ _ => true
  | .debugHalt cmd => cmd.inRange
  | .debugResume cmd => cmd.inRange
  | .debugStep cmd => cmd.inRange
  | .debugRead cmd _ => cmd.inRange
  | .debugWrite cmd _ => cmd.inRange
  | .debugCatchOn cmd => cmd.inRange
  | .debugCatchOff cmd => cmd.inRange
  | .add _ _ _ _ => true
  | .sub _ _ _ _ => true
  | .mul _ _ _ _ => true
  | .mulhI _ _ _ _ => true
  | .mulhN _ _ _ _ => true
  | .minI _ _ _ _ => true
  | .maxI _ _ _ _ => true
  | .minN _ _ _ _ => true
  | .maxN _ _ _ _ => true
  | .and _ _ _ _ => true
  | .or _ _ _ _ => true
  | .xor _ _ _ _ => true
  | .andn _ _ _ _ => true
  | .shl _ _ _ _ => true
  | .shr _ _ _ _ => true
  | .sar _ _ _ _ => true
  | .rot _ _ _ _ => true
  | .mad _ _ _ _ => true
  | .clz _ _ _ => true
  | .ctz _ _ _ => true
  | .popc _ _ _ => true
  | .brev _ _ _ => true
  | .bfxI _ _ _ _ => true
  | .bfxN _ _ _ _ => true
  | .bfi _ _ _ _ => true
  | .absd _ _ _ _ => true
  | .sext8 _ _ _ => true
  | .sext16 _ _ _ => true
  | .zext8 _ _ _ => true
  | .zext16 _ _ _ => true
  | .mulwI _ _ _ _ => true
  | .mulwN _ _ _ _ => true
  | .cmp _ k _ _ _ => k.toNat ≤ 10
  | .sel _ _ _ _ _ _ => true
  | .addi _ _ _ _ => true
  | .andi _ _ _ _ => true
  | .ori _ _ _ _ => true
  | .xori _ _ _ _ => true
  | .shli _ _ _ _ => true
  | .shri _ _ _ _ => true
  | .sari _ _ _ _ => true
  | .roti _ _ _ _ => true
  | .cmpi _ k _ _ _ => k.toNat ≤ 10
  | .muli _ _ _ _ => true
  | .padd8 _ _ _ _ => true
  | .psub8 _ _ _ _ => true
  | .paddsI8 _ _ _ _ => true
  | .paddsN8 _ _ _ _ => true
  | .psubsI8 _ _ _ _ => true
  | .psubsN8 _ _ _ _ => true
  | .pminI8 _ _ _ _ => true
  | .pmaxI8 _ _ _ _ => true
  | .pminN8 _ _ _ _ => true
  | .pmaxN8 _ _ _ _ => true
  | .pabsd8 _ _ _ _ => true
  | .pshl8 _ _ _ _ => true
  | .pshr8 _ _ _ _ => true
  | .psar8 _ _ _ _ => true
  | .pavgN8 _ _ _ _ => true
  | .pdot8 _ _ _ _ => true
  | .padd16 _ _ _ _ => true
  | .psub16 _ _ _ _ => true
  | .paddsI16 _ _ _ _ => true
  | .paddsN16 _ _ _ _ => true
  | .psubsI16 _ _ _ _ => true
  | .psubsN16 _ _ _ _ => true
  | .pminI16 _ _ _ _ => true
  | .pmaxI16 _ _ _ _ => true
  | .pminN16 _ _ _ _ => true
  | .pmaxN16 _ _ _ _ => true
  | .pabsd16 _ _ _ _ => true
  | .pshl16 _ _ _ _ => true
  | .pshr16 _ _ _ _ => true
  | .psar16 _ _ _ _ => true
  | .pavgN16 _ _ _ _ => true
  | .pdot16 _ _ _ _ => true
  | .addD _ _ _ _ => true
  | .subD _ _ _ _ => true
  | .shlD _ _ _ _ => true
  | .shrD _ _ _ _ => true
  | .sarD _ _ _ _ => true
  | .addxI _ _ _ _ => true
  | .addxN _ _ _ _ => true
  | .andD _ _ _ _ => true
  | .orD _ _ _ _ => true
  | .xorD _ _ _ _ => true
  | .fadd _ _ _ _ => true
  | .fsub _ _ _ _ => true
  | .fmul _ _ _ _ => true
  | .ffma _ _ _ _ => true
  | .fnma _ _ _ _ => true
  | .fmin _ _ _ _ => true
  | .fmax _ _ _ _ => true
  | .fabs _ _ _ => true
  | .fneg _ _ _ => true
  | .fsgnj _ _ _ _ => true
  | .faddF64 _ _ _ _ => true
  | .fsubF64 _ _ _ _ => true
  | .fmulF64 _ _ _ _ => true
  | .ffmaF64 _ _ _ _ => true
  | .fnmaF64 _ _ _ _ => true
  | .fminF64 _ _ _ _ => true
  | .fmaxF64 _ _ _ _ => true
  | .fabsF64 _ _ _ => true
  | .fnegF64 _ _ _ => true
  | .fsgnjF64 _ _ _ _ => true
  | .faddPk _ _ _ _ _ => true
  | .fsubPk _ _ _ _ _ => true
  | .fmulPk _ _ _ _ _ => true
  | .ffmaPk _ _ _ _ _ => true
  | .fnmaPk _ _ _ _ _ => true
  | .fminPk _ _ _ _ _ => true
  | .fmaxPk _ _ _ _ _ => true
  | .fnegPk _ _ _ _ => true
  | .frcp _ _ _ => true
  | .frsq _ _ _ => true
  | .fsqrt _ _ _ => true
  | .fexp2 _ _ _ => true
  | .flog2 _ _ _ => true
  | .fsin _ _ _ => true
  | .fcos _ _ _ => true
  | .ftanh _ _ _ => true
  | .fclass _ _ _ => true
  | .fcmp _ _ _ _ _ => true
  | .fcmpF64 _ _ _ _ _ => true
  | .cvtF32I32 _ _ _ => true
  | .cvtF32N32 _ _ _ => true
  | .cvtI32F32 _ _ _ => true
  | .cvtN32F32 _ _ _ => true
  | .cvtF64F32 _ _ _ => true
  | .cvtF32F64 _ _ _ => true
  | .cvtF64I32 _ _ _ => true
  | .cvtF64N32 _ _ _ => true
  | .cvtI32F64 _ _ _ => true
  | .cvtN32F64 _ _ _ => true
  | .cvtF32Bf16 _ _ _ => true
  | .cvtF32F16 _ _ _ => true
  | .cvtBf16F32 _ _ _ => true
  | .cvtF16F32 _ _ _ => true
  | .cvtdn _ _ _ _ _ _ _ => true
  | .cvtup _ _ _ _ _ => true
  | .mov _ _ _ => true
  | .movcRead _ _ => true
  | .movcWrite _ _ => true
  | .xget _ _ _ => true
  | .xset _ _ _ => true
  | .xadj _ _ _ => true
  | .fget _ _ _ => true
  | .fset _ _ _ => true
  | .mget _ _ _ => true
  | .mset _ _ _ => true
  | .movi _ _ _ => true
  | .csrr _ _ _ => true
  | .csrw _ _ _ => true
  | .sdef _ _ _ => true
  | .sstop _ _ => true
  | .br _ _ _ _ => true
  | .jmp _ _ => true
  | .call _ _ _ => true
  | .brx _ _ => true
  | .callx _ _ _ => true
  | .ret _ _ => true
  | .nop _ => true
  | .exit _ => true
  | .yield _ => true
  | .park _ _ => true
  | .brk _ _ => true
  | .bstr _ _ _ _ _ => true
  | .ldLn _ o _ _ _ => memOpAssigned 0 o
  | .stLn _ o _ _ _ => memOpAssigned 0 o
  | .ldCo _ o _ _ _ => memOpAssigned 1 o
  | .stCo _ o _ _ _ => memOpAssigned 1 o
  | .ldCl _ o _ _ _ => memOpAssigned 2 o
  | .stCl _ o _ _ _ => memOpAssigned 2 o
  | .ldCh _ o _ _ _ => memOpAssigned 3 o
  | .stCh _ o _ _ _ => memOpAssigned 3 o
  | .ldGl _ o _ _ _ => memOpAssigned 4 o
  | .stGl _ o _ _ _ => memOpAssigned 4 o
  | .atomAdd _ s _ _ _ _ => s != 7
  | .atomAnd _ s _ _ _ _ => s != 7
  | .atomOr _ s _ _ _ _ => s != 7
  | .atomXor _ s _ _ _ _ => s != 7
  | .atomMinI _ s _ _ _ _ => s != 7
  | .atomMaxI _ s _ _ _ _ => s != 7
  | .atomMinN _ s _ _ _ _ => s != 7
  | .atomMaxN _ s _ _ _ _ => s != 7
  | .atomSwap _ s _ _ _ _ => s != 7
  | .atomCas _ s _ _ _ _ => s != 7
  | .atomFadd _ s _ _ _ _ => s != 7
  | .fence _ => true
  | .drainNt _ => true
  | .pflush _ _ => true
  | .cwait _ _ _ => true
  | .cadd _ _ _ => true
  | .cpoll _ _ _ => true
  | .wsig _ _ => true
  | .wred _ _ => true
  | .pickK _ _ _ _ _ => true
  | .pickR _ _ _ _ _ => true
  | .pickXor _ _ _ _ _ => true
  | .pickAdd _ _ _ _ _ => true
  | .pickSub _ _ _ _ _ => true
  | .census _ _ _ _ => true
  | .kin _ _ _ _ _ => true
  | .agreeAll _ _ x r _ _ => x == 1 || r == 0
  | .agreeAny _ _ x r _ _ => x == 1 || r == 0
  | .agreeSame _ _ x r _ _ => x == 1 || r == 0
  | .combAdd _ _ _ _ t => t.toNat ≤ 1
  | .combMin _ _ _ _ t => t.toNat ≤ 2
  | .combMax _ _ _ _ t => t.toNat ≤ 2
  | .scanAdd _ _ _ _ t => t.toNat ≤ 1
  | .fenceGrp _ _ => true
  | .xiss _ _ => true
  | .rsend _ _ _ _ => true
  | .rrecv _ _ _ _ => true
  | .bar _ _ _ => true
  | .barCl _ _ => true
  | .arrive _ _ n c => c == 0 || n == 0
  | .gdef _ _ _ => true
  | .tdef _ _ _ => true
  | .tdefReg _ _ _ => true
  | .tfree _ _ => true
  | .tstate _ _ _ => true
  | .kick _ _ _ => true
  | .barm _ _ _ => true
  | .barmT _ _ _ => true
  | .bwait _ _ _ => true
  | .bwaitT _ _ _ => true
  | .task _ _ => true
  | .chain _ _ => true
  | .cres _ _ _ => true
  | .crel _ _ => true
  | .mldb _ _ _ => true
  | .mma _ _ _ _ _ _ => true
  | .mmap _ _ _ _ _ _ => true
  | .mzero _ _ _ => true
  | .mst _ _ _ => true
  | .mrd _ _ _ _ => true
  | .ssx _ _ _ => true
  | .ssq _ _ _ _ => true
  | .rhset _ _ _ => true
  | .rhpri _ _ _ => true
  | .rhdem _ _ => true
  | .pref _ _ _ => true
  | .svc _ _ _ => true
  | .trap _ _ _ => true
  | .tret _ => true
  | .spawn _ _ _ => true
  | .cacheopClean _ _ _ => true
  | .cacheopEv1 _ _ _ => true
  | .cacheopEv2 _ _ _ => true
  | .cacheopPod _ _ _ => true
  | .tlbinv _ _ _ => true
  | .wfe _ _ => true
  | .hintImm _ => true
  | .hintOpi _ => true
  | .hintScope _ => true
  | .hintRnd _ _ _ => true
  | .hintCache _ _ _ => true
  | .hintAdd _ => true
  | .linkLevelReplay port => decide (port < 18)
  | .swapThresholdAdjust core cycles => coreInRange core && decide (16 ≤ cycles) && decide (cycles ≤ 4096)
  | .congestionThresholdAdjust _ set _ _ => decide (set < 512)

/-- A row that `wf` accepts. -/
abbrev Instr.WellFormed (i : Instr) : Prop := i.wf = true

end Sys2Proof
end

