-- ==== Sys2Proof/Decode.lean ====
section
/-! DEFINITION. From words to instructions and back (R247 to R259): `decodeWord` refuses every word that is no
instruction under R259, `encode` is written from the same layouts, and `decodeTableWord` is the host's view. Some
decoders are noncomputable only because Lean's compiler refuses to build a constructor with a number above 244; the
kernel evaluates them (log entry 9). -/
namespace Sys2Proof

/-- The instructions of major 0x01 (R256). -/
def decodeMajor01 (u : Word) : Option Instr :=
  match (u.extractLsb' 21 4).toNat with
  | 0 => some (.add (u.extractLsb' 31 1) (u.extractLsb' 14 7) (u.extractLsb' 7 7) (u.extractLsb' 0 7))
  | 1 => some (.sub (u.extractLsb' 31 1) (u.extractLsb' 14 7) (u.extractLsb' 7 7) (u.extractLsb' 0 7))
  | 2 => some (.mul (u.extractLsb' 31 1) (u.extractLsb' 14 7) (u.extractLsb' 7 7) (u.extractLsb' 0 7))
  | 3 => some (.mulhI (u.extractLsb' 31 1) (u.extractLsb' 14 7) (u.extractLsb' 7 7) (u.extractLsb' 0 7))
  | 4 => some (.mulhN (u.extractLsb' 31 1) (u.extractLsb' 14 7) (u.extractLsb' 7 7) (u.extractLsb' 0 7))
  | 5 => some (.minI (u.extractLsb' 31 1) (u.extractLsb' 14 7) (u.extractLsb' 7 7) (u.extractLsb' 0 7))
  | 6 => some (.maxI (u.extractLsb' 31 1) (u.extractLsb' 14 7) (u.extractLsb' 7 7) (u.extractLsb' 0 7))
  | 7 => some (.minN (u.extractLsb' 31 1) (u.extractLsb' 14 7) (u.extractLsb' 7 7) (u.extractLsb' 0 7))
  | 8 => some (.maxN (u.extractLsb' 31 1) (u.extractLsb' 14 7) (u.extractLsb' 7 7) (u.extractLsb' 0 7))
  | 9 => some (.and (u.extractLsb' 31 1) (u.extractLsb' 14 7) (u.extractLsb' 7 7) (u.extractLsb' 0 7))
  | 10 => some (.or (u.extractLsb' 31 1) (u.extractLsb' 14 7) (u.extractLsb' 7 7) (u.extractLsb' 0 7))
  | 11 => some (.xor (u.extractLsb' 31 1) (u.extractLsb' 14 7) (u.extractLsb' 7 7) (u.extractLsb' 0 7))
  | 12 => some (.andn (u.extractLsb' 31 1) (u.extractLsb' 14 7) (u.extractLsb' 7 7) (u.extractLsb' 0 7))
  | 13 => some (.shl (u.extractLsb' 31 1) (u.extractLsb' 14 7) (u.extractLsb' 7 7) (u.extractLsb' 0 7))
  | 14 => some (.shr (u.extractLsb' 31 1) (u.extractLsb' 14 7) (u.extractLsb' 7 7) (u.extractLsb' 0 7))
  | _ => some (.sar (u.extractLsb' 31 1) (u.extractLsb' 14 7) (u.extractLsb' 7 7) (u.extractLsb' 0 7))

/-- The instructions of major 0x02 (R256). -/
def decodeMajor02 (u : Word) : Option Instr :=
  match (u.extractLsb' 21 4).toNat with
  | 0 => some (.rot (u.extractLsb' 31 1) (u.extractLsb' 14 7) (u.extractLsb' 7 7) (u.extractLsb' 0 7))
  | 1 => some (.mad (u.extractLsb' 31 1) (u.extractLsb' 14 7) (u.extractLsb' 7 7) (u.extractLsb' 0 7))
  | 2 => if (u.extractLsb' 0 7) == 0x0#7 then some (.clz (u.extractLsb' 31 1) (u.extractLsb' 14 7) (u.extractLsb' 7 7)) else none
  | 3 => if (u.extractLsb' 0 7) == 0x0#7 then some (.ctz (u.extractLsb' 31 1) (u.extractLsb' 14 7) (u.extractLsb' 7 7)) else none
  | 4 => if (u.extractLsb' 0 7) == 0x0#7 then some (.popc (u.extractLsb' 31 1) (u.extractLsb' 14 7) (u.extractLsb' 7 7)) else none
  | 5 => if (u.extractLsb' 0 7) == 0x0#7 then some (.brev (u.extractLsb' 31 1) (u.extractLsb' 14 7) (u.extractLsb' 7 7)) else none
  | 6 => some (.bfxI (u.extractLsb' 31 1) (u.extractLsb' 14 7) (u.extractLsb' 7 7) (u.extractLsb' 0 7))
  | 7 => some (.bfxN (u.extractLsb' 31 1) (u.extractLsb' 14 7) (u.extractLsb' 7 7) (u.extractLsb' 0 7))
  | 8 => some (.bfi (u.extractLsb' 31 1) (u.extractLsb' 14 7) (u.extractLsb' 7 7) (u.extractLsb' 0 7))
  | 9 => some (.absd (u.extractLsb' 31 1) (u.extractLsb' 14 7) (u.extractLsb' 7 7) (u.extractLsb' 0 7))
  | 10 => if (u.extractLsb' 0 7) == 0x0#7 then some (.sext8 (u.extractLsb' 31 1) (u.extractLsb' 14 7) (u.extractLsb' 7 7)) else none
  | 11 => if (u.extractLsb' 0 7) == 0x0#7 then some (.sext16 (u.extractLsb' 31 1) (u.extractLsb' 14 7) (u.extractLsb' 7 7)) else none
  | 12 => if (u.extractLsb' 0 7) == 0x0#7 then some (.zext8 (u.extractLsb' 31 1) (u.extractLsb' 14 7) (u.extractLsb' 7 7)) else none
  | 13 => if (u.extractLsb' 0 7) == 0x0#7 then some (.zext16 (u.extractLsb' 31 1) (u.extractLsb' 14 7) (u.extractLsb' 7 7)) else none
  | 14 => some (.mulwI (u.extractLsb' 31 1) (u.extractLsb' 14 7) (u.extractLsb' 7 7) (u.extractLsb' 0 7))
  | _ => some (.mulwN (u.extractLsb' 31 1) (u.extractLsb' 14 7) (u.extractLsb' 7 7) (u.extractLsb' 0 7))

/-- The instructions of major 0x03 (R256). -/
def decodeMajor03 (u : Word) : Option Instr :=
  if (u.extractLsb' 17 4) == 0x0#4 then some (.cmp (u.extractLsb' 31 1) (u.extractLsb' 21 4) (u.extractLsb' 14 3) (u.extractLsb' 7 7) (u.extractLsb' 0 7)) else none

/-- The instructions of major 0x04 (R256). -/
def decodeMajor04 (u : Word) : Option Instr :=
  some (.sel (u.extractLsb' 31 1) (u.extractLsb' 24 1) (u.extractLsb' 21 3) (u.extractLsb' 14 7) (u.extractLsb' 7 7) (u.extractLsb' 0 7))

/-- The instructions of major 0x05 (R256). -/
def decodeMajor05 (u : Word) : Option Instr :=
  some (.addi (u.extractLsb' 31 1) (u.extractLsb' 18 7) (u.extractLsb' 11 7) (u.extractLsb' 0 11))

/-- The instructions of major 0x06 (R256). -/
def decodeMajor06 (u : Word) : Option Instr :=
  some (.andi (u.extractLsb' 31 1) (u.extractLsb' 18 7) (u.extractLsb' 11 7) (u.extractLsb' 0 11))

/-- The instructions of major 0x07 (R256). -/
def decodeMajor07 (u : Word) : Option Instr :=
  some (.ori (u.extractLsb' 31 1) (u.extractLsb' 18 7) (u.extractLsb' 11 7) (u.extractLsb' 0 11))

/-- The instructions of major 0x08 (R256). -/
def decodeMajor08 (u : Word) : Option Instr :=
  some (.xori (u.extractLsb' 31 1) (u.extractLsb' 18 7) (u.extractLsb' 11 7) (u.extractLsb' 0 11))

/-- The instructions of major 0x09 (R256). -/
def decodeMajor09 (u : Word) : Option Instr :=
  match (u.extractLsb' 9 2).toNat with
  | 0 => some (.shli (u.extractLsb' 31 1) (u.extractLsb' 18 7) (u.extractLsb' 11 7) (u.extractLsb' 0 9))
  | 1 => some (.shri (u.extractLsb' 31 1) (u.extractLsb' 18 7) (u.extractLsb' 11 7) (u.extractLsb' 0 9))
  | 2 => some (.sari (u.extractLsb' 31 1) (u.extractLsb' 18 7) (u.extractLsb' 11 7) (u.extractLsb' 0 9))
  | _ => some (.roti (u.extractLsb' 31 1) (u.extractLsb' 18 7) (u.extractLsb' 11 7) (u.extractLsb' 0 9))

/-- The instructions of major 0x0A (R256). -/
def decodeMajor0A (u : Word) : Option Instr :=
  some (.cmpi (u.extractLsb' 31 1) (u.extractLsb' 21 4) (u.extractLsb' 18 3) (u.extractLsb' 11 7) (u.extractLsb' 0 11))

/-- The instructions of major 0x0B (R256). -/
def decodeMajor0B (u : Word) : Option Instr :=
  some (.muli (u.extractLsb' 31 1) (u.extractLsb' 18 7) (u.extractLsb' 11 7) (u.extractLsb' 0 11))

/-- The instructions of major 0x0C (R256). -/
def decodeMajor0C (u : Word) : Option Instr :=
  match (u.extractLsb' 21 4).toNat with
  | 0 => some (.padd8 (u.extractLsb' 31 1) (u.extractLsb' 14 7) (u.extractLsb' 7 7) (u.extractLsb' 0 7))
  | 1 => some (.psub8 (u.extractLsb' 31 1) (u.extractLsb' 14 7) (u.extractLsb' 7 7) (u.extractLsb' 0 7))
  | 2 => some (.paddsI8 (u.extractLsb' 31 1) (u.extractLsb' 14 7) (u.extractLsb' 7 7) (u.extractLsb' 0 7))
  | 3 => some (.paddsN8 (u.extractLsb' 31 1) (u.extractLsb' 14 7) (u.extractLsb' 7 7) (u.extractLsb' 0 7))
  | 4 => some (.psubsI8 (u.extractLsb' 31 1) (u.extractLsb' 14 7) (u.extractLsb' 7 7) (u.extractLsb' 0 7))
  | 5 => some (.psubsN8 (u.extractLsb' 31 1) (u.extractLsb' 14 7) (u.extractLsb' 7 7) (u.extractLsb' 0 7))
  | 6 => some (.pminI8 (u.extractLsb' 31 1) (u.extractLsb' 14 7) (u.extractLsb' 7 7) (u.extractLsb' 0 7))
  | 7 => some (.pmaxI8 (u.extractLsb' 31 1) (u.extractLsb' 14 7) (u.extractLsb' 7 7) (u.extractLsb' 0 7))
  | 8 => some (.pminN8 (u.extractLsb' 31 1) (u.extractLsb' 14 7) (u.extractLsb' 7 7) (u.extractLsb' 0 7))
  | 9 => some (.pmaxN8 (u.extractLsb' 31 1) (u.extractLsb' 14 7) (u.extractLsb' 7 7) (u.extractLsb' 0 7))
  | 10 => some (.pabsd8 (u.extractLsb' 31 1) (u.extractLsb' 14 7) (u.extractLsb' 7 7) (u.extractLsb' 0 7))
  | 11 => some (.pshl8 (u.extractLsb' 31 1) (u.extractLsb' 14 7) (u.extractLsb' 7 7) (u.extractLsb' 0 7))
  | 12 => some (.pshr8 (u.extractLsb' 31 1) (u.extractLsb' 14 7) (u.extractLsb' 7 7) (u.extractLsb' 0 7))
  | 13 => some (.psar8 (u.extractLsb' 31 1) (u.extractLsb' 14 7) (u.extractLsb' 7 7) (u.extractLsb' 0 7))
  | 14 => some (.pavgN8 (u.extractLsb' 31 1) (u.extractLsb' 14 7) (u.extractLsb' 7 7) (u.extractLsb' 0 7))
  | _ => some (.pdot8 (u.extractLsb' 31 1) (u.extractLsb' 14 7) (u.extractLsb' 7 7) (u.extractLsb' 0 7))

/-- The instructions of major 0x0D (R256). -/
def decodeMajor0D (u : Word) : Option Instr :=
  match (u.extractLsb' 21 4).toNat with
  | 0 => some (.padd16 (u.extractLsb' 31 1) (u.extractLsb' 14 7) (u.extractLsb' 7 7) (u.extractLsb' 0 7))
  | 1 => some (.psub16 (u.extractLsb' 31 1) (u.extractLsb' 14 7) (u.extractLsb' 7 7) (u.extractLsb' 0 7))
  | 2 => some (.paddsI16 (u.extractLsb' 31 1) (u.extractLsb' 14 7) (u.extractLsb' 7 7) (u.extractLsb' 0 7))
  | 3 => some (.paddsN16 (u.extractLsb' 31 1) (u.extractLsb' 14 7) (u.extractLsb' 7 7) (u.extractLsb' 0 7))
  | 4 => some (.psubsI16 (u.extractLsb' 31 1) (u.extractLsb' 14 7) (u.extractLsb' 7 7) (u.extractLsb' 0 7))
  | 5 => some (.psubsN16 (u.extractLsb' 31 1) (u.extractLsb' 14 7) (u.extractLsb' 7 7) (u.extractLsb' 0 7))
  | 6 => some (.pminI16 (u.extractLsb' 31 1) (u.extractLsb' 14 7) (u.extractLsb' 7 7) (u.extractLsb' 0 7))
  | 7 => some (.pmaxI16 (u.extractLsb' 31 1) (u.extractLsb' 14 7) (u.extractLsb' 7 7) (u.extractLsb' 0 7))
  | 8 => some (.pminN16 (u.extractLsb' 31 1) (u.extractLsb' 14 7) (u.extractLsb' 7 7) (u.extractLsb' 0 7))
  | 9 => some (.pmaxN16 (u.extractLsb' 31 1) (u.extractLsb' 14 7) (u.extractLsb' 7 7) (u.extractLsb' 0 7))
  | 10 => some (.pabsd16 (u.extractLsb' 31 1) (u.extractLsb' 14 7) (u.extractLsb' 7 7) (u.extractLsb' 0 7))
  | 11 => some (.pshl16 (u.extractLsb' 31 1) (u.extractLsb' 14 7) (u.extractLsb' 7 7) (u.extractLsb' 0 7))
  | 12 => some (.pshr16 (u.extractLsb' 31 1) (u.extractLsb' 14 7) (u.extractLsb' 7 7) (u.extractLsb' 0 7))
  | 13 => some (.psar16 (u.extractLsb' 31 1) (u.extractLsb' 14 7) (u.extractLsb' 7 7) (u.extractLsb' 0 7))
  | 14 => some (.pavgN16 (u.extractLsb' 31 1) (u.extractLsb' 14 7) (u.extractLsb' 7 7) (u.extractLsb' 0 7))
  | _ => some (.pdot16 (u.extractLsb' 31 1) (u.extractLsb' 14 7) (u.extractLsb' 7 7) (u.extractLsb' 0 7))

/-- The instructions of major 0x0E (R256). -/
def decodeMajor0E (u : Word) : Option Instr :=
  match (u.extractLsb' 21 4).toNat with
  | 0 => some (.addD (u.extractLsb' 31 1) (u.extractLsb' 14 7) (u.extractLsb' 7 7) (u.extractLsb' 0 7))
  | 1 => some (.subD (u.extractLsb' 31 1) (u.extractLsb' 14 7) (u.extractLsb' 7 7) (u.extractLsb' 0 7))
  | 2 => some (.shlD (u.extractLsb' 31 1) (u.extractLsb' 14 7) (u.extractLsb' 7 7) (u.extractLsb' 0 7))
  | 3 => some (.shrD (u.extractLsb' 31 1) (u.extractLsb' 14 7) (u.extractLsb' 7 7) (u.extractLsb' 0 7))
  | 4 => some (.sarD (u.extractLsb' 31 1) (u.extractLsb' 14 7) (u.extractLsb' 7 7) (u.extractLsb' 0 7))
  | 5 => some (.addxI (u.extractLsb' 31 1) (u.extractLsb' 14 7) (u.extractLsb' 7 7) (u.extractLsb' 0 7))
  | 6 => some (.addxN (u.extractLsb' 31 1) (u.extractLsb' 14 7) (u.extractLsb' 7 7) (u.extractLsb' 0 7))
  | 7 => some (.andD (u.extractLsb' 31 1) (u.extractLsb' 14 7) (u.extractLsb' 7 7) (u.extractLsb' 0 7))
  | 8 => some (.orD (u.extractLsb' 31 1) (u.extractLsb' 14 7) (u.extractLsb' 7 7) (u.extractLsb' 0 7))
  | 9 => some (.xorD (u.extractLsb' 31 1) (u.extractLsb' 14 7) (u.extractLsb' 7 7) (u.extractLsb' 0 7))
  | _ => none

/-- The instructions of major 0x10 (R256). -/
def decodeMajor10 (u : Word) : Option Instr :=
  match (u.extractLsb' 21 4).toNat with
  | 0 => some (.fadd (u.extractLsb' 31 1) (u.extractLsb' 14 7) (u.extractLsb' 7 7) (u.extractLsb' 0 7))
  | 1 => some (.fsub (u.extractLsb' 31 1) (u.extractLsb' 14 7) (u.extractLsb' 7 7) (u.extractLsb' 0 7))
  | 2 => some (.fmul (u.extractLsb' 31 1) (u.extractLsb' 14 7) (u.extractLsb' 7 7) (u.extractLsb' 0 7))
  | 3 => some (.ffma (u.extractLsb' 31 1) (u.extractLsb' 14 7) (u.extractLsb' 7 7) (u.extractLsb' 0 7))
  | 4 => some (.fnma (u.extractLsb' 31 1) (u.extractLsb' 14 7) (u.extractLsb' 7 7) (u.extractLsb' 0 7))
  | 5 => some (.fmin (u.extractLsb' 31 1) (u.extractLsb' 14 7) (u.extractLsb' 7 7) (u.extractLsb' 0 7))
  | 6 => some (.fmax (u.extractLsb' 31 1) (u.extractLsb' 14 7) (u.extractLsb' 7 7) (u.extractLsb' 0 7))
  | 7 => if (u.extractLsb' 0 7) == 0x0#7 then some (.fabs (u.extractLsb' 31 1) (u.extractLsb' 14 7) (u.extractLsb' 7 7)) else none
  | 8 => if (u.extractLsb' 0 7) == 0x0#7 then some (.fneg (u.extractLsb' 31 1) (u.extractLsb' 14 7) (u.extractLsb' 7 7)) else none
  | 9 => some (.fsgnj (u.extractLsb' 31 1) (u.extractLsb' 14 7) (u.extractLsb' 7 7) (u.extractLsb' 0 7))
  | _ => none

/-- The instructions of major 0x11 (R256). -/
def decodeMajor11 (u : Word) : Option Instr :=
  match (u.extractLsb' 21 4).toNat with
  | 0 => some (.faddF64 (u.extractLsb' 31 1) (u.extractLsb' 14 7) (u.extractLsb' 7 7) (u.extractLsb' 0 7))
  | 1 => some (.fsubF64 (u.extractLsb' 31 1) (u.extractLsb' 14 7) (u.extractLsb' 7 7) (u.extractLsb' 0 7))
  | 2 => some (.fmulF64 (u.extractLsb' 31 1) (u.extractLsb' 14 7) (u.extractLsb' 7 7) (u.extractLsb' 0 7))
  | 3 => some (.ffmaF64 (u.extractLsb' 31 1) (u.extractLsb' 14 7) (u.extractLsb' 7 7) (u.extractLsb' 0 7))
  | 4 => some (.fnmaF64 (u.extractLsb' 31 1) (u.extractLsb' 14 7) (u.extractLsb' 7 7) (u.extractLsb' 0 7))
  | 5 => some (.fminF64 (u.extractLsb' 31 1) (u.extractLsb' 14 7) (u.extractLsb' 7 7) (u.extractLsb' 0 7))
  | 6 => some (.fmaxF64 (u.extractLsb' 31 1) (u.extractLsb' 14 7) (u.extractLsb' 7 7) (u.extractLsb' 0 7))
  | 7 => if (u.extractLsb' 0 7) == 0x0#7 then some (.fabsF64 (u.extractLsb' 31 1) (u.extractLsb' 14 7) (u.extractLsb' 7 7)) else none
  | 8 => if (u.extractLsb' 0 7) == 0x0#7 then some (.fnegF64 (u.extractLsb' 31 1) (u.extractLsb' 14 7) (u.extractLsb' 7 7)) else none
  | 9 => some (.fsgnjF64 (u.extractLsb' 31 1) (u.extractLsb' 14 7) (u.extractLsb' 7 7) (u.extractLsb' 0 7))
  | _ => none

/-- The instructions of major 0x12 (R256). -/
def decodeMajor12 (u : Word) : Option Instr :=
  match (u.extractLsb' 21 3).toNat with
  | 0 => some (.faddPk (u.extractLsb' 31 1) (u.extractLsb' 24 1) (u.extractLsb' 14 7) (u.extractLsb' 7 7) (u.extractLsb' 0 7))
  | 1 => some (.fsubPk (u.extractLsb' 31 1) (u.extractLsb' 24 1) (u.extractLsb' 14 7) (u.extractLsb' 7 7) (u.extractLsb' 0 7))
  | 2 => some (.fmulPk (u.extractLsb' 31 1) (u.extractLsb' 24 1) (u.extractLsb' 14 7) (u.extractLsb' 7 7) (u.extractLsb' 0 7))
  | 3 => some (.ffmaPk (u.extractLsb' 31 1) (u.extractLsb' 24 1) (u.extractLsb' 14 7) (u.extractLsb' 7 7) (u.extractLsb' 0 7))
  | 4 => some (.fnmaPk (u.extractLsb' 31 1) (u.extractLsb' 24 1) (u.extractLsb' 14 7) (u.extractLsb' 7 7) (u.extractLsb' 0 7))
  | 5 => some (.fminPk (u.extractLsb' 31 1) (u.extractLsb' 24 1) (u.extractLsb' 14 7) (u.extractLsb' 7 7) (u.extractLsb' 0 7))
  | 6 => some (.fmaxPk (u.extractLsb' 31 1) (u.extractLsb' 24 1) (u.extractLsb' 14 7) (u.extractLsb' 7 7) (u.extractLsb' 0 7))
  | _ => if (u.extractLsb' 0 7) == 0x0#7 then some (.fnegPk (u.extractLsb' 31 1) (u.extractLsb' 24 1) (u.extractLsb' 14 7) (u.extractLsb' 7 7)) else none

/-- The instructions of major 0x13 (R256). -/
def decodeMajor13 (u : Word) : Option Instr :=
  match (u.extractLsb' 21 4).toNat with
  | 0 => if (u.extractLsb' 0 7) == 0x0#7 then some (.frcp (u.extractLsb' 31 1) (u.extractLsb' 14 7) (u.extractLsb' 7 7)) else none
  | 1 => if (u.extractLsb' 0 7) == 0x0#7 then some (.frsq (u.extractLsb' 31 1) (u.extractLsb' 14 7) (u.extractLsb' 7 7)) else none
  | 2 => if (u.extractLsb' 0 7) == 0x0#7 then some (.fsqrt (u.extractLsb' 31 1) (u.extractLsb' 14 7) (u.extractLsb' 7 7)) else none
  | 3 => if (u.extractLsb' 0 7) == 0x0#7 then some (.fexp2 (u.extractLsb' 31 1) (u.extractLsb' 14 7) (u.extractLsb' 7 7)) else none
  | 4 => if (u.extractLsb' 0 7) == 0x0#7 then some (.flog2 (u.extractLsb' 31 1) (u.extractLsb' 14 7) (u.extractLsb' 7 7)) else none
  | 5 => if (u.extractLsb' 0 7) == 0x0#7 then some (.fsin (u.extractLsb' 31 1) (u.extractLsb' 14 7) (u.extractLsb' 7 7)) else none
  | 6 => if (u.extractLsb' 0 7) == 0x0#7 then some (.fcos (u.extractLsb' 31 1) (u.extractLsb' 14 7) (u.extractLsb' 7 7)) else none
  | 7 => if (u.extractLsb' 0 7) == 0x0#7 then some (.ftanh (u.extractLsb' 31 1) (u.extractLsb' 14 7) (u.extractLsb' 7 7)) else none
  | 8 => if (u.extractLsb' 0 7) == 0x0#7 then some (.fclass (u.extractLsb' 31 1) (u.extractLsb' 14 7) (u.extractLsb' 7 7)) else none
  | _ => none

/-- The instructions of major 0x14 (R256). -/
def decodeMajor14 (u : Word) : Option Instr :=
  match (u.extractLsb' 24 1).toNat with
  | 0 => if (u.extractLsb' 17 4) == 0x0#4 then some (.fcmp (u.extractLsb' 31 1) (u.extractLsb' 21 3) (u.extractLsb' 14 3) (u.extractLsb' 7 7) (u.extractLsb' 0 7)) else none
  | _ => if (u.extractLsb' 17 4) == 0x0#4 then some (.fcmpF64 (u.extractLsb' 31 1) (u.extractLsb' 21 3) (u.extractLsb' 14 3) (u.extractLsb' 7 7) (u.extractLsb' 0 7)) else none

/-- The instructions of major 0x15 (R256). -/
def decodeMajor15 (u : Word) : Option Instr :=
  match (u.extractLsb' 21 4).toNat with
  | 0 => if (u.extractLsb' 0 7) == 0x0#7 then some (.cvtF32I32 (u.extractLsb' 31 1) (u.extractLsb' 14 7) (u.extractLsb' 7 7)) else none
  | 1 => if (u.extractLsb' 0 7) == 0x0#7 then some (.cvtF32N32 (u.extractLsb' 31 1) (u.extractLsb' 14 7) (u.extractLsb' 7 7)) else none
  | 2 => if (u.extractLsb' 0 7) == 0x0#7 then some (.cvtI32F32 (u.extractLsb' 31 1) (u.extractLsb' 14 7) (u.extractLsb' 7 7)) else none
  | 3 => if (u.extractLsb' 0 7) == 0x0#7 then some (.cvtN32F32 (u.extractLsb' 31 1) (u.extractLsb' 14 7) (u.extractLsb' 7 7)) else none
  | 4 => if (u.extractLsb' 0 7) == 0x0#7 then some (.cvtF64F32 (u.extractLsb' 31 1) (u.extractLsb' 14 7) (u.extractLsb' 7 7)) else none
  | 5 => if (u.extractLsb' 0 7) == 0x0#7 then some (.cvtF32F64 (u.extractLsb' 31 1) (u.extractLsb' 14 7) (u.extractLsb' 7 7)) else none
  | 6 => if (u.extractLsb' 0 7) == 0x0#7 then some (.cvtF64I32 (u.extractLsb' 31 1) (u.extractLsb' 14 7) (u.extractLsb' 7 7)) else none
  | 7 => if (u.extractLsb' 0 7) == 0x0#7 then some (.cvtF64N32 (u.extractLsb' 31 1) (u.extractLsb' 14 7) (u.extractLsb' 7 7)) else none
  | 8 => if (u.extractLsb' 0 7) == 0x0#7 then some (.cvtI32F64 (u.extractLsb' 31 1) (u.extractLsb' 14 7) (u.extractLsb' 7 7)) else none
  | 9 => if (u.extractLsb' 0 7) == 0x0#7 then some (.cvtN32F64 (u.extractLsb' 31 1) (u.extractLsb' 14 7) (u.extractLsb' 7 7)) else none
  | 10 => if (u.extractLsb' 0 7) == 0x0#7 then some (.cvtF32Bf16 (u.extractLsb' 31 1) (u.extractLsb' 14 7) (u.extractLsb' 7 7)) else none
  | 11 => if (u.extractLsb' 0 7) == 0x0#7 then some (.cvtF32F16 (u.extractLsb' 31 1) (u.extractLsb' 14 7) (u.extractLsb' 7 7)) else none
  | 12 => if (u.extractLsb' 0 7) == 0x0#7 then some (.cvtBf16F32 (u.extractLsb' 31 1) (u.extractLsb' 14 7) (u.extractLsb' 7 7)) else none
  | 13 => if (u.extractLsb' 0 7) == 0x0#7 then some (.cvtF16F32 (u.extractLsb' 31 1) (u.extractLsb' 14 7) (u.extractLsb' 7 7)) else none
  | _ => none

/-- The instructions of major 0x16 (R256). -/
def decodeMajor16 (u : Word) : Option Instr :=
  some (.cvtdn (u.extractLsb' 31 1) (u.extractLsb' 23 2) (u.extractLsb' 21 2) (u.extractLsb' 14 7) (u.extractLsb' 7 7) (u.extractLsb' 4 3) (u.extractLsb' 0 4))

/-- The instructions of major 0x17 (R256). -/
def decodeMajor17 (u : Word) : Option Instr :=
  match (u.extractLsb' 21 4).toNat with
  | 0 => some (.cvtup (u.extractLsb' 31 1) (u.extractLsb' 14 7) (u.extractLsb' 7 7) (u.extractLsb' 4 3) (u.extractLsb' 0 4))
  | _ => none

/-- The instructions of major 0x18 (R256). -/
def decodeMajor18 (u : Word) : Option Instr :=
  match (u.extractLsb' 21 4).toNat with
  | 0 => if (u.extractLsb' 0 7) == 0x0#7 then some (.mov (u.extractLsb' 31 1) (u.extractLsb' 14 7) (u.extractLsb' 7 7)) else none
  | 1 => if (u.extractLsb' 0 14) == 0x0#14 then some (.movcRead (u.extractLsb' 31 1) (u.extractLsb' 14 7)) else if (u.extractLsb' 14 7) == 0x0#7 && (u.extractLsb' 0 7) == 0x1#7 then some (.movcWrite (u.extractLsb' 31 1) (u.extractLsb' 7 7)) else none
  | 2 => if (u.extractLsb' 3 11) == 0x0#11 then some (.xget (u.extractLsb' 31 1) (u.extractLsb' 14 7) (u.extractLsb' 0 3)) else none
  | 3 => if (u.extractLsb' 17 4) == 0x0#4 && (u.extractLsb' 7 7) == 0x0#7 then some (.xset (u.extractLsb' 31 1) (u.extractLsb' 14 3) (u.extractLsb' 0 7)) else none
  | 4 => if (u.extractLsb' 17 4) == 0x0#4 && (u.extractLsb' 7 7) == 0x0#7 then some (.xadj (u.extractLsb' 31 1) (u.extractLsb' 14 3) (u.extractLsb' 0 7)) else none
  | 5 => if (u.extractLsb' 3 11) == 0x0#11 then some (.fget (u.extractLsb' 31 1) (u.extractLsb' 14 7) (u.extractLsb' 0 3)) else none
  | 6 => if (u.extractLsb' 17 4) == 0x0#4 && (u.extractLsb' 7 7) == 0x0#7 then some (.fset (u.extractLsb' 31 1) (u.extractLsb' 14 3) (u.extractLsb' 0 7)) else none
  | 7 => if (u.extractLsb' 3 11) == 0x0#11 then some (.mget (u.extractLsb' 31 1) (u.extractLsb' 14 7) (u.extractLsb' 0 3)) else none
  | 8 => if (u.extractLsb' 17 4) == 0x0#4 && (u.extractLsb' 7 7) == 0x0#7 then some (.mset (u.extractLsb' 31 1) (u.extractLsb' 14 3) (u.extractLsb' 0 7)) else none
  | _ => none

/-- The instructions of major 0x19 (R256). -/
def decodeMajor19 (u : Word) : Option Instr :=
  some (.movi (u.extractLsb' 31 1) (u.extractLsb' 18 7) (u.extractLsb' 0 18))

/-- The instructions of major 0x1A (R256). -/
def decodeMajor1A (u : Word) : Option Instr :=
  match (u.extractLsb' 10 1).toNat with
  | 0 => if (u.extractLsb' 11 7) == 0x0#7 then some (.csrr (u.extractLsb' 31 1) (u.extractLsb' 18 7) (u.extractLsb' 0 10)) else none
  | _ => if (u.extractLsb' 18 7) == 0x0#7 then some (.csrw (u.extractLsb' 31 1) (u.extractLsb' 11 7) (u.extractLsb' 0 10)) else none

/-- The instructions of major 0x1B (R256). -/
def decodeMajor1B (u : Word) : Option Instr :=
  match (u.extractLsb' 24 1).toNat with
  | 0 => if (u.extractLsb' 20 4) == 0x0#4 && (u.extractLsb' 0 11) == 0x0#11 then some (.sdef (u.extractLsb' 31 1) (u.extractLsb' 18 2) (u.extractLsb' 11 7)) else none
  | _ => if (u.extractLsb' 20 4) == 0x0#4 && (u.extractLsb' 0 18) == 0x0#18 then some (.sstop (u.extractLsb' 31 1) (u.extractLsb' 18 2)) else none

/-- The instructions of major 0x1C (R256). -/
def decodeMajor1C (u : Word) : Option Instr :=
  some (.br (u.extractLsb' 31 1) (u.extractLsb' 24 1) (u.extractLsb' 21 3) (u.extractLsb' 0 21))

/-- The instructions of major 0x1D (R256). -/
def decodeMajor1D (u : Word) : Option Instr :=
  match (u.extractLsb' 17 1).toNat with
  | 0 => if (u.extractLsb' 18 7) == 0x0#7 then some (.jmp (u.extractLsb' 31 1) (u.extractLsb' 0 17)) else none
  | _ => some (.call (u.extractLsb' 31 1) (u.extractLsb' 18 7) (u.extractLsb' 0 17))

/-- The instructions of major 0x1E (R256). -/
def decodeMajor1E (u : Word) : Option Instr :=
  match (u.extractLsb' 21 4).toNat with
  | 0 => if (u.extractLsb' 14 7) == 0x0#7 && (u.extractLsb' 0 7) == 0x0#7 then some (.brx (u.extractLsb' 31 1) (u.extractLsb' 7 7)) else none
  | 1 => if (u.extractLsb' 0 7) == 0x0#7 then some (.callx (u.extractLsb' 31 1) (u.extractLsb' 14 7) (u.extractLsb' 7 7)) else none
  | 2 => if (u.extractLsb' 14 7) == 0x0#7 && (u.extractLsb' 0 7) == 0x0#7 then some (.ret (u.extractLsb' 31 1) (u.extractLsb' 7 7)) else none
  | _ => none

/-- The instructions of major 0x1F (R256). -/
def decodeMajor1F (u : Word) : Option Instr :=
  match (u.extractLsb' 20 5).toNat with
  | 0 => if (u.extractLsb' 0 20) == 0x0#20 then some (.nop (u.extractLsb' 31 1)) else none
  | 1 => if (u.extractLsb' 0 20) == 0x0#20 then some (.exit (u.extractLsb' 31 1)) else none
  | 2 => if (u.extractLsb' 0 20) == 0x0#20 then some (.yield (u.extractLsb' 31 1)) else none
  | 3 => if (u.extractLsb' 16 4) == 0x0#4 then some (.park (u.extractLsb' 31 1) (u.extractLsb' 0 16)) else none
  | 4 => some (.brk (u.extractLsb' 31 1) (u.extractLsb' 0 20))
  | 5 => some (.bstr (u.extractLsb' 31 1) (u.extractLsb' 18 2) (u.extractLsb' 16 2) (u.extractLsb' 15 1) (u.extractLsb' 0 15))
  | _ => none

/-- The instructions of major 0x20 (R256). -/
def decodeMajor20 (u : Word) : Option Instr :=
  some (.ldLn (u.extractLsb' 31 1) (u.extractLsb' 22 3) (u.extractLsb' 15 7) (u.extractLsb' 8 7) (u.extractLsb' 0 8))

/-- The instructions of major 0x21 (R256). -/
def decodeMajor21 (u : Word) : Option Instr :=
  some (.stLn (u.extractLsb' 31 1) (u.extractLsb' 22 3) (u.extractLsb' 15 7) (u.extractLsb' 8 7) (u.extractLsb' 0 8))

/-- The instructions of major 0x22 (R256). -/
def decodeMajor22 (u : Word) : Option Instr :=
  some (.ldCo (u.extractLsb' 31 1) (u.extractLsb' 22 3) (u.extractLsb' 15 7) (u.extractLsb' 8 7) (u.extractLsb' 0 8))

/-- The instructions of major 0x23 (R256). -/
def decodeMajor23 (u : Word) : Option Instr :=
  some (.stCo (u.extractLsb' 31 1) (u.extractLsb' 22 3) (u.extractLsb' 15 7) (u.extractLsb' 8 7) (u.extractLsb' 0 8))

/-- The instructions of major 0x24 (R256). -/
def decodeMajor24 (u : Word) : Option Instr :=
  some (.ldCl (u.extractLsb' 31 1) (u.extractLsb' 22 3) (u.extractLsb' 15 7) (u.extractLsb' 8 7) (u.extractLsb' 0 8))

/-- The instructions of major 0x25 (R256). -/
def decodeMajor25 (u : Word) : Option Instr :=
  some (.stCl (u.extractLsb' 31 1) (u.extractLsb' 22 3) (u.extractLsb' 15 7) (u.extractLsb' 8 7) (u.extractLsb' 0 8))

/-- The instructions of major 0x26 (R256). -/
def decodeMajor26 (u : Word) : Option Instr :=
  some (.ldCh (u.extractLsb' 31 1) (u.extractLsb' 22 3) (u.extractLsb' 15 7) (u.extractLsb' 8 7) (u.extractLsb' 0 8))

/-- The instructions of major 0x27 (R256). -/
def decodeMajor27 (u : Word) : Option Instr :=
  some (.stCh (u.extractLsb' 31 1) (u.extractLsb' 22 3) (u.extractLsb' 15 7) (u.extractLsb' 8 7) (u.extractLsb' 0 8))

/-- The instructions of major 0x28 (R256). -/
def decodeMajor28 (u : Word) : Option Instr :=
  some (.ldGl (u.extractLsb' 31 1) (u.extractLsb' 22 3) (u.extractLsb' 15 7) (u.extractLsb' 8 7) (u.extractLsb' 0 8))

/-- The instructions of major 0x29 (R256). -/
def decodeMajor29 (u : Word) : Option Instr :=
  some (.stGl (u.extractLsb' 31 1) (u.extractLsb' 22 3) (u.extractLsb' 15 7) (u.extractLsb' 8 7) (u.extractLsb' 0 8))

/-- The instructions of major 0x2A (R256). -/
def decodeMajor2A (u : Word) : Option Instr :=
  match (u.extractLsb' 20 5).toNat with
  | 0 => if (u.extractLsb' 0 1) == 0x0#1 then some (.atomAdd (u.extractLsb' 31 1) (u.extractLsb' 17 3) (u.extractLsb' 16 1) (u.extractLsb' 15 1) (u.extractLsb' 8 7) (u.extractLsb' 1 7)) else none
  | 1 => if (u.extractLsb' 0 1) == 0x0#1 then some (.atomAnd (u.extractLsb' 31 1) (u.extractLsb' 17 3) (u.extractLsb' 16 1) (u.extractLsb' 15 1) (u.extractLsb' 8 7) (u.extractLsb' 1 7)) else none
  | 2 => if (u.extractLsb' 0 1) == 0x0#1 then some (.atomOr (u.extractLsb' 31 1) (u.extractLsb' 17 3) (u.extractLsb' 16 1) (u.extractLsb' 15 1) (u.extractLsb' 8 7) (u.extractLsb' 1 7)) else none
  | 3 => if (u.extractLsb' 0 1) == 0x0#1 then some (.atomXor (u.extractLsb' 31 1) (u.extractLsb' 17 3) (u.extractLsb' 16 1) (u.extractLsb' 15 1) (u.extractLsb' 8 7) (u.extractLsb' 1 7)) else none
  | 4 => if (u.extractLsb' 0 1) == 0x0#1 then some (.atomMinI (u.extractLsb' 31 1) (u.extractLsb' 17 3) (u.extractLsb' 16 1) (u.extractLsb' 15 1) (u.extractLsb' 8 7) (u.extractLsb' 1 7)) else none
  | 5 => if (u.extractLsb' 0 1) == 0x0#1 then some (.atomMaxI (u.extractLsb' 31 1) (u.extractLsb' 17 3) (u.extractLsb' 16 1) (u.extractLsb' 15 1) (u.extractLsb' 8 7) (u.extractLsb' 1 7)) else none
  | 6 => if (u.extractLsb' 0 1) == 0x0#1 then some (.atomMinN (u.extractLsb' 31 1) (u.extractLsb' 17 3) (u.extractLsb' 16 1) (u.extractLsb' 15 1) (u.extractLsb' 8 7) (u.extractLsb' 1 7)) else none
  | 7 => if (u.extractLsb' 0 1) == 0x0#1 then some (.atomMaxN (u.extractLsb' 31 1) (u.extractLsb' 17 3) (u.extractLsb' 16 1) (u.extractLsb' 15 1) (u.extractLsb' 8 7) (u.extractLsb' 1 7)) else none
  | 8 => if (u.extractLsb' 0 1) == 0x0#1 then some (.atomSwap (u.extractLsb' 31 1) (u.extractLsb' 17 3) (u.extractLsb' 16 1) (u.extractLsb' 15 1) (u.extractLsb' 8 7) (u.extractLsb' 1 7)) else none
  | 9 => if (u.extractLsb' 0 1) == 0x0#1 then some (.atomCas (u.extractLsb' 31 1) (u.extractLsb' 17 3) (u.extractLsb' 16 1) (u.extractLsb' 15 1) (u.extractLsb' 8 7) (u.extractLsb' 1 7)) else none
  | 10 => if (u.extractLsb' 0 1) == 0x0#1 then some (.atomFadd (u.extractLsb' 31 1) (u.extractLsb' 17 3) (u.extractLsb' 16 1) (u.extractLsb' 15 1) (u.extractLsb' 8 7) (u.extractLsb' 1 7)) else none
  | _ => none

/-- The instructions of major 0x2B (R256). -/
def decodeMajor2B (u : Word) : Option Instr :=
  match (u.extractLsb' 20 5).toNat with
  | 0 => if (u.extractLsb' 0 20) == 0x0#20 then some (.fence (u.extractLsb' 31 1)) else none
  | 1 => if (u.extractLsb' 0 20) == 0x0#20 then some (.drainNt (u.extractLsb' 31 1)) else none
  | 2 => if (u.extractLsb' 0 13) == 0x0#13 then some (.pflush (u.extractLsb' 31 1) (u.extractLsb' 13 7)) else none
  | 3 => if (u.extractLsb' 0 6) == 0x0#6 then some (.cwait (u.extractLsb' 31 1) (u.extractLsb' 13 7) (u.extractLsb' 6 7)) else none
  | 4 => if (u.extractLsb' 0 6) == 0x0#6 then some (.cadd (u.extractLsb' 31 1) (u.extractLsb' 13 7) (u.extractLsb' 6 7)) else none
  | 5 => if (u.extractLsb' 0 6) == 0x0#6 then some (.cpoll (u.extractLsb' 31 1) (u.extractLsb' 13 7) (u.extractLsb' 6 7)) else none
  | 6 => if (u.extractLsb' 0 13) == 0x0#13 then some (.wsig (u.extractLsb' 31 1) (u.extractLsb' 13 7)) else none
  | 7 => if (u.extractLsb' 0 13) == 0x0#13 then some (.wred (u.extractLsb' 31 1) (u.extractLsb' 13 7)) else none
  | _ => none

/-- The instructions of major 0x2C (R256). -/
def decodeMajor2C (u : Word) : Option Instr :=
  match (u.extractLsb' 21 4).toNat with
  | 0 => some (.pickK (u.extractLsb' 31 1) (u.extractLsb' 18 3) (u.extractLsb' 11 7) (u.extractLsb' 4 7) (u.extractLsb' 0 4))
  | 1 => some (.pickR (u.extractLsb' 31 1) (u.extractLsb' 18 3) (u.extractLsb' 11 7) (u.extractLsb' 4 7) (u.extractLsb' 0 4))
  | 2 => some (.pickXor (u.extractLsb' 31 1) (u.extractLsb' 18 3) (u.extractLsb' 11 7) (u.extractLsb' 4 7) (u.extractLsb' 0 4))
  | 3 => some (.pickAdd (u.extractLsb' 31 1) (u.extractLsb' 18 3) (u.extractLsb' 11 7) (u.extractLsb' 4 7) (u.extractLsb' 0 4))
  | 4 => some (.pickSub (u.extractLsb' 31 1) (u.extractLsb' 18 3) (u.extractLsb' 11 7) (u.extractLsb' 4 7) (u.extractLsb' 0 4))
  | 5 => if (u.extractLsb' 14 4) == 0x0#4 && (u.extractLsb' 4 7) == 0x0#7 then some (.census (u.extractLsb' 31 1) (u.extractLsb' 18 3) (u.extractLsb' 11 3) (u.extractLsb' 0 4)) else none
  | 6 => if (u.extractLsb' 14 4) == 0x0#4 && (u.extractLsb' 1 3) == 0x0#3 then some (.kin (u.extractLsb' 31 1) (u.extractLsb' 18 3) (u.extractLsb' 11 3) (u.extractLsb' 4 7) (u.extractLsb' 0 1)) else none
  | 7 => if (u.extractLsb' 4 7) == 0x0#7 then some (.agreeAll (u.extractLsb' 31 1) (u.extractLsb' 18 3) (u.extractLsb' 17 1) (u.extractLsb' 14 3) (u.extractLsb' 11 3) (u.extractLsb' 0 4)) else none
  | 8 => if (u.extractLsb' 4 7) == 0x0#7 then some (.agreeAny (u.extractLsb' 31 1) (u.extractLsb' 18 3) (u.extractLsb' 17 1) (u.extractLsb' 14 3) (u.extractLsb' 11 3) (u.extractLsb' 0 4)) else none
  | 9 => if (u.extractLsb' 4 7) == 0x0#7 then some (.agreeSame (u.extractLsb' 31 1) (u.extractLsb' 18 3) (u.extractLsb' 17 1) (u.extractLsb' 14 3) (u.extractLsb' 11 3) (u.extractLsb' 0 4)) else none
  | 10 => if (u.extractLsb' 2 2) == 0x0#2 then some (.combAdd (u.extractLsb' 31 1) (u.extractLsb' 18 3) (u.extractLsb' 11 7) (u.extractLsb' 4 7) (u.extractLsb' 0 2)) else none
  | 11 => if (u.extractLsb' 2 2) == 0x0#2 then some (.combMin (u.extractLsb' 31 1) (u.extractLsb' 18 3) (u.extractLsb' 11 7) (u.extractLsb' 4 7) (u.extractLsb' 0 2)) else none
  | 12 => if (u.extractLsb' 2 2) == 0x0#2 then some (.combMax (u.extractLsb' 31 1) (u.extractLsb' 18 3) (u.extractLsb' 11 7) (u.extractLsb' 4 7) (u.extractLsb' 0 2)) else none
  | 13 => if (u.extractLsb' 2 2) == 0x0#2 then some (.scanAdd (u.extractLsb' 31 1) (u.extractLsb' 18 3) (u.extractLsb' 11 7) (u.extractLsb' 4 7) (u.extractLsb' 0 2)) else none
  | 14 => if (u.extractLsb' 0 18) == 0x0#18 then some (.fenceGrp (u.extractLsb' 31 1) (u.extractLsb' 18 3)) else none
  | _ => none

/-- The instructions of major 0x2D (R256). -/
def decodeMajor2D (u : Word) : Option Instr :=
  match (u.extractLsb' 20 5).toNat with
  | 0 => if (u.extractLsb' 0 13) == 0x0#13 then some (.xiss (u.extractLsb' 31 1) (u.extractLsb' 13 7)) else none
  | 1 => if (u.extractLsb' 0 4) == 0x0#4 then some (.rsend (u.extractLsb' 31 1) (u.extractLsb' 16 4) (u.extractLsb' 9 7) (u.extractLsb' 4 5)) else none
  | 2 => if (u.extractLsb' 0 4) == 0x0#4 then some (.rrecv (u.extractLsb' 31 1) (u.extractLsb' 16 4) (u.extractLsb' 9 7) (u.extractLsb' 4 5)) else none
  | 3 => if (u.extractLsb' 0 10) == 0x0#10 then some (.bar (u.extractLsb' 31 1) (u.extractLsb' 16 4) (u.extractLsb' 10 6)) else none
  | 4 => if (u.extractLsb' 0 16) == 0x0#16 then some (.barCl (u.extractLsb' 31 1) (u.extractLsb' 16 4)) else none
  | 5 => if (u.extractLsb' 0 9) == 0x0#9 then some (.arrive (u.extractLsb' 31 1) (u.extractLsb' 16 4) (u.extractLsb' 10 6) (u.extractLsb' 9 1)) else none
  | 6 => if (u.extractLsb' 0 10) == 0x0#10 then some (.gdef (u.extractLsb' 31 1) (u.extractLsb' 17 3) (u.extractLsb' 10 7)) else none
  | _ => none

/-- The instructions of major 0x2E (R256). -/
def decodeMajor2E (u : Word) : Option Instr :=
  match (u.extractLsb' 20 5).toNat with
  | 0 => if (u.extractLsb' 11 1) == 0x0#1 then some (.tdef (u.extractLsb' 31 1) (u.extractLsb' 12 8) (u.extractLsb' 0 11)) else if (u.extractLsb' 11 1) == 0x1#1 && (u.extractLsb' 0 4) == 0x0#4 then some (.tdefReg (u.extractLsb' 31 1) (u.extractLsb' 12 8) (u.extractLsb' 4 7)) else none
  | 1 => if (u.extractLsb' 0 12) == 0x0#12 then some (.tfree (u.extractLsb' 31 1) (u.extractLsb' 12 8)) else none
  | 2 => if (u.extractLsb' 0 5) == 0x0#5 then some (.tstate (u.extractLsb' 31 1) (u.extractLsb' 12 8) (u.extractLsb' 5 7)) else none
  | 3 => if (u.extractLsb' 0 5) == 0x0#5 then some (.kick (u.extractLsb' 31 1) (u.extractLsb' 13 7) (u.extractLsb' 5 8)) else none
  | 4 => if (u.extractLsb' 19 1) == 0x0#1 && (u.extractLsb' 0 5) == 0x0#5 then some (.barm (u.extractLsb' 31 1) (u.extractLsb' 12 7) (u.extractLsb' 5 7)) else if (u.extractLsb' 19 1) == 0x1#1 && (u.extractLsb' 0 4) == 0x0#4 then some (.barmT (u.extractLsb' 31 1) (u.extractLsb' 11 8) (u.extractLsb' 4 7)) else none
  | 5 => if (u.extractLsb' 19 1) == 0x0#1 && (u.extractLsb' 0 5) == 0x0#5 then some (.bwait (u.extractLsb' 31 1) (u.extractLsb' 12 7) (u.extractLsb' 5 7)) else if (u.extractLsb' 19 1) == 0x1#1 && (u.extractLsb' 0 4) == 0x0#4 then some (.bwaitT (u.extractLsb' 31 1) (u.extractLsb' 11 8) (u.extractLsb' 4 7)) else none
  | 6 => if (u.extractLsb' 0 13) == 0x0#13 then some (.task (u.extractLsb' 31 1) (u.extractLsb' 13 7)) else none
  | 7 => if (u.extractLsb' 0 13) == 0x0#13 then some (.chain (u.extractLsb' 31 1) (u.extractLsb' 13 7)) else none
  | _ => none

/-- The instructions of major 0x2F (R256). -/
def decodeMajor2F (u : Word) : Option Instr :=
  match (u.extractLsb' 20 5).toNat with
  | 0 => if (u.extractLsb' 0 9) == 0x0#9 then some (.cres (u.extractLsb' 31 1) (u.extractLsb' 16 4) (u.extractLsb' 9 7)) else none
  | 1 => if (u.extractLsb' 0 16) == 0x0#16 then some (.crel (u.extractLsb' 31 1) (u.extractLsb' 16 4)) else none
  | 2 => if (u.extractLsb' 0 10) == 0x0#10 then some (.mldb (u.extractLsb' 31 1) (u.extractLsb' 17 3) (u.extractLsb' 10 7)) else none
  | 3 => some (.mma (u.extractLsb' 31 1) (u.extractLsb' 17 3) (u.extractLsb' 10 7) (u.extractLsb' 3 7) (u.extractLsb' 1 2) (u.extractLsb' 0 1))
  | 4 => some (.mmap (u.extractLsb' 31 1) (u.extractLsb' 17 3) (u.extractLsb' 10 7) (u.extractLsb' 3 7) (u.extractLsb' 1 2) (u.extractLsb' 0 1))
  | 5 => if (u.extractLsb' 0 13) == 0x0#13 then some (.mzero (u.extractLsb' 31 1) (u.extractLsb' 17 3) (u.extractLsb' 13 4)) else none
  | 6 => if (u.extractLsb' 0 10) == 0x0#10 then some (.mst (u.extractLsb' 31 1) (u.extractLsb' 17 3) (u.extractLsb' 10 7)) else none
  | 7 => if (u.extractLsb' 0 2) == 0x0#2 then some (.mrd (u.extractLsb' 31 1) (u.extractLsb' 16 4) (u.extractLsb' 9 7) (u.extractLsb' 2 7)) else none
  | _ => none

/-- The instructions of major 0x30 (R256). -/
def decodeMajor30 (u : Word) : Option Instr :=
  match (u.extractLsb' 20 5).toNat with
  | 0 => if (u.extractLsb' 0 10) == 0x0#10 then some (.ssx (u.extractLsb' 31 1) (u.extractLsb' 17 3) (u.extractLsb' 10 7)) else none
  | 1 => if (u.extractLsb' 0 5) == 0x0#5 then some (.ssq (u.extractLsb' 31 1) (u.extractLsb' 13 7) (u.extractLsb' 6 7) (u.extractLsb' 5 1)) else none
  | _ => none

/-- The instructions of major 0x31 (R256). -/
def decodeMajor31 (u : Word) : Option Instr :=
  match (u.extractLsb' 20 5).toNat with
  | 0 => if (u.extractLsb' 0 6) == 0x0#6 then some (.rhset (u.extractLsb' 31 1) (u.extractLsb' 13 7) (u.extractLsb' 6 7)) else none
  | 1 => if (u.extractLsb' 0 6) == 0x0#6 then some (.rhpri (u.extractLsb' 31 1) (u.extractLsb' 13 7) (u.extractLsb' 6 7)) else none
  | 2 => if (u.extractLsb' 0 13) == 0x0#13 then some (.rhdem (u.extractLsb' 31 1) (u.extractLsb' 13 7)) else none
  | 3 => if (u.extractLsb' 0 6) == 0x0#6 then some (.pref (u.extractLsb' 31 1) (u.extractLsb' 13 7) (u.extractLsb' 6 7)) else none
  | _ => none

/-- The instructions of major 0x32 (R256). -/
noncomputable def decodeMajor32 (u : Word) : Option Instr :=
  match (u.extractLsb' 20 5).toNat with
  | 0 => some (.svc (u.extractLsb' 31 1) (u.extractLsb' 13 7) (u.extractLsb' 0 13))
  | 1 => if (u.extractLsb' 0 5) == 0x0#5 then some (.trap (u.extractLsb' 31 1) (u.extractLsb' 12 8) (u.extractLsb' 5 7)) else none
  | 2 => if (u.extractLsb' 0 20) == 0x0#20 then some (.tret (u.extractLsb' 31 1)) else none
  | 3 => if (u.extractLsb' 0 6) == 0x0#6 then some (.spawn (u.extractLsb' 31 1) (u.extractLsb' 13 7) (u.extractLsb' 6 7)) else none
  | 4 => if (u.extractLsb' 0 6) == 0x0#6 then some (.cacheopClean (u.extractLsb' 31 1) (u.extractLsb' 13 7) (u.extractLsb' 6 7)) else if (u.extractLsb' 0 6) == 0x1#6 then some (.cacheopEv1 (u.extractLsb' 31 1) (u.extractLsb' 13 7) (u.extractLsb' 6 7)) else if (u.extractLsb' 0 6) == 0x2#6 then some (.cacheopEv2 (u.extractLsb' 31 1) (u.extractLsb' 13 7) (u.extractLsb' 6 7)) else if (u.extractLsb' 0 6) == 0x3#6 then some (.cacheopPod (u.extractLsb' 31 1) (u.extractLsb' 13 7) (u.extractLsb' 6 7)) else none
  | 5 => if (u.extractLsb' 0 6) == 0x0#6 then some (.tlbinv (u.extractLsb' 31 1) (u.extractLsb' 13 7) (u.extractLsb' 6 7)) else none
  | 6 => if (u.extractLsb' 0 13) == 0x0#13 then some (.wfe (u.extractLsb' 31 1) (u.extractLsb' 13 7)) else none
  | _ => none

/-- The instructions of major 0x3E (R256). -/
noncomputable def decodeMajor3E (u : Word) : Option Instr :=
  match (u.extractLsb' 22 3).toNat with
  | 0 => if (u.extractLsb' 31 1) == 0x0#1 then some (.hintImm (u.extractLsb' 0 22)) else none
  | 1 => if (u.extractLsb' 31 1) == 0x0#1 then some (.hintOpi (u.extractLsb' 0 22)) else none
  | 2 => if (u.extractLsb' 31 1) == 0x0#1 && (u.extractLsb' 3 19) == 0x0#19 then some (.hintScope (u.extractLsb' 0 3)) else none
  | 3 => if (u.extractLsb' 31 1) == 0x0#1 && (u.extractLsb' 6 16) == 0x0#16 then some (.hintRnd (u.extractLsb' 4 2) (u.extractLsb' 3 1) (u.extractLsb' 0 3)) else none
  | 4 => if (u.extractLsb' 31 1) == 0x0#1 && (u.extractLsb' 7 15) == 0x0#15 then some (.hintCache (u.extractLsb' 4 3) (u.extractLsb' 2 2) (u.extractLsb' 0 2)) else none
  | 5 => if (u.extractLsb' 31 1) == 0x0#1 && (u.extractLsb' 7 15) == 0x0#15 then some (.hintAdd (u.extractLsb' 0 7)) else none
  | _ => none

/-- The instruction of a word by its major opcode, before the selector checks (R256). -/
noncomputable def decodeRaw (u : Word) : Option Instr :=
  match (u.extractLsb' 25 6).toNat with
  | 0x01 => decodeMajor01 u
  | 0x02 => decodeMajor02 u
  | 0x03 => decodeMajor03 u
  | 0x04 => decodeMajor04 u
  | 0x05 => decodeMajor05 u
  | 0x06 => decodeMajor06 u
  | 0x07 => decodeMajor07 u
  | 0x08 => decodeMajor08 u
  | 0x09 => decodeMajor09 u
  | 0x0A => decodeMajor0A u
  | 0x0B => decodeMajor0B u
  | 0x0C => decodeMajor0C u
  | 0x0D => decodeMajor0D u
  | 0x0E => decodeMajor0E u
  | 0x10 => decodeMajor10 u
  | 0x11 => decodeMajor11 u
  | 0x12 => decodeMajor12 u
  | 0x13 => decodeMajor13 u
  | 0x14 => decodeMajor14 u
  | 0x15 => decodeMajor15 u
  | 0x16 => decodeMajor16 u
  | 0x17 => decodeMajor17 u
  | 0x18 => decodeMajor18 u
  | 0x19 => decodeMajor19 u
  | 0x1A => decodeMajor1A u
  | 0x1B => decodeMajor1B u
  | 0x1C => decodeMajor1C u
  | 0x1D => decodeMajor1D u
  | 0x1E => decodeMajor1E u
  | 0x1F => decodeMajor1F u
  | 0x20 => decodeMajor20 u
  | 0x21 => decodeMajor21 u
  | 0x22 => decodeMajor22 u
  | 0x23 => decodeMajor23 u
  | 0x24 => decodeMajor24 u
  | 0x25 => decodeMajor25 u
  | 0x26 => decodeMajor26 u
  | 0x27 => decodeMajor27 u
  | 0x28 => decodeMajor28 u
  | 0x29 => decodeMajor29 u
  | 0x2A => decodeMajor2A u
  | 0x2B => decodeMajor2B u
  | 0x2C => decodeMajor2C u
  | 0x2D => decodeMajor2D u
  | 0x2E => decodeMajor2E u
  | 0x2F => decodeMajor2F u
  | 0x30 => decodeMajor30 u
  | 0x31 => decodeMajor31 u
  | 0x32 => decodeMajor32 u
  | 0x3E => decodeMajor3E u
  | _ => none

/-- The instruction of a word, none where R259 says the encoding is no instruction: an unassigned major, minor,
selector, M op cell or A op, or a nonzero reserved field. -/
noncomputable def decodeWord (u : Word) : Option Instr :=
  match decodeRaw u with
  | some i => if i.wf then some i else none
  | none => none

/-- What a fetched word is: an instruction; a hint that makes the instruction it applies to illegal (a kind of 110
or 111, or a nonzero reserved payload bit, R254); or no instruction. -/
inductive Fetched where
  | instr (i : Instr)
  | badHint
  | illegal
  deriving DecidableEq, Repr

/-- Reads a fetched word (R250, R254, R259). A hint word with W = 1 is illegal at the hint itself. -/
noncomputable def decodeFetched (u : Word) : Fetched :=
  match decodeWord u with
  | some i => .instr i
  | none => if u.extractLsb' 25 7 == 0x3E#7 then .badHint else .illegal

/-- A word's four bytes give the word, little-endian (R8). -/
def wordOfBytes (b0 b1 b2 b3 : Byte) : Word := b3 ++ b2 ++ b1 ++ b0

/-- Decodes the first word of a byte list, with the rest of the list. -/
noncomputable def decodeBytes : List Byte → Option (Instr × List Byte)
  | b0 :: b1 :: b2 :: b3 :: rest => (decodeWord (wordOfBytes b0 b1 b2 b3)).map (·, rest)
  | _ => none

/-- The host's question: the instruction of a word numbered as the opcode table numbers it. Every instruction has
32 bits, so the bits above `nbits` are the word's zeros. -/
noncomputable def decodeTableWord (nbits w : Nat) : Option Instr :=
  if nbits = 0 ∨ 32 < nbits then none else decodeWord (BitVec.ofNat 32 (w % 2 ^ nbits))

/-! The word of each instruction row, from the layouts of R248 and the codes of R256. -/
namespace Enc

def add (w : BitVec 1) (d : BitVec 7) (a : BitVec 7) (b : BitVec 7) : Word := w ++ 0x10#10 ++ d ++ a ++ b
def sub (w : BitVec 1) (d : BitVec 7) (a : BitVec 7) (b : BitVec 7) : Word := w ++ 0x11#10 ++ d ++ a ++ b
def mul (w : BitVec 1) (d : BitVec 7) (a : BitVec 7) (b : BitVec 7) : Word := w ++ 0x12#10 ++ d ++ a ++ b
def mulhI (w : BitVec 1) (d : BitVec 7) (a : BitVec 7) (b : BitVec 7) : Word := w ++ 0x13#10 ++ d ++ a ++ b
def mulhN (w : BitVec 1) (d : BitVec 7) (a : BitVec 7) (b : BitVec 7) : Word := w ++ 0x14#10 ++ d ++ a ++ b
def minI (w : BitVec 1) (d : BitVec 7) (a : BitVec 7) (b : BitVec 7) : Word := w ++ 0x15#10 ++ d ++ a ++ b
def maxI (w : BitVec 1) (d : BitVec 7) (a : BitVec 7) (b : BitVec 7) : Word := w ++ 0x16#10 ++ d ++ a ++ b
def minN (w : BitVec 1) (d : BitVec 7) (a : BitVec 7) (b : BitVec 7) : Word := w ++ 0x17#10 ++ d ++ a ++ b
def maxN (w : BitVec 1) (d : BitVec 7) (a : BitVec 7) (b : BitVec 7) : Word := w ++ 0x18#10 ++ d ++ a ++ b
def and (w : BitVec 1) (d : BitVec 7) (a : BitVec 7) (b : BitVec 7) : Word := w ++ 0x19#10 ++ d ++ a ++ b
def or (w : BitVec 1) (d : BitVec 7) (a : BitVec 7) (b : BitVec 7) : Word := w ++ 0x1A#10 ++ d ++ a ++ b
def xor (w : BitVec 1) (d : BitVec 7) (a : BitVec 7) (b : BitVec 7) : Word := w ++ 0x1B#10 ++ d ++ a ++ b
def andn (w : BitVec 1) (d : BitVec 7) (a : BitVec 7) (b : BitVec 7) : Word := w ++ 0x1C#10 ++ d ++ a ++ b
def shl (w : BitVec 1) (d : BitVec 7) (a : BitVec 7) (b : BitVec 7) : Word := w ++ 0x1D#10 ++ d ++ a ++ b
def shr (w : BitVec 1) (d : BitVec 7) (a : BitVec 7) (b : BitVec 7) : Word := w ++ 0x1E#10 ++ d ++ a ++ b
def sar (w : BitVec 1) (d : BitVec 7) (a : BitVec 7) (b : BitVec 7) : Word := w ++ 0x1F#10 ++ d ++ a ++ b
def rot (w : BitVec 1) (d : BitVec 7) (a : BitVec 7) (b : BitVec 7) : Word := w ++ 0x20#10 ++ d ++ a ++ b
def mad (w : BitVec 1) (d : BitVec 7) (a : BitVec 7) (b : BitVec 7) : Word := w ++ 0x21#10 ++ d ++ a ++ b
def clz (w : BitVec 1) (d : BitVec 7) (a : BitVec 7) : Word := w ++ 0x22#10 ++ d ++ a ++ 0x0#7
def ctz (w : BitVec 1) (d : BitVec 7) (a : BitVec 7) : Word := w ++ 0x23#10 ++ d ++ a ++ 0x0#7
def popc (w : BitVec 1) (d : BitVec 7) (a : BitVec 7) : Word := w ++ 0x24#10 ++ d ++ a ++ 0x0#7
def brev (w : BitVec 1) (d : BitVec 7) (a : BitVec 7) : Word := w ++ 0x25#10 ++ d ++ a ++ 0x0#7
def bfxI (w : BitVec 1) (d : BitVec 7) (a : BitVec 7) (b : BitVec 7) : Word := w ++ 0x26#10 ++ d ++ a ++ b
def bfxN (w : BitVec 1) (d : BitVec 7) (a : BitVec 7) (b : BitVec 7) : Word := w ++ 0x27#10 ++ d ++ a ++ b
def bfi (w : BitVec 1) (d : BitVec 7) (a : BitVec 7) (b : BitVec 7) : Word := w ++ 0x28#10 ++ d ++ a ++ b
def absd (w : BitVec 1) (d : BitVec 7) (a : BitVec 7) (b : BitVec 7) : Word := w ++ 0x29#10 ++ d ++ a ++ b
def sext8 (w : BitVec 1) (d : BitVec 7) (a : BitVec 7) : Word := w ++ 0x2A#10 ++ d ++ a ++ 0x0#7
def sext16 (w : BitVec 1) (d : BitVec 7) (a : BitVec 7) : Word := w ++ 0x2B#10 ++ d ++ a ++ 0x0#7
def zext8 (w : BitVec 1) (d : BitVec 7) (a : BitVec 7) : Word := w ++ 0x2C#10 ++ d ++ a ++ 0x0#7
def zext16 (w : BitVec 1) (d : BitVec 7) (a : BitVec 7) : Word := w ++ 0x2D#10 ++ d ++ a ++ 0x0#7
def mulwI (w : BitVec 1) (d : BitVec 7) (a : BitVec 7) (b : BitVec 7) : Word := w ++ 0x2E#10 ++ d ++ a ++ b
def mulwN (w : BitVec 1) (d : BitVec 7) (a : BitVec 7) (b : BitVec 7) : Word := w ++ 0x2F#10 ++ d ++ a ++ b
def cmp (w : BitVec 1) (k : BitVec 4) (c : BitVec 3) (a : BitVec 7) (b : BitVec 7) : Word := w ++ 0x3#6 ++ k ++ 0x0#4 ++ c ++ a ++ b
def sel (w : BitVec 1) (s : BitVec 1) (c : BitVec 3) (d : BitVec 7) (a : BitVec 7) (b : BitVec 7) : Word := w ++ 0x4#6 ++ s ++ c ++ d ++ a ++ b
def addi (w : BitVec 1) (d : BitVec 7) (a : BitVec 7) (i : BitVec 11) : Word := w ++ 0x5#6 ++ d ++ a ++ i
def andi (w : BitVec 1) (d : BitVec 7) (a : BitVec 7) (i : BitVec 11) : Word := w ++ 0x6#6 ++ d ++ a ++ i
def ori (w : BitVec 1) (d : BitVec 7) (a : BitVec 7) (i : BitVec 11) : Word := w ++ 0x7#6 ++ d ++ a ++ i
def xori (w : BitVec 1) (d : BitVec 7) (a : BitVec 7) (i : BitVec 11) : Word := w ++ 0x8#6 ++ d ++ a ++ i
def shli (w : BitVec 1) (d : BitVec 7) (a : BitVec 7) (n : BitVec 9) : Word := w ++ 0x9#6 ++ d ++ a ++ 0x0#2 ++ n
def shri (w : BitVec 1) (d : BitVec 7) (a : BitVec 7) (n : BitVec 9) : Word := w ++ 0x9#6 ++ d ++ a ++ 0x1#2 ++ n
def sari (w : BitVec 1) (d : BitVec 7) (a : BitVec 7) (n : BitVec 9) : Word := w ++ 0x9#6 ++ d ++ a ++ 0x2#2 ++ n
def roti (w : BitVec 1) (d : BitVec 7) (a : BitVec 7) (n : BitVec 9) : Word := w ++ 0x9#6 ++ d ++ a ++ 0x3#2 ++ n
def cmpi (w : BitVec 1) (k : BitVec 4) (c : BitVec 3) (a : BitVec 7) (i : BitVec 11) : Word := w ++ 0xA#6 ++ k ++ c ++ a ++ i
def muli (w : BitVec 1) (d : BitVec 7) (a : BitVec 7) (i : BitVec 11) : Word := w ++ 0xB#6 ++ d ++ a ++ i
def padd8 (w : BitVec 1) (d : BitVec 7) (a : BitVec 7) (b : BitVec 7) : Word := w ++ 0xC0#10 ++ d ++ a ++ b
def psub8 (w : BitVec 1) (d : BitVec 7) (a : BitVec 7) (b : BitVec 7) : Word := w ++ 0xC1#10 ++ d ++ a ++ b
def paddsI8 (w : BitVec 1) (d : BitVec 7) (a : BitVec 7) (b : BitVec 7) : Word := w ++ 0xC2#10 ++ d ++ a ++ b
def paddsN8 (w : BitVec 1) (d : BitVec 7) (a : BitVec 7) (b : BitVec 7) : Word := w ++ 0xC3#10 ++ d ++ a ++ b
def psubsI8 (w : BitVec 1) (d : BitVec 7) (a : BitVec 7) (b : BitVec 7) : Word := w ++ 0xC4#10 ++ d ++ a ++ b
def psubsN8 (w : BitVec 1) (d : BitVec 7) (a : BitVec 7) (b : BitVec 7) : Word := w ++ 0xC5#10 ++ d ++ a ++ b
def pminI8 (w : BitVec 1) (d : BitVec 7) (a : BitVec 7) (b : BitVec 7) : Word := w ++ 0xC6#10 ++ d ++ a ++ b
def pmaxI8 (w : BitVec 1) (d : BitVec 7) (a : BitVec 7) (b : BitVec 7) : Word := w ++ 0xC7#10 ++ d ++ a ++ b
def pminN8 (w : BitVec 1) (d : BitVec 7) (a : BitVec 7) (b : BitVec 7) : Word := w ++ 0xC8#10 ++ d ++ a ++ b
def pmaxN8 (w : BitVec 1) (d : BitVec 7) (a : BitVec 7) (b : BitVec 7) : Word := w ++ 0xC9#10 ++ d ++ a ++ b
def pabsd8 (w : BitVec 1) (d : BitVec 7) (a : BitVec 7) (b : BitVec 7) : Word := w ++ 0xCA#10 ++ d ++ a ++ b
def pshl8 (w : BitVec 1) (d : BitVec 7) (a : BitVec 7) (b : BitVec 7) : Word := w ++ 0xCB#10 ++ d ++ a ++ b
def pshr8 (w : BitVec 1) (d : BitVec 7) (a : BitVec 7) (b : BitVec 7) : Word := w ++ 0xCC#10 ++ d ++ a ++ b
def psar8 (w : BitVec 1) (d : BitVec 7) (a : BitVec 7) (b : BitVec 7) : Word := w ++ 0xCD#10 ++ d ++ a ++ b
def pavgN8 (w : BitVec 1) (d : BitVec 7) (a : BitVec 7) (b : BitVec 7) : Word := w ++ 0xCE#10 ++ d ++ a ++ b
def pdot8 (w : BitVec 1) (d : BitVec 7) (a : BitVec 7) (b : BitVec 7) : Word := w ++ 0xCF#10 ++ d ++ a ++ b
def padd16 (w : BitVec 1) (d : BitVec 7) (a : BitVec 7) (b : BitVec 7) : Word := w ++ 0xD0#10 ++ d ++ a ++ b
def psub16 (w : BitVec 1) (d : BitVec 7) (a : BitVec 7) (b : BitVec 7) : Word := w ++ 0xD1#10 ++ d ++ a ++ b
def paddsI16 (w : BitVec 1) (d : BitVec 7) (a : BitVec 7) (b : BitVec 7) : Word := w ++ 0xD2#10 ++ d ++ a ++ b
def paddsN16 (w : BitVec 1) (d : BitVec 7) (a : BitVec 7) (b : BitVec 7) : Word := w ++ 0xD3#10 ++ d ++ a ++ b
def psubsI16 (w : BitVec 1) (d : BitVec 7) (a : BitVec 7) (b : BitVec 7) : Word := w ++ 0xD4#10 ++ d ++ a ++ b
def psubsN16 (w : BitVec 1) (d : BitVec 7) (a : BitVec 7) (b : BitVec 7) : Word := w ++ 0xD5#10 ++ d ++ a ++ b
def pminI16 (w : BitVec 1) (d : BitVec 7) (a : BitVec 7) (b : BitVec 7) : Word := w ++ 0xD6#10 ++ d ++ a ++ b
def pmaxI16 (w : BitVec 1) (d : BitVec 7) (a : BitVec 7) (b : BitVec 7) : Word := w ++ 0xD7#10 ++ d ++ a ++ b
def pminN16 (w : BitVec 1) (d : BitVec 7) (a : BitVec 7) (b : BitVec 7) : Word := w ++ 0xD8#10 ++ d ++ a ++ b
def pmaxN16 (w : BitVec 1) (d : BitVec 7) (a : BitVec 7) (b : BitVec 7) : Word := w ++ 0xD9#10 ++ d ++ a ++ b
def pabsd16 (w : BitVec 1) (d : BitVec 7) (a : BitVec 7) (b : BitVec 7) : Word := w ++ 0xDA#10 ++ d ++ a ++ b
def pshl16 (w : BitVec 1) (d : BitVec 7) (a : BitVec 7) (b : BitVec 7) : Word := w ++ 0xDB#10 ++ d ++ a ++ b
def pshr16 (w : BitVec 1) (d : BitVec 7) (a : BitVec 7) (b : BitVec 7) : Word := w ++ 0xDC#10 ++ d ++ a ++ b
def psar16 (w : BitVec 1) (d : BitVec 7) (a : BitVec 7) (b : BitVec 7) : Word := w ++ 0xDD#10 ++ d ++ a ++ b
def pavgN16 (w : BitVec 1) (d : BitVec 7) (a : BitVec 7) (b : BitVec 7) : Word := w ++ 0xDE#10 ++ d ++ a ++ b
def pdot16 (w : BitVec 1) (d : BitVec 7) (a : BitVec 7) (b : BitVec 7) : Word := w ++ 0xDF#10 ++ d ++ a ++ b
def addD (w : BitVec 1) (d : BitVec 7) (a : BitVec 7) (b : BitVec 7) : Word := w ++ 0xE0#10 ++ d ++ a ++ b
def subD (w : BitVec 1) (d : BitVec 7) (a : BitVec 7) (b : BitVec 7) : Word := w ++ 0xE1#10 ++ d ++ a ++ b
def shlD (w : BitVec 1) (d : BitVec 7) (a : BitVec 7) (b : BitVec 7) : Word := w ++ 0xE2#10 ++ d ++ a ++ b
def shrD (w : BitVec 1) (d : BitVec 7) (a : BitVec 7) (b : BitVec 7) : Word := w ++ 0xE3#10 ++ d ++ a ++ b
def sarD (w : BitVec 1) (d : BitVec 7) (a : BitVec 7) (b : BitVec 7) : Word := w ++ 0xE4#10 ++ d ++ a ++ b
def addxI (w : BitVec 1) (d : BitVec 7) (a : BitVec 7) (b : BitVec 7) : Word := w ++ 0xE5#10 ++ d ++ a ++ b
def addxN (w : BitVec 1) (d : BitVec 7) (a : BitVec 7) (b : BitVec 7) : Word := w ++ 0xE6#10 ++ d ++ a ++ b
def andD (w : BitVec 1) (d : BitVec 7) (a : BitVec 7) (b : BitVec 7) : Word := w ++ 0xE7#10 ++ d ++ a ++ b
def orD (w : BitVec 1) (d : BitVec 7) (a : BitVec 7) (b : BitVec 7) : Word := w ++ 0xE8#10 ++ d ++ a ++ b
def xorD (w : BitVec 1) (d : BitVec 7) (a : BitVec 7) (b : BitVec 7) : Word := w ++ 0xE9#10 ++ d ++ a ++ b
def fadd (w : BitVec 1) (d : BitVec 7) (a : BitVec 7) (b : BitVec 7) : Word := w ++ 0x100#10 ++ d ++ a ++ b
def fsub (w : BitVec 1) (d : BitVec 7) (a : BitVec 7) (b : BitVec 7) : Word := w ++ 0x101#10 ++ d ++ a ++ b
def fmul (w : BitVec 1) (d : BitVec 7) (a : BitVec 7) (b : BitVec 7) : Word := w ++ 0x102#10 ++ d ++ a ++ b
def ffma (w : BitVec 1) (d : BitVec 7) (a : BitVec 7) (b : BitVec 7) : Word := w ++ 0x103#10 ++ d ++ a ++ b
def fnma (w : BitVec 1) (d : BitVec 7) (a : BitVec 7) (b : BitVec 7) : Word := w ++ 0x104#10 ++ d ++ a ++ b
def fmin (w : BitVec 1) (d : BitVec 7) (a : BitVec 7) (b : BitVec 7) : Word := w ++ 0x105#10 ++ d ++ a ++ b
def fmax (w : BitVec 1) (d : BitVec 7) (a : BitVec 7) (b : BitVec 7) : Word := w ++ 0x106#10 ++ d ++ a ++ b
def fabs (w : BitVec 1) (d : BitVec 7) (a : BitVec 7) : Word := w ++ 0x107#10 ++ d ++ a ++ 0x0#7
def fneg (w : BitVec 1) (d : BitVec 7) (a : BitVec 7) : Word := w ++ 0x108#10 ++ d ++ a ++ 0x0#7
def fsgnj (w : BitVec 1) (d : BitVec 7) (a : BitVec 7) (b : BitVec 7) : Word := w ++ 0x109#10 ++ d ++ a ++ b
def faddF64 (w : BitVec 1) (d : BitVec 7) (a : BitVec 7) (b : BitVec 7) : Word := w ++ 0x110#10 ++ d ++ a ++ b
def fsubF64 (w : BitVec 1) (d : BitVec 7) (a : BitVec 7) (b : BitVec 7) : Word := w ++ 0x111#10 ++ d ++ a ++ b
def fmulF64 (w : BitVec 1) (d : BitVec 7) (a : BitVec 7) (b : BitVec 7) : Word := w ++ 0x112#10 ++ d ++ a ++ b
def ffmaF64 (w : BitVec 1) (d : BitVec 7) (a : BitVec 7) (b : BitVec 7) : Word := w ++ 0x113#10 ++ d ++ a ++ b
def fnmaF64 (w : BitVec 1) (d : BitVec 7) (a : BitVec 7) (b : BitVec 7) : Word := w ++ 0x114#10 ++ d ++ a ++ b
def fminF64 (w : BitVec 1) (d : BitVec 7) (a : BitVec 7) (b : BitVec 7) : Word := w ++ 0x115#10 ++ d ++ a ++ b
def fmaxF64 (w : BitVec 1) (d : BitVec 7) (a : BitVec 7) (b : BitVec 7) : Word := w ++ 0x116#10 ++ d ++ a ++ b
def fabsF64 (w : BitVec 1) (d : BitVec 7) (a : BitVec 7) : Word := w ++ 0x117#10 ++ d ++ a ++ 0x0#7
def fnegF64 (w : BitVec 1) (d : BitVec 7) (a : BitVec 7) : Word := w ++ 0x118#10 ++ d ++ a ++ 0x0#7
def fsgnjF64 (w : BitVec 1) (d : BitVec 7) (a : BitVec 7) (b : BitVec 7) : Word := w ++ 0x119#10 ++ d ++ a ++ b
def faddPk (w : BitVec 1) (t : BitVec 1) (d : BitVec 7) (a : BitVec 7) (b : BitVec 7) : Word := w ++ 0x12#6 ++ t ++ 0x0#3 ++ d ++ a ++ b
def fsubPk (w : BitVec 1) (t : BitVec 1) (d : BitVec 7) (a : BitVec 7) (b : BitVec 7) : Word := w ++ 0x12#6 ++ t ++ 0x1#3 ++ d ++ a ++ b
def fmulPk (w : BitVec 1) (t : BitVec 1) (d : BitVec 7) (a : BitVec 7) (b : BitVec 7) : Word := w ++ 0x12#6 ++ t ++ 0x2#3 ++ d ++ a ++ b
def ffmaPk (w : BitVec 1) (t : BitVec 1) (d : BitVec 7) (a : BitVec 7) (b : BitVec 7) : Word := w ++ 0x12#6 ++ t ++ 0x3#3 ++ d ++ a ++ b
def fnmaPk (w : BitVec 1) (t : BitVec 1) (d : BitVec 7) (a : BitVec 7) (b : BitVec 7) : Word := w ++ 0x12#6 ++ t ++ 0x4#3 ++ d ++ a ++ b
def fminPk (w : BitVec 1) (t : BitVec 1) (d : BitVec 7) (a : BitVec 7) (b : BitVec 7) : Word := w ++ 0x12#6 ++ t ++ 0x5#3 ++ d ++ a ++ b
def fmaxPk (w : BitVec 1) (t : BitVec 1) (d : BitVec 7) (a : BitVec 7) (b : BitVec 7) : Word := w ++ 0x12#6 ++ t ++ 0x6#3 ++ d ++ a ++ b
def fnegPk (w : BitVec 1) (t : BitVec 1) (d : BitVec 7) (a : BitVec 7) : Word := w ++ 0x12#6 ++ t ++ 0x7#3 ++ d ++ a ++ 0x0#7
def frcp (w : BitVec 1) (d : BitVec 7) (a : BitVec 7) : Word := w ++ 0x130#10 ++ d ++ a ++ 0x0#7
def frsq (w : BitVec 1) (d : BitVec 7) (a : BitVec 7) : Word := w ++ 0x131#10 ++ d ++ a ++ 0x0#7
def fsqrt (w : BitVec 1) (d : BitVec 7) (a : BitVec 7) : Word := w ++ 0x132#10 ++ d ++ a ++ 0x0#7
def fexp2 (w : BitVec 1) (d : BitVec 7) (a : BitVec 7) : Word := w ++ 0x133#10 ++ d ++ a ++ 0x0#7
def flog2 (w : BitVec 1) (d : BitVec 7) (a : BitVec 7) : Word := w ++ 0x134#10 ++ d ++ a ++ 0x0#7
def fsin (w : BitVec 1) (d : BitVec 7) (a : BitVec 7) : Word := w ++ 0x135#10 ++ d ++ a ++ 0x0#7
def fcos (w : BitVec 1) (d : BitVec 7) (a : BitVec 7) : Word := w ++ 0x136#10 ++ d ++ a ++ 0x0#7
def ftanh (w : BitVec 1) (d : BitVec 7) (a : BitVec 7) : Word := w ++ 0x137#10 ++ d ++ a ++ 0x0#7
def fclass (w : BitVec 1) (d : BitVec 7) (a : BitVec 7) : Word := w ++ 0x138#10 ++ d ++ a ++ 0x0#7
def fcmp (w : BitVec 1) (k : BitVec 3) (c : BitVec 3) (a : BitVec 7) (b : BitVec 7) : Word := w ++ 0x28#7 ++ k ++ 0x0#4 ++ c ++ a ++ b
def fcmpF64 (w : BitVec 1) (k : BitVec 3) (c : BitVec 3) (a : BitVec 7) (b : BitVec 7) : Word := w ++ 0x29#7 ++ k ++ 0x0#4 ++ c ++ a ++ b
def cvtF32I32 (w : BitVec 1) (d : BitVec 7) (a : BitVec 7) : Word := w ++ 0x150#10 ++ d ++ a ++ 0x0#7
def cvtF32N32 (w : BitVec 1) (d : BitVec 7) (a : BitVec 7) : Word := w ++ 0x151#10 ++ d ++ a ++ 0x0#7
def cvtI32F32 (w : BitVec 1) (d : BitVec 7) (a : BitVec 7) : Word := w ++ 0x152#10 ++ d ++ a ++ 0x0#7
def cvtN32F32 (w : BitVec 1) (d : BitVec 7) (a : BitVec 7) : Word := w ++ 0x153#10 ++ d ++ a ++ 0x0#7
def cvtF64F32 (w : BitVec 1) (d : BitVec 7) (a : BitVec 7) : Word := w ++ 0x154#10 ++ d ++ a ++ 0x0#7
def cvtF32F64 (w : BitVec 1) (d : BitVec 7) (a : BitVec 7) : Word := w ++ 0x155#10 ++ d ++ a ++ 0x0#7
def cvtF64I32 (w : BitVec 1) (d : BitVec 7) (a : BitVec 7) : Word := w ++ 0x156#10 ++ d ++ a ++ 0x0#7
def cvtF64N32 (w : BitVec 1) (d : BitVec 7) (a : BitVec 7) : Word := w ++ 0x157#10 ++ d ++ a ++ 0x0#7
def cvtI32F64 (w : BitVec 1) (d : BitVec 7) (a : BitVec 7) : Word := w ++ 0x158#10 ++ d ++ a ++ 0x0#7
def cvtN32F64 (w : BitVec 1) (d : BitVec 7) (a : BitVec 7) : Word := w ++ 0x159#10 ++ d ++ a ++ 0x0#7
def cvtF32Bf16 (w : BitVec 1) (d : BitVec 7) (a : BitVec 7) : Word := w ++ 0x15A#10 ++ d ++ a ++ 0x0#7
def cvtF32F16 (w : BitVec 1) (d : BitVec 7) (a : BitVec 7) : Word := w ++ 0x15B#10 ++ d ++ a ++ 0x0#7
def cvtBf16F32 (w : BitVec 1) (d : BitVec 7) (a : BitVec 7) : Word := w ++ 0x15C#10 ++ d ++ a ++ 0x0#7
def cvtF16F32 (w : BitVec 1) (d : BitVec 7) (a : BitVec 7) : Word := w ++ 0x15D#10 ++ d ++ a ++ 0x0#7
def cvtdn (w : BitVec 1) (o : BitVec 2) (r : BitVec 2) (d : BitVec 7) (a : BitVec 7) (f : BitVec 3) (j : BitVec 4) : Word := w ++ 0x16#6 ++ o ++ r ++ d ++ a ++ f ++ j
def cvtup (w : BitVec 1) (d : BitVec 7) (a : BitVec 7) (f : BitVec 3) (j : BitVec 4) : Word := w ++ 0x170#10 ++ d ++ a ++ f ++ j
def mov (w : BitVec 1) (d : BitVec 7) (a : BitVec 7) : Word := w ++ 0x180#10 ++ d ++ a ++ 0x0#7
def movcRead (w : BitVec 1) (d : BitVec 7) : Word := w ++ 0x181#10 ++ d ++ 0x0#14
def movcWrite (w : BitVec 1) (a : BitVec 7) : Word := w ++ 0xC080#17 ++ a ++ 0x1#7
def xget (w : BitVec 1) (d : BitVec 7) (x : BitVec 3) : Word := w ++ 0x182#10 ++ d ++ 0x0#11 ++ x
def xset (w : BitVec 1) (x : BitVec 3) (b : BitVec 7) : Word := w ++ 0x1830#14 ++ x ++ 0x0#7 ++ b
def xadj (w : BitVec 1) (x : BitVec 3) (b : BitVec 7) : Word := w ++ 0x1840#14 ++ x ++ 0x0#7 ++ b
def fget (w : BitVec 1) (d : BitVec 7) (f : BitVec 3) : Word := w ++ 0x185#10 ++ d ++ 0x0#11 ++ f
def fset (w : BitVec 1) (f : BitVec 3) (b : BitVec 7) : Word := w ++ 0x1860#14 ++ f ++ 0x0#7 ++ b
def mget (w : BitVec 1) (d : BitVec 7) (g : BitVec 3) : Word := w ++ 0x187#10 ++ d ++ 0x0#11 ++ g
def mset (w : BitVec 1) (g : BitVec 3) (b : BitVec 7) : Word := w ++ 0x1880#14 ++ g ++ 0x0#7 ++ b
def movi (w : BitVec 1) (d : BitVec 7) (i : BitVec 18) : Word := w ++ 0x19#6 ++ d ++ i
def csrr (w : BitVec 1) (d : BitVec 7) (n : BitVec 10) : Word := w ++ 0x1A#6 ++ d ++ 0x0#8 ++ n
def csrw (w : BitVec 1) (a : BitVec 7) (n : BitVec 10) : Word := w ++ 0xD00#13 ++ a ++ 0x1#1 ++ n
def sdef (w : BitVec 1) (q : BitVec 2) (a : BitVec 7) : Word := w ++ 0x360#11 ++ q ++ a ++ 0x0#11
def sstop (w : BitVec 1) (q : BitVec 2) : Word := w ++ 0x370#11 ++ q ++ 0x0#18
def br (w : BitVec 1) (s : BitVec 1) (c : BitVec 3) (f : BitVec 21) : Word := w ++ 0x1C#6 ++ s ++ c ++ f
def jmp (w : BitVec 1) (f : BitVec 17) : Word := w ++ 0x1D00#14 ++ f
def call (w : BitVec 1) (d : BitVec 7) (f : BitVec 17) : Word := w ++ 0x1D#6 ++ d ++ 0x1#1 ++ f
def brx (w : BitVec 1) (a : BitVec 7) : Word := w ++ 0xF000#17 ++ a ++ 0x0#7
def callx (w : BitVec 1) (d : BitVec 7) (a : BitVec 7) : Word := w ++ 0x1E1#10 ++ d ++ a ++ 0x0#7
def ret (w : BitVec 1) (a : BitVec 7) : Word := w ++ 0xF100#17 ++ a ++ 0x0#7
def nop (w : BitVec 1) : Word := w ++ 0x3E000000#31
def exit (w : BitVec 1) : Word := w ++ 0x3E100000#31
def yield (w : BitVec 1) : Word := w ++ 0x3E200000#31
def park (w : BitVec 1) (n : BitVec 16) : Word := w ++ 0x3E30#15 ++ n
def brk (w : BitVec 1) (n : BitVec 20) : Word := w ++ 0x3E4#11 ++ n
def bstr (w : BitVec 1) (q : BitVec 2) (k : BitVec 2) (s : BitVec 1) (f : BitVec 15) : Word := w ++ 0x3E5#11 ++ q ++ k ++ s ++ f
def ldLn (w : BitVec 1) (o : BitVec 3) (d : BitVec 7) (a : BitVec 7) (f : BitVec 8) : Word := w ++ 0x20#6 ++ o ++ d ++ a ++ f
def stLn (w : BitVec 1) (o : BitVec 3) (d : BitVec 7) (a : BitVec 7) (f : BitVec 8) : Word := w ++ 0x21#6 ++ o ++ d ++ a ++ f
def ldCo (w : BitVec 1) (o : BitVec 3) (d : BitVec 7) (a : BitVec 7) (f : BitVec 8) : Word := w ++ 0x22#6 ++ o ++ d ++ a ++ f
def stCo (w : BitVec 1) (o : BitVec 3) (d : BitVec 7) (a : BitVec 7) (f : BitVec 8) : Word := w ++ 0x23#6 ++ o ++ d ++ a ++ f
def ldCl (w : BitVec 1) (o : BitVec 3) (d : BitVec 7) (a : BitVec 7) (f : BitVec 8) : Word := w ++ 0x24#6 ++ o ++ d ++ a ++ f
def stCl (w : BitVec 1) (o : BitVec 3) (d : BitVec 7) (a : BitVec 7) (f : BitVec 8) : Word := w ++ 0x25#6 ++ o ++ d ++ a ++ f
def ldCh (w : BitVec 1) (o : BitVec 3) (d : BitVec 7) (a : BitVec 7) (f : BitVec 8) : Word := w ++ 0x26#6 ++ o ++ d ++ a ++ f
def stCh (w : BitVec 1) (o : BitVec 3) (d : BitVec 7) (a : BitVec 7) (f : BitVec 8) : Word := w ++ 0x27#6 ++ o ++ d ++ a ++ f
def ldGl (w : BitVec 1) (o : BitVec 3) (d : BitVec 7) (a : BitVec 7) (f : BitVec 8) : Word := w ++ 0x28#6 ++ o ++ d ++ a ++ f
def stGl (w : BitVec 1) (o : BitVec 3) (d : BitVec 7) (a : BitVec 7) (f : BitVec 8) : Word := w ++ 0x29#6 ++ o ++ d ++ a ++ f
def atomAdd (w : BitVec 1) (s : BitVec 3) (z : BitVec 1) (r : BitVec 1) (d : BitVec 7) (a : BitVec 7) : Word := w ++ 0x540#11 ++ s ++ z ++ r ++ d ++ a ++ 0x0#1
def atomAnd (w : BitVec 1) (s : BitVec 3) (z : BitVec 1) (r : BitVec 1) (d : BitVec 7) (a : BitVec 7) : Word := w ++ 0x541#11 ++ s ++ z ++ r ++ d ++ a ++ 0x0#1
def atomOr (w : BitVec 1) (s : BitVec 3) (z : BitVec 1) (r : BitVec 1) (d : BitVec 7) (a : BitVec 7) : Word := w ++ 0x542#11 ++ s ++ z ++ r ++ d ++ a ++ 0x0#1
def atomXor (w : BitVec 1) (s : BitVec 3) (z : BitVec 1) (r : BitVec 1) (d : BitVec 7) (a : BitVec 7) : Word := w ++ 0x543#11 ++ s ++ z ++ r ++ d ++ a ++ 0x0#1
def atomMinI (w : BitVec 1) (s : BitVec 3) (z : BitVec 1) (r : BitVec 1) (d : BitVec 7) (a : BitVec 7) : Word := w ++ 0x544#11 ++ s ++ z ++ r ++ d ++ a ++ 0x0#1
def atomMaxI (w : BitVec 1) (s : BitVec 3) (z : BitVec 1) (r : BitVec 1) (d : BitVec 7) (a : BitVec 7) : Word := w ++ 0x545#11 ++ s ++ z ++ r ++ d ++ a ++ 0x0#1
def atomMinN (w : BitVec 1) (s : BitVec 3) (z : BitVec 1) (r : BitVec 1) (d : BitVec 7) (a : BitVec 7) : Word := w ++ 0x546#11 ++ s ++ z ++ r ++ d ++ a ++ 0x0#1
def atomMaxN (w : BitVec 1) (s : BitVec 3) (z : BitVec 1) (r : BitVec 1) (d : BitVec 7) (a : BitVec 7) : Word := w ++ 0x547#11 ++ s ++ z ++ r ++ d ++ a ++ 0x0#1
def atomSwap (w : BitVec 1) (s : BitVec 3) (z : BitVec 1) (r : BitVec 1) (d : BitVec 7) (a : BitVec 7) : Word := w ++ 0x548#11 ++ s ++ z ++ r ++ d ++ a ++ 0x0#1
def atomCas (w : BitVec 1) (s : BitVec 3) (z : BitVec 1) (r : BitVec 1) (d : BitVec 7) (a : BitVec 7) : Word := w ++ 0x549#11 ++ s ++ z ++ r ++ d ++ a ++ 0x0#1
def atomFadd (w : BitVec 1) (s : BitVec 3) (z : BitVec 1) (r : BitVec 1) (d : BitVec 7) (a : BitVec 7) : Word := w ++ 0x54A#11 ++ s ++ z ++ r ++ d ++ a ++ 0x0#1
def fence (w : BitVec 1) : Word := w ++ 0x56000000#31
def drainNt (w : BitVec 1) : Word := w ++ 0x56100000#31
def pflush (w : BitVec 1) (a : BitVec 7) : Word := w ++ 0x562#11 ++ a ++ 0x0#13
def cwait (w : BitVec 1) (c : BitVec 7) (n : BitVec 7) : Word := w ++ 0x563#11 ++ c ++ n ++ 0x0#6
def cadd (w : BitVec 1) (c : BitVec 7) (n : BitVec 7) : Word := w ++ 0x564#11 ++ c ++ n ++ 0x0#6
def cpoll (w : BitVec 1) (d : BitVec 7) (c : BitVec 7) : Word := w ++ 0x565#11 ++ d ++ c ++ 0x0#6
def wsig (w : BitVec 1) (a : BitVec 7) : Word := w ++ 0x566#11 ++ a ++ 0x0#13
def wred (w : BitVec 1) (a : BitVec 7) : Word := w ++ 0x567#11 ++ a ++ 0x0#13
def pickK (w : BitVec 1) (m : BitVec 3) (d : BitVec 7) (a : BitVec 7) (n : BitVec 4) : Word := w ++ 0x2C0#10 ++ m ++ d ++ a ++ n
def pickR (w : BitVec 1) (m : BitVec 3) (d : BitVec 7) (a : BitVec 7) (k : BitVec 4) : Word := w ++ 0x2C1#10 ++ m ++ d ++ a ++ k
def pickXor (w : BitVec 1) (m : BitVec 3) (d : BitVec 7) (a : BitVec 7) (n : BitVec 4) : Word := w ++ 0x2C2#10 ++ m ++ d ++ a ++ n
def pickAdd (w : BitVec 1) (m : BitVec 3) (d : BitVec 7) (a : BitVec 7) (n : BitVec 4) : Word := w ++ 0x2C3#10 ++ m ++ d ++ a ++ n
def pickSub (w : BitVec 1) (m : BitVec 3) (d : BitVec 7) (a : BitVec 7) (n : BitVec 4) : Word := w ++ 0x2C4#10 ++ m ++ d ++ a ++ n
def census (w : BitVec 1) (m : BitVec 3) (r : BitVec 3) (p : BitVec 4) : Word := w ++ 0x2C5#10 ++ m ++ 0x0#4 ++ r ++ 0x0#7 ++ p
def kin (w : BitVec 1) (m : BitVec 3) (r : BitVec 3) (a : BitVec 7) (z : BitVec 1) : Word := w ++ 0x2C6#10 ++ m ++ 0x0#4 ++ r ++ a ++ 0x0#3 ++ z
def agreeAll (w : BitVec 1) (m : BitVec 3) (x : BitVec 1) (r : BitVec 3) (c : BitVec 3) (p : BitVec 4) : Word := w ++ 0x2C7#10 ++ m ++ x ++ r ++ c ++ 0x0#7 ++ p
def agreeAny (w : BitVec 1) (m : BitVec 3) (x : BitVec 1) (r : BitVec 3) (c : BitVec 3) (p : BitVec 4) : Word := w ++ 0x2C8#10 ++ m ++ x ++ r ++ c ++ 0x0#7 ++ p
def agreeSame (w : BitVec 1) (m : BitVec 3) (x : BitVec 1) (r : BitVec 3) (c : BitVec 3) (p : BitVec 4) : Word := w ++ 0x2C9#10 ++ m ++ x ++ r ++ c ++ 0x0#7 ++ p
def combAdd (w : BitVec 1) (m : BitVec 3) (d : BitVec 7) (a : BitVec 7) (t : BitVec 2) : Word := w ++ 0x2CA#10 ++ m ++ d ++ a ++ 0x0#2 ++ t
def combMin (w : BitVec 1) (m : BitVec 3) (d : BitVec 7) (a : BitVec 7) (t : BitVec 2) : Word := w ++ 0x2CB#10 ++ m ++ d ++ a ++ 0x0#2 ++ t
def combMax (w : BitVec 1) (m : BitVec 3) (d : BitVec 7) (a : BitVec 7) (t : BitVec 2) : Word := w ++ 0x2CC#10 ++ m ++ d ++ a ++ 0x0#2 ++ t
def scanAdd (w : BitVec 1) (m : BitVec 3) (d : BitVec 7) (a : BitVec 7) (t : BitVec 2) : Word := w ++ 0x2CD#10 ++ m ++ d ++ a ++ 0x0#2 ++ t
def fenceGrp (w : BitVec 1) (m : BitVec 3) : Word := w ++ 0x2CE#10 ++ m ++ 0x0#18
def xiss (w : BitVec 1) (a : BitVec 7) : Word := w ++ 0x5A0#11 ++ a ++ 0x0#13
def rsend (w : BitVec 1) (s : BitVec 4) (b : BitVec 7) (n : BitVec 5) : Word := w ++ 0x5A1#11 ++ s ++ b ++ n ++ 0x0#4
def rrecv (w : BitVec 1) (s : BitVec 4) (b : BitVec 7) (n : BitVec 5) : Word := w ++ 0x5A2#11 ++ s ++ b ++ n ++ 0x0#4
def bar (w : BitVec 1) (b : BitVec 4) (n : BitVec 6) : Word := w ++ 0x5A3#11 ++ b ++ n ++ 0x0#10
def barCl (w : BitVec 1) (b : BitVec 4) : Word := w ++ 0x5A4#11 ++ b ++ 0x0#16
def arrive (w : BitVec 1) (b : BitVec 4) (n : BitVec 6) (c : BitVec 1) : Word := w ++ 0x5A5#11 ++ b ++ n ++ c ++ 0x0#9
def gdef (w : BitVec 1) (g : BitVec 3) (a : BitVec 7) : Word := w ++ 0x5A6#11 ++ g ++ a ++ 0x0#10
def tdef (w : BitVec 1) (t : BitVec 8) (i : BitVec 11) : Word := w ++ 0x5C0#11 ++ t ++ 0x0#1 ++ i
def tdefReg (w : BitVec 1) (t : BitVec 8) (a : BitVec 7) : Word := w ++ 0x5C0#11 ++ t ++ 0x1#1 ++ a ++ 0x0#4
def tfree (w : BitVec 1) (t : BitVec 8) : Word := w ++ 0x5C1#11 ++ t ++ 0x0#12
def tstate (w : BitVec 1) (t : BitVec 8) (d : BitVec 7) : Word := w ++ 0x5C2#11 ++ t ++ d ++ 0x0#5
def kick (w : BitVec 1) (a : BitVec 7) (n : BitVec 8) : Word := w ++ 0x5C3#11 ++ a ++ n ++ 0x0#5
def barm (w : BitVec 1) (a : BitVec 7) (b : BitVec 7) : Word := w ++ 0xB88#12 ++ a ++ b ++ 0x0#5
def barmT (w : BitVec 1) (t : BitVec 8) (b : BitVec 7) : Word := w ++ 0xB89#12 ++ t ++ b ++ 0x0#4
def bwait (w : BitVec 1) (a : BitVec 7) (b : BitVec 7) : Word := w ++ 0xB8A#12 ++ a ++ b ++ 0x0#5
def bwaitT (w : BitVec 1) (t : BitVec 8) (b : BitVec 7) : Word := w ++ 0xB8B#12 ++ t ++ b ++ 0x0#4
def task (w : BitVec 1) (a : BitVec 7) : Word := w ++ 0x5C6#11 ++ a ++ 0x0#13
def chain (w : BitVec 1) (a : BitVec 7) : Word := w ++ 0x5C7#11 ++ a ++ 0x0#13
def cres (w : BitVec 1) (k : BitVec 4) (a : BitVec 7) : Word := w ++ 0x5E0#11 ++ k ++ a ++ 0x0#9
def crel (w : BitVec 1) (k : BitVec 4) : Word := w ++ 0x5E1#11 ++ k ++ 0x0#16
def mldb (w : BitVec 1) (g : BitVec 3) (o : BitVec 7) : Word := w ++ 0x5E2#11 ++ g ++ o ++ 0x0#10
def mma (w : BitVec 1) (g : BitVec 3) (s : BitVec 7) (o : BitVec 7) (l : BitVec 2) (u : BitVec 1) : Word := w ++ 0x5E3#11 ++ g ++ s ++ o ++ l ++ u
def mmap (w : BitVec 1) (g : BitVec 3) (s : BitVec 7) (o : BitVec 7) (l : BitVec 2) (u : BitVec 1) : Word := w ++ 0x5E4#11 ++ g ++ s ++ o ++ l ++ u
def mzero (w : BitVec 1) (g : BitVec 3) (c : BitVec 4) : Word := w ++ 0x5E5#11 ++ g ++ c ++ 0x0#13
def mst (w : BitVec 1) (g : BitVec 3) (o : BitVec 7) : Word := w ++ 0x5E6#11 ++ g ++ o ++ 0x0#10
def mrd (w : BitVec 1) (c : BitVec 4) (d : BitVec 7) (a : BitVec 7) : Word := w ++ 0x5E7#11 ++ c ++ d ++ a ++ 0x0#2
def ssx (w : BitVec 1) (g : BitVec 3) (a : BitVec 7) : Word := w ++ 0x600#11 ++ g ++ a ++ 0x0#10
def ssq (w : BitVec 1) (d : BitVec 7) (a : BitVec 7) (x : BitVec 1) : Word := w ++ 0x601#11 ++ d ++ a ++ x ++ 0x0#5
def rhset (w : BitVec 1) (d : BitVec 7) (a : BitVec 7) : Word := w ++ 0x620#11 ++ d ++ a ++ 0x0#6
def rhpri (w : BitVec 1) (a : BitVec 7) (b : BitVec 7) : Word := w ++ 0x621#11 ++ a ++ b ++ 0x0#6
def rhdem (w : BitVec 1) (a : BitVec 7) : Word := w ++ 0x622#11 ++ a ++ 0x0#13
def pref (w : BitVec 1) (a : BitVec 7) (b : BitVec 7) : Word := w ++ 0x623#11 ++ a ++ b ++ 0x0#6
def svc (w : BitVec 1) (a : BitVec 7) (n : BitVec 13) : Word := w ++ 0x640#11 ++ a ++ n
def trap (w : BitVec 1) (c : BitVec 8) (a : BitVec 7) : Word := w ++ 0x641#11 ++ c ++ a ++ 0x0#5
def tret (w : BitVec 1) : Word := w ++ 0x64200000#31
def spawn (w : BitVec 1) (d : BitVec 7) (a : BitVec 7) : Word := w ++ 0x643#11 ++ d ++ a ++ 0x0#6
def cacheopClean (w : BitVec 1) (a : BitVec 7) (b : BitVec 7) : Word := w ++ 0x644#11 ++ a ++ b ++ 0x0#6
def cacheopEv1 (w : BitVec 1) (a : BitVec 7) (b : BitVec 7) : Word := w ++ 0x644#11 ++ a ++ b ++ 0x1#6
def cacheopEv2 (w : BitVec 1) (a : BitVec 7) (b : BitVec 7) : Word := w ++ 0x644#11 ++ a ++ b ++ 0x2#6
def cacheopPod (w : BitVec 1) (a : BitVec 7) (b : BitVec 7) : Word := w ++ 0x644#11 ++ a ++ b ++ 0x3#6
def tlbinv (w : BitVec 1) (a : BitVec 7) (b : BitVec 7) : Word := w ++ 0x645#11 ++ a ++ b ++ 0x0#6
def wfe (w : BitVec 1) (a : BitVec 7) : Word := w ++ 0x646#11 ++ a ++ 0x0#13
def hintImm (i : BitVec 22) : Word := 0x1F0#10 ++ i
def hintOpi (i : BitVec 22) : Word := 0x1F1#10 ++ i
def hintScope (s : BitVec 3) : Word := 0xF900000#29 ++ s
def hintRnd (o : BitVec 2) (p : BitVec 1) (r : BitVec 3) : Word := 0x1F30000#26 ++ o ++ p ++ r
def hintCache (z : BitVec 3) (b : BitVec 2) (a : BitVec 2) : Word := 0xFA0000#25 ++ z ++ b ++ a
def hintAdd (e : BitVec 7) : Word := 0xFA8000#25 ++ e

end Enc

/-- The word of an instruction row; an operation or event row has none (R248, R256). -/
def encode? (i : Instr) : Option Word :=
  match i with
  | .fundamentalReset => none
  | .bootStageAdvance _ => none
  | .hostLinkUp => none
  | .powerRemoval => none
  | .thermalShutdown => none
  | .spdmRequest _ => none
  | .coreFrequencyChange _ _ => none
  | .l2HomeMove _ _ => none
  | .powerCapWrite _ _ => none
  | .patrolScrub _ _ => none
  | .tierMoveStart _ _ _ => none
  | .tierMoveComplete _ _ => none
  | .registerWrite _ _ _ _ => none
  | .mailboxErase _ _ => none
  | .mailboxWrite _ _ => none
  | .mailboxVerify _ _ => none
  | .mailboxRestart _ => none
  | .mailboxCommandDone _ => none
  | .portEnable _ _ _ => none
  | .portDisable _ _ _ => none
  | .portTrainingDone _ _ => none
  | .portLinkLoss _ => none
  | .claim _ _ _ _ => none
  | .requestHandover _ _ _ _ => none
  | .acceptHandover _ _ _ _ => none
  | .release _ _ _ _ => none
  | .masterLinkDown _ => none
  | .jobEnable _ => none
  | .jobDisable _ => none
  | .jinval _ => none
  | .jinvalComplete => none
  | .queueEnable _ _ _ => none
  | .queueDisable _ _ _ => none
  | .commandDoorbell _ _ => none
  | .completionDoorbell _ _ => none
  | .spawnWindowStore _ _ _ => none
  | .queueReset _ _ => none
  | .queueAdopt _ _ _ => none
  | .endReattach _ => none
  | .commandFetch _ => none
  | .launch _ _ => none
  | .wait _ _ => none
  | .waitComplete _ _ => none
  | .signal _ _ => none
  | .copy _ _ => none
  | .copyComplete _ _ _ _ => none
  | .nopCommand _ _ => none
  | .hostPortTimeout _ => none
  | .launchComplete _ _ => none
  | .completionWrite _ => none
  | .pmapWrite _ _ => none
  | .dispatchDecision => none
  | .teamFlush _ => none
  | .teamSave _ => none
  | .drainTimeout _ => none
  | .parkSwap _ => none
  | .issueSwap _ => none
  | .cutStop _ => none
  | .cutStopSave _ => none
  | .cutResume _ => none
  | .unitStop _ => none
  | .stoppedUnitFlit _ _ _ => none
  | .serviceBatchTimeout _ _ => none
  | .serviceBatchPost _ => none
  | .serviceAnswer _ _ => none
  | .translationWalk _ _ _ => none
  | .accessReturn _ _ _ _ => none
  | .markerCommit _ => none
  | .asyncErrorArrival _ _ _ => none
  | .groupFaultStop _ => none
  | .pairTimeout _ _ => none
  | .copyRequestCheck _ => none
  | .copyRequestDispatch _ _ => none
  | .copyPieceComplete _ _ _ _ _ => none
  | .dataflowDispatch _ => none
  | .flumeElement _ _ _ _ => none
  | .matrixOpStart _ => none
  | .matrixOpComplete _ => none
  | .ssxChunkComplete _ => none
  | .ssxStop _ _ => none
  | .streamElementFetch _ _ _ => none
  | .tileWaitRelease _ => none
  | .counterWaitRelease _ => none
  | .bwaitRelease _ => none
  | .fenceComplete _ => none
  | .ssqWaitRelease _ => none
  | .tlbinvComplete _ => none
  | .parkExpire _ => none
  | .wfeTimeout _ => none
  | .packetSend _ => none
  | .packetArrival _ => none
  | .ackReceived _ _ _ _ => none
  | .nackReceived _ _ _ => none
  | .resendRequestReceived _ _ => none
  | .retransmissionTimeout _ _ => none
  | .ethernetResponse _ _ _ => none
  | .pathProbe _ _ _ _ => none
  | .podRequestArrival _ => none
  | .podFlushComplete _ _ => none
  | .podRequestTimeout _ _ => none
  | .reductionPacketArrival _ => none
  | .reductionAbort _ => none
  | .directApertureAccess _ _ _ => none
  | .transformWindowEnable _ _ _ => none
  | .transformWindowWrite _ _ => none
  | .transformBlockProcess _ _ _ => none
  | .hostAtomicop _ _ _ _ _ => none
  | .hostCoherentAccess _ _ _ => none
  | .debugHalt _ => none
  | .debugResume _ => none
  | .debugStep _ => none
  | .debugRead _ _ => none
  | .debugWrite _ _ => none
  | .debugCatchOn _ => none
  | .debugCatchOff _ => none
  | .add w d a b => some (Enc.add w d a b)
  | .sub w d a b => some (Enc.sub w d a b)
  | .mul w d a b => some (Enc.mul w d a b)
  | .mulhI w d a b => some (Enc.mulhI w d a b)
  | .mulhN w d a b => some (Enc.mulhN w d a b)
  | .minI w d a b => some (Enc.minI w d a b)
  | .maxI w d a b => some (Enc.maxI w d a b)
  | .minN w d a b => some (Enc.minN w d a b)
  | .maxN w d a b => some (Enc.maxN w d a b)
  | .and w d a b => some (Enc.and w d a b)
  | .or w d a b => some (Enc.or w d a b)
  | .xor w d a b => some (Enc.xor w d a b)
  | .andn w d a b => some (Enc.andn w d a b)
  | .shl w d a b => some (Enc.shl w d a b)
  | .shr w d a b => some (Enc.shr w d a b)
  | .sar w d a b => some (Enc.sar w d a b)
  | .rot w d a b => some (Enc.rot w d a b)
  | .mad w d a b => some (Enc.mad w d a b)
  | .clz w d a => some (Enc.clz w d a)
  | .ctz w d a => some (Enc.ctz w d a)
  | .popc w d a => some (Enc.popc w d a)
  | .brev w d a => some (Enc.brev w d a)
  | .bfxI w d a b => some (Enc.bfxI w d a b)
  | .bfxN w d a b => some (Enc.bfxN w d a b)
  | .bfi w d a b => some (Enc.bfi w d a b)
  | .absd w d a b => some (Enc.absd w d a b)
  | .sext8 w d a => some (Enc.sext8 w d a)
  | .sext16 w d a => some (Enc.sext16 w d a)
  | .zext8 w d a => some (Enc.zext8 w d a)
  | .zext16 w d a => some (Enc.zext16 w d a)
  | .mulwI w d a b => some (Enc.mulwI w d a b)
  | .mulwN w d a b => some (Enc.mulwN w d a b)
  | .cmp w k c a b => some (Enc.cmp w k c a b)
  | .sel w s c d a b => some (Enc.sel w s c d a b)
  | .addi w d a i => some (Enc.addi w d a i)
  | .andi w d a i => some (Enc.andi w d a i)
  | .ori w d a i => some (Enc.ori w d a i)
  | .xori w d a i => some (Enc.xori w d a i)
  | .shli w d a n => some (Enc.shli w d a n)
  | .shri w d a n => some (Enc.shri w d a n)
  | .sari w d a n => some (Enc.sari w d a n)
  | .roti w d a n => some (Enc.roti w d a n)
  | .cmpi w k c a i => some (Enc.cmpi w k c a i)
  | .muli w d a i => some (Enc.muli w d a i)
  | .padd8 w d a b => some (Enc.padd8 w d a b)
  | .psub8 w d a b => some (Enc.psub8 w d a b)
  | .paddsI8 w d a b => some (Enc.paddsI8 w d a b)
  | .paddsN8 w d a b => some (Enc.paddsN8 w d a b)
  | .psubsI8 w d a b => some (Enc.psubsI8 w d a b)
  | .psubsN8 w d a b => some (Enc.psubsN8 w d a b)
  | .pminI8 w d a b => some (Enc.pminI8 w d a b)
  | .pmaxI8 w d a b => some (Enc.pmaxI8 w d a b)
  | .pminN8 w d a b => some (Enc.pminN8 w d a b)
  | .pmaxN8 w d a b => some (Enc.pmaxN8 w d a b)
  | .pabsd8 w d a b => some (Enc.pabsd8 w d a b)
  | .pshl8 w d a b => some (Enc.pshl8 w d a b)
  | .pshr8 w d a b => some (Enc.pshr8 w d a b)
  | .psar8 w d a b => some (Enc.psar8 w d a b)
  | .pavgN8 w d a b => some (Enc.pavgN8 w d a b)
  | .pdot8 w d a b => some (Enc.pdot8 w d a b)
  | .padd16 w d a b => some (Enc.padd16 w d a b)
  | .psub16 w d a b => some (Enc.psub16 w d a b)
  | .paddsI16 w d a b => some (Enc.paddsI16 w d a b)
  | .paddsN16 w d a b => some (Enc.paddsN16 w d a b)
  | .psubsI16 w d a b => some (Enc.psubsI16 w d a b)
  | .psubsN16 w d a b => some (Enc.psubsN16 w d a b)
  | .pminI16 w d a b => some (Enc.pminI16 w d a b)
  | .pmaxI16 w d a b => some (Enc.pmaxI16 w d a b)
  | .pminN16 w d a b => some (Enc.pminN16 w d a b)
  | .pmaxN16 w d a b => some (Enc.pmaxN16 w d a b)
  | .pabsd16 w d a b => some (Enc.pabsd16 w d a b)
  | .pshl16 w d a b => some (Enc.pshl16 w d a b)
  | .pshr16 w d a b => some (Enc.pshr16 w d a b)
  | .psar16 w d a b => some (Enc.psar16 w d a b)
  | .pavgN16 w d a b => some (Enc.pavgN16 w d a b)
  | .pdot16 w d a b => some (Enc.pdot16 w d a b)
  | .addD w d a b => some (Enc.addD w d a b)
  | .subD w d a b => some (Enc.subD w d a b)
  | .shlD w d a b => some (Enc.shlD w d a b)
  | .shrD w d a b => some (Enc.shrD w d a b)
  | .sarD w d a b => some (Enc.sarD w d a b)
  | .addxI w d a b => some (Enc.addxI w d a b)
  | .addxN w d a b => some (Enc.addxN w d a b)
  | .andD w d a b => some (Enc.andD w d a b)
  | .orD w d a b => some (Enc.orD w d a b)
  | .xorD w d a b => some (Enc.xorD w d a b)
  | .fadd w d a b => some (Enc.fadd w d a b)
  | .fsub w d a b => some (Enc.fsub w d a b)
  | .fmul w d a b => some (Enc.fmul w d a b)
  | .ffma w d a b => some (Enc.ffma w d a b)
  | .fnma w d a b => some (Enc.fnma w d a b)
  | .fmin w d a b => some (Enc.fmin w d a b)
  | .fmax w d a b => some (Enc.fmax w d a b)
  | .fabs w d a => some (Enc.fabs w d a)
  | .fneg w d a => some (Enc.fneg w d a)
  | .fsgnj w d a b => some (Enc.fsgnj w d a b)
  | .faddF64 w d a b => some (Enc.faddF64 w d a b)
  | .fsubF64 w d a b => some (Enc.fsubF64 w d a b)
  | .fmulF64 w d a b => some (Enc.fmulF64 w d a b)
  | .ffmaF64 w d a b => some (Enc.ffmaF64 w d a b)
  | .fnmaF64 w d a b => some (Enc.fnmaF64 w d a b)
  | .fminF64 w d a b => some (Enc.fminF64 w d a b)
  | .fmaxF64 w d a b => some (Enc.fmaxF64 w d a b)
  | .fabsF64 w d a => some (Enc.fabsF64 w d a)
  | .fnegF64 w d a => some (Enc.fnegF64 w d a)
  | .fsgnjF64 w d a b => some (Enc.fsgnjF64 w d a b)
  | .faddPk w t d a b => some (Enc.faddPk w t d a b)
  | .fsubPk w t d a b => some (Enc.fsubPk w t d a b)
  | .fmulPk w t d a b => some (Enc.fmulPk w t d a b)
  | .ffmaPk w t d a b => some (Enc.ffmaPk w t d a b)
  | .fnmaPk w t d a b => some (Enc.fnmaPk w t d a b)
  | .fminPk w t d a b => some (Enc.fminPk w t d a b)
  | .fmaxPk w t d a b => some (Enc.fmaxPk w t d a b)
  | .fnegPk w t d a => some (Enc.fnegPk w t d a)
  | .frcp w d a => some (Enc.frcp w d a)
  | .frsq w d a => some (Enc.frsq w d a)
  | .fsqrt w d a => some (Enc.fsqrt w d a)
  | .fexp2 w d a => some (Enc.fexp2 w d a)
  | .flog2 w d a => some (Enc.flog2 w d a)
  | .fsin w d a => some (Enc.fsin w d a)
  | .fcos w d a => some (Enc.fcos w d a)
  | .ftanh w d a => some (Enc.ftanh w d a)
  | .fclass w d a => some (Enc.fclass w d a)
  | .fcmp w k c a b => some (Enc.fcmp w k c a b)
  | .fcmpF64 w k c a b => some (Enc.fcmpF64 w k c a b)
  | .cvtF32I32 w d a => some (Enc.cvtF32I32 w d a)
  | .cvtF32N32 w d a => some (Enc.cvtF32N32 w d a)
  | .cvtI32F32 w d a => some (Enc.cvtI32F32 w d a)
  | .cvtN32F32 w d a => some (Enc.cvtN32F32 w d a)
  | .cvtF64F32 w d a => some (Enc.cvtF64F32 w d a)
  | .cvtF32F64 w d a => some (Enc.cvtF32F64 w d a)
  | .cvtF64I32 w d a => some (Enc.cvtF64I32 w d a)
  | .cvtF64N32 w d a => some (Enc.cvtF64N32 w d a)
  | .cvtI32F64 w d a => some (Enc.cvtI32F64 w d a)
  | .cvtN32F64 w d a => some (Enc.cvtN32F64 w d a)
  | .cvtF32Bf16 w d a => some (Enc.cvtF32Bf16 w d a)
  | .cvtF32F16 w d a => some (Enc.cvtF32F16 w d a)
  | .cvtBf16F32 w d a => some (Enc.cvtBf16F32 w d a)
  | .cvtF16F32 w d a => some (Enc.cvtF16F32 w d a)
  | .cvtdn w o r d a f j => some (Enc.cvtdn w o r d a f j)
  | .cvtup w d a f j => some (Enc.cvtup w d a f j)
  | .mov w d a => some (Enc.mov w d a)
  | .movcRead w d => some (Enc.movcRead w d)
  | .movcWrite w a => some (Enc.movcWrite w a)
  | .xget w d x => some (Enc.xget w d x)
  | .xset w x b => some (Enc.xset w x b)
  | .xadj w x b => some (Enc.xadj w x b)
  | .fget w d f => some (Enc.fget w d f)
  | .fset w f b => some (Enc.fset w f b)
  | .mget w d g => some (Enc.mget w d g)
  | .mset w g b => some (Enc.mset w g b)
  | .movi w d i => some (Enc.movi w d i)
  | .csrr w d n => some (Enc.csrr w d n)
  | .csrw w a n => some (Enc.csrw w a n)
  | .sdef w q a => some (Enc.sdef w q a)
  | .sstop w q => some (Enc.sstop w q)
  | .br w s c f => some (Enc.br w s c f)
  | .jmp w f => some (Enc.jmp w f)
  | .call w d f => some (Enc.call w d f)
  | .brx w a => some (Enc.brx w a)
  | .callx w d a => some (Enc.callx w d a)
  | .ret w a => some (Enc.ret w a)
  | .nop w => some (Enc.nop w)
  | .exit w => some (Enc.exit w)
  | .yield w => some (Enc.yield w)
  | .park w n => some (Enc.park w n)
  | .brk w n => some (Enc.brk w n)
  | .bstr w q k s f => some (Enc.bstr w q k s f)
  | .ldLn w o d a f => some (Enc.ldLn w o d a f)
  | .stLn w o d a f => some (Enc.stLn w o d a f)
  | .ldCo w o d a f => some (Enc.ldCo w o d a f)
  | .stCo w o d a f => some (Enc.stCo w o d a f)
  | .ldCl w o d a f => some (Enc.ldCl w o d a f)
  | .stCl w o d a f => some (Enc.stCl w o d a f)
  | .ldCh w o d a f => some (Enc.ldCh w o d a f)
  | .stCh w o d a f => some (Enc.stCh w o d a f)
  | .ldGl w o d a f => some (Enc.ldGl w o d a f)
  | .stGl w o d a f => some (Enc.stGl w o d a f)
  | .atomAdd w s z r d a => some (Enc.atomAdd w s z r d a)
  | .atomAnd w s z r d a => some (Enc.atomAnd w s z r d a)
  | .atomOr w s z r d a => some (Enc.atomOr w s z r d a)
  | .atomXor w s z r d a => some (Enc.atomXor w s z r d a)
  | .atomMinI w s z r d a => some (Enc.atomMinI w s z r d a)
  | .atomMaxI w s z r d a => some (Enc.atomMaxI w s z r d a)
  | .atomMinN w s z r d a => some (Enc.atomMinN w s z r d a)
  | .atomMaxN w s z r d a => some (Enc.atomMaxN w s z r d a)
  | .atomSwap w s z r d a => some (Enc.atomSwap w s z r d a)
  | .atomCas w s z r d a => some (Enc.atomCas w s z r d a)
  | .atomFadd w s z r d a => some (Enc.atomFadd w s z r d a)
  | .fence w => some (Enc.fence w)
  | .drainNt w => some (Enc.drainNt w)
  | .pflush w a => some (Enc.pflush w a)
  | .cwait w c n => some (Enc.cwait w c n)
  | .cadd w c n => some (Enc.cadd w c n)
  | .cpoll w d c => some (Enc.cpoll w d c)
  | .wsig w a => some (Enc.wsig w a)
  | .wred w a => some (Enc.wred w a)
  | .pickK w m d a n => some (Enc.pickK w m d a n)
  | .pickR w m d a k => some (Enc.pickR w m d a k)
  | .pickXor w m d a n => some (Enc.pickXor w m d a n)
  | .pickAdd w m d a n => some (Enc.pickAdd w m d a n)
  | .pickSub w m d a n => some (Enc.pickSub w m d a n)
  | .census w m r p => some (Enc.census w m r p)
  | .kin w m r a z => some (Enc.kin w m r a z)
  | .agreeAll w m x r c p => some (Enc.agreeAll w m x r c p)
  | .agreeAny w m x r c p => some (Enc.agreeAny w m x r c p)
  | .agreeSame w m x r c p => some (Enc.agreeSame w m x r c p)
  | .combAdd w m d a t => some (Enc.combAdd w m d a t)
  | .combMin w m d a t => some (Enc.combMin w m d a t)
  | .combMax w m d a t => some (Enc.combMax w m d a t)
  | .scanAdd w m d a t => some (Enc.scanAdd w m d a t)
  | .fenceGrp w m => some (Enc.fenceGrp w m)
  | .xiss w a => some (Enc.xiss w a)
  | .rsend w s b n => some (Enc.rsend w s b n)
  | .rrecv w s b n => some (Enc.rrecv w s b n)
  | .bar w b n => some (Enc.bar w b n)
  | .barCl w b => some (Enc.barCl w b)
  | .arrive w b n c => some (Enc.arrive w b n c)
  | .gdef w g a => some (Enc.gdef w g a)
  | .tdef w t i => some (Enc.tdef w t i)
  | .tdefReg w t a => some (Enc.tdefReg w t a)
  | .tfree w t => some (Enc.tfree w t)
  | .tstate w t d => some (Enc.tstate w t d)
  | .kick w a n => some (Enc.kick w a n)
  | .barm w a b => some (Enc.barm w a b)
  | .barmT w t b => some (Enc.barmT w t b)
  | .bwait w a b => some (Enc.bwait w a b)
  | .bwaitT w t b => some (Enc.bwaitT w t b)
  | .task w a => some (Enc.task w a)
  | .chain w a => some (Enc.chain w a)
  | .cres w k a => some (Enc.cres w k a)
  | .crel w k => some (Enc.crel w k)
  | .mldb w g o => some (Enc.mldb w g o)
  | .mma w g s o l u => some (Enc.mma w g s o l u)
  | .mmap w g s o l u => some (Enc.mmap w g s o l u)
  | .mzero w g c => some (Enc.mzero w g c)
  | .mst w g o => some (Enc.mst w g o)
  | .mrd w c d a => some (Enc.mrd w c d a)
  | .ssx w g a => some (Enc.ssx w g a)
  | .ssq w d a x => some (Enc.ssq w d a x)
  | .rhset w d a => some (Enc.rhset w d a)
  | .rhpri w a b => some (Enc.rhpri w a b)
  | .rhdem w a => some (Enc.rhdem w a)
  | .pref w a b => some (Enc.pref w a b)
  | .svc w a n => some (Enc.svc w a n)
  | .trap w c a => some (Enc.trap w c a)
  | .tret w => some (Enc.tret w)
  | .spawn w d a => some (Enc.spawn w d a)
  | .cacheopClean w a b => some (Enc.cacheopClean w a b)
  | .cacheopEv1 w a b => some (Enc.cacheopEv1 w a b)
  | .cacheopEv2 w a b => some (Enc.cacheopEv2 w a b)
  | .cacheopPod w a b => some (Enc.cacheopPod w a b)
  | .tlbinv w a b => some (Enc.tlbinv w a b)
  | .wfe w a => some (Enc.wfe w a)
  | .hintImm i => some (Enc.hintImm i)
  | .hintOpi i => some (Enc.hintOpi i)
  | .hintScope s => some (Enc.hintScope s)
  | .hintRnd o p r => some (Enc.hintRnd o p r)
  | .hintCache z b a => some (Enc.hintCache z b a)
  | .hintAdd e => some (Enc.hintAdd e)
  | .linkLevelReplay _ => none
  | .swapThresholdAdjust _ _ => none
  | .congestionThresholdAdjust _ _ _ _ => none

/-- The word of an instruction, zero for a row without one; `encode?` says which rows have words. -/
def encode (i : Instr) : Word := (encode? i).getD 0

end Sys2Proof
end

