-- ==== Sys2Proof/Config.lean ====
section
/-! DEFINITION. What the spec leaves open, as free functions: no statement can rest on any value of one. -/
namespace Sys2Proof.Config

/-- The secret key of the device's identity, which an unclonable function of its dies derives with the helper data (R34). UNVERIFIED: left
free. -/
opaque identityKey : (dieIds helper : List Byte) → List Byte

/-- The transcript of an SPDM 1.3 exchange up to a request, which a measurement response signs the hash of (R34). UNVERIFIED: left free. -/
opaque spdmTranscript : (measurement request : List Byte) → List Byte

/-- The answer to an SPDM 1.3 request other than a negotiation of algorithms or a request for measurements (R34). UNVERIFIED: left free. -/
opaque spdmAnswer : (request : List Byte) → List Byte

/-- The value of a stream element whose fetch fails or reads poison: the spec gives none (R144, R217). A free value,
applied to a counter of the state. UNVERIFIED: left free. -/
opaque openElement : Nat → BitVec 64

/-- Whether a failed piece has written its byte `k`: the spec allows any subset (R86, R97, R175). A free value, applied to a counter
of the state. UNVERIFIED: left free. -/
opaque subset : (event k : Nat) → Bool

/-- Byte `k` of memory that an operation may leave with any value: the cistern workspace of a state-space operation after a chunk
(R341), and what a failed transform block has written (R97). A free value, applied to a counter of the state. UNVERIFIED: left free. -/
opaque workByte : (event k : Nat) → Byte

/-- Which of the free residency handles an `rhset` takes: the spec names none (R347). A free value, applied to a counter of the
state. UNVERIFIED: left free. -/
opaque freeHandle : (event : Nat) → Nat

/-- Byte `k` that a PCI Express peer answers to the read of a launch header on a peer page (R95, R100): the peer is none of the device's
parts. A free value, applied to a counter of the state. UNVERIFIED: left free. -/
opaque peerByte : (event k : Nat) → Byte

/-- How many writes back an engine takes byte `k` of what a piece of an operation reads, as far as what happens before the operation lets it
(R175, R190, R378). A free value, applied to the numbers of the operation and its piece. UNVERIFIED: left free. -/
opaque staleness : (operation piece k : Nat) → Nat

end Sys2Proof.Config
end

