-- ==== Sys2Proof/Machine/Map.lean ====
section
/-! DEFINITION. Finite maps as lists of pairs, and byte stores in one canonical form: addresses strictly rising, no
zero byte listed. An unlisted byte reads zero (R31, R103; host memory: log entry 2). -/
namespace Sys2Proof.Machine

/-- A finite map: the first pair of a key counts. -/
abbrev AMap (α β : Type) := List (α × β)

/-- The value of a key. -/
def AMap.get? {α β : Type} [DecidableEq α] : AMap α β → α → Option β
  | [], _ => none
  | (k, v) :: r, a => if a = k then some v else AMap.get? r a

/-- The value of a key, or a default. -/
def AMap.getD {α β : Type} [DecidableEq α] (m : AMap α β) (a : α) (d : β) : β := (AMap.get? m a).getD d

/-- Gives a key a value, in place where the key is present. -/
def AMap.set {α β : Type} [DecidableEq α] : AMap α β → α → β → AMap α β
  | [], a, b => [(a, b)]
  | (k, v) :: r, a, b => if a = k then (k, b) :: r else (k, v) :: AMap.set r a b

/-- Removes a key. -/
def AMap.erase {α β : Type} [DecidableEq α] (m : AMap α β) (a : α) : AMap α β := m.filter (fun p => decide (p.1 ≠ a))

/-- A byte store: its listed cells (Host.Cell), in canonical form. -/
abbrev Memory := List Host.Cell

/-- The byte at an address; zero where none is listed. -/
def Memory.get : Memory → Nat → Byte
  | [], _ => 0
  | (k, v) :: r, a => if a = k then v else Memory.get r a

/-- Writes one byte, keeping the canonical form: a zero removes the cell. -/
def Memory.put : Memory → Nat → Byte → Memory
  | [], a, b => if b = 0 then [] else [(a, b)]
  | (k, v) :: r, a, b =>
    if a < k then (if b = 0 then (k, v) :: r else (a, b) :: (k, v) :: r)
    else if a = k then (if b = 0 then r else (a, b) :: r)
    else (k, v) :: Memory.put r a b

/-- Cells rise strictly from `lo` on and none is zero. -/
def Memory.risesFrom : Nat → Memory → Bool
  | _, [] => true
  | lo, (k, v) :: r => decide (lo ≤ k) && decide (v ≠ 0) && Memory.risesFrom (k + 1) r

/-- The canonical form. -/
def Memory.wf (m : Memory) : Bool := Memory.risesFrom 0 m

/-- `n` bytes from `a` on. -/
def Memory.read (m : Memory) (a : Nat) : Nat → List Byte
  | 0 => []
  | n + 1 => Memory.get m a :: Memory.read m (a + 1) n

/-- Writes a list of bytes from `a` on. -/
def Memory.write (m : Memory) (a : Nat) : List Byte → Memory
  | [] => m
  | b :: r => Memory.write (Memory.put m a b) (a + 1) r

/-- Makes the `n` bytes from `a` on read zero. -/
def Memory.clear (m : Memory) (a n : Nat) : Memory := m.filter (fun c => !(decide (a ≤ c.1) && decide (c.1 < a + n)))

/-- The listed cells of the `n` bytes from `a` on, numbered from zero. -/
def Memory.slice (m : Memory) (a n : Nat) : Memory :=
  (m.filter (fun c => decide (a ≤ c.1) && decide (c.1 < a + n))).map (fun c => (c.1 - a, c.2))

/-- Writes the cells of a slice at `a`. -/
def Memory.paste (m : Memory) (a : Nat) : List Host.Cell → Memory
  | [] => m
  | (k, v) :: r => Memory.paste (Memory.put m (a + k) v) a r

/-- Bytes as an unsigned number, little-endian (R8). -/
def leNat : List Byte → Nat
  | [] => 0
  | b :: r => b.toNat + 256 * leNat r

/-- The low `n` bytes of a number, little-endian (R8). -/
def natBytes : Nat → Nat → List Byte
  | 0, _ => []
  | n + 1, v => BitVec.ofNat 8 v :: natBytes n (v / 256)

/-- `n` bytes at `a` as an unsigned number (R8). -/
def Memory.readLE (m : Memory) (a n : Nat) : Nat := leNat (Memory.read m a n)

/-- Stores the low `n` bytes of `v` at `a` (R8). -/
def Memory.writeLE (m : Memory) (a n v : Nat) : Memory := Memory.write m a (natBytes n v)

/-- Bits `lo` to `hi` of a number (R15). -/
def bits (v hi lo : Nat) : Nat := (v >>> lo) % 2 ^ (hi + 1 - lo)

end Sys2Proof.Machine
end

