-- ==== Sys2Proof/Machine/State.lean ====
section
/-! DEFINITION. The state of one device as plain data: every register, store, queue, table and engine the spec names,
the reasons a step can stop, and the state right after reset. -/
namespace Sys2Proof.Machine

/-! ### Reasons to stop -/

/-- Why the model's machine stops. -/
inductive Fault where
  /-- Raised by every instruction row when `cur` names no thread: there is nothing that executes it. Safe: the hardware
  executes no instruction without a thread. -/
  | noThread
  deriving DecidableEq, Repr

/-- Why a row has no meaning. -/
inductive Refusal where
  /-- Raised by an arm of `exec` that has no meaning yet. Safe: nothing is claimed of it. -/
  | notModelled (mnemonic : String)
  deriving DecidableEq, Repr

/-- The outcome of a step of this machine. -/
abbrev Outcome' (σ : Type) := Host.Outcome σ Fault Refusal

/-! ### Names -/

/-- The causes of R213. -/
inductive Cause where
  | illegalInstruction | reservedOperand | indexBound | misaligned | straddle | translation | permission
  | illegalMatrix | illegalFormat | conversionOverflow | illegalXissWord | convergenceDeadlock | pairTimeout
  | scopeMismatch | illegalTret | badStatus | breakpoint | serviceCall | undefinedTile | uncorrectableMemory
  | remoteAccessFailure | doubleTrap
  deriving DecidableEq, Repr

/-- The scopes of R14. -/
inductive Scope where
  | grp | team | clu | dev | sys | pod | glb
  deriving DecidableEq, Repr

/-- The address spaces of R157. -/
inductive Space where
  | ln | co | cl | ch | gl
  deriving DecidableEq, Repr

/-- The order of an access (R16, R188). -/
inductive Order where
  | plain | acq | rel | nt
  deriving DecidableEq, Repr

/-- The operations of `atom` (R258). -/
inductive AtomOp where
  | add | and | or | xor | minI | maxI | minN | maxN | swap | cas | fadd
  deriving DecidableEq, Repr

/-- A pending hint word (R251); `bad` is one whose kind or reserved bits make its instruction illegal (R254). -/
inductive Hint where
  | imm (p : BitVec 22)
  | opi (p : BitVec 22)
  | scope (s : BitVec 3)
  | rnd (policy : BitVec 2) (present : BitVec 1) (mode : BitVec 3)
  | cache (size : BitVec 3) (l2 l1 : BitVec 2)
  | add (e : RegField)
  | bad
  deriving DecidableEq, Repr

/-- A barrier object in a team's scratchpad, or the one embedded in a tile (R171). -/
inductive BarName where
  | object (team : TeamId) (off : Nat)
  | tile (team : TeamId) (t : Nat)
  deriving DecidableEq, Repr

/-! ### Writes and views -/

/-- A thread whatever core it is on: its cluster, the index of its team in it, its group and its member number (R13, R120). -/
structure Who where
  cluster : Nat
  index   : Nat
  grp     : Nat
  mem     : Nat
  deriving DecidableEq, Repr

/-- Who performs a memory event (R188, R189): a thread, an engine on behalf of a team of a cluster, another unit of the device, the host
or a peer on its port, a pod member in a class of traffic (R36), another rank over Ethernet. -/
inductive Agent where
  | thread (t : Who)
  | engine (cluster index : Nat)
  | device
  | host
  | pod (member : Nat) (bulk : Bool)
  | glb (rank : Nat)
  deriving DecidableEq, Repr

/-- What an agent has to see of the writes to this device's memory (R194): all below a number, those of the device and its host below a
number (R195), further ones by their numbers, and for single bytes that it has read the number below which it must see every write. -/
structure View where
  all  : Nat
  loc  : Nat
  seen : List Nat
  saw  : List (Nat × Nat)
  deriving DecidableEq, Repr

/-- Nothing has to be seen. -/
def View.none : View := { all := 0, loc := 0, seen := [], saw := [] }

/-- A release that a write takes part in (R193): its scope, what happens before it, and whether the write itself does too: it does in a
release store, and not behind a fence. -/
structure Rel where
  scope : Scope
  view  : View
  own   : Bool
  deriving DecidableEq, Repr

/-- Who performs a write, and how it synchronises: the releases that it takes part in, whether it is part of an atomic, and whether every
later access must see it (R25, R182). -/
structure Origin where
  by'  : Agent
  rels : List Rel
  rmw  : Bool
  hard : Bool
  deriving DecidableEq, Repr

/-- A load of the present run: its bytes, and what an access that follows it in preserved order has to see (R191, R195, R200). -/
structure ReadMark where
  pa   : Nat
  len  : Nat
  view : View
  deriving DecidableEq, Repr

/-- A write performed in the device's memory (R188), in the one order of all of them (R190, R195): its address and length, the listed
cells that it replaced, numbered from zero, and its origin. -/
structure Write where
  pa   : Nat
  len  : Nat
  old  : Memory
  from' : Origin
  deriving DecidableEq, Repr

/-! ### Accesses and threads -/

/-- What a variable-latency access does, with its operands as read at issue (R152). -/
inductive Access where
  | load (space : Space) (addr : Dword) (size : Nat) (order : Order) (scope : Scope) (dst : Nat)
  | store (space : Space) (addr : Dword) (size : Nat) (order : Order) (scope : Scope) (data : Nat)
  | atom (op : AtomOp) (addr : Dword) (wide : Bool) (scope : Scope) (ret : Bool) (dst rv sv : Nat)
  | cadd (ctr : Nat) (n : Dword) (scope : Scope)
  | cpoll (ctr dst : Nat)
  | wsig (src dst : Dword) (len tctr : Nat) (lctr : Option Nat)
  | wred (src : Dword) (gid : Nat) (gen : Byte) (lctr : Option Nat)
  | barm (bar : BarName) (e : Word)
  | rrecv (slot base n : Nat)
  | mrd (acc row col dst after : Nat)
  | ssq (off dst : Nat)
  | rhset (base : Dword) (pages prio : Nat) (second : Bool) (dst : Nat)
  | rhpri (handle : Nat) (value : Word)
  | rhdem (handle : Nat)
  | pref (addr : Dword) (len : Nat)
  | spawn (off queue dst : Nat)
  | cacheop (op : Nat) (addr : Dword) (len : Nat)
  /-- the answer of an `svc`, which takes no operand-log entry (R147) -/
  | svc (dst : Nat)
  deriving DecidableEq, Repr

/-- Where the bytes of one part of an access lie (R157 to R160, R67, R314): a physical address with the page entry
used, a PCI Express peer, a pod member, another rank, or a fault with its tval and the failure code of R65, if any. -/
inductive Place where
  | mem (va pa entry : Nat)
  | peer (bus : Nat)
  | pod (rank member region off : Nat)
  | glb (rank region off : Nat)
  | bad (cause : Cause) (tval : Dword) (code : Nat)
  deriving DecidableEq, Repr

/-- Where an access of the operand log stands (R152, R154): `sent` holds the parts with the bytes
that have returned. -/
inductive EntryState where
  | pending
  | sent (parts : List (Place × Nat × Option (List Byte)))
  | returned (values : List (Nat × Word))
  | flagged (cause : Cause) (tval : Dword)
  deriving DecidableEq, Repr

/-- An operand-log entry (R152): index in the run, issue stamp, the issue it belongs to (R326), instruction word and hints, K at issue;
`fill` says that the answer of a pod load still fills the pod read buffer (R202). -/
structure LogEntry where
  index  : Nat
  stamp  : Nat
  issue  : Nat
  word   : Word
  hints  : List Hint
  kernel : Bool
  access : Access
  state  : EntryState
  fill   : Bool
  deriving DecidableEq, Repr

/-- An accepted store that is not yet performed (R191, R198, R310), with the bytes of it that are: their offsets in the store. `posted` says
that it is on its way to a PCI Express peer (R95, R188). -/
structure BufStore where
  thread : ThreadId
  stamp  : Nat
  issue  : Nat
  kernel : Bool
  access : Access
  parts  : List (Place × Nat)
  done   : List Nat
  posted : Bool := false
  deriving DecidableEq, Repr

/-- An element that a read stream holds: its value with what its reader has to see then (R191), or the fault found in fetching it (R144). -/
inductive StreamItem where
  | data (v : Nat) (view : View)
  | fault (cause : Cause) (addr : Dword)
  deriving DecidableEq, Repr

/-- A write element of a stream that is not performed yet (R296), with the stamp and the issue of the instruction that appended it, the parts
that its translation gave then, the bytes of it that are performed, and whether it is on its way to a PCI Express peer. -/
structure Appended where
  addr  : Dword
  value : Nat
  stamp : Nat
  issue : Nat
  parts : List (Place × Nat) := []
  done  : List Nat := []
  posted : Bool := false
  deriving DecidableEq, Repr

/-- A bound stream register (R294, R295). `next` counts elements delivered or appended, `fetched` those fetched or performed; `appended` holds
the write elements that have not left, and `sent` the stamps of those that have left for another device; the FIFO of a write stream holds at
most the denial of its next element's page; `marked` says that its thread has passed a switch marker since the `sdef`. `arriving` holds the
parts of a read element whose requests have left, with the bytes that are here, and `shows` what those show. -/
structure Stream where
  base     : Dword
  space    : Space
  size     : Nat
  write    : Bool
  dims     : Nat
  counts   : List Nat
  strides  : List Int
  next     : Nat
  fetched  : Nat
  fifo     : List StreamItem
  appended : List Appended
  flags    : BitVec 4
  kernel   : Bool
  stamp    : Nat
  marked   : Bool := false
  sent     : List Nat := []
  arriving : List (Place × Nat × Option (List Byte)) := []
  shows    : View := .none
  deriving DecidableEq, Repr

/-- A cross-lane operation with its resolved operands (R300). -/
inductive XOp where
  | pickK (d a n : Nat)
  | pickR (d a k : Nat)
  | pickXor (d a n : Nat)
  | pickAdd (d a n : Nat)
  | pickSub (d a n : Nat)
  | census (r : BitVec 3) (p : BitVec 4)
  | kin (r : BitVec 3) (a : Nat) (wide : Bool)
  | agreeAll (x : Bool) (r c : BitVec 3) (p : BitVec 4)
  | agreeAny (x : Bool) (r c : BitVec 3) (p : BitVec 4)
  | agreeSame (x : Bool) (r c : BitVec 3) (p : BitVec 4)
  | combAdd (d a : Nat) (t : BitVec 2)
  | combMin (d a : Nat) (t : BitVec 2)
  | combMax (d a : Nat) (t : BitVec 2)
  | scanAdd (d a : Nat) (t : BitVec 2)
  | fenceGrp
  deriving DecidableEq, Repr

/-- Where a thread stands: it can issue, or it waits for what the constructor names. -/
inductive Wait where
  /-- can issue the instruction at its pc -/
  | run
  /-- parked at a marker until its accesses return (R148); `asW`: an instruction with W, an `exit` or a 17th access,
  where pending causes are delivered (R218); `leaving`: the instruction is an `exit`, or one
  whose own fault acts on others (R136) -/
  | marker (asW leaving : Bool)
  /-- steps 1 to 4 of R219 are done for the instruction at its pc, which issues next; a boundary lies here (R151) -/
  | committed
  /-- as `committed`, where no boundary lies: at an `exit`, or an instruction whose own fault acts on others (R136, R219) -/
  | leaving
  /-- parked at an instruction with its own fault until its accesses return (R155) -/
  | fault (cause : Cause) (tval : Dword)
  /-- parked at an `xiss` that has read an illegal word until its accesses return: the word, the x registers after it, and the stream that it
  was read from (R155, R303) -/
  | xiss (w : Word) (x : List Word) (stream : Option Nat)
  /-- parked at an `rsend` at a slot until its accesses return, but for its own pending `rrecv` there (R304, R305); `asW`: the
  instruction has W -/
  | toSend (slot : Nat) (asW : Bool)
  /-- a stepped instruction's accesses are awaited before the step trap (R222) -/
  | stepTrap
  /-- the accesses that a service answer or `tret` has issued again are awaited before the instruction at the pc is reached (R155,
  R156) -/
  | reissue
  /-- parked at a cross-lane instruction with its member mask, and the x registers from before it arrived (R130, R142) -/
  | xlane (op : XOp) (mask : Dword) (saved : List Word)
  /-- has signed the register's next operation and waits for its issue (R135) -/
  | signed (g : Nat)
  /-- waits for a tile: `ready` for an operand, else idle for `tdef` and `tfree` (R168, R169) -/
  | tile (t : Nat) (ready : Bool)
  /-- `cwait` (R323) -/
  | counter (ctr : Nat) (n : Dword) (scope : Scope)
  /-- `fence` over the accesses older than a stamp (R320) -/
  | fence (scope : Scope) (stamp : Nat)
  /-- `drain.nt` (R321) -/
  | drain
  /-- `pflush` of a pod peer, a rank and its member; `begun` says that its own flush has started (R322) -/
  | pflush (rank peer : Nat) (stamp : Nat) (begun : Bool)
  /-- reached a team barrier and parked (R307) -/
  | bar (b : Nat)
  /-- reached a cluster barrier and parked (R307) -/
  | barCl (b : Nat)
  /-- arrives a second time in one phase: waits for the next (R307) -/
  | barNext (b : Nat) (cluster : Bool)
  /-- `rsend` at a turnout slot, with its word (R304) -/
  | send (word : Word) (slot base n : Nat)
  /-- `bwait` (R330) -/
  | bwait (bar : BarName) (phase : Bool)
  /-- `ssq` with w = 1 (R346) -/
  | ssq (off dst : Nat)
  /-- `tlbinv` (R352) -/
  | tlbinv (va : Dword) (sel : Word)
  /-- `park`, until the team's ncyc reaches a value (R299) -/
  | park (till : Nat)
  /-- `wfe`, with the ncyc value that ends it, if any (R353) -/
  | wfe (till : Option Nat)
  /-- `kick`: the batch is being read and checked (R331) -/
  | kick
  /-- `sstop` of a write stream (R296) -/
  | sstop (q : Nat)
  /-- posted, or waiting to be posted, to the service team for a translation fault (R111); `back` is where the thread stands once it
  is to be retried -/
  | service (back : Wait)
  /-- an `svc` posted, or waiting to be posted, to the service team (R111, R348) -/
  | call
  /-- the wait at the instruction is over; it retires at the thread's turn, for the group is halted or the device stopped (R122, R224) -/
  | done
  /-- stopped by a double trap of its group (R215) -/
  | stopped
  /-- removed (R132) -/
  | exited
  deriving DecidableEq, Repr

/-- A thread's registers (R138 to R146) and its position. `view` says which writes its loads must see (R194), `next` holds the loads of its
present run (R191), `wrote` says how far its performed stores reach; `reads` names the bytes that it has loaded, each with the number of
the version taken, and `fences` its fences, each with what happens before it: a fence acquires for the loads before it and releases for
the stores after it (R193). `traps` counts the traps taken, for the debugger's step (R225). -/
structure Thread where
  lane    : Nat
  slot    : Nat
  regs    : Nat
  v       : List Word
  x       : List Word
  c       : BitVec 7
  m       : List Dword
  f       : List Word
  q       : List (Option Stream)
  pc      : Addr
  tstat   : Word
  tsav    : Word
  thdl    : Word
  thdlHi  : BitVec 16
  tcause  : Word
  tepc    : Word
  tepcHi  : BitVec 16
  tval    : Word
  tvalHi  : Word
  tlog    : Word
  srseed  : Word
  gen     : Word
  nret    : Dword
  ncycHi  : Word
  nretHi  : Word
  hints   : List Hint
  log     : List LogEntry
  kept    : List LogEntry
  pend08  : Option Dword
  pend0D  : Option Dword
  pend14  : Option Dword
  pend15  : Option Dword
  mismatch : Option Dword
  latch   : Bool
  wait    : Wait
  view    : View
  next    : List ReadMark
  wrote   : Nat
  reads   : List (Nat × Nat)
  fences  : List (Scope × View)
  traps   : Nat
  deriving DecidableEq, Repr

/-! ### Teams, groups and cores -/

/-- The states of a tile (R167). -/
inductive TileState where
  | empty | filling | ready | draining
  deriving DecidableEq, Repr

/-- A sluice-table entry (R167). -/
structure Tile where
  valid : Bool
  state : TileState
  base  : Nat
  bytes : Nat
  bar   : Dword
  deriving DecidableEq, Repr

/-- What the members of a convergence register sign (R135, R336, R338, R342). -/
inductive SigOp where
  | mma (o : Word) (sel : Nat) (reuse : Bool)
  | mmap (o : Word) (sel : Nat) (reuse : Bool)
  | mldb (o : Word)
  | mzero (acc : Nat)
  | mst (o : Word)
  | ssx (off : Nat)
  deriving DecidableEq, Repr

/-- The tiles of a `task` quad (R332): inputs and output. -/
structure TaskTiles where
  inputs : List Nat
  out    : Option Nat
  deriving DecidableEq, Repr

/-- One signature (R135): the signer, its word and operation, its scale pair, the task it came by, and what the signer had seen and done
(R199). -/
structure Signature where
  thread : ThreadId
  word   : Word
  op     : SigOp
  scaleA : Word
  scaleB : Word
  kernel : Bool
  task   : Option TaskTiles
  view   : View := .none
  deriving DecidableEq, Repr

/-- A convergence register (R134): its declaration, the issues left (none: no limit), the signatures so far, and the
offer of a paired operation with the ncyc value at which it was made (R137). -/
structure ConvReg where
  declared : Option (List (Nat × Dword) × Option Nat)
  sigs     : List Signature
  offered  : Option Nat
  deriving DecidableEq, Repr

/-- A cistern reservation (R183, R334): the record, the three format values kept with it, and, once `crel` has marked it, what is to issue
first: the convergence registers whose pending operations name it, by their numbers, and the operations in the dataflow table that do, by 8
plus their stamps. -/
structure Reservation where
  record  : Nat
  fmtA    : Word
  fmtB    : Word
  fmtS    : Word
  freeing : Option (List Nat)
  deriving DecidableEq, Repr

/-- A turnout slot (R180): the groups that hold its two sides. -/
structure Turnout where
  sender   : Option Nat
  receiver : Option Nat
  deriving DecidableEq, Repr

/-- A barrier in its present phase (R307): its n, the members that have reached it with the stamps of their next
accesses, and the groups that have arrived. -/
structure Barrier where
  n       : Option Nat
  reached : List (ThreadId × Nat)
  arrived : List GroupId
  deriving DecidableEq, Repr

/-- A pre-emption decided for a team (R115). -/
inductive TeamAction where
  | flush
  | drain (since : Nat)
  | save
  deriving DecidableEq, Repr

/-- A resident team (R103, R118). -/
structure Team where
  launch   : Nat
  cluster  : Nat
  index    : Nat
  asid     : Nat
  pinned   : Bool
  groups   : Nat
  regs     : Nat
  coBase   : Nat
  coBytes  : Nat
  cistBase : Nat
  cistBytes : Nat
  slice    : Nat
  tiles    : List Tile
  conv     : List ConvReg
  resv     : List (Option Reservation)
  turnouts : List Turnout
  bars     : List Barrier
  scoperep : BitVec 7
  ncyc     : Nat
  ended    : Bool
  action   : Option TeamAction
  deriving DecidableEq, Repr

/-- What a double trap left for the fault record (R215). -/
structure FaultInfo where
  lane  : Nat
  cause : Byte
  prior : Byte
  pc    : Addr
  val   : Dword
  tstat : Word
  deriving DecidableEq, Repr

/-- A resident group (R105, R108, R224). `served` holds the members that have been served in the present round of their slice (R127),
`last` the cycle of the core in which the group issued last, `prev` the one before (R108); `issues` counts its issues since it entered
the active set, `waited` those of its core while it waits ready, and `held` is the cycle of its core from which on it issues after an
exchange (R109). -/
structure Group where
  width   : Nat
  served  : List Nat
  slice   : Nat
  ended   : Bool
  halted  : Bool
  catching : Bool
  fault   : Option FaultInfo
  parkedFor : Nat
  issues  : Nat
  waited  : Nat
  last    : Nat
  prev    : Nat
  held    : Nat := 0
  deriving DecidableEq, Repr

/-- A resident cluster (R101, R104). -/
structure Cluster where
  launch : Nat
  clid   : Nat
  width  : Nat
  height : Nat
  pair   : Bool
  teams  : List TeamId
  bars   : List Barrier
  flushed : Bool
  deriving DecidableEq, Repr

/-- A copy request in the headgate (R173 to R176): its fields, the K it acts with, its pieces by offset and length, and those still to
complete. `kernel` and `asid` are those of the issuing thread; `drained` says that it has emptied its source tile (R168), and `view` is what
happens before what it does (R199). -/
structure CopyReq where
  thread  : ThreadId
  stamp   : Nat
  asid    : Nat
  kernel  : Bool
  raw     : Nat
  started : Bool
  cuts    : List (Nat × Nat)
  pieces  : List Nat
  drained : Bool
  tag     : Nat
  view    : View := .none
  deriving DecidableEq, Repr

/-- A `kick` batch being read: the offset of the next request, how many are left, the thread that waits, and what it had seen and done. -/
structure Batch where
  thread : ThreadId
  stamp  : Nat
  off    : Nat
  left   : Nat
  kernel : Bool
  view   : View := .none
  deriving DecidableEq, Repr

/-- A flume chain (R178, R179): the descriptor, the elements still to do, and the values of those that wait until every element has passed
its format checks. -/
structure Chain where
  thread  : ThreadId
  stamp   : Nat
  asid    : Nat
  kernel  : Bool
  seed    : Word
  fmts    : List Word
  desc    : List Byte
  pending : List Nat
  tag     : Nat
  view    : View := .none
  ready   : AMap Nat Word := []
  deriving DecidableEq, Repr

/-- An operation issued to the matrix engine (R340), in the order of issue: its signers with their words and scale pairs
in row order, the reservations as at its issue, the partner core of an `mmap`, the SSB copy of an `ssx`, whether it came by the dataflow
table, and what its signers had seen and done. -/
structure MatrixOp where
  team    : TeamId
  stamp   : Nat
  asid    : Nat
  op      : SigOp
  words   : List Word
  signers : List ThreadId
  scales  : List (Word × Word)
  resvA   : Option Reservation
  resvB   : Option Reservation
  kernel  : Bool
  paired  : Option Nat
  started : Bool
  ssb     : List Byte
  number  : Nat
  flow    : Bool
  view    : View := .none
  deriving DecidableEq, Repr

/-- What a dataflow entry runs (R177, R332). -/
inductive FlowCmd where
  | copy (req : CopyReq)
  | chain (c : Chain)
  | matrix (op : MatrixOp)
  deriving DecidableEq, Repr

/-- A dataflow-table entry (R177). -/
structure FlowEntry where
  team    : TeamId
  cmd     : FlowCmd
  tiles   : TaskTiles
  running : Bool
  deriving DecidableEq, Repr

/-- A range owned by an engine operation (R181): the operation's number, the virtual pieces (address, length) that it has still to write,
and which engine of its core owns it: 0 the headgate, 1 the flume, 2 the sequencer. -/
structure Range where
  tag  : Nat
  asid : Nat
  left : List (Nat × Nat)
  unit : Nat := 0
  deriving DecidableEq, Repr

/-- An entry of the pod read buffer (R202, R314). -/
structure PodLine where
  member : Nat
  region : Nat
  block  : Nat
  bytes  : List Byte
  deriving DecidableEq, Repr

/-- A core's scheduler sets with the number of its present cycle and that of its last exchange (R109), and its engines. -/
structure Core where
  active  : List GroupId
  pending : List GroupId
  cycle   : Nat
  swapT   : Nat
  freq    : Nat
  batches : List Batch
  copies  : List CopyReq
  chains  : List Chain
  flow    : List FlowEntry
  matrix  : List MatrixOp
  issued  : Nat
  ranges  : List Range
  podBuf  : List PodLine
  swapped : Nat := 0
  deriving DecidableEq, Repr

/-! ### Launches, queues and the scheduler -/

/-- A launch header (R99). -/
structure Header where
  width   : Nat
  teamg   : Nat
  clw     : Nat
  clh     : Nat
  regs    : Nat
  slice   : Nat
  shared  : Nat
  cistern : Nat
  gregs   : Nat
  tiles   : Nat
  idem    : Bool
  pair    : Bool
  pin     : Bool
  excl    : Bool
  svcring : Bool
  budget  : Nat
  pincore : Nat
  sva     : Nat
  deriving DecidableEq, Repr

/-- A started launch (R100, R101, R110). -/
structure Launch where
  queue    : Nat
  seq      : Word
  asid     : Nat
  entry    : Nat
  header   : Header
  words    : List Word
  gx       : Nat
  gy       : Nat
  gz       : Nat
  next     : Nat
  returned : List Nat
  ended    : Nat
  faulted  : Nat
  deriving DecidableEq, Repr

/-- Where a command stands (R87, R88). -/
inductive CmdState where
  | fetched
  | running
  | finished (status result : Nat)
  deriving DecidableEq, Repr

/-- A command in flight (R86, R87), with the K of the thread whose `spawn` offered it, if any. `number` is that of its launch, which a
LAUNCH takes as it starts (R101). -/
structure Cmd where
  seq   : Word
  bytes : List Byte
  spawn : Option Bool
  number : Nat
  state : CmdState
  deriving DecidableEq, Repr

/-- The states of a queue (R89). -/
inductive QueueMode where
  | disabled | running | error | orphaned
  deriving DecidableEq, Repr

/-- A queue's state (R87 to R92). `waiting` holds finished commands whose completions are not written yet; `fetching` says of an orphaned
queue that it ran before, and that no sequence error has stopped it (R87, R90). -/
structure Queue where
  mode     : QueueMode
  owner    : Nat
  errstat  : Nat
  gen      : Word
  nextexp  : Word
  lastcomp : Word
  donemap  : Word
  sqhead   : Nat
  sqtail   : Nat
  cqhead   : Nat
  cqtail   : Nat
  rejspawn : Word
  phase    : Bool
  cmds     : List Cmd
  waiting  : List (Word × Nat × Nat)
  deficit  : Nat
  skip     : Nat
  fetching : Bool := false
  deriving DecidableEq, Repr

/-- A saved team with its storage (R118): its core-in-cluster index, the positions of its groups in the active set and in the pending
list, and its engine work that had not started. Its threads are named by a team that is on no core (State.parkedId). -/
structure SavedTeam where
  core    : Nat
  teamid  : Nat
  index   : Nat
  team    : Team
  groups  : List (GroupId × Group)
  active  : AMap GroupId Nat
  pending : AMap GroupId Nat
  threads : List (ThreadId × Thread)
  lanes   : List (ThreadId × Memory)
  co      : Memory
  cist    : Memory
  flow    : List FlowEntry
  matrix  : List MatrixOp
  copies  : List CopyReq
  batches : List Batch
  ranges  : List Range
  bytes   : Nat
  deriving DecidableEq, Repr

/-- The saved teams of a cluster that waits to resume (R118, R120). -/
structure SavedCluster where
  number : Nat
  teams  : List SavedTeam
  deriving DecidableEq, Repr

/-- A cluster that a decision can dispatch: a saved one by its number, or one by its launch and clid (R101). -/
inductive ClusterRef where
  | saved (number : Nat)
  | fresh (launch clid : Nat)
  deriving DecidableEq, Repr

/-- A pre-emption under way (R116): the triggering cluster, the cores of its position, and the clusters that leave them. -/
structure Trigger where
  cluster : ClusterRef
  cores   : List Nat
  victims : List Nat
  deriving DecidableEq, Repr

/-- The cut (R121, R122): requests, the units that have stopped, the teams whose save the cut decided, the saved flits with their
numbers, and the flits that the receivers have handed to their units, in this order (R51; log entry 57). -/
structure Cut where
  stopping : Bool
  save     : Bool
  isStopped : Bool
  saving   : Bool
  saveFail : Bool
  chosen   : List TeamId
  units    : List CutUnit
  rxSeq    : AMap (Nat × Nat) Word
  flits    : List (Nat × Nat × Word × FlitBody)
  handed   : List (Nat × Nat × Word × FlitBody)
  deriving DecidableEq, Repr

/-- One call of a service batch (R112): the member, and its words or its faulting address and access. -/
structure Call where
  member : Nat
  number : Nat
  args   : List Word
  addr   : Dword
  access : Nat
  dst    : Nat
  deriving DecidableEq, Repr

/-- Whose access an engine batch of kind 2 holds (R383), or the stream whose element a batch of kind 1 is about (R144; log entry 15). -/
inductive EngineRef where
  | none
  | piece (core request piece : Nat)
  | element (core chain element : Nat)
  | ssx (core : Nat)
  | message (number : Nat)
  | stream (thread : ThreadId) (stream : Nat)
  | join (queue : Nat) (seq : Word)
  | header (queue : Nat) (seq : Word)
  deriving DecidableEq, Repr

/-- A service batch (R111, R112): open while calls can join it, then closed, then posted in a slot of its die's ring. `home` is the
core and teamid that its slot names. -/
structure ServiceBatch where
  group  : GroupId
  home   : TeamId
  kind   : Nat
  die    : Nat
  asid   : Nat
  calls  : List Call
  opened : Nat
  closed : Bool
  slot   : Option Nat
  engine : EngineRef
  deriving DecidableEq, Repr

/-- The service machinery (R111): per die the ring's chip-scratchpad offset, the next slot and the service core. -/
structure Service where
  rings   : AMap Nat (Nat × Nat × Nat)
  batches : List ServiceBatch
  deriving DecidableEq, Repr

/-! ### The fabric -/

/-- The states of a path (R47). -/
inductive PathMode where
  | clear | marked | failed
  deriving DecidableEq, Repr

/-- One path's state: mode, the ECN marks of the last acknowledgements, timeouts in a row, rotations since marked. -/
structure PathState where
  mode     : PathMode
  acks     : List Bool
  timeouts : Nat
  turns    : Nat
  deriving DecidableEq, Repr

/-- The congestion entry of a prefix and path set (R47, R76, R29). -/
structure Congestion where
  cursor : Option Nat
  paths  : List PathState
  mark   : Nat
  trim   : Nat
  deriving DecidableEq, Repr

/-- What a message of this device carries (R46, R71, R314, R325). -/
inductive MsgBody where
  | wsig (src : Dword) (tctr : Nat) (lctr : Option Nat)
  | store (data : List Byte) (nt rel : Bool)
  | load (entry part : Nat)
  | element (stream part : Nat)
  | atomic (entry : Nat)
  | piece (core request piece : Nat) (data : List Byte)
  | contribution (src : Dword) (gid : Nat) (gen : Byte) (lctr : Option Nat)
  deriving DecidableEq, Repr

/-- A message not yet complete at the source (R46, R50). `home` is the core and teamid of the team that issued it. `acked` is the
stage of a message on the pod path: 0 writes leave, 1 the flush is under way, 2 it is over, 3 the increment request has left (R71).
`placed` names the writes that have placed the bytes of a message to this rank, and `view` is what happens before it as a release (R204). -/
structure Message where
  number : Nat
  home   : TeamId
  stamp  : Nat
  thread : ThreadId
  kernel : Bool
  asid   : Nat
  rank   : Nat
  gaddr  : Dword
  len    : Nat
  body   : MsgBody
  sent   : Nat
  acked  : Nat
  pod    : Bool
  placed : List Nat := []
  view   : View := .none
  deriving DecidableEq, Repr

/-- A packet of the retransmission window (R50, R76). -/
structure WinPacket where
  rank  : Nat
  psn   : Word
  msg   : Nat
  off   : Nat
  path  : Nat
  sends : Nat
  acked : Bool
  deriving DecidableEq, Repr

/-- What a target keeps per source (R49): cumulative PSN, accepted PSNs after it, and for each message the bytes placed and the numbers of
the writes that placed them (R204). -/
structure Receiver where
  cum   : Word
  seen  : List Word
  parts : AMap Nat (Nat × List Nat)
  deriving DecidableEq, Repr

/-- A pod flush in progress (R44): the peer, and the accesses that wait for it (a thread and the stamp of its release, or
stamp 0 for a `fence` or `pflush`). -/
structure Flush where
  member : Nat
  users  : List (ThreadId × Nat)
  deriving DecidableEq, Repr

/-- A pod store that has been sent and is not known to be placed (R201): its member, stamp and thread, whether it is a store of the thread
itself and not of a message, whether it is non-temporal (R198), and whether the flush in progress covers it. `excused` names the threads
that wait for it no longer, since a flush of theirs failed (R320). -/
structure Tracked where
  member  : Nat
  stamp   : Nat
  thread  : ThreadId
  own     : Bool
  nt      : Bool
  covered : Bool
  excused : List ThreadId := []
  deriving DecidableEq, Repr

/-- A reduction at its home (R74): the home's generation, the first position not folded of each element, what is held. -/
structure Folding where
  gen     : Byte
  covered : AMap Nat Nat
  held    : List ReductionPacket
  deriving DecidableEq, Repr

/-- The transport and the pod agent. `tracked` holds the pod stores sent and not known placed (R201). -/
structure Net where
  nextPsn   : AMap Nat Word
  messages  : List Message
  window    : List WinPacket
  receivers : AMap Nat Receiver
  paths     : AMap (Dword × Nat) Congestion
  numbers   : Nat
  tracked   : List Tracked
  flushes   : List Flush
  podFail   : AMap Nat Nat
  folds     : AMap Nat Folding
  deriving DecidableEq, Repr

/-! ### The rest of the device -/

/-- bootstat and the power state (R5, R31, R32, R34). -/
structure Boot where
  stage   : BitVec 4
  slot    : BitVec 4
  fail    : Byte
  ready   : Bool
  linkUp  : Bool
  powered : Bool
  measure : List Byte
  deriving DecidableEq, Repr

/-- Module flash and fuses (R31, R33, R35): the root-key digest, the minimum security version, the die identities and the helper data are
fuses. A slot's bytes are kept complemented, so that erased flash lists nothing. -/
structure Flash where
  slots      : List Memory
  written    : List (Nat × Nat)
  rootKey    : List Byte
  rootDigest : List Byte
  minSecver  : Nat
  dieIds     : List Byte
  helper     : List Byte
  deriving DecidableEq, Repr

/-- The operations of the recovery mailbox (R35). -/
inductive MailOp where
  | erase | write | verify | restart
  deriving DecidableEq, Repr

/-- The recovery mailbox (R35). `running` is the accepted command with its slot. -/
structure Mailbox where
  rmoff   : Word
  rmbuf   : Memory
  vfail   : Byte
  result  : Byte
  done    : Bool
  busy    : Bool
  running : Option (MailOp × Nat)
  deriving DecidableEq, Repr

/-- The ownership registers (R82). -/
structure Ownership where
  valid    : Bool
  id       : Nat
  csq      : Word
  reqValid : Bool
  reqId    : Nat
  results  : List Nat
  rejcnt   : Word
  deriving DecidableEq, Repr

/-- The states of a fabric port (R38). -/
inductive PortState where
  | disabled | training | up | failed
  deriving DecidableEq, Repr

/-- A residency handle (R165). -/
structure Handle where
  asid   : Nat
  base   : Nat
  pages  : Nat
  prio   : Nat
  second : Bool
  deriving DecidableEq, Repr

/-- A page, or a block of 8,192, being moved between tiers (R25): its first virtual page, the physical page numbers it moves from and
to, and its new tier code. -/
structure TierMove where
  asid  : Nat
  page  : Nat
  block : Bool
  src   : Nat
  dst   : Nat
  tier  : Nat
  deriving DecidableEq, Repr

/-- Pages that an `rhdem` or a `pref` asks to move (R347): the first page and their number. -/
structure MoveAsk where
  asid   : Nat
  page   : Nat
  pages  : Nat
  demote : Bool
  deriving DecidableEq, Repr

/-- What looks a translation up: a core, through its own L1 TLB, or a unit of a die, through the L2 TLB of the die alone (R187). -/
inductive Walker where
  | core (c : Nat)
  | die (d : Nat)
  deriving DecidableEq, Repr

/-- A translation in the L1 TLB of a core or the L2 TLB of a die (R187): the table entry as it was, and the size of what it maps. -/
structure TlbEntry where
  holder : Walker
  asid   : Nat
  page   : Nat
  entry  : Nat
  block  : Bool
  deriving DecidableEq, Repr

/-- A pointer of level 1 or 2 in the walk cache of a die (R187): its index among those of its level, and the entry as it was. -/
structure WalkEntry where
  die   : Nat
  asid  : Nat
  level : Nat
  index : Nat
  entry : Nat
  deriving DecidableEq, Repr

/-- A transform window's blocks (R97, R98): bytes written per held block, times each block was processed. -/
structure Window where
  held   : AMap Nat (AMap Nat Byte)
  counts : AMap Nat Nat
  deriving DecidableEq, Repr

/-- The debugger's status (R224, R225): the group addressed last, and for a step in progress the members of the
sub-group with their nret, pc and number of traps at its start. -/
structure Debug where
  target   : Option GroupId
  stepping : List (Nat × Dword × Addr × Nat)
  dlane   : Nat
  outcome : Nat
  busy    : Bool
  deriving DecidableEq, Repr

/-- The way that a packet leaves by: an Ethernet path with its port, the entropy that its packets carry and the IPv6 address of the
destination (R47, R58, R59), or a UALink port and the pod member behind it (R42). -/
inductive Route where
  | ethernet (path port : Nat) (entropy : BitVec 16) (address : BitVec 128)
  | ualink (port member : Nat)
  deriving DecidableEq, Repr

/-- The algorithms an SPDM responder selects, each a set of the bits that SPDM 1.3 gives it (R34). -/
structure SpdmAlgorithms where
  asym            : Nat
  baseHash        : Nat
  measurementHash : Nat
  deriving DecidableEq, Repr

/-- What the device answers over DOE (R34): the algorithms, a measurement block with its signature, or another SPDM answer. -/
inductive SpdmAnswer where
  | algorithms (a : SpdmAlgorithms)
  | measurement (block signature : List Byte)
  | other (data : List Byte)
  deriving DecidableEq, Repr

/-- What the device sends to the outside: the model's record of what leaves it (log entry 3). -/
inductive OutMsg where
  /-- a UALink request to a pod member on a port (R42, R314) -/
  | podRequest (member : Nat) (port : Nat) (req : PodRequest)
  /-- the answer to a pod request, with its code of R65; 0x100 says that the data are poisoned (R26) -/
  | podResponse (member : Nat) (code : Nat) (data : List Byte)
  /-- an Ethernet packet (R46, R47) -/
  | packet (rank : Nat) (via : Route) (p : Packet)
  /-- a reduction packet (R52) -/
  | reduction (rank : Nat) (via : Route) (p : ReductionPacket)
  /-- an acknowledgement (R49) -/
  | ack (rank : Nat) (cum : Word) (bitmap : Dword)
  /-- a negative acknowledgement (R49); 0x100 says that the data are poisoned (R26) -/
  | nack (rank : Nat) (psn : Word) (code : Nat)
  /-- a resend request (R49) -/
  | resend (rank : Nat) (psn : Word)
  /-- the response to an Ethernet load or atomic (R77) -/
  | response (rank : Nat) (psn : Word) (data : List Byte)
  /-- a request for missing reduction positions, each with the rank that holds it (R54, R73) -/
  | wanted (gid : Nat) (members : List (Nat × Nat))
  /-- a posted write to a PCI Express peer page (R95) -/
  | peerWrite (bus : Nat) (data : List Byte)
  /-- a read of a PCI Express peer page (R95) -/
  | peerRead (bus size : Nat)
  /-- data answered to the host or a drive (R94, R205, R207) -/
  | hostData (data : List Byte)
  /-- a read of the host or a drive met poisoned bytes (R26) -/
  | hostPoison
  /-- Unsupported Request (R78, R94) -/
  | unsupported
  /-- Completer Abort (R207) -/
  | completerAbort
  /-- an SPDM response (R34) -/
  | spdm (answer : SpdmAnswer)
  /-- the host sees the link go down (R28) -/
  | linkDown
  deriving DecidableEq, Repr

/-- What moves next (log entry 1): the slice of a thread issues, or a gang of slices of one group does (R126, R127), a row of the table
happens, or a core's clock passes cycles. -/
inductive Turn where
  | thread (t : ThreadId)
  | gang (g : GroupId) (slices : List Nat)
  | event (i : Instr)
  | clock (core cycles : Nat)
  deriving DecidableEq, Repr

/-- The device. `hostLines` holds the 64-byte lines that the directory has granted to a host CPU exclusively (R207). `counted` holds for a
barrier, by its place, what its present phase has counted, and what the phases before it have (R199). `recent` holds the L2 lines in the
order of their last use (R166). -/
structure State where
  agenda   : List Turn
  cur      : ThreadId
  stamp    : Nat
  issue    : Nat
  out      : List OutMsg
  mem      : Memory
  hist     : List Write
  cist     : Memory
  poison   : List Nat
  boot     : Boot
  flash    : Flash
  mailbox  : Mailbox
  mgmt     : Memory
  own      : Ownership
  errs     : AMap Nat Dword
  ports    : AMap Nat PortState
  tables   : Memory
  jinval   : Bool
  qres     : BitVec 2
  queues   : AMap Nat Queue
  cursors  : AMap Nat Nat
  promoted : List Nat
  withdrawn : List Nat
  launches : AMap Nat Launch
  clusters : AMap Nat Cluster
  nextId   : Nat
  teams    : AMap TeamId Team
  groups   : AMap GroupId Group
  threads  : AMap ThreadId Thread
  cores    : AMap Nat Core
  saved    : List SavedCluster
  triggers : List Trigger
  cut      : Cut
  service  : Service
  faultSeq : Word
  buffer   : List BufStore
  net      : Net
  tlb      : List TlbEntry
  walks    : List WalkEntry
  scopeRec : AMap Nat Scope
  recent   : List Nat
  handles  : AMap Nat Handle
  homes    : AMap Nat Nat
  moves    : List TierMove
  asks     : List MoveAsk
  windows  : AMap Nat Window
  dbg      : Debug
  dbgdata  : Word
  hostLines : List Nat
  counted  : AMap Nat (View × View)
  deriving DecidableEq, Repr

/-! ### Reset -/

/-- A thread before anything is known of it: the register contents of R138 and R146 at thread start. -/
def Thread.start (lane slot regs : Nat) (words : List Word) (pc : Addr) (kernel : Bool) : Thread :=
  { lane := lane, slot := slot, regs := regs
    v := (words ++ List.replicate regs 0).take regs
    x := List.replicate 8 0, c := 0, m := List.replicate 7 0
    f := [0x000A0E98, 0x000C1EB8, 0x00080254, 0x00080676, 0x00080256, 0x00000018, 0x0002FF08, 0x00000014]
    q := [none, none, none, none], pc := pc
    tstat := if kernel then 4 else 0
    tsav := 0, thdl := 0, thdlHi := 0, tcause := 0, tepc := 0, tepcHi := 0, tval := 0, tvalHi := 0, tlog := 0
    srseed := 0, gen := 0x9E3779B9, nret := 0, ncycHi := 0, nretHi := 0, hints := [], log := [], kept := []
    pend08 := none, pend0D := none, pend14 := none, pend15 := none, mismatch := none, latch := false, wait := .run
    view := .none, next := [], wrote := 0, reads := [], fences := [], traps := 0 }

/-- A core with nothing on it (R109: T is 256 at reset; R2: 3.6 GHz nominal). -/
def Core.idle : Core :=
  { active := [], pending := [], cycle := 1, swapT := 256, freq := 36, batches := [], copies := [], chains := []
    flow := [], matrix := [], issued := 0, ranges := [], podBuf := [] }

/-- A queue at reset (R89): nextexp is 1, every other field 0. -/
def Queue.atReset : Queue :=
  { mode := .disabled, owner := 0, errstat := 0, gen := 0, nextexp := 1, lastcomp := 0, donemap := 0, sqhead := 0
    sqtail := 0, cqhead := 0, cqtail := 0, rejspawn := 0, phase := true, cmds := [], waiting := [], deficit := 0, skip := 0 }

/-- The management registers that reset to other than zero: pwrcap is 5,000 (R28, R79). -/
def resetRegisters : Memory := [(0x210, 0x88), (0x211, 0x13)]

/-- The device after deassertion of fundamental reset (R5, R11, R31): stage 0x0, every store in its reset state. -/
def State.reset : State :=
  { agenda := [], cur := ⟨0, 0, 0, 0⟩, stamp := 1, issue := 0, out := [], mem := [], hist := [], cist := [], poison := []
    boot := { stage := 0, slot := 0xF, fail := 0, ready := false, linkUp := false, powered := true, measure := [] }
    flash := { slots := [[], []], written := [], rootKey := [], rootDigest := [], minSecver := 0, dieIds := [], helper := [] }
    mailbox := { rmoff := 0, rmbuf := [], vfail := 0, result := 0, done := false, busy := false, running := none }
    mgmt := resetRegisters
    own := { valid := false, id := 0, csq := 0, reqValid := false, reqId := 0, results := List.replicate 8 0, rejcnt := 0 }
    errs := [], ports := [], tables := [], jinval := false, qres := 0, queues := [], cursors := [], promoted := []
    withdrawn := [], launches := [], clusters := [], nextId := 1, teams := [], groups := [], threads := [], cores := []
    saved := [], triggers := []
    cut := { stopping := false, save := false, isStopped := false, saving := false, saveFail := false, chosen := [], units := []
             rxSeq := [], flits := [], handed := [] }
    service := { rings := [], batches := [] }, faultSeq := 0, buffer := []
    net := { nextPsn := [], messages := [], window := [], receivers := [], paths := [], numbers := 0, tracked := []
             flushes := [], podFail := [], folds := [] }
    tlb := [], walks := [], scopeRec := [], recent := [], handles := [], homes := [], moves := [], asks := [], windows := []
    dbg := { target := none, stepping := [], dlane := 0, outcome := 0, busy := false }, dbgdata := 0, hostLines := [], counted := [] }

end Sys2Proof.Machine
end

