-- ==== Sys2Proof/Machine/Ops.lean ====
section
/-! DEFINITION. The named operations over the device: looking up its parts, its management registers, physical memory,
address translation, pending causes, taking a trap and returning from one. -/
namespace Sys2Proof.Machine

/-! ### Bits and signs -/

/-- A number as a signed value of `w` bits (R15). -/
def sextN (v w : Nat) : Int := if bits v (w - 1) (w - 1) = 1 ∧ 0 < w then (v % 2 ^ w : Nat) - (2 ^ w : Nat) else (v % 2 ^ w : Nat)

/-- An integer modulo 2^w, as a number (R15, trunc). -/
def truncI (v : Int) (w : Nat) : Nat := (v % (2 ^ w : Nat)).toNat

/-- A flag as a number. -/
def b2n (b : Bool) : Nat := if b then 1 else 0

/-- The members of a mask, in ascending order. -/
def maskMembers (m : Dword) : List Nat := (List.range 64).filter (fun i => m.getLsbD i)

/-- The mask of a list of members. -/
def maskOf : List Nat → Dword
  | [] => 0
  | i :: r => (1#64 <<< i) ||| maskOf r

/-! ### Names and codes -/

/-- The code of a cause (R213). -/
def Cause.code : Cause → Nat
  | .illegalInstruction => 0x01 | .reservedOperand => 0x02 | .indexBound => 0x03 | .misaligned => 0x04
  | .straddle => 0x05 | .translation => 0x06 | .permission => 0x07 | .illegalMatrix => 0x08 | .illegalFormat => 0x09
  | .conversionOverflow => 0x0A | .illegalXissWord => 0x0B | .convergenceDeadlock => 0x0C | .pairTimeout => 0x0D
  | .scopeMismatch => 0x0E | .illegalTret => 0x0F | .badStatus => 0x10 | .breakpoint => 0x11 | .serviceCall => 0x12
  | .undefinedTile => 0x13 | .uncorrectableMemory => 0x14 | .remoteAccessFailure => 0x15 | .doubleTrap => 0x16

/-- The code of a scope (R14). -/
def Scope.code : Scope → Nat
  | .grp => 0 | .team => 1 | .clu => 2 | .dev => 3 | .sys => 4 | .pod => 5 | .glb => 6

/-- The scope of a code; 111 is reserved (R14). -/
def Scope.ofCode (c : BitVec 3) : Option Scope :=
  match c.toNat with
  | 0 => some .grp | 1 => some .team | 2 => some .clu | 3 => some .dev | 4 => some .sys | 5 => some .pod
  | 6 => some .glb | _ => none

/-! ### Parts of the device -/

/-- A core, idle where nothing is known of it. -/
def State.core (s : State) (c : Nat) : Core := AMap.getD s.cores c Core.idle

/-- Replaces a core. -/
def State.setCore (s : State) (c : Nat) (k : Core) : State := { s with cores := AMap.set s.cores c k }

/-- A queue, at reset where nothing is known of it. -/
def State.queue (s : State) (q : Nat) : Queue := AMap.getD s.queues q Queue.atReset

/-- Replaces a queue. -/
def State.setQueue (s : State) (q : Nat) (v : Queue) : State := { s with queues := AMap.set s.queues q v }

/-- A thread. -/
def State.thread? (s : State) (t : ThreadId) : Option Thread := AMap.get? s.threads t

/-- Replaces a thread. -/
def State.setThread (s : State) (t : ThreadId) (v : Thread) : State := { s with threads := AMap.set s.threads t v }

/-- Changes a thread, if it is there. -/
def State.modThread (s : State) (t : ThreadId) (f : Thread → Thread) : State :=
  match s.thread? t with
  | some v => s.setThread t (f v)
  | none => s

/-- A team. -/
def State.team? (s : State) (t : TeamId) : Option Team := AMap.get? s.teams t

/-- Changes a team, if it is there. -/
def State.modTeam (s : State) (t : TeamId) (f : Team → Team) : State :=
  match s.team? t with
  | some v => { s with teams := AMap.set s.teams t (f v) }
  | none => s

/-- A group. -/
def State.group? (s : State) (g : GroupId) : Option Group := AMap.get? s.groups g

/-- Changes a group, if it is there. -/
def State.modGroup (s : State) (g : GroupId) (f : Group → Group) : State :=
  match s.group? g with
  | some v => { s with groups := AMap.set s.groups g (f v) }
  | none => s

/-- The launch of a team. -/
def State.launchOf (s : State) (t : TeamId) : Option Launch := (s.team? t).bind (fun v => AMap.get? s.launches v.launch)

/-- The cluster of a team. -/
def State.clusterOf (s : State) (t : TeamId) : Option Cluster := (s.team? t).bind (fun v => AMap.get? s.clusters v.cluster)

/-- A thread is live until it is removed (R132). -/
def Thread.live (t : Thread) : Bool := decide (t.wait ≠ .exited)

/-- The live members of a group, in ascending member number. -/
def State.members (s : State) (g : GroupId) : List Nat :=
  (List.range 64).filter (fun i => match s.thread? ⟨g.core, g.team, g.grp, i⟩ with
    | some t => t.live
    | none => false)

/-- m7: the live members of a group (R138). -/
def State.liveMask (s : State) (g : GroupId) : Dword := maskOf (s.members g)

/-- The gidx of the groups of a team that have not ended. -/
def State.liveGroups (s : State) (t : TeamId) : List Nat :=
  (List.range 32).filter (fun g => match s.group? ⟨t.core, t.team, g⟩ with
    | some v => !v.ended
    | none => false)

/-- A member of a group. -/
def memberOf (g : GroupId) (i : Nat) : ThreadId := ⟨g.core, g.team, g.grp, i⟩

/-- A group of a team. -/
def groupOf (t : TeamId) (g : Nat) : GroupId := ⟨t.core, t.team, g⟩

/-- The thread of a group on a lane. -/
def State.onLane (s : State) (g : GroupId) (lane : Nat) : Option Nat :=
  (s.members g).find? (fun i => match s.thread? ⟨g.core, g.team, g.grp, i⟩ with
    | some t => t.lane == lane
    | none => false)

/-- The compute die of a core (R19). -/
def dieOf (core : Nat) : Nat := core / 256

/-- Bit K of tstat (R210). -/
def Thread.kernel (t : Thread) : Bool := t.tstat.getLsbD 2
/-- Bit H of tstat (R210). -/
def Thread.handling (t : Thread) : Bool := t.tstat.getLsbD 0
/-- Bit TE of tstat (R210). -/
def Thread.trapsOn (t : Thread) : Bool := t.tstat.getLsbD 1
/-- Bit SE of tstat (R210). -/
def Thread.scopeTraps (t : Thread) : Bool := t.tstat.getLsbD 6
/-- D = 1 and H = 0: the thread steps (R222). -/
def Thread.stepping (t : Thread) : Bool := t.tstat.getLsbD 7 && !t.tstat.getLsbD 0
/-- Field rnd of tstat (R210). -/
def Thread.rnd (t : Thread) : BitVec 3 := t.tstat.extractLsb' 3 3

/-- Counts one event in an error counter, modulo 2^64 (R80). -/
def State.count (s : State) (off : Nat) : State :=
  { s with errs := AMap.set s.errs off (AMap.getD s.errs off 0 + 1) }

/-- Sends something to the outside (log entry 3). -/
def State.send (s : State) (m : OutMsg) : State := { s with out := s.out ++ [m] }

/-! ### The management block -/

/-- The 32-bit register at an offset of the management block (R79). -/
def State.reg32 (s : State) (off : Nat) : Nat := Memory.readLE s.mgmt off 4

/-- The 64-bit register at an offset of the management block (R79). -/
def State.reg64 (s : State) (off : Nat) : Nat := Memory.readLE s.mgmt off 8

/-- selfrank (R56). -/
def State.selfrank (s : State) : Nat := bits (s.reg32 0x40008) 16 0

/-- nranks (R56). -/
def State.nranks (s : State) : Nat := bits (s.reg32 0x4000C) 17 0

/-- jobctl.en (R56). -/
def State.jobOn (s : State) : Bool := decide (bits (s.reg32 0x40000) 0 0 = 1)

/-- ctrbase (R56), used as it was written, aligned or not (DESIGN CHOICE: log entry 91). -/
def State.ctrbase (s : State) : Nat := s.reg32 0x40024 + s.reg32 0x40028 * 2 ^ 32

/-- grpbase (R56), used as it was written, aligned or not (DESIGN CHOICE: log entry 91). -/
def State.grpbase (s : State) : Nat := s.reg32 0x4002C + s.reg32 0x40030 * 2 ^ 32

/-! ### Physical memory -/

/-- The parts of the physical address space (R159). -/
inductive PhysPart where
  | hbm | second | chip | scratch | bus | reserved
  deriving DecidableEq, Repr

/-- The part that holds a physical address (R159). -/
def physPart (pa : Nat) : PhysPart :=
  if pa < 0x10000000000 then .hbm
  else if pa < 0x70000000000 then .second
  else if pa < 0x70040000000 then .chip
  else if pa < 0x70100000000 then .reserved
  else if pa < 0x70180000000 then .scratch
  else if pa < 0x80000000000 then .reserved
  else if pa < 0x1000000000000 then .bus
  else .reserved

/-- The physical address of byte `a` of a core's scratchpad (R159). The bytes of a team that is on no core lie above the physical address
space, where no page reaches them (log entry 26). -/
def scratchPa (core a : Nat) : Nat := (if core < 4096 then 0x70100000000 else 2 ^ 52) + core * 524288 + a

/-- The physical address of chip-scratchpad byte `a` (R159). -/
def chipPa (a : Nat) : Nat := 0x70000000000 + a

/-- `n` bytes of physical memory as a little-endian number (R8). -/
def State.read (s : State) (pa n : Nat) : Nat := Memory.readLE s.mem pa n

/-- Poison stays on a sector unless the store covers the whole 32-byte sector (R26). -/
def clearPoison (p : List Nat) (pa n : Nat) : List Nat :=
  p.filter (fun k => !(decide (pa ≤ k * 32) && decide (k * 32 + 32 ≤ pa + n)))

/-- Stores bytes in physical memory, and takes down the write with its origin (R188, R190); a store over a whole sector clears its
poison (R26). -/
def State.storeFrom (s : State) (o : Origin) (pa : Nat) (bs : List Byte) : State :=
  { s with mem := Memory.write s.mem pa bs, poison := clearPoison s.poison pa bs.length
           hist := s.hist ++ [{ pa := pa, len := bs.length, old := Memory.slice s.mem pa bs.length, from' := o }] }

/-- A write of one of the device's own units, which every agent that acquires it sees with what came before (log entry 83). -/
def Origin.device : Origin := { by' := .device, rels := [{ scope := .sys, view := .none, own := true }], rmw := false, hard := false }

/-- Bytes moved, cleared or placed by the device itself while nothing accesses them: every later access sees them (R25, R103). -/
def hardOrigin : Origin := { Origin.device with hard := true }

/-- Makes the `n` bytes at an address hold the listed cells of a slice, and zero elsewhere (R25, R103, R118). -/
def State.pasteAt (s : State) (pa n : Nat) (cells : Memory) : State :=
  { s with mem := Memory.paste (Memory.clear s.mem pa n) pa cells
           hist := s.hist ++ [{ pa := pa, len := n, old := Memory.slice s.mem pa n, from' := hardOrigin }] }

/-- Stores bytes for one of the device's own units. -/
def State.store (s : State) (pa : Nat) (bs : List Byte) : State := s.storeFrom .device pa bs

/-- Stores the low `n` bytes of a number for one of the device's own units (R8). -/
def State.write (s : State) (pa n v : Nat) : State := s.store pa (natBytes n v)

/-- The first poisoned byte of a range, if any (R26). -/
def State.poisoned (s : State) (pa n : Nat) : Option Nat :=
  (List.range n).findSome? (fun i => if (pa + i) / 32 ∈ s.poison then some i else none)

/-- A place of which a physical address has moved, by the page entry and the address. -/
def Place.moved (f : Nat → Nat → Nat) : Place → Place
  | .mem va pa e => .mem va (f e pa) e
  | p => p

/-- An element of a write stream whose bytes have moved. -/
def Appended.moved (f : Nat → Nat → Nat) (e : Appended) : Appended := { e with parts := e.parts.map (fun p => (p.1.moved f, p.2)) }

/-- A stream register whose bytes have moved. -/
def Stream.moved (f : Nat → Nat → Nat) (q : Stream) : Stream :=
  { q with appended := q.appended.map (Appended.moved f), arriving := q.arriving.map (fun p => (p.1.moved f, p.2)) }

/-- An access whose bytes have moved. -/
def LogEntry.moved (f : Nat → Nat → Nat) (e : LogEntry) : LogEntry :=
  match e.state with
  | .sent ps => { e with state := .sent (ps.map (fun p => (p.1.moved f, p.2))) }
  | _ => e

/-- A thread whose accesses' bytes have moved. -/
def Thread.moved (f : Nat → Nat → Nat) (t : Thread) : Thread :=
  { t with q := t.q.map (Option.map (Stream.moved f)), log := t.log.map (LogEntry.moved f) }

/-- Bytes have moved: accepted stores, accesses and stream elements under way follow them (R25). -/
def State.movePlaces (s : State) (f : Nat → Nat → Nat) : State :=
  let store : BufStore → BufStore := fun b => { b with parts := b.parts.map (fun p => (p.1.moved f, p.2)) }
  { s with buffer := s.buffer.map store, threads := s.threads.map (fun p => (p.1, p.2.moved f)) }

/-- Where a thread's lane slice lies in `mem`: a window of 2,048 bytes for each thread slot of each lane, above the 48-bit
physical address space, so that no page reaches it (R125, R157; log entry 12). -/
def laneBase (core lane slot : Nat) : Nat := 2 ^ 50 + ((core * 64 + lane) * 16 + slot) * 2048

/-! ### Translation -/

/-- What an access needs of a page (R185, R186). -/
inductive Need where
  | load | store | atomic | fetch
  deriving DecidableEq, Repr

/-- What translating an address gives: a physical address with the entry used, or a fault. -/
inductive Trans where
  | ok (pa entry : Nat)
  | missing
  | denied
  deriving DecidableEq, Repr

/-- A pointer to the next table uses only valid, leaf and ppn, its other fields are zero, and it points to memory
(R185, R186). -/
def pointerOk (e : Nat) : Bool :=
  decide (bits e 0 0 = 1) && decide (bits e 1 1 = 0) && decide (bits e 15 2 = 0) && decide (bits e 63 48 = 0)
    && decide (physPart (bits e 47 16 * 65536) ≠ .reserved)

/-- A leaf is valid, its reserved fields are zero, it has no reserved code, and its page is neither reserved nor a
core-scratchpad page with K = 0 (R159, R163, R185, R186). `block` says that it maps 512 MiB. -/
def leafOk (e : Nat) (block : Bool) (pa : Nat) : Bool :=
  decide (bits e 0 0 = 1) && decide (bits e 1 1 = 1) && decide (bits e 63 48 = 0) && decide (bits e 15 14 = 0)
    && decide (bits e 8 7 ≠ 3) && decide (bits e 12 11 ≠ 3) && (!block || decide (bits e 28 16 = 0))
    && decide (physPart pa ≠ .reserved) && (decide (physPart pa ≠ .scratch) || decide (bits e 6 6 = 1))

/-- The physical address that a leaf gives a virtual address (R184). -/
def leafPa (e : Nat) (block : Bool) (va : Nat) : Nat :=
  if block then bits e 47 29 * 2 ^ 29 + bits va 28 0 else bits e 47 16 * 65536 + bits va 15 0

/-- The level-1 entry of an address, where the entry of its ASID is valid (R184). -/
def State.entry1 (s : State) (asid va : Nat) : Option Nat :=
  let root := s.read (bits (s.reg64 0x280030) 47 0 + 8 * asid) 8
  if bits root 0 0 = 0 ∨ bits root 8 1 ≠ 0 ∨ bits root 63 48 ≠ 0 then none
  else some (s.read (bits root 47 9 * 512 + 8 * bits va 47 42) 8)

/-- The level-2 entry of an address below a level-1 entry (R184). -/
def State.entry2 (s : State) (e1 va : Nat) : Nat := s.read (bits e1 47 16 * 65536 + 8 * bits va 41 29) 8

/-- The leaf of an address from its level-2 entry on, and whether it is a block (R184). -/
def State.leafBelow (s : State) (e2 va : Nat) : Option (Nat × Bool) :=
  if leafOk e2 true (leafPa e2 true va) then some (e2, true)
  else if !pointerOk e2 then none else
  let e3 := s.read (bits e2 47 16 * 65536 + 8 * bits va 28 16) 8
  if leafOk e3 false (leafPa e3 false va) then some (e3, false) else none

/-- The walk of R184: the leaf of an address and whether it is a block. -/
def State.walk (s : State) (asid va : Nat) : Option (Nat × Bool) :=
  match s.entry1 asid va with
  | none => none
  | some e1 => if !pointerOk e1 then none else s.leafBelow (s.entry2 e1 va) va

/-- A pointer that the walk cache of a die holds for an address (R187). -/
def State.cachedPointer (s : State) (die asid level va : Nat) : Option Nat :=
  (s.walks.find? (fun w => w.die == die && w.asid == asid && w.level == level
    && w.index == (if level = 1 then va / 2 ^ 42 else va / 2 ^ 29))).map (fun w => w.entry)

/-- The walk of a die, from the pointers that its walk cache holds (R187). -/
def State.walkVia (s : State) (die asid va : Nat) : Option (Nat × Bool) :=
  match s.cachedPointer die asid 2 va, s.cachedPointer die asid 1 va with
  | some e2, _ => s.leafBelow e2 va
  | none, some e1 => s.leafBelow (s.entry2 e1 va) va
  | none, none => s.walk asid va

/-- A cached translation is one of an address. -/
def TlbEntry.maps (t : TlbEntry) (asid va : Nat) : Bool :=
  t.asid == asid && (if t.block then t.page / 8192 == va / 2 ^ 29 else t.page == va / 65536)

/-- A translation that a TLB holds. -/
def State.cachedLeaf (s : State) (w : Walker) (asid va : Nat) : Option (Nat × Bool) :=
  (s.tlb.find? (fun t => decide (t.holder = w) && t.maps asid va)).map (fun t => (t.entry, t.block))

/-- The die of a unit. -/
def Walker.dieNo : Walker → Nat
  | .core c => dieOf c
  | .die d => d

/-- The translation in use for a page: that of the core's L1 TLB, or of its die's L2 TLB, or else what a walk gives now (R187). -/
def State.leaf (s : State) (w : Walker) (asid va : Nat) : Option (Nat × Bool) :=
  match s.cachedLeaf w asid va, s.cachedLeaf (.die w.dieNo) asid va with
  | some t, _ => some t
  | none, some t => some t
  | none, none => s.walkVia w.dieNo asid va

/-- The permission of a leaf for a kind of access by an agent with the given K (R185, R186). -/
def permits (e : Nat) (need : Need) (kernel : Bool) : Bool :=
  (kernel || decide (bits e 6 6 = 0)) &&
  match need with
  | .load => decide (bits e 2 2 = 1)
  | .store => decide (bits e 3 3 = 1)
  | .atomic => decide (bits e 2 2 = 1) && decide (bits e 3 3 = 1) && decide (bits e 5 5 = 1) && decide (bits e 13 13 = 0)
  | .fetch => decide (bits e 4 4 = 1)

/-- Translates a local virtual address and checks the access (R184 to R186). -/
def State.translate (s : State) (w : Walker) (asid va : Nat) (need : Need) (kernel : Bool) : Trans :=
  if 2 ^ 48 ≤ va then .missing else
  match s.leaf w asid va with
  | none => .missing
  | some (e, block) => if permits e need kernel then .ok (leafPa e block va) e else .denied

/-- The bytes of a page that a tier move takes. -/
def TierMove.size (m : TierMove) : Nat := if m.block then 2 ^ 29 else 65536

/-- A page being moved between tiers holds every access to its bytes, by whatever address they are reached (R25). -/
def State.moving (s : State) (pa n : Nat) : Bool :=
  s.moves.any (fun m => decide (m.src * 65536 < pa + n) && decide (pa < m.src * 65536 + m.size))

/-! ### The spaces other than .gl -/

/-- The range of a space for an access of `n` bytes at `a` (R157). -/
def State.inRange (s : State) (id : ThreadId) (space : Space) (a n : Nat) : Bool :=
  match s.team? id.teamId with
  | none => false
  | some t =>
    match space with
    | .ln => decide (a + n ≤ t.slice)
    | .co => decide (a + n ≤ t.coBytes)
    | .cl =>
      match AMap.get? s.clusters t.cluster with
      | none => false
      | some c => decide (a / 524288 < c.width * c.height) && decide (a % 524288 + n ≤ t.coBytes)
    | .ch => decide (a + n ≤ 2 ^ 30)
    | .gl => true

/-- The physical address of byte `a` of a team's scratchpad allocation. -/
def State.coPa (s : State) (t : TeamId) (a : Nat) : Nat :=
  match s.team? t with
  | some v => scratchPa t.core (v.coBase + a)
  | none => scratchPa t.core a

/-- The physical address behind a `.cl` address, none where the team of that core has ended (R157). -/
def State.clPa (s : State) (id : ThreadId) (a : Nat) : Option Nat :=
  match s.clusterOf id.teamId with
  | none => none
  | some c =>
    match c.teams[a / 524288]? with
    | none => none
    | some t =>
      match s.team? t with
      | some v => if v.ended ∨ AMap.get? s.clusters v.cluster ≠ some c then none else some (scratchPa t.core (v.coBase + a % 524288))
      | none => none

/-! ### Global addresses -/

/-- The rank of a global address (R55). -/
def gRank (a : Nat) : Nat := bits a 62 46
/-- The region of a global address (R55). -/
def gRegion (a : Nat) : Nat := bits a 45 40
/-- The offset of a global address (R55). -/
def gOffset (a : Nat) : Nat := bits a 39 0

/-- The global address of a rank, region and offset (R55). -/
def gAddr (rank region off : Nat) : Nat := 2 ^ 63 + rank * 2 ^ 46 + region * 2 ^ 40 + off

/-- A run or exception entry as a number of 256 bits (R58), from the tables in force (R62). -/
def State.runEntry (s : State) (n : Nat) : Nat := Memory.readLE s.tables (0x50000 + 32 * n) 32

/-- The position of a rank in a run entry, if it matches (R60). -/
def runMatch (e k : Nat) : Option Nat :=
  let st := if bits e 50 34 = 0 then 1 else bits e 50 34
  if bits e 60 60 = 1 ∧ bits e 16 0 ≤ k ∧ (k - bits e 16 0) % st = 0 ∧ (k - bits e 16 0) / st ≤ bits e 33 17
  then some ((k - bits e 16 0) / st) else none

/-- The destination of a rank other than selfrank: an entry and a position (R60). The copy of the exceptions table in
force lies at 0x1000000 of `tables` (log entry 10). -/
def State.rankEntry (s : State) (k : Nat) : Option (Nat × Nat) :=
  match (List.range 4096).findSome? (fun n => (runMatch (s.runEntry n) k).map (fun i => (s.runEntry n, i))) with
  | some r => some r
  | none =>
    let x := Memory.readLE s.tables (0x1000000 + 32 * k) 32
    if k < bits (s.reg32 0x40020) 17 0 ∧ bits x 60 60 = 1 then some (x, 0) else none

/-- The paths of R61. -/
inductive Path where
  | dev
  | pod (member : Nat)
  | glb
  deriving DecidableEq, Repr

/-- The path of a rank (R61), none where R60 finds no entry. -/
def State.pathOf (s : State) (k : Nat) : Option Path :=
  if k = s.selfrank then some .dev else
  match s.rankEntry k with
  | none => none
  | some (e, i) =>
    if bits e 79 64 = bits (s.reg32 0x40010) 15 0 ∧ bits e 79 64 ≠ 0xFFFF
    then some (.pod (bits (bits e 90 80 + i * bits e 101 91) 10 0)) else some .glb

/-- The path scope widens a scope (R61). -/
def Path.widen : Path → Scope → Scope
  | .dev, c => c
  | .pod _, .glb => .glb
  | .pod _, _ => .pod
  | .glb, _ => .glb

/-- The IPv6 address of the device at position `i` of a run (R58). -/
def hostAddress (e i : Nat) : BitVec 128 :=
  BitVec.ofNat 64 (bits e 191 128) ++ 0#32 ++ BitVec.ofNat 32 (bits e 223 192 + i * bits e 239 224)

/-- A fabric port is up (R38): UALink ports are 0 to 17, and Ethernet port e is 18 + e. -/
def State.portUp (s : State) (p : Nat) : Bool := decide (AMap.getD s.ports p .disabled = .up)

/-- Traffic of the job flows on a port: it is up, and jobctl.en is 1 (R38). -/
def State.flows (s : State) (p : Nat) : Bool := s.jobOn && s.portUp p

/-- A path entry of a set, from the tables in force (R59, R62). -/
def State.pathEntry (s : State) (set p : Nat) : Nat := Memory.readLE s.tables (0x80000 + 256 * set + 4 * p) 4

/-- The valid paths of a set over a link: 0 Ethernet with ports 0 to 7, 1 UALink with ports 0 to 17 (R59). -/
def State.validPaths (s : State) (set link : Nat) : List Nat :=
  (List.range 64).filter (fun p =>
    let e := s.pathEntry set p
    decide (bits e 31 31 = 1) && decide (bits e 30 30 = link) && decide (bits e 28 24 < if link = 0 then 8 else 18))

/-- A stripe description is legal (R63). -/
def stripeOk (w : Nat) : Bool :=
  decide (bits w 5 0 = 0) || (decide (12 ≤ bits w 5 0) && decide (bits w 5 0 ≤ 40) && decide (bits w 22 6 ≠ 0))

/-- Word 1 of srcreg of a region in force (R56, R63). -/
def State.stripe (s : State) (region : Nat) : Nat := Memory.readLE s.tables (0x40104 + 8 * region) 4

/-- The key of a region in force (R63). -/
def State.regionKey (s : State) (region : Nat) : Nat := Memory.readLE s.tables (0x40100 + 8 * region) 4

/-- Where an offset of a region of a rank lies: the rank and offset after striping (R66). The rank can pass 131,071. -/
def State.unstripe (s : State) (rank region off : Nat) : Nat × Nat :=
  let w := s.stripe region
  let sh := bits w 5 0
  if sh = 0 then (rank, off) else
  let j := off / 2 ^ sh
  (rank + j % bits w 22 6, j / bits w 22 6 * 2 ^ sh + off % 2 ^ sh)

/-- The bytes that are left before the next stripe or region boundary (R67). -/
def State.toBoundary (s : State) (region off : Nat) : Nat :=
  let sh := bits (s.stripe region) 5 0
  if sh = 0 ∨ !stripeOk (s.stripe region) then 2 ^ 40 - off else 2 ^ sh - off % 2 ^ sh

/-- The checks of R57 for one part at a global address whose rank may be 131,072. `none` is a failure. -/
def State.globalPart (s : State) (asid rank region off : Nat) : Option (Nat × Nat × Path) :=
  if !stripeOk (s.stripe region) then none else
  let (trank, toff) := s.unstripe rank region off
  if !s.jobOn ∨ asid ≠ bits (s.reg32 0x40014) 15 0 ∨ s.nranks ≤ trank then none else
  match s.pathOf trank with
  | none => none
  | some .dev => some (trank, toff, .dev)
  | some p =>
    match s.rankEntry trank with
    | none => none
    | some (e, _) =>
      if (s.validPaths (bits e 59 51) (match p with | .glb => 0 | _ => 1)).isEmpty then none else some (trank, toff, p)

/-- The first global address after a boundary `n` bytes on: rank (which can be 131,072), region, offset (R67). -/
def gNext (rank region off n : Nat) : Nat × Nat × Nat :=
  let t := region * 2 ^ 40 + off + n
  (rank + t / 2 ^ 46, t / 2 ^ 40 % 64, t % 2 ^ 40)

/-! ### Traps -/

/-- The handler address: thdl.hi and thdl with bits [1:0] zero (R211). -/
def Thread.handler (t : Thread) : Addr := (t.thdlHi ++ t.thdl) &&& ~~~3#48

/-- The address of the first hint word applied to the instruction at pc, or pc (R211). -/
def Thread.firstWord (t : Thread) : Addr := t.pc - BitVec.ofNat 48 (4 * t.hints.length)

/-- Trap entry (R211): cause code, the address tepc takes, tval and tlog. -/
def Thread.trapEntry (t : Thread) (cause : Nat) (epc : Addr) (tval : Dword) (tlog : Word) : Thread :=
  { t with
    tsav := t.tstat
    tcause := BitVec.ofNat 32 cause
    tepc := epc.extractLsb' 0 32, tepcHi := epc.extractLsb' 32 16
    tval := tval.extractLsb' 0 32, tvalHi := tval.extractLsb' 32 32
    tlog := tlog
    tstat := (t.tstat ||| 1) &&& ~~~(0x82 : Word)
    pc := t.handler
    hints := []
    wait := .run
    traps := t.traps + 1 }

/-- The double trap of R215: the trapping thread stops, its group takes the record's contents, and it is counted once. -/
def State.doubleTrap (s : State) (id : ThreadId) (t : Thread) (cause : Nat) (epc : Addr) (tval : Dword) : State :=
  let info : FaultInfo := { lane := t.lane, cause := BitVec.ofNat 8 cause
                            prior := if t.handling then t.tcause.extractLsb' 0 8 else 0, pc := epc, val := tval, tstat := t.tstat }
  let s := s.setThread id { t with wait := .stopped, hints := [] }
  match s.group? id.group with
  | none => s
  | some g =>
    if g.fault.isSome then s
    else (s.modGroup id.group (fun g => { g with fault := some info })).count 0x1098

/-- Taking a trap (R211, R214): the handler with H = 0 and TE = 1, a double trap otherwise. -/
def State.trapAt (s : State) (id : ThreadId) (t : Thread) (cause : Nat) (epc : Addr) (tval : Dword) (tlog : Word) : State :=
  if t.handling || !t.trapsOn then s.doubleTrap id t cause epc tval
  else s.setThread id (t.trapEntry cause epc tval tlog)

/-- Taking a trap at the instruction at pc or the first of its hints (R211). -/
def State.trap (s : State) (id : ThreadId) (t : Thread) (cause : Nat) (tval : Dword) : State :=
  s.trapAt id t cause t.firstWord tval 0

/-- tsav is refused by `tret` (R216). -/
def Thread.badStatus (t : Thread) : Bool :=
  decide (t.tsav.extractLsb' 8 24 ≠ 0) || decide (6 ≤ (t.tsav.extractLsb' 3 3).toNat) || t.tsav.getLsbD 0
    || (t.tsav.getLsbD 2 && !t.kernel)

/-- Puts re-issued entries back into the log in entry order; one whose number the handler's own log uses takes a free
number (R156). -/
def reissue (log : List LogEntry) : List LogEntry → List LogEntry
  | [] => log
  | e :: r =>
    let i := if log.all (fun o => o.index != e.index) then e.index
      else ((List.range 16).find? (fun k => log.all (fun o => o.index != k))).getD 16
    reissue (log ++ [{ e with index := i, state := .pending }]) r

/-- Return from a trap (R216): bad-status re-enters the handler; otherwise tstat is restored, the kept entries whose
tlog bit is set are issued again, and the pc is taken from tepc. -/
def Thread.trapReturn (t : Thread) : Thread :=
  if t.badStatus then
    { t with tcause := 0x10, tval := t.tsav, tvalHi := 0, tepc := t.firstWord.extractLsb' 0 32
             tepcHi := t.firstWord.extractLsb' 32 16, pc := t.handler, hints := [], traps := t.traps + 1 }
  else
    { t with tstat := t.tsav
             log := reissue t.log (t.kept.filter (fun e => decide (e.index < 16) && t.tlog.getLsbD e.index))
             kept := []
             pc := (t.tepcHi ++ t.tepc) &&& ~~~3#48
             hints := [] }

/-! ### Pending causes (R218) -/

/-- A thread of a saved team (R118). -/
def State.savedThread? (s : State) (id : ThreadId) : Option Thread :=
  s.saved.findSome? (fun c => c.teams.findSome? (fun v => AMap.get? v.threads id))

/-- Replaces a thread of a saved team. -/
def State.setSaved (s : State) (id : ThreadId) (t : Thread) : State :=
  let team : SavedTeam → SavedTeam := fun v => { v with threads := v.threads.map (fun p => if p.1 = id then (id, t) else p) }
  let clu : SavedCluster → SavedCluster := fun c => { c with teams := c.teams.map team }
  { s with saved := s.saved.map clu }

/-- A thread, resident or saved. -/
def State.anyThread? (s : State) (id : ThreadId) : Option Thread :=
  match s.thread? id with
  | some t => some t
  | none => s.savedThread? id

/-- Replaces a thread, resident or saved. -/
def State.setAny (s : State) (id : ThreadId) (t : Thread) : State :=
  match s.thread? id with
  | some _ => s.setThread id t
  | none => s.setSaved id t

/-- Fills a thread's pending slot; a full slot, or a thread that is gone, only counts (R218). -/
def State.pend (s : State) (id : ThreadId) (cause : Cause) (tval : Dword) : State :=
  match s.anyThread? id with
  | none => s.count 0x1090
  | some t =>
    if !t.live then s.count 0x1090 else
    match cause with
    | .illegalMatrix => if t.pend08.isNone then s.setAny id { t with pend08 := some tval } else s.count 0x1090
    | .pairTimeout => if t.pend0D.isNone then s.setAny id { t with pend0D := some tval } else s.count 0x1090
    | .uncorrectableMemory => if t.pend14.isNone then s.setAny id { t with pend14 := some tval } else s.count 0x1090
    | .remoteAccessFailure => if t.pend15.isNone then s.setAny id { t with pend15 := some tval } else s.count 0x1090
    | _ => s

/-- The pending cause that is delivered first, with the thread as its slot empties (R219). -/
def Thread.nextPending (t : Thread) : Option (Nat × Dword × Thread) :=
  match t.pend08, t.pend0D, t.pend14, t.pend15 with
  | some v, _, _, _ => some (0x08, v, { t with pend08 := none })
  | none, some v, _, _ => some (0x0D, v, { t with pend0D := none })
  | none, none, some v, _ => some (0x14, v, { t with pend14 := none })
  | none, none, none, some v => some (0x15, v, { t with pend15 := none })
  | none, none, none, none => none

/-- Steps 3 and 4 of R219 at the instruction at pc, after the commit: a pending cause, then a scope mismatch where
SE = 1. Neither is delivered while H = 1 (R214). `none` says that neither traps. -/
def State.deliver (s : State) (id : ThreadId) (t : Thread) : Option State :=
  if t.handling then none else
  match t.nextPending with
  | some (c, v, u) => some (s.trap id u c v)
  | none =>
    match t.mismatch with
    | some a => if t.scopeTraps then some (s.trap id { t with mismatch := none } 0x0E a) else none
    | none => none

/-! ### Calls of the service team (R111) -/

/-- The cycles a batch stays open after its first call (R111). -/
def batchCycles : Nat := 64

/-- The cycles of the team of a group. -/
def State.groupCycles (s : State) (g : GroupId) : Nat :=
  match s.team? g.teamId with
  | some t => t.ncyc
  | none => 0

/-- The address space of a team (R112). -/
def State.asidOf (s : State) (t : TeamId) : Nat :=
  match s.team? t with
  | some v => v.asid
  | none => 0

/-- Every live member of a group has reached a call of a kind (R111). -/
def State.allCalled (s : State) (g : GroupId) (kind : Nat) : Bool :=
  (s.members g).all (fun i => s.service.batches.any (fun b => b.group == g && b.kind == kind && decide (b.engine = .none)
    && b.calls.any (fun c => c.member == i)))

/-- Closes the open batches of a group that every live member has reached (R111). -/
def State.closeBatches (s : State) (g : GroupId) : State :=
  { s with service := { s.service with batches := s.service.batches.map (fun b =>
      if b.group = g ∧ !b.closed ∧ b.kind < 2 ∧ s.allCalled g b.kind then { b with closed := true } else b) } }

/-- A call joins the open batch of its group and kind, or opens one (R111). -/
def State.joinBatch (s : State) (g : GroupId) (kind : Nat) (c : Call) : State :=
  let bs := s.service.batches
  let open' := bs.any (fun b => b.group == g && b.kind == kind && !b.closed)
  let bs' := if open' then bs.map (fun b => if b.group = g ∧ b.kind = kind ∧ !b.closed then { b with calls := b.calls ++ [c] } else b)
    else bs ++ [{ group := g, home := g.teamId, kind := kind, die := dieOf g.core, asid := s.asidOf g.teamId, calls := [c]
                  opened := s.groupCycles g, closed := false, slot := none, engine := .none }]
  ({ s with service := { s.service with batches := bs' } }).closeBatches g

/-- A stream element without a translation forms a batch of kind 1 of its own, closed at once; its thread does not stop (R144; DEDUCED:
log entry 15). -/
def State.streamBatch (s : State) (id : ThreadId) (k : Nat) (va : Dword) (acc : Nat) : State :=
  if s.service.batches.any (fun b => decide (b.engine = .stream id k)) then s else
  let c : Call := { member := id.mem, number := 0, args := [], addr := va, access := acc, dst := 0 }
  let b : ServiceBatch := { group := id.group, home := id.teamId, kind := 1, die := dieOf id.core, asid := s.asidOf id.teamId, calls := [c], opened := 0
                            closed := true, slot := none, engine := .stream id k }
  { s with service := { s.service with batches := s.service.batches ++ [b] } }

/-- Posts a thread to the service team for a translation fault at an address (R111, R154). -/
def State.postFault (s : State) (id : ThreadId) (t : Thread) (w : Wait) (va : Dword) (code : Nat) : State :=
  (s.setThread id { t with wait := w }).joinBatch id.group 1
    { member := id.mem, number := 0, args := [], addr := va, access := code, dst := 0 }

end Sys2Proof.Machine
end

