-- ==== Sys2Proof/Machine/Place.lean ====
section
/-! DEFINITION. Where the bytes of an access lie (R157 to R160, R57, R65 to R67, R314), and when two accesses meet. -/
namespace Sys2Proof.Machine

/-! ### Where the bytes of an access lie -/

/-- The parts of a local virtual range of at most 64 KiB: one for each page (R158). A peer page takes only naturally
aligned accesses (R314). -/
def State.pageParts (s : State) (w : Walker) (asid va n : Nat) (need : Need) (kernel : Bool) : List (Place × Nat) :=
  let one := fun a k =>
    match s.translate w asid a need kernel with
    | .missing => (Place.bad .translation (BitVec.ofNat 64 a) 0, k)
    | .denied => (Place.bad .permission (BitVec.ofNat 64 a) 0, k)
    | .ok pa e =>
      if bits e 13 13 = 1 then
        (if va % n ≠ 0 then Place.bad .permission (BitVec.ofNat 64 a) 0 else Place.peer (pa - 0x80000000000), k)
      else (Place.mem a pa e, k)
  let n1 := min n (65536 - va % 65536)
  if n1 < n then [one va n1, one (va + n1) (n - n1)] else [one va n]

/-- The bit of a region descriptor that an access needs (R64, R65). -/
def needBit : Need → Nat
  | .load => 129
  | .store => 130
  | .atomic => 131
  | .fetch => 129

/-- The region descriptor in force (R62, R64). -/
def State.regionDesc (s : State) (region : Nat) : Nat := Memory.readLE s.tables (0x41000 + 32 * region) 32

/-- The target checks 0x01 to 0x06 of R65 for a range of this device's region, with the key and the job already
compared by the caller: the parts in memory, or the code of the first check that fails. A base that is not 64 KiB aligned is added as it
was written (DESIGN CHOICE: log entry 92). -/
def State.regionParts (s : State) (region off n : Nat) (need : Need) : Except Nat (List (Place × Nat)) :=
  let d := s.regionDesc region
  if !s.jobOn then .error 1
  else if bits d 128 128 = 0 then .error 2
  else if bits d (needBit need) (needBit need) = 0 then .error 4
  else if bits d 103 64 < off + n then .error 5
  else
    let ps := s.pageParts (.die 0) (bits d 63 48) (bits d 47 0 + off) n need true
    if ps.any (fun p => match p.1 with
        | .bad _ _ _ => true
        | _ => false) then .error 6 else .ok ps

/-- Splits a pod range at its 256-byte blocks (R42, R314). -/
def podParts (rank member region off n : Nat) : List (Place × Nat) :=
  let n1 := min n (256 - off % 256)
  if n1 < n then [(.pod rank member region off, n1), (.pod rank member region (off + n1), n - n1)]
  else [(.pod rank member region off, n)]

/-- The parts of a global range that lies in one stripe (R57, R61, R65). -/
def State.globalOne (s : State) (asid rank region off n : Nat) (need : Need) (ga : Dword) : List (Place × Nat) :=
  match s.globalPart asid rank region off with
  | none => [(.bad .permission ga 0, n)]
  | some (_, toff, .dev) =>
    match s.regionParts region toff n need with
    | .ok ps => ps
    | .error code => [(.bad .permission ga code, n)]
  | some (trank, toff, .pod m) => podParts trank m region toff n
  | some (trank, toff, .glb) => [(.glb trank region toff, n)]

/-- The parts of a global access: split at a stripe or region boundary (R66, R67). -/
def State.globalParts (s : State) (asid : Nat) (ga : Dword) (n : Nat) (need : Need) : List (Place × Nat) :=
  let r := gRank ga.toNat
  let g := gRegion ga.toNat
  let o := gOffset ga.toNat
  let b := s.toBoundary g o
  if b < n then
    let (r2, g2, o2) := gNext r g o b
    s.globalOne asid r g o b need ga ++ s.globalOne asid r2 g2 o2 (n - b) need ga
  else s.globalOne asid r g o n need ga

/-- The address that a cause found during an access names: the virtual address of a chip-scratchpad byte (R26, R160). -/
def spaceAddr (space : Space) (a : Dword) : Dword := if space = .ch then 0xFFFFC0000000 + a else a

/-- The parts of an access of `n` bytes in a space (R157 to R160, R314). -/
def State.parts (s : State) (id : ThreadId) (kernel : Bool) (space : Space) (a : Dword) (n : Nat) (need : Need) :
    List (Place × Nat) :=
  match space with
  | .ln =>
    match s.thread? id with
    | some t => [(.mem 0 (laneBase id.core t.lane t.slot + a.toNat) 0, n)]
    | none => []
  | .co => [(.mem 0 (s.coPa id.teamId a.toNat) 0, n)]
  | .cl => match s.clPa id a.toNat with
    | some pa => [(.mem 0 pa 0, n)]
    | none => [(.bad .permission a 0, n)]
  | .ch =>
    (s.pageParts (.core id.core) (s.asidOf id.teamId) (0xFFFFC0000000 + a.toNat) n need kernel).map (fun p =>
      match p.1 with
      | .mem _ pa _ => if physPart pa = .chip then p else (.bad .permission (spaceAddr .ch a) 0, p.2)
      | .peer _ => (.bad .permission (spaceAddr .ch a) 0, p.2)
      | _ => p)
  | .gl =>
    if a.msb then s.globalParts (s.asidOf id.teamId) a n need
    else s.pageParts (.core id.core) (s.asidOf id.teamId) a.toNat n need kernel

/-- The first faulting part, with its tval and the failure code of R65. -/
def firstBad : List (Place × Nat) → Option (Cause × Dword × Nat)
  | [] => none
  | (.bad c t k, _) :: _ => some (c, t, k)
  | _ :: r => firstBad r

/-- The path scope of the first part (R61). -/
def pathScope (ps : List (Place × Nat)) (c : Scope) : Scope :=
  match ps with
  | (.pod _ m _ _, _) :: _ => Path.widen (.pod m) c
  | (.glb _ _ _, _) :: _ => Path.widen .glb c
  | _ => c

/-- Two ranges overlap. -/
def rangesMeet (a n b m : Nat) : Bool := decide (a < b + m) && decide (b < a + n)

/-- Two parts touch a common byte, or one peer page; parts on the glb path never do (R95, R191, R200). -/
def placesMeet (p q : Place × Nat) : Bool :=
  match p.1, q.1 with
  | .mem _ a _, .mem _ b _ => rangesMeet a p.2 b q.2
  | .peer a, .peer b => decide (a / 65536 = b / 65536)
  | .pod _ m g o, .pod _ k h u => decide (m = k) && decide (g = h) && decide (o / 256 = u / 256)
  | _, _ => false

/-- The checks of R57 for every part of a global range, at issue (R67). -/
def State.globalOk (s : State) (asid : Nat) (ga : Dword) (n : Nat) : Bool :=
  let r := gRank ga.toNat
  let g := gRegion ga.toNat
  let o := gOffset ga.toNat
  let b := s.toBoundary g o
  let (r2, g2, o2) := gNext r g o b
  (s.globalPart asid r g o).isSome && (decide (n ≤ b) || (s.globalPart asid r2 g2 o2).isSome)

/-- A global range crosses a stripe or region boundary (R67). -/
def State.straddles (s : State) (ga : Dword) (n : Nat) : Bool :=
  decide (s.toBoundary (gRegion ga.toNat) (gOffset ga.toNat) < n)

end Sys2Proof.Machine
end

