-- ==== Sys2Proof/Machine/History.lean ====
section
/-! DEFINITION. Who an access covers (R189), and which write of a byte a load may return (R72, R190 to R196, R199, R200, R203, R204): the
model keeps every write to the device's memory in the order in which they are performed, and a load returns any version of a byte that
the axioms of R194 leave open (log entry 83). -/
namespace Sys2Proof.Machine

/-! ### Agents and scopes (R189) -/

/-- The lasting name of a thread. -/
def State.who (s : State) (id : ThreadId) : Who :=
  match s.team? id.teamId with
  | some t => { cluster := t.cluster, index := t.index, grp := id.grp, mem := id.mem }
  | none => { cluster := 0, index := 0, grp := id.grp, mem := id.mem }

/-- The agent that a thread is. -/
def State.agent (s : State) (id : ThreadId) : Agent := .thread (s.who id)

/-- The agent that an engine of a team is. -/
def State.engineAgent (s : State) (t : TeamId) : Agent :=
  match s.team? t with
  | some v => .engine v.cluster v.index
  | none => .engine 0 0

/-- Two threads belong to one team. -/
def Who.sameTeam (w u : Who) : Bool := decide (w.cluster = u.cluster) && decide (w.index = u.index)

/-- An access by an agent at a scope covers another agent (R189). The device's own units, its host, and other devices release at a scope
that covers every agent here (R189, R205). -/
def Scope.covers (c : Scope) (a b : Agent) : Bool :=
  match a with
  | .thread w =>
    (match b, c with
    | .thread u, .grp => w.sameTeam u && decide (w.grp = u.grp)
    | .thread u, .team => w.sameTeam u
    | .thread u, .clu => decide (w.cluster = u.cluster)
    | .engine _ _, .grp => false
    | .engine k i, .team => decide (w.cluster = k) && decide (w.index = i)
    | .engine k _, .clu => decide (w.cluster = k)
    | .device, .grp => false
    | .device, .team => false
    | .device, .clu => false
    | .host, x => decide (x = .sys)
    | .pod _ _, x => decide (x = .pod) || decide (x = .glb)
    | .glb _, x => decide (x = .glb)
    | _, _ => true)
  | _ => true

/-- The device, its engines and threads, and its host: their stores fall in one order (R195). -/
def Agent.isLocal : Agent → Bool
  | .pod _ _ => false
  | .glb _ => false
  | _ => true

/-! ### Views (R191, R194) -/

/-- What two views see together. -/
def View.join (a b : View) : View :=
  let n := max a.all b.all
  { all := n, loc := max a.loc b.loc, seen := ((a.seen ++ b.seen).filter (fun i => decide (n ≤ i))).eraseDups
    saw := ((a.saw ++ b.saw).filter (fun e => decide (n < e.2))).eraseDups }

/-- A view of everything performed before write `n`. -/
def View.upTo (n : Nat) : View := { View.none with all := n }

/-- A view of some writes. -/
def View.ofWrites (ns : List Nat) : View := { View.none with seen := ns }

/-- What several views see together. -/
def joinAll (vs : List View) : View := vs.foldl View.join .none

/-- A write touches a range. -/
def Write.touches (w : Write) (pa n : Nat) : Bool := decide (w.pa < pa + n) && decide (pa < w.pa + w.len)

/-- The numbers of the writes of some agents to a range, over the writes from number `i` on. -/
def writesTo (f : Agent → Bool) (pa n : Nat) : (i : Nat) → List Write → List Nat
  | _, [] => []
  | i, w :: r => (if f w.from'.by' && w.touches pa n then [i] else []) ++ writesTo f pa n (i + 1) r

/-- The numbers of the writes of some agents to some ranges. -/
def State.writesIn (s : State) (f : Agent → Bool) (ps : List (Nat × Nat)) : List Nat := ps.flatMap (fun p => writesTo f p.1 p.2 0 s.hist)

/-- The numbers of the writes of the host, over the writes from number `i` on. -/
def hostWrites : (i : Nat) → List Write → List Nat
  | _, [] => []
  | i, w :: r => (if w.from'.by' = .host then [i] else []) ++ hostWrites (i + 1) r

/-- What one release of write `i` shows to an acquire that synchronises with it (R194). A unit of the device shows every earlier write, the
host its own (R205; log entry 83). -/
def State.shows (s : State) (o : Origin) (i : Nat) (r : Rel) : View :=
  if !r.own then r.view else
  r.view.join (match o.by' with
    | .device => .upTo (i + 1)
    | .host => .ofWrites (hostWrites 0 (s.hist.take (i + 1)))
    | _ => .ofWrites [i])

/-- What an acquire by an agent at a scope of write `i` sees (R194): nothing where one scope does not cover the other agent (R196). -/
def State.gives (s : State) (a : Agent) (c : Scope) (o : Origin) (i : Nat) : View :=
  if !c.covers a o.by' then .none else joinAll ((o.rels.filter (fun r => r.scope.covers o.by' a)).map (s.shows o i))

/-- What the value of an element of a stream shows its reader. -/
def StreamItem.view : StreamItem → View
  | .data _ v => v
  | .fault _ _ => .none

/-- What a thread's stream elements show that its next marker orders before what follows: they are loads issued by their `sdef` (R296). -/
def Thread.elementView (t : Thread) : View :=
  joinAll (t.q.map (fun q => match q with
    | some q => joinAll (q.fifo.map StreamItem.view)
    | none => .none))

/-- The loads of the run, and the elements that are there. -/
def Thread.pastView (t : Thread) : View := (joinAll (t.next.map (fun m => m.view))).join t.elementView

/-- A switch marker orders the loads of the run before what follows (R191, R296). -/
def Thread.ordered (t : Thread) : Thread :=
  { t with view := t.view.join t.pastView, next := []
           q := t.q.map (fun q => q.map (fun q => { q with marked := true })) }

/-- What happens before a release, a fence or a barrier arrival of a thread: what it has seen, its loads and its performed stores. -/
def Thread.sofar (t : Thread) : View := (t.view.join t.pastView).join { View.none with loc := t.wrote }

/-- A thread sees what a view sees. -/
def State.sees (s : State) (id : ThreadId) (v : View) : State := s.modThread id (fun t => { t with view := t.view.join v })

/-- A thread sees everything performed up to now. -/
def State.seesAll (s : State) (id : ThreadId) : State := s.sees id (View.upTo s.hist.length)

/-- The view of a thread, resident or not. -/
def State.sofar (s : State) (id : ThreadId) : View :=
  match s.thread? id with
  | some t => t.sofar
  | none => .none

/-- The releases that a store of a thread takes part in: those of its fences, and its own (R193). -/
def State.relsOf (s : State) (id : ThreadId) (rel : Option Scope) : List Rel :=
  (match s.thread? id with
    | some t => t.fences.map (fun f => { scope := f.1, view := f.2, own := false })
    | none => []) ++ (match rel with
    | some c => [{ scope := c, view := s.sofar id, own := true }]
    | none => [])

/-- A write of a thread. -/
def State.originOf (s : State) (id : ThreadId) (rel : Option Scope) (rmw : Bool) : Origin :=
  { by' := s.agent id, rels := s.relsOf id rel, rmw := rmw, hard := false }

/-- A write of an engine for a team (R199). One to memory that the engine owns is seen by every later access (R182). -/
def State.engineOrigin (s : State) (t : TeamId) (owned : Bool) : Origin := { by' := s.engineAgent t, rels := [], rmw := false, hard := owned }

/-- A placement for another device (R200, R203): a release only where its source says so, with the writes that happen before it. -/
def placedBy (a : Agent) (release : Option (List Nat)) : Origin :=
  { by' := a, rmw := false, hard := false, rels := match release with
      | some ns => [{ scope := .glb, view := .ofWrites ns, own := true }]
      | none => [] }

/-- The placement of an atomic of another device, which is a release (R193). -/
def placedAtomic (a : Agent) (release : Option (List Nat)) : Origin := { placedBy a (some (release.getD [])) with rmw := true }

/-- The increment of a counter by a message or reduction: it shows the writes that it counts, and what its releaser knows (R70, R204). -/
def countOrigin (a : Agent) (counted : List Nat) (before : View) : Origin :=
  { by' := a, rels := [{ scope := .glb, view := (View.ofWrites counted).join before, own := false }], rmw := true, hard := false }

/-- A write of the host or a PCI Express peer, at sys scope (R189). -/
def hostOrigin (rmw : Bool) : Origin := { by' := .host, rels := [{ scope := .sys, view := .none, own := true }], rmw := rmw, hard := false }

/-! ### Versions of a byte -/

/-- A write covers a byte. -/
def Write.covers (w : Write) (pa : Nat) : Bool := decide (w.pa ≤ pa) && decide (pa < w.pa + w.len)

/-- An agent with a view must see write `i` (R191, R194, R199): a thread sees its own stores. -/
def Write.mustSee (w : Write) (a : Agent) (v : View) (i : Nat) : Bool :=
  w.from'.hard || (match a with
    | .thread _ => decide (w.from'.by' = a)
    | _ => false) || decide (i < v.all) || (w.from'.by'.isLocal && decide (i < v.loc)) || v.seen.contains i

/-- The bound below which an agent must see every write to a byte, over the writes from number `i` on. -/
def floorOf (a : Agent) (v : View) (pa : Nat) : (i : Nat) → List Write → Nat
  | _, [] => 0
  | i, w :: r => max (if w.covers pa && w.mustSee a v i then i + 1 else 0) (floorOf a v pa (i + 1) r)

/-- The bound that what has been read of a byte sets (R191). -/
def sawOf (pa : Nat) : List (Nat × Nat) → Nat
  | [] => 0
  | (a, t) :: r => max (if a = pa then t else 0) (sawOf pa r)

/-- The version of a byte in force before write number `k`, over the writes from number `i` on; `now` is its present value. -/
def versionOf (pa k : Nat) (now : Byte) : (i : Nat) → List Write → Byte
  | _, [] => now
  | i, w :: r => if w.covers pa = true ∧ k ≤ i then Memory.get w.old (pa - w.pa) else versionOf pa k now (i + 1) r

/-- The last write to a byte below number `k`, with its number, over the writes from number `i` on. -/
def writeOf (pa k : Nat) : (i : Nat) → List Write → Option (Nat × Origin)
  | _, [] => none
  | i, w :: r => (writeOf pa k (i + 1) r).orElse (fun _ => if w.covers pa = true ∧ i < k then some (i, w.from') else none)

/-- An agent must see every write to a byte below this number. -/
def State.floor (s : State) (a : Agent) (v : View) (pa : Nat) : Nat := max (floorOf a v pa 0 s.hist) (sawOf pa v.saw)

/-- The value of a byte in force before write `k`. -/
def State.byteAt (s : State) (pa k : Nat) : Byte := versionOf pa k (Memory.get s.mem pa) 0 s.hist

/-- The values of bytes at their versions. -/
def State.bytesAt (s : State) (ks : List (Nat × Nat)) : List Byte := ks.map (fun p => s.byteAt p.1 p.2)

/-- A reader of a packet's write number `i` sees each of its 64-byte aligned pieces before it or after it, and never a mixture (R72). -/
def wholePieces (w : Write) (i : Nat) (ks : List (Nat × Nat)) : List (Nat × Nat) :=
  match w.from'.by' with
  | .glb _ => ks.map (fun p => if w.covers p.1 && ks.any (fun q => decide (q.1 / 64 = p.1 / 64) && w.covers q.1 && decide (i < q.2))
      then (p.1, max p.2 (i + 1)) else p)
  | _ => ks

/-- The versions of bytes, raised to those that show no piece of a packet in part, over the writes from number `i` on. -/
def unmixed (ks : List (Nat × Nat)) : (i : Nat) → List Write → List (Nat × Nat)
  | _, [] => ks
  | i, w :: r => wholePieces w i (unmixed ks (i + 1) r)

/-- One that loads bytes of memory: who it is, what it must see, and the ranges. -/
structure Reader where
  by'  : Agent
  view : View
  ps   : List (Nat × Nat)
  deriving DecidableEq, Repr

/-- The bytes of ranges. -/
def bytesOf (ps : List (Nat × Nat)) : List Nat := ps.flatMap (fun p => (List.range p.2).map (fun i => p.1 + i))

/-- The versions that readers of one load take: byte `j` of them all is taken `back[j]` writes back, as far as what they must see allows; a
byte that several read has one version (R161, R190). -/
def State.versions (s : State) (rs : List Reader) (back : List Nat) : List (Nat × Nat) :=
  let ask := rs.flatMap (fun r => (bytesOf r.ps).map (fun pa => (pa, s.floor r.by' r.view pa)))
  let own := ask.mapIdx (fun j p => (p.1, max p.2 (s.hist.length - back.getD j 0)))
  unmixed (own.map (fun p => (p.1, own.foldl (fun k q => if q.1 = p.1 then max k q.2 else k) p.2))) 0 s.hist

/-- What the releases below version `k` of a byte show, back over atomics and release stores up to a plain store (R194). -/
def State.chainOf (s : State) (a : Agent) (c : Scope) (pa : Nat) : (fuel k : Nat) → View
  | 0, _ => .none
  | fuel + 1, k =>
    match writeOf pa k 0 s.hist with
    | none => .none
    | some (i, o) => (s.gives a c o i).join (if o.rmw || o.rels.any (fun r => r.own) then s.chainOf a c pa fuel i else .none)

/-- What an acquire at a scope sees that reads version `k` of a byte (R194). -/
def State.syncOf (s : State) (a : Agent) (c : Scope) (pa k : Nat) : View :=
  match writeOf pa k 0 s.hist with
  | none => .none
  | some (i, o) => if o.rmw then s.chainOf a c pa (i + 1) k else s.gives a c o i

/-- What an acquire of several bytes sees. -/
def State.syncAll (s : State) (a : Agent) (c : Scope) (ks : List (Nat × Nat)) : View := joinAll (ks.map (fun p => s.syncOf a c p.1 p.2))

/-- What readers of versions must see besides, where they acquire (R194). -/
def State.acquired (s : State) (acq : Option Scope) (ks : List (Nat × Nat)) (r : Reader) : Reader :=
  match acq with
  | none => r
  | some c => { r with view := r.view.join (s.syncAll r.by' c (ks.filter (fun k => (bytesOf r.ps).contains k.1))) }

/-- The versions that a load takes: what it acquires by one byte it must see at the others, too. `fuel` rounds. -/
def State.taken (s : State) (acq : Option Scope) (back : List Nat) : (fuel : Nat) → List Reader → List Reader × List (Nat × Nat)
  | 0, rs => (rs, s.versions rs back)
  | fuel + 1, rs =>
    let ks := s.versions rs back
    let rs' := rs.map (s.acquired acq ks)
    if rs' = rs then (rs, ks) else s.taken acq back fuel rs'

/-- The load of some readers: what each must see then, and the version of every byte. -/
def State.loadOf (s : State) (acq : Option Scope) (rs : List Reader) (back : List Nat) : List Reader × List (Nat × Nat) :=
  s.taken acq back (s.hist.length * (rs.flatMap (fun r => bytesOf r.ps)).length + 2) rs

/-- What a load that takes a version of a byte must not fall behind at the same byte (R194, axiom 5). -/
def State.ownMark (s : State) (p : Nat × Nat) : View :=
  match writeOf p.1 p.2 0 s.hist with
  | none => .none
  | some (i, _) => { View.none with saw := [(p.1, i + 1)] }

/-- What follows in preserved order a load that takes a version of a byte (R195, R200): for a write of this device, every earlier one in the
order of all; for a pod member's, its own earlier ones of the class to the same 256-byte block; for a packet's, nothing more. -/
def State.laterMark (s : State) (p : Nat × Nat) : View :=
  match writeOf p.1 p.2 0 s.hist with
  | none => .none
  | some (i, o) =>
    match o.by' with
    | .pod m k => .ofWrites ((writesTo (fun a => decide (a = .pod m k)) (p.1 / 256 * 256) 256 0 s.hist).filter (fun j => decide (j ≤ i)))
    | .glb _ => .none
    | _ => { View.none with loc := i }

/-- The versions that a load takes of its own ranges. -/
def ownVersions (ps : List (Nat × Nat)) (ks : List (Nat × Nat)) : List (Nat × Nat) :=
  (bytesOf ps).filterMap (fun pa => (ks.find? (fun k => k.1 == pa)))

/-- What a load by a thread must see: what the thread sees, and what its loads of common bytes in the present run show (R191). -/
def Thread.viewFor (t : Thread) (ps : List (Nat × Nat)) : View :=
  joinAll (t.view :: (t.next.filter (fun m => ps.any (fun p => rangesMeet m.pa m.len p.1 p.2))).map (fun m => m.view))

/-- The reader that a thread is of some ranges. -/
def State.readerOf (s : State) (id : ThreadId) (ps : List (Nat × Nat)) : Reader :=
  { by' := s.agent id, ps := ps, view := match s.thread? id with
      | some t => t.viewFor ps
      | none => .none }

/-- A thread has loaded the versions `ks` of the ranges of a reader: it falls behind no version that it took, its next marker orders the
load before what follows, and an acquire does so at once (R191, R193). -/
def State.noteLoad (s : State) (id : ThreadId) (acq : Option Scope) (r : Reader) (ks : List (Nat × Nat)) : State :=
  let own := ownVersions r.ps ks
  let later := joinAll (own.map s.laterMark)
  let marks : List ReadMark := r.ps.map (fun p => { pa := p.1, len := p.2, view := later })
  s.modThread id (fun t => { t with
    view := if acq.isSome then (r.view.join (joinAll (own.map s.ownMark))).join later else t.view.join (joinAll (own.map s.ownMark))
    next := t.next ++ marks
    reads := t.reads ++ own.filter (fun p => (writeOf p.1 p.2 0 s.hist).isSome) })

/-- What an element of a read stream shows its reader: its own bytes, and what follows it in preserved order. -/
def State.elementShows (s : State) (r : Reader) (ks : List (Nat × Nat)) : View :=
  joinAll ((ownVersions r.ps ks).map (fun p => (s.ownMark p).join (s.laterMark p)))

/-- What happens before a fence of a thread at a scope: what it has done, and what its earlier loads acquire by the fence (R193). -/
def State.fenceView (s : State) (id : ThreadId) (t : Thread) (c : Scope) : View := t.sofar.join (s.syncAll (s.agent id) c t.reads)

/-- A thread passes a fence at a scope (R193): the fence acquires for its earlier loads, and releases for its later stores. -/
def State.passFence (s : State) (id : ThreadId) (c : Scope) : State :=
  s.modThread id (fun t =>
    let v := s.fenceView id t c
    { t.ordered with view := v, fences := t.fences.filter (fun f => decide (f.1 ≠ c)) ++ [(c, v)] })

/-! ### Arrival counters (R204) -/

/-- What an acquire of a counter by an agent at a scope sees: what every increment shows that its present value counts (R204), over the
writes from number `i` on. -/
def State.ctrViewFrom (s : State) (a : Agent) (c : Scope) (pa : Nat) (v : View) : (i : Nat) → List Write → View
  | _, [] => v
  | i, w :: r =>
    let g := s.gives a c w.from' i
    s.ctrViewFrom a c pa (if !w.touches pa 8 then v else if w.from'.rmw then v.join g else g) (i + 1) r

/-! ### What barriers count (R199) -/

/-- What the engine of a team has written to some ranges. -/
def State.countedView (s : State) (t : TeamId) (ps : List (Nat × Nat)) : View := .ofWrites (s.writesIn (fun a => decide (a = s.engineAgent t)) ps)

end Sys2Proof.Machine
end

