-- ==== Sys2Proof/Machine/Operands.lean ====
section
/-! DEFINITION. Issuing one instruction: the hints that apply to it, its operands and their faults, its accesses, its
parking and its retirement. -/
namespace Sys2Proof.Machine

/-! ### Hints -/

/-- The hints that apply to one instruction, by kind (R251, R252); `bad` records a misuse of R254 that the hint words
show by themselves. -/
structure HintSet where
  imms  : List (BitVec 22)
  opi   : Option (BitVec 22)
  scope : Option (BitVec 3)
  rnd   : Option (BitVec 2 × BitVec 1 × BitVec 3)
  cache : Option (BitVec 3 × BitVec 2 × BitVec 2)
  add   : Option RegField
  bad   : Bool
  deriving DecidableEq, Repr

/-- No hint. -/
def HintSet.empty : HintSet :=
  { imms := [], opi := none, scope := none, rnd := none, cache := none, add := none, bad := false }

/-- One more hint word: at most two IMM hints and one of each other kind, no reserved code (R252, R254). -/
def HintSet.push (h : HintSet) : Hint → HintSet
  | .imm p => if h.imms.length < 2 then { h with imms := h.imms ++ [p] } else { h with bad := true }
  | .opi p => if h.opi.isNone then { h with opi := some p } else { h with bad := true }
  | .scope c => if h.scope.isNone && decide (c ≠ 7) then { h with scope := some c } else { h with bad := true }
  | .rnd o p r => if h.rnd.isNone && decide (r ≠ 7) then { h with rnd := some (o, p, r) } else { h with bad := true }
  | .cache z b a =>
    if h.cache.isNone && decide (b ≠ 3) && decide (a ≠ 3) then { h with cache := some (z, b, a) } else { h with bad := true }
  | .add e => if h.add.isNone then { h with add := some e } else { h with bad := true }
  | .bad => { h with bad := true }

/-- The hints of a list of words. -/
def HintSet.of (hs : List Hint) : HintSet := hs.foldl HintSet.push HintSet.empty

/-- The kinds of hint that an instruction accepts (R253). -/
structure Accepts where
  imm    : Bool
  opi    : Bool
  scope  : Bool
  rnd    : Bool
  policy : Bool
  cache  : Bool
  add    : Bool
  deriving DecidableEq, Repr

/-- An instruction that accepts no hint. -/
def Accepts.nothing : Accepts :=
  { imm := false, opi := false, scope := false, rnd := false, policy := false, cache := false, add := false }
/-- IMM hints only. -/
def Accepts.immOnly : Accepts := { Accepts.nothing with imm := true }
/-- An OPI hint, with IMM hints extending it. -/
def Accepts.opiOnly : Accepts := { Accepts.nothing with opi := true }
/-- A SCOPE hint only. -/
def Accepts.scopeOnly : Accepts := { Accepts.nothing with scope := true }
/-- An RND hint without an overflow policy. -/
def Accepts.rndOnly : Accepts := { Accepts.nothing with rnd := true }
/-- An RND hint, with or without a policy. -/
def Accepts.rndPolicy : Accepts := { Accepts.nothing with rnd := true, policy := true }

/-- Hint misuse (R254). -/
def HintSet.misuse (h : HintSet) (a : Accepts) : Bool :=
  h.bad || (!h.imms.isEmpty && !(a.imm || (a.opi && h.opi.isSome))) || (h.opi.isSome && !a.opi)
    || (h.scope.isSome && !a.scope) || (h.cache.isSome && !a.cache) || (h.add.isSome && !a.add)
    || match h.rnd with
       | none => false
       | some (_, p, _) => !a.rnd || (decide (p = 1) && !a.policy)

/-- An immediate field of `w` bits extended by the IMM hints: its value and its width (R252). -/
def HintSet.extend (h : HintSet) (field w : Nat) : Nat × Nat :=
  match h.imms with
  | [] => (field, w)
  | [a] => (field + a.toNat * 2 ^ w, w + 22)
  | a :: b :: _ => (field + a.toNat * 2 ^ w + b.toNat * 2 ^ (w + 22), w + 44)

/-- A zero-extended immediate (R249, R252). -/
def HintSet.immU (h : HintSet) (field w : Nat) : Nat := (h.extend field w).1

/-- An immediate sign-extended from its top bit (R249, R252). -/
def HintSet.immS (h : HintSet) (field w : Nat) : Int := sextN (h.extend field w).1 (h.extend field w).2

/-! ### The context of an issue -/

/-- What one issue works on: the device, the thread's working registers, the word, its hints, the lowest-numbered
fault found so far, and how the instruction ends. `unknown` says that an operand has no value because of a fault, `starve` that a stream
element is waited for. `always` is what happens to the device even where the instruction has a
fault of its own or stalls, and `onFault` what happens as it takes its own fault; `miss` names a stream and its next element, whose page has
to be brought in first. -/
structure Ctx where
  s     : State
  id    : ThreadId
  th    : Thread
  word  : Word
  hs    : HintSet
  flag  : Option (Cause × Dword)
  unknown : Bool
  stall : Bool
  starve : Bool
  hold  : Option Wait
  park  : Option Wait
  npc   : Addr
  late  : Option (Cause × Dword)
  always : State → State
  miss  : Option (Nat × Dword)
  onFault : Option (State → State) := none

/-- The description of one instruction, run over a context. Where it ends with a fault, nothing of it takes effect
(R142, R267). -/
abbrev Issue := StateM Ctx

/-- The context at the start of an issue; hint misuse is a fault already (R254). -/
def Ctx.start (s : State) (id : ThreadId) (th : Thread) (word : Word) (acc : Accepts) : Ctx :=
  let hs := HintSet.of th.hints
  { s := s, id := id, th := th, word := word, hs := hs
    flag := if hs.misuse acc then some (.illegalInstruction, word.setWidth 64) else none
    unknown := false, stall := false, starve := false, hold := none, park := none, npc := th.pc + 4, late := none, always := fun s => s, miss := none }

/-- Raises a cause; of several, the lowest code stands, and the first of equal ones (R219, R259). -/
def Ctx.raise (c : Ctx) (cause : Cause) (tval : Dword) : Ctx :=
  match c.flag with
  | some (o, _) => if cause.code < o.code then { c with flag := some (cause, tval) } else c
  | none => { c with flag := some (cause, tval) }

/-- Raises a cause that leaves an operand without a value. -/
def Ctx.lose (c : Ctx) (cause : Cause) (tval : Dword) : Ctx := { c.raise cause tval with unknown := true }

/-- Raises reserved-operand for an operand that is lost by it. -/
def Ctx.loseWord (c : Ctx) : Ctx := c.lose .reservedOperand (c.word.setWidth 64)

/-- Raises a cause. -/
def flag (cause : Cause) (tval : Dword) : Issue Unit := modify (fun c => c.raise cause tval)

/-- Raises a cause whose tval is the instruction word (R213). -/
def flagWord (cause : Cause) : Issue Unit := modify (fun c => c.raise cause (c.word.setWidth 64))

/-- Runs checks on operands that were read before another one was lost: `lost` says whether they were lost themselves (R219). -/
def checkedWith (lost : Bool) (m : Issue Unit) : Issue Unit := fun c =>
  let r := m { c with unknown := lost }
  ((), { r.2 with unknown := c.unknown || r.2.unknown })

/-- An operand read so far has no value because of a fault. -/
def isLost : Issue Bool := fun c => (c.unknown, c)

/-- Raises a cause found from operand values, where no fault made an operand unknown (R219). -/
def flagIf (b : Bool) (cause : Cause) (tval : Dword) : Issue Unit :=
  modify (fun c => if b && !c.unknown then c.raise cause tval else c)

/-- As `flagIf`, with the instruction word as tval. -/
def flagWordIf (b : Bool) (cause : Cause) : Issue Unit :=
  modify (fun c => if b && !c.unknown then c.raise cause (c.word.setWidth 64) else c)

/-- Changes the working registers. -/
def modTh (f : Thread → Thread) : Issue Unit := modify (fun c => { c with th := f c.th })

/-- Changes the device. -/
def modDev (f : State → State) : Issue Unit := modify (fun c => { c with s := f c.s })

/-- Ends the issue without effect; the thread waits and then issues the instruction again. -/
def holdFor (w : Wait) : Issue Unit := modify (fun c => if c.hold.isNone then { c with hold := some w } else c)

/-- Ends the issue with the thread parked at the instruction. -/
def parkAt (w : Wait) : Issue Unit := modify (fun c => { c with park := some w })

/-- Something that happens to the device even where the instruction has a fault of its own or stalls. -/
def regardless (f : State → State) : Issue Unit := modify (fun c => { c with always := f })

/-- Something that happens to the device as the instruction takes its own fault: after a commit and the causes that go before it (R219). -/
def whenFaulting (f : State → State) : Issue Unit := modify (fun c => { c with onFault := some f })

/-- Runs a part of an instruction whose operands are judged by themselves: its value, and whether a fault has left it without one (R219). -/
def alone {α : Type} (m : Issue α) : Issue (α × Bool) := fun c =>
  let r := m { c with unknown := false }
  ((r.1, r.2.unknown), { r.2 with unknown := c.unknown || r.2.unknown })

/-- The issue waits for data and is tried again (R144). -/
def stallNow : Issue Unit := modify (fun c => { c with stall := true })

/-- Sets the next pc. -/
def goto (a : Addr) : Issue Unit := modify (fun c => { c with npc := a })

/-! ### Streams (R294 to R296) -/

/-- The number of elements of a stream. -/
def Stream.total (q : Stream) : Nat := (q.counts.take (q.dims + 1)).foldl (· * ·) 1

/-- The sum of index times stride over the dimensions, for element `n` (R295). -/
def walkSum : Nat → List Nat → List Int → Int
  | _, [], _ => 0
  | _, _, [] => 0
  | n, c :: cs, t :: ts => ((n % c : Nat) : Int) * t + walkSum (n / c) cs ts

/-- The address of element `n` (R295). -/
def Stream.elemAddr (q : Stream) (n : Nat) : Dword :=
  let a : Int := q.base.toNat + q.size * walkSum n (q.counts.take (q.dims + 1)) (q.strides.take (q.dims + 1))
  BitVec.ofNat 64 (truncI a (if q.space = .gl then 64 else 32))

/-- Whether the indices up to dimension `k` are all at their last value, for element `n` (R295). -/
def lastUpTo : Nat → Nat → List Nat → Bool
  | _, _, [] => true
  | 0, n, c :: _ => decide (n % c + 1 = c)
  | k + 1, n, c :: cs => decide (n % c + 1 = c) && lastUpTo k (n / c) cs

/-- The end flags after element `n` (R295). -/
def Stream.flagsAt (q : Stream) (n : Nat) : BitVec 4 :=
  let cs := q.counts.take (q.dims + 1)
  let f := fun k => b2n (lastUpTo (min k q.dims) n cs)
  BitVec.ofNat 4 (f 0 + 2 * f 1 + 4 * f 2 + 8 * f 3)

/-- The first faulting part whose cause is not translation, or else the first. -/
def worstBad (ps : List (Place × Nat)) : Option (Cause × Dword × Nat) :=
  match firstBad (ps.filter (fun p => match p.1 with
    | .bad .translation _ _ => false
    | _ => true)) with
  | some b => some b
  | none => firstBad ps

/-- What an element at an address raises, found from the tables as they are (R57, R65, R144, R157, R158), with the code of a failure at a
self-rank target. -/
def State.elemBad (s : State) (id : ThreadId) (q : Stream) (a : Dword) : Option (Cause × Nat) :=
  if q.space ≠ .gl ∧ a.toNat % q.size ≠ 0 then some (.misaligned, 0)
  else if !s.inRange id q.space a.toNat q.size then some (.permission, 0)
  else if q.space = .gl ∧ a.msb = true ∧ s.globalOk (s.asidOf id.teamId) a q.size = false then some (.permission, 0)
  else (worstBad (s.parts id q.kernel q.space a q.size (if q.write then .store else .load))).map (fun b => (b.1, b.2.2))

/-- Counts a failure at a self-rank target (R65). -/
def State.countCode (s : State) (code : Nat) : State := if code = 0 then s else s.count (0x1010 + 8 * (code - 1))

/-- A stream register of the thread. -/
def Thread.stream (t : Thread) (k : Nat) : Option Stream := (t.q[k]?).getD none

/-- Replaces a stream register. -/
def Thread.setStream (t : Thread) (k : Nat) (q : Option Stream) : Thread := { t with q := t.q.set k q }

/-- Reads the next element of stream `k`; `ok` says which element sizes fit the operand (R144, R266, R295). An empty FIFO stalls the
issue, and so does a fault that the element no longer has: it is fetched again. -/
def Ctx.popStream (c : Ctx) (k : Nat) (ok : Nat → Bool) : Nat × Ctx :=
  match c.th.stream k with
  | none => (0, c.loseWord)
  | some q =>
    if q.write || !ok q.size || decide (q.total ≤ q.next) then (0, c.loseWord) else
    match q.fifo with
    | [] => (0, { c with starve := true, unknown := true })
    | .fault cause a :: _ =>
      (0, if (c.s.elemBad c.id q a).isSome then c.lose cause a else { c with starve := true, unknown := true })
    | .data v w :: rest =>
      (v, { c with th := { c.th.setStream k (some { q with fifo := rest, next := q.next + 1, flags := q.flagsAt q.next }) with
                           view := c.th.view.join w } })

/-- Checks that stream `k` can take an element as a destination (R144, R266, R295). A failure at a self-rank target is counted there
(R65). A page without a translation is brought in first, out of sight, and its denial is the instruction's own fault (DEDUCED: log
entry 15). -/
def Ctx.checkAppend (c : Ctx) (k : Nat) (ok : Nat → Bool) : Ctx :=
  match c.th.stream k with
  | none => c.raise .reservedOperand (c.word.setWidth 64)
  | some q =>
    if !q.write || !ok q.size || decide (q.total ≤ q.next) then c.raise .reservedOperand (c.word.setWidth 64) else
    let a := q.elemAddr q.next
    match c.s.elemBad c.id q a with
    | some (.translation, _) =>
      (match q.fifo with
      | .fault cause _ :: _ => c.raise cause a
      | _ => { c with starve := true, miss := some (k, a) })
    | some (cause, code) =>
      { c.raise cause a with
        always := if c.flag.isSome then c.always else fun s => (c.always s).countCode code }
    | none => c

/-- Appends an element to stream `k` (R144, R266). -/
def Ctx.append (c : Ctx) (k v : Nat) : Ctx :=
  match c.th.stream k with
  | none => c
  | some q =>
    { c with
      th := c.th.setStream k (some { q with
        appended := q.appended ++ [{ addr := q.elemAddr q.next, value := v % 256 ^ q.size, stamp := c.s.stamp, issue := c.s.issue
                                     parts := c.s.parts c.id q.kernel q.space (q.elemAddr q.next) q.size .store }]
        fifo := []
        next := q.next + 1
        flags := q.flagsAt q.next })
      s := { c.s with stamp := c.s.stamp + 1 } }

/-! ### Register fields -/

/-- What a register field resolves to; `none` where resolution failed. -/
inductive Loc where
  | none
  | reg (n : Nat)
  | str (k : Nat)
  deriving DecidableEq, Repr

/-- An index register's use (R141): the register and the stepped copy, or the failing index. -/
def stepIndex (w : Word) (regs : Nat) (src : Bool) : Except Nat (Nat × Word) :=
  let mode := (w.extractLsb' 28 2).toNat
  let step := (w.extractLsb' 24 4).toInt
  let index := (w.extractLsb' 16 8).toNat
  let limit := (w.extractLsb' 8 8).toNat
  let base := (w.extractLsb' 0 8).toNat
  let i := if mode = 2 ∧ src then (index + 255) % 256 else index
  if limit ≤ i ∨ regs ≤ base + i then .error i else
  let next : Nat := match mode with
    | 0 => truncI ((i : Int) + step) 8
    | 1 => (((i : Int) + step) % (limit : Int)).toNat
    | 2 => if src then i else (i + 1) % 256
    | _ => index
  .ok (base + i, (w &&& ~~~(0x00FF0000 : Word)) ||| BitVec.ofNat 32 (next * 65536))

/-- Resolves a register field as a source or as the destination (R139, R141). -/
def Ctx.resolve (c : Ctx) (f : RegField) (src : Bool) : Loc × Ctx :=
  let n := f.toNat
  if n < 112 then
    if n < c.th.regs then (.reg n, c) else (.none, c.loseWord)
  else if n < 116 then (.str (n - 112), c)
  else if n < 120 then (.none, c.loseWord)
  else
    let k := n - 120
    match stepIndex (c.th.x.getD k 0) c.th.regs src with
    | .ok (r, w) => (.reg r, { c with th := { c.th with x := c.th.x.set k w } })
    | .error i => (.none, c.lose .indexBound (BitVec.ofNat 64 (k * 256 + i)))

/-- Register n of the thread (R16, rd). -/
def Thread.reg (t : Thread) (n : Nat) : Word := t.v.getD n 0

/-- Writes register n (R16, wr). -/
def Thread.setReg (t : Thread) (n : Nat) (v : Word) : Thread := { t with v := t.v.set n v }

/-- The pair n:n+1 (R16, rdp). -/
def Thread.pair (t : Thread) (n : Nat) : Dword := t.reg (n + 1) ++ t.reg n

/-- Writes the pair n:n+1 (R16, wrp). -/
def Thread.setPair (t : Thread) (n : Nat) (v : Dword) : Thread :=
  (t.setReg n (v.extractLsb' 0 32)).setReg (n + 1) (v.extractLsb' 32 32)

/-- Reads a resolved 32-bit operand (R266). -/
def Ctx.rd (c : Ctx) : Loc → Word × Ctx
  | .none => (0, c)
  | .reg n => (c.th.reg n, c)
  | .str k => let r := c.popStream k (fun z => decide (z ≤ 4)); (BitVec.ofNat 32 r.1, r.2)

/-- Reads a resolved pair operand (R139, R266). -/
def Ctx.rdp (c : Ctx) : Loc → Dword × Ctx
  | .none => (0, c)
  | .reg n =>
    if n % 2 = 0 ∧ n + 1 < c.th.regs then (c.th.pair n, c) else (0, c.loseWord)
  | .str k => let r := c.popStream k (fun z => decide (z = 8)); (BitVec.ofNat 64 r.1, r.2)

/-- Resolves and reads a 32-bit source. -/
def src (f : RegField) : Issue Word := fun c =>
  let r := c.resolve f true
  r.2.rd r.1

/-- Resolves and reads a pair source. -/
def srcP (f : RegField) : Issue Dword := fun c =>
  let r := c.resolve f true
  r.2.rdp r.1

/-- The b operand: the OPI immediate where there is one, and the field must then be zero (R253, R266). -/
def srcB (f : RegField) : Issue Word := fun c =>
  match c.hs.opi with
  | some p =>
    (BitVec.ofInt 32 (c.hs.immS p.toNat 22), if f = 0 then c else c.raise .illegalInstruction (c.word.setWidth 64))
  | none => src f c

/-- Resolves a 32-bit destination, and checks that it can be written. -/
def dst (f : RegField) : Issue Loc := fun c =>
  let r := c.resolve f false
  match r.1 with
  | .str k => (r.1, r.2.checkAppend k (fun z => decide (z ≤ 4)))
  | _ => r

/-- Resolves a pair destination. -/
def dstP (f : RegField) : Issue Loc := fun c =>
  let r := c.resolve f false
  match r.1 with
  | .none => r
  | .reg n => if n % 2 = 0 ∧ n + 1 < r.2.th.regs then r else (.none, r.2.loseWord)
  | .str k => (r.1, r.2.checkAppend k (fun z => decide (z = 8)))

/-- Writes a resolved 32-bit destination (R16, wr). -/
def wr (l : Loc) (v : Word) : Issue Unit := modify (fun c =>
  match l with
  | .none => c
  | .reg n => { c with th := c.th.setReg n v }
  | .str k => c.append k v.toNat)

/-- Writes a resolved pair destination (R16, wrp). -/
def wrp (l : Loc) (v : Dword) : Issue Unit := modify (fun c =>
  match l with
  | .none => c
  | .reg n => { c with th := c.th.setPair n v }
  | .str k => c.append k v.toNat)

/-- Reads a 32-bit destination before it is written (R266). -/
def rdDst (l : Loc) : Issue Word := fun c => c.rd l

/-- Reads a pair destination before it is written (R266). -/
def rdDstP (l : Loc) : Issue Dword := fun c => c.rdp l

/-- Resolves the first register of a block of `k` registers, whose number is a multiple of `m` (R249). A stream
register cannot stand for a block. -/
def block (f : RegField) (m k : Nat) : Issue Nat := fun c =>
  let r := c.resolve f true
  match r.1 with
  | .reg n =>
    if n % m = 0 ∧ n + k ≤ r.2.th.regs then (n, r.2) else (0, r.2.loseWord)
  | .str _ => (0, r.2.loseWord)
  | .none => (0, r.2)

/-- Resolves a destination that a variable-latency result is bound to: the first of `k` registers, its number a multiple
of `m`, never a stream (R139). -/
def dstDeferred (f : RegField) (m k : Nat) : Issue Nat := fun c =>
  let r := c.resolve f false
  match r.1 with
  | .reg n =>
    if n % m = 0 ∧ n + k ≤ r.2.th.regs then (n, r.2) else (0, r.2.loseWord)
  | .str _ => (0, r.2.loseWord)
  | .none => (0, r.2)

/-- A working register. -/
def regOf (n : Nat) : Issue Word := fun c => (c.th.reg n, c)

/-- A working pair. -/
def pairOf (n : Nat) : Issue Dword := fun c => (c.th.pair n, c)

/-! ### Accesses -/

/-- The lowest number not used by the entries of a log (R152). -/
def freeIndex (log : List LogEntry) : Nat := ((List.range 16).find? (fun i => log.all (fun e => e.index != i))).getD 16

/-- Takes an operand-log entry for a variable-latency access (R152); a 17th access parks as if it carried W (R150). -/
def access (a : Access) : Issue Unit := modify (fun c =>
  if 16 ≤ (c.th.log.filter (fun e => decide (e.index < 16))).length then { c with hold := some (.marker true false) } else
  let e : LogEntry := { index := freeIndex c.th.log, stamp := c.s.stamp, issue := c.s.issue, word := c.word, hints := c.th.hints
                        kernel := c.th.kernel, access := a, state := .pending, fill := true }
  { c with th := { c.th with log := c.th.log ++ [e] }, s := { c.s with stamp := c.s.stamp + 1 } })

/-! ### Retirement -/

/-- A retired instruction: the pc moves, nret counts it, its hints are used up (R146, R247). -/
def Thread.retire (t : Thread) (npc : Addr) : Thread :=
  { t with pc := npc, nret := t.nret + 1, hints := [], wait := .run }

/-- The boundary after an issue: a step trap under D (R219 step 7, R222) once the accesses are committed. -/
def State.afterIssue (s : State) (id : ThreadId) (stepping : Bool) : State :=
  if !stepping then s else
  match s.thread? id with
  | none => s
  | some t =>
    if !t.live then s
    else if t.log = [] then s.trap id t 0x11 0xFFFFFFFF
    else s.setThread id { t with wait := .stepTrap }

/-- The device after an instruction that retires, with the step trap that follows it under D. -/
def Ctx.retired (c : Ctx) (stepping : Bool) : State :=
  (c.s.setThread c.id (c.th.retire c.npc)).afterIssue c.id stepping

/-- The device as the instruction takes its own fault. -/
def Ctx.faulting (c : Ctx) (s : State) : State :=
  match c.onFault with
  | some f => f s
  | none => s

/-- Ends an instruction that has no fault: parked, or retired with what follows it. -/
def Ctx.finish (c : Ctx) (stepping : Bool) : State :=
  match c.park with
  | some w => c.s.setThread c.id { c.th with wait := w }
  | none =>
    match c.late with
    | some (cause, tval) => (c.s.setThread c.id (c.th.retire c.npc)).trap c.id (c.th.retire c.npc) cause.code tval
    | none => c.retired stepping

/-- Runs an instruction's description and ends it: a wait for a stream element (R144), its own fault (R155, R219 step 5), a stall, a wait
before it issues, or its effect. One with a fault of its own leaves every stream as it was, of whatever major it is (R142, R267; DESIGN
CHOICE for majors above 0x19, where R17 would let a stream that was read stand advanced: log entry 102). One whose fault acts on others is
judged anew after its commit. -/
def State.runBody (s : State) (id : ThreadId) (th : Thread) (word : Word) (acc : Accepts) (body : Issue Unit)
    (post : State → State) : State :=
  let c := (body (Ctx.start s id th word acc)).2
  if c.starve then (match c.miss with
    | some (k, a) => s.streamBatch id k a 1
    | none => s).setThread id th else
  match c.flag with
  | some (cause, tval) =>
    let s := c.always s
    if th.log ≠ [] then s.setThread id { th with wait := if c.onFault.isSome then .marker true true else .fault cause tval }
    else (s.deliver id th).getD ((c.faulting s).trap id th cause.code tval)
  | none =>
    if c.stall then (c.always s).setThread id th else
    match c.hold with
    | some w => s.setThread id { th with wait := w }
    | none =>
      match c.late, s.deliver id th with
      | some _, some r => r
      | _, _ => post (c.finish th.stepping)

/-- The thread can issue the instruction at its pc. -/
def Wait.issues : Wait → Bool
  | .run => true
  | .committed => true
  | .leaving => true
  | _ => false

/-- The word is an `exit` (R256, R299). -/
def exitWord (word : Word) : Bool := decide (word.extractLsb' 20 11 = 0x3E1#11)

/-- A pending cause is delivered before the instruction issues: at one with W or at an `exit` (R218, R219). -/
def State.delivers (s : State) (id : ThreadId) (th : Thread) (word : Word) : Bool :=
  (word.msb || exitWord word) && (s.deliver id th).isSome

/-- The thread as it issues the instruction at its pc, or none where it does not: a switch marker or switch point waits until
its accesses are committed (R148), and a pending cause is delivered first (R219). The marker orders the loads before it (R191). -/
def State.issuing (s : State) (id : ThreadId) (th : Thread) (word : Word) (sw : Bool) : Option Thread :=
  match th.wait with
  | .run =>
    if word.msb || sw || th.stepping then
      (if th.log.isEmpty && !s.delivers id th word then some { th.ordered with wait := if exitWord word then .leaving else .committed }
        else none)
    else some th
  | .committed => some th
  | .leaving => some th
  | _ => none

/-- A thread reaches an instruction (R219): it parks until its accesses are committed, takes a pending cause, or issues. -/
def State.reach (s : State) (id : ThreadId) (th : Thread) (word : Word) (sw : Bool) (acc : Accepts) (body : Issue Unit)
    (post : State → State) : State :=
  match s.issuing id th word sw with
  | some v => s.runBody id v word acc body post
  | none =>
    if th.wait ≠ .run then s
    else if th.log ≠ [] then s.setThread id { th with wait := .marker (word.msb || exitWord word) (exitWord word) }
    else (s.deliver id th).getD s

/-- The meaning of an instruction word for the thread `cur`: no thread is the model's one fault. -/
def issue (word : Word) (sw : Bool) (acc : Accepts) (body : Issue Unit) (post : State → State) (s : State) :
    Host.Outcome State Fault Refusal :=
  match s.thread? s.cur with
  | none => .fault .noThread
  | some th => .next (s.reach s.cur th word sw acc body post)

/-- An instruction that is no switch point and does nothing after it retires. -/
def plain (word : Word) (acc : Accepts) (body : Issue Unit) (s : State) : Host.Outcome State Fault Refusal :=
  issue word false acc body id s

/-- A member of the sub-group of a debugger's step has stepped (R225): it has retired an instruction, trapped or
stopped. -/
def Thread.stepped (t : Thread) (nret : Dword) (pc : Addr) (traps : Nat) : Bool :=
  t.hints.isEmpty && (decide (t.nret ≠ nret) || decide (t.pc ≠ pc) || decide (t.traps ≠ traps) || !t.live || decide (t.wait = .stopped))

/-- A debugger's step lets this thread issue (R225). -/
def State.stepsNow (s : State) (id : ThreadId) (t : Thread) : Bool :=
  decide (s.dbg.target = some id.group) && s.dbg.busy
    && s.dbg.stepping.any (fun m => m.1 == id.mem && !t.stepped m.2.1 m.2.2.1 m.2.2.2)

/-- A parked thread stays where it is though its wait is over: its group is halted and no step lets it go on (R224), or the device has
stopped it (R122). -/
def State.staysPut (s : State) (id : ThreadId) (t : Thread) : Bool :=
  s.cut.units.contains (.thread id) || ((match s.group? id.group with
    | some g => g.halted
    | none => false) && !s.stepsNow id t)

/-- Retires the instruction at which a thread was parked (R247). -/
def State.release (s : State) (id : ThreadId) (t : Thread) : State := (s.setThread id (t.retire (t.pc + 4))).afterIssue id t.stepping

/-- A wait that begins again from the start where a stop has taken its thread (R319). -/
def Wait.restarts : Wait → Bool
  | .fence _ _ => true
  | .drain => true
  | .pflush _ _ _ _ => true
  | .counter _ _ _ => true
  | _ => false

/-- Ends a wait of a parked thread: its instruction retires, at once or when the thread may go on (R122, R224). One that stays put begins
such an instruction again instead where R319 says so, or where hints apply to it, for a boundary lies before them (R151, R254). -/
def State.complete (s : State) (id : ThreadId) : State :=
  match s.thread? id with
  | none => s
  | some t =>
    if !s.staysPut id t then s.release id t
    else if t.wait.restarts || !t.hints.isEmpty then s else s.setThread id { t with wait := .done }

end Sys2Proof.Machine
end

