-- ==== Sys2Proof/Machine/Flags.lean ====
section
/-! DEFINITION. The machine's flags: condition bits c0 to c7 and member masks m0 to m7 (R138, R145), and the integer
conditions (R272). -/
namespace Sys2Proof.Machine

/-- Condition bit c; c7 reads 1 (R138). -/
def Thread.cond (t : Thread) (c : BitVec 3) : Bool := if c = 7 then true else t.c.getLsbD c.toNat

/-- Writes condition bit c; a write to c7 is ignored (R138). -/
def Thread.setCond (t : Thread) (c : BitVec 3) (b : Bool) : Thread :=
  if c = 7 then t else
  { t with c := (t.c &&& ~~~(1#7 <<< c.toNat)) ||| (if b then 1#7 <<< c.toNat else 0) }

/-- Writes a condition bit. -/
def setCond (c : BitVec 3) (b : Bool) : Issue Unit := modTh (fun t => t.setCond c b)

/-- Mask register g of a thread; m7 reads as the live members (R138). -/
def State.maskReg (s : State) (id : ThreadId) (t : Thread) (g : BitVec 3) : Dword :=
  if g = 7 then s.liveMask id.group else t.m.getD g.toNat 0

/-- The group width (R124). -/
def State.gwidth (s : State) (g : GroupId) : Nat :=
  match s.group? g with
  | some v => v.width
  | none => 64

/-- A mask with the bits from the group width upwards zero (R145). -/
def widthMask (w : Nat) (m : Dword) : Dword := m &&& BitVec.ofNat 64 (2 ^ w - 1)

/-- Writes mask register g; a write to m7 is ignored (R138, R145). -/
def Thread.setMask (t : Thread) (g : BitVec 3) (w : Nat) (m : Dword) : Thread :=
  if g = 7 then t else { t with m := t.m.set g.toNat (widthMask w m) }

/-- The integer conditions; codes 11 to 15 are unassigned (R272). -/
def intCond (k : BitVec 4) (a b : Word) : Bool :=
  match k.toNat with
  | 0 => decide (a = b)
  | 1 => decide (a ≠ b)
  | 2 => decide (a.toInt < b.toInt)
  | 3 => decide (a.toInt ≤ b.toInt)
  | 4 => decide (b.toInt < a.toInt)
  | 5 => decide (b.toInt ≤ a.toInt)
  | 6 => decide (a.toNat < b.toNat)
  | 7 => decide (a.toNat ≤ b.toNat)
  | 8 => decide (b.toNat < a.toNat)
  | 9 => decide (b.toNat ≤ a.toNat)
  | 10 => decide (a &&& b ≠ 0)
  | _ => false

end Sys2Proof.Machine
end

