-- ==== Sys2Proof/Machine/Control.lean ====
section
/-! DEFINITION. Hints, control and status registers, streams, branches and thread control: majors 0x1A to 0x1F and 0x3E
(R251, R293 to R299), and the exchange of groups between a core's active set and its pending list (R108, R109). -/
namespace Sys2Proof.Machine

/-! ### Hints -/

/-- A hint word issues: it is kept for the next word and counts in nret (R252). A thread that cannot issue does nothing. -/
def hintWord (h : Hint) (s : State) : Host.Outcome State Fault Refusal :=
  match s.thread? s.cur with
  | none => .fault .noThread
  | some t =>
    .next (if t.wait.issues then
      s.setThread s.cur { t with hints := t.hints ++ [h], pc := t.pc + 4, nret := t.nret + 1, wait := .run } else s)

/-- R251 -/
def execHintImm (i : BitVec 22) (st : State) : Host.Outcome State Fault Refusal := hintWord (.imm i) st
/-- R251 -/
def execHintOpi (i : BitVec 22) (st : State) : Host.Outcome State Fault Refusal := hintWord (.opi i) st
/-- R251 -/
def execHintScope (c : BitVec 3) (st : State) : Host.Outcome State Fault Refusal := hintWord (.scope c) st
/-- R251 -/
def execHintRnd (o : BitVec 2) (p : BitVec 1) (r : BitVec 3) (st : State) : Host.Outcome State Fault Refusal :=
  hintWord (.rnd o p r) st
/-- R251 -/
def execHintCache (z : BitVec 3) (b a : BitVec 2) (st : State) : Host.Outcome State Fault Refusal :=
  hintWord (.cache z b a) st
/-- R251 -/
def execHintAdd (e : BitVec 7) (st : State) : Host.Outcome State Fault Refusal := hintWord (.add e) st

/-! ### Control and status registers (R146, R293) -/

/-- The bits of scoperep of a thread's team (R164). -/
def State.scoperep (s : State) (id : ThreadId) : BitVec 7 :=
  match s.team? id.teamId with
  | some t => t.scoperep
  | none => 0

/-- The cycles of a team (R146). -/
def State.ncyc (s : State) (id : TeamId) : Nat :=
  match s.team? id with
  | some t => t.ncyc
  | none => 0

/-- What `csrr` returns for a CSR number, with the thread as it is after a latch; none for an unassigned number. -/
def csrValue (s : State) (id : ThreadId) (t : Thread) (n : Nat) : Option (Word × Thread) :=
  match n with
  | 0x000 => some (BitVec.ofNat 32 t.lane, t)
  | 0x001 => some (BitVec.ofNat 32 (s.gwidth id.group), t)
  | 0x002 => some (BitVec.ofNat 32 id.grp, t)
  | 0x003 => some (BitVec.ofNat 32 id.team, t)
  | 0x004 => some (BitVec.ofNat 32 (match s.clusterOf id.teamId with
      | some c => c.clid
      | none => 0), t)
  | 0x005 => some (BitVec.ofNat 32 id.core, t)
  | 0x006 => some (BitVec.ofNat 32 s.selfrank, t)
  | 0x010 => some (t.tstat, t)
  | 0x011 => some (t.thdl, t)
  | 0x012 => some (t.tcause, t)
  | 0x013 => some (t.tepc, t)
  | 0x014 => some (t.tval, t)
  | 0x015 => some (t.tlog, t)
  | 0x016 => some ((s.scoperep id).setWidth 32, t)
  | 0x017 => some (t.tsav, t)
  | 0x018 => some (t.srseed, t)
  | 0x019 => some (t.thdlHi.setWidth 32, t)
  | 0x01A => some (t.tepcHi.setWidth 32, t)
  | 0x01B => some (t.tvalHi, t)
  | 0x020 => some (BitVec.ofNat 32 (s.ncyc id.teamId), { t with ncycHi := BitVec.ofNat 32 (s.ncyc id.teamId / 2 ^ 32) })
  | 0x021 => some (t.ncycHi, t)
  | 0x022 => some (t.nret.extractLsb' 0 32, { t with nretHi := t.nret.extractLsb' 32 32 })
  | 0x023 => some (t.nretHi, t)
  | _ => none

/-- The status after a write of tstat: D, SE and TE, rnd for 000 to 101, K only while K = 1 (R210, R293). -/
def writeStatus (old v : Word) : Word :=
  let r := v.extractLsb' 3 3
  let keep : Word := 0xFFFFFF01 ||| (if 6 ≤ r.toNat then 0x38 else 0) ||| (if old.getLsbD 2 then 0 else 4)
  (old &&& keep) ||| (v &&& ~~~keep)

/-- What `csrw` does to a thread: RO registers discard the write; none for an unassigned number (R293). -/
def csrWrite (t : Thread) (n : Nat) (v : Word) : Option Thread :=
  match n with
  | 0x000 | 0x001 | 0x002 | 0x003 | 0x004 | 0x005 | 0x006 => some t
  | 0x010 => some { t with tstat := writeStatus t.tstat v }
  | 0x011 => some { t with thdl := v }
  | 0x012 => some { t with tcause := v }
  | 0x013 => some { t with tepc := v }
  | 0x014 => some { t with tval := v }
  | 0x015 => some { t with tlog := v }
  | 0x016 => some t
  | 0x017 => some { t with tsav := v }
  | 0x018 => some { t with srseed := v, gen := if v = 0 then 0x9E3779B9 else v }
  | 0x019 => some { t with thdlHi := v.extractLsb' 0 16 }
  | 0x01A => some { t with tepcHi := v.extractLsb' 0 16 }
  | 0x01B => some { t with tvalHi := v }
  | 0x020 | 0x021 | 0x022 | 0x023 => some t
  | _ => none

/-- IMM hints with a nonzero payload reach reserved bits (R293). -/
def immPayloadZero : Issue Unit := fun c =>
  ((), if c.hs.imms.any (fun p => p ≠ 0) then c.raise .illegalInstruction (c.word.setWidth 64) else c)

/-- R293 -/
def bodyCsrr (d : BitVec 7) (n : BitVec 10) : Issue Unit := do
  immPayloadZero
  let c ← get
  let l ← dst d
  match csrValue c.s c.id c.th n.toNat with
  | some (v, t) => do
    modTh (fun u => { u with ncycHi := t.ncycHi, nretHi := t.nretHi })
    wr l v
  | none => flagWord .illegalInstruction

/-- R293 -/
def execCsrr (w : BitVec 1) (d : BitVec 7) (n : BitVec 10) (st : State) : Host.Outcome State Fault Refusal :=
  plain (Enc.csrr w d n) .immOnly (bodyCsrr d n) st

/-- R293: scoperep belongs to the team and is W1C. -/
def bodyCsrw (a : BitVec 7) (n : BitVec 10) : Issue Unit := do
  immPayloadZero
  let v ← src a
  let c ← get
  match csrWrite c.th n.toNat v with
  | some t => do
    modTh (fun _ => t)
    if n = 0x016 then modDev (fun s => s.modTeam c.id.teamId (fun m => { m with scoperep := m.scoperep &&& ~~~(v.extractLsb' 0 7) }))
  | none => flagWord .illegalInstruction

/-- R293 -/
def execCsrw (w : BitVec 1) (a : BitVec 7) (n : BitVec 10) (st : State) : Host.Outcome State Fault Refusal :=
  plain (Enc.csrw w a n) .immOnly (bodyCsrw a n) st

/-! ### Streams (R294 to R297) -/

/-- The spaces of a stream descriptor (R294). -/
def streamSpace : Nat → Space
  | 0 => .ln
  | 1 => .co
  | 2 => .cl
  | 3 => .ch
  | _ => .gl

/-- A descriptor is refused: a reserved code or bit, a nonzero base.hi, or a zero count in a used dimension (R294). -/
def descBad (v : Nat → Word) : Bool :=
  let ctl := v 2
  let dims := (ctl.extractLsb' 7 2).toNat
  let counts := [(v 3).extractLsb' 0 16, (v 3).extractLsb' 16 16, (v 4).extractLsb' 0 16, (v 4).extractLsb' 16 16]
  decide (ctl.extractLsb' 9 23 ≠ 0) || decide (4 < (ctl.extractLsb' 3 3).toNat) || decide (3 < (ctl.extractLsb' 0 3).toNat)
    || decide (v 7 ≠ 0) || (decide ((ctl.extractLsb' 3 3).toNat ≠ 4) && decide (v 1 ≠ 0))
    || (counts.take (dims + 1)).any (fun c => decide (c = 0))

/-- The stream that a descriptor describes (R294). -/
def descStream (v : Nat → Word) (kernel : Bool) (stamp : Nat) : Stream :=
  let ctl := v 2
  { base := v 1 ++ v 0, space := streamSpace (ctl.extractLsb' 3 3).toNat, size := 2 ^ (ctl.extractLsb' 0 3).toNat
    write := ctl.getLsbD 6, dims := (ctl.extractLsb' 7 2).toNat
    counts := [((v 3).extractLsb' 0 16).toNat, ((v 3).extractLsb' 16 16).toNat, ((v 4).extractLsb' 0 16).toNat,
               ((v 4).extractLsb' 16 16).toNat]
    strides := [((v 5).extractLsb' 0 16).toInt, ((v 5).extractLsb' 16 16).toInt, ((v 6).extractLsb' 0 16).toInt,
                ((v 6).extractLsb' 16 16).toInt]
    next := 0, fetched := 0, fifo := [], appended := [], flags := 0, kernel := kernel, stamp := stamp }

/-- The pod stores of a thread that stream elements have become and that are not known to be placed (R188, R296). -/
def State.elementsOut (s : State) (id : ThreadId) (q : Stream) : List Tracked :=
  s.net.tracked.filter (fun t => decide (t.thread = id) && t.own && q.sent.contains t.stamp && !t.excused.contains id)

/-- A stream register of a thread still has write elements to perform, here or on another device (R188, R296). -/
def State.undrained (s : State) (id : ThreadId) (t : Thread) (k : Nat) : Bool :=
  match t.stream k with
  | some q => !q.appended.isEmpty || !(s.elementsOut id q).isEmpty
      || s.net.messages.any (fun m => decide (m.thread = id) && q.sent.contains m.stamp && (match m.body with
        | .store _ _ _ => true
        | _ => false))
  | none => false

/-- R294: the descriptor block, after the `sstop` of a bound stream. -/
def bodySdef (q : BitVec 2) (a : BitVec 7) : Issue Unit := do
  immPayloadZero
  let n ← block a 8 8
  let c ← get
  let v := fun i => c.th.reg (n + i)
  flagWordIf (descBad v) .reservedOperand
  if c.s.undrained c.id c.th q.toNat then holdFor (.sstop q.toNat)
  modTh (fun t => t.setStream q.toNat (some (descStream v t.kernel c.s.stamp)))
  modDev (fun s => { s with stamp := s.stamp + 1 })

/-- R294 -/
def execSdef (w : BitVec 1) (q : BitVec 2) (a : BitVec 7) (st : State) : Host.Outcome State Fault Refusal :=
  plain (Enc.sdef w q a) .immOnly (bodySdef q a) st

/-- R296 -/
def bodySstop (q : BitVec 2) : Issue Unit := do
  immPayloadZero
  let c ← get
  if c.s.undrained c.id c.th q.toNat then holdFor (.sstop q.toNat)
  modTh (fun t => t.setStream q.toNat none)

/-- R296 -/
def execSstop (w : BitVec 1) (q : BitVec 2) (st : State) : Host.Outcome State Fault Refusal :=
  plain (Enc.sstop w q) .immOnly (bodySstop q) st

/-- The pc plus four times a signed word offset of `w` bits, in 64 bits (R249). -/
def directTarget (pc : Addr) (f w : Nat) : Dword := pc.setWidth 64 + BitVec.ofInt 64 (4 * sextN f w)

/-- Goes on at a target of 64 bits; nonzero bits [63:48] raise permission with the whole target (R298). -/
def gotoTarget (x : Dword) : Issue Unit := do
  flagIf (decide (x.extractLsb' 48 16 ≠ 0)) .permission x
  goto (x.extractLsb' 0 48)

/-- R297 -/
def bodyBstr (q k : BitVec 2) (sense : BitVec 1) (f : BitVec 15) : Issue Unit := do
  let c ← get
  match c.th.stream q.toNat with
  | none => flagWord .reservedOperand
  | some st => if st.flags.getLsbD k.toNat = decide (sense = 1) then gotoTarget (directTarget c.th.pc f.toNat 15)

/-- R297 -/
def execBstr (w : BitVec 1) (q : BitVec 2) (k : BitVec 2) (s : BitVec 1) (f : BitVec 15) (st : State) :
    Host.Outcome State Fault Refusal := plain (Enc.bstr w q k s f) .nothing (bodyBstr q k s f) st

/-! ### Branches, jumps and calls (R298) -/

/-- R298 -/
def bodyBr (sense : BitVec 1) (c : BitVec 3) (f : BitVec 21) : Issue Unit := do
  let h ← get
  if h.th.cond c = decide (sense = 1) then gotoTarget (directTarget h.th.pc f.toNat 21)

/-- R298 -/
def execBr (w : BitVec 1) (s : BitVec 1) (c : BitVec 3) (f : BitVec 21) (st : State) :
    Host.Outcome State Fault Refusal := plain (Enc.br w s c f) .nothing (bodyBr s c f) st

/-- R298 -/
def bodyJmp (f : BitVec 17) : Issue Unit := do
  let h ← get
  gotoTarget (directTarget h.th.pc f.toNat 17)

/-- R298 -/
def execJmp (w : BitVec 1) (f : BitVec 17) (st : State) : Host.Outcome State Fault Refusal :=
  plain (Enc.jmp w f) .nothing (bodyJmp f) st

/-- R298: the link is pc + 4 with bits [63:48] zero. -/
def bodyCall (d : BitVec 7) (f : BitVec 17) : Issue Unit := do
  let l ← dstP d
  let h ← get
  wrp l ((h.th.pc + 4).setWidth 64)
  gotoTarget (directTarget h.th.pc f.toNat 17)

/-- R298 -/
def execCall (w : BitVec 1) (d : BitVec 7) (f : BitVec 17) (st : State) : Host.Outcome State Fault Refusal :=
  plain (Enc.call w d f) .nothing (bodyCall d f) st

/-- An indirect target is taken with bits [1:0] cleared (R247, R298). -/
def gotoIndirect (x : Dword) : Issue Unit := gotoTarget (x &&& ~~~3#64)

/-- R298 -/
def bodyBrx (a : BitVec 7) : Issue Unit := do
  let x ← srcP a
  gotoIndirect x

/-- R298 -/
def execBrx (w : BitVec 1) (a : BitVec 7) (st : State) : Host.Outcome State Fault Refusal :=
  plain (Enc.brx w a) .nothing (bodyBrx a) st

/-- R298: the target is read before the link is written. -/
def bodyCallx (d a : BitVec 7) : Issue Unit := do
  let x ← srcP a
  let l ← dstP d
  let h ← get
  wrp l ((h.th.pc + 4).setWidth 64)
  gotoIndirect x

/-- R298 -/
def execCallx (w : BitVec 1) (d : BitVec 7) (a : BitVec 7) (st : State) : Host.Outcome State Fault Refusal :=
  plain (Enc.callx w d a) .nothing (bodyCallx d a) st

/-- R298 -/
def bodyRet (a : BitVec 7) : Issue Unit := do
  let x ← srcP a
  gotoIndirect x

/-- R298 -/
def execRet (w : BitVec 1) (a : BitVec 7) (st : State) : Host.Outcome State Fault Refusal :=
  plain (Enc.ret w a) .nothing (bodyRet a) st

/-! ### Boundaries (R151), and what can issue (R108) -/

/-- Every access of the log is committed, or kept because a fault has flagged it (R151, R152). -/
def Thread.settled (t : Thread) : Bool :=
  t.log.all (fun e => match e.state with
    | .flagged _ _ => true
    | _ => false)

/-- Where a thread is parked at an instruction that has not issued, or whose end it awaits, so that a boundary can lie there once its
accesses are committed (R151, R219). -/
def Wait.rests : Wait → Bool
  | .run => false
  | .marker _ _ => false
  | .leaving => false
  | .fault _ _ => false
  | .xiss _ _ _ => false
  | .toSend _ _ => false
  | .stepTrap => false
  | .reissue => false
  | .exited => false
  | _ => true

/-- The thread is at a boundary (R151): between two instructions, after a commit, or parked in a wait, with every access committed. -/
def Thread.atBoundary (t : Thread) : Bool :=
  match t.wait with
  | .run => t.log.isEmpty && t.hints.isEmpty
  | .exited => true
  | w => w.rests && t.settled

/-- Something asks the thread to stop at its next boundary (R117, R118, R122, R224). -/
def State.stopAsked (s : State) (id : ThreadId) : Bool :=
  s.cut.stopping || s.cut.isStopped
    || (match s.team? id.teamId with
      | some v => match v.action with
        | some .flush => true
        | some .save => true
        | _ => false
      | none => true)
    || (match s.group? id.group with
      | some g => g.halted
      | none => true)

/-- The thread can issue, or retire the instruction whose wait is over: its group is unharmed and in no exchange, and nothing stops it here
(R108, R109, R118, R122, R215, R224). -/
def State.canIssue (s : State) (id : ThreadId) (t : Thread) : Bool :=
  (t.wait.issues || decide (t.wait = .done))
    && (match s.group? id.group with
      | some g => !g.ended && g.fault.isNone && decide (g.held ≤ (s.core id.core).cycle)
      | none => false)
    && !s.cut.units.contains (.thread id) && (!t.atBoundary || !s.stopAsked id || s.stepsNow id t)

/-! ### Active and pending sets (R108, R109) -/

/-- A group is ready while one of its gangs can issue (R108). -/
def State.ready (s : State) (g : GroupId) : Bool :=
  (s.members g).any (fun i => match s.thread? (memberOf g i) with
    | some t => s.canIssue (memberOf g i) t
    | none => false)

/-- When a group issued last, as the choice of the present cycle sees it (R108). -/
def Group.rank (v : Group) (cycle : Nat) : Nat := if v.last = cycle then v.prev else v.last

/-- No ready active group of the core that has not issued in this cycle issued less recently (R108). -/
def State.leastRecent (s : State) (g : GroupId) : Bool :=
  let k := s.core g.core
  match s.group? g with
  | none => false
  | some v => k.active.all (fun h => decide (h = g) || (match s.group? h with
      | some w => decide (w.last = k.cycle) || decide (v.rank k.cycle ≤ w.last) || !s.ready h
      | none => true))

/-- The thread issues at its turn: its group is active and is one of those that issued least recently (R108). -/
def State.mayIssue (s : State) (id : ThreadId) (t : Thread) : Bool :=
  s.canIssue id t && decide (id.group ∈ (s.core id.core).active) && s.leastRecent id.group

/-- The first ready group of a pending list (R109). -/
def State.readyPending (s : State) (c : Nat) : Option GroupId := (s.core c).pending.find? (fun g => s.ready g)

/-- A group enters the active set: its counts begin anew (R109). -/
def State.entered (s : State) (g : GroupId) : State := s.modGroup g (fun v => { v with issues := 0, waited := 0, parkedFor := 0 })

/-- The cycles that an exchange takes (R109). -/
def exchangeCycles : Nat := 2

/-- A pending group of the active group's core enters in its place; the one that leaves goes to the tail. Neither issues while the exchange
takes place, and a core makes at most one in a cycle (R109). -/
def State.exchangeFor (s : State) (leaving e : GroupId) : State :=
  let k := s.core leaving.core
  if leaving ∈ k.active ∧ k.swapped ≠ k.cycle then
    let s := s.setCore leaving.core { k with
      active := k.active.filter (fun g => decide (g ≠ leaving)) ++ [e]
      pending := k.pending.filter (fun g => decide (g ≠ e)) ++ [leaving]
      swapped := k.cycle }
    ((s.entered e).modGroup e (fun g => { g with held := k.cycle + exchangeCycles })).modGroup leaving (fun g =>
      { g with parkedFor := 0, held := k.cycle + exchangeCycles })
  else s

/-- Exchanges an active group for the ready pending group nearest the head (R109). -/
def State.exchange (s : State) (leaving : GroupId) : State :=
  match s.readyPending leaving.core with
  | none => s
  | some e => s.exchangeFor leaving e

/-! ### Thread control (R299) -/

/-- R299 -/
def bodyNop : Issue Unit := pure ()

/-- R299 -/
def execNop (w : BitVec 1) (st : State) : Host.Outcome State Fault Refusal := plain (Enc.nop w) .nothing bodyNop st

/-- R299: an active group gives way to a ready pending one. -/
def execYield (w : BitVec 1) (st : State) : Host.Outcome State Fault Refusal :=
  issue (Enc.yield w) false .nothing (pure ()) (fun s => s.exchange st.cur.group) st

/-- R299: the wait runs in the team's cycles. -/
def bodyPark (n : BitVec 16) : Issue Unit := do
  let c ← get
  let k := c.hs.immU n.toNat 16
  if k ≠ 0 then parkAt (.park (c.s.ncyc c.id.teamId + k))

/-- R299 -/
def execPark (w : BitVec 1) (n : BitVec 16) (st : State) : Host.Outcome State Fault Refusal :=
  issue (Enc.park w n) true .immOnly (bodyPark n) id st

/-- The catch setting of a thread's group (R224). -/
def State.catching (s : State) (id : ThreadId) : Bool :=
  match s.group? id.group with
  | some g => g.catching
  | none => false

/-- R223: breakpoint, or a halt where the group's catch setting is on. -/
def bodyBrk (n : BitVec 20) : Issue Unit := do
  let c ← get
  if c.s.catching c.id then
    if c.th.log ≠ [] then holdFor (.marker c.word.msb false)
    parkAt .run
  else flag .breakpoint (n.setWidth 64)

/-- A `brk` with the catch setting on halts the group, and ends a step of its thread (R223, R225). -/
def State.catchHalt (id : ThreadId) (s : State) : State :=
  if s.catching id then
    { s.modGroup id.group (fun g => { g with halted := true }) with
      dbg := if s.dbg.target = some id.group then { s.dbg with stepping := s.dbg.stepping.filter (fun m => decide (m.1 ≠ id.mem)) } else s.dbg }
  else s

/-- R223 -/
def execBrk (w : BitVec 1) (n : BitVec 20) (st : State) : Host.Outcome State Fault Refusal :=
  issue (Enc.brk w n) false .nothing (bodyBrk n) (fun s => s.catchHalt st.cur) st

end Sys2Proof.Machine
end

