-- ==== Sys2Proof/Machine/Format.lean ====
section
/-! DEFINITION. Number formats: the value of every encoding, rounding, overflow policies, stochastic draws and the exact
arithmetic behind the floating-point instructions (R227 to R246). -/
namespace Sys2Proof.Machine

/-! ### Formats and values -/

/-- A number format (R230): width, sign bits, exponent bits, bias, specials code, and whether exponent code 0 encodes
zero and subnormals. -/
structure Fmt where
  W    : Nat
  S    : Nat
  E    : Nat
  bias : Int
  spec : Nat
  sub  : Bool
  deriving DecidableEq, Repr

/-- FP32 (R227). -/
def binary32 : Fmt := { W := 32, S := 1, E := 8, bias := 127, spec := 2, sub := true }
/-- FP64 (R227). -/
def binary64 : Fmt := { W := 64, S := 1, E := 11, bias := 1023, spec := 2, sub := true }
/-- BF16 (R227). -/
def bfloat16 : Fmt := { W := 16, S := 1, E := 8, bias := 127, spec := 2, sub := true }
/-- FP16 (R227). -/
def binary16 : Fmt := { W := 16, S := 1, E := 5, bias := 15, spec := 2, sub := true }
/-- Signed 32-bit integers as a format with E = 0 (R283). -/
def int32 : Fmt := { W := 32, S := 1, E := 0, bias := 0, spec := 0, sub := false }
/-- Unsigned 32-bit integers as a format with E = 0 (R283). -/
def nat32 : Fmt := { W := 32, S := 0, E := 0, bias := 0, spec := 0, sub := false }

/-- The mantissa width (R230). -/
def Fmt.M (f : Fmt) : Nat := f.W - f.S - f.E

/-- The format that a format register describes (R230). -/
def Fmt.ofWord (w : Word) : Fmt :=
  { W := (w.extractLsb' 0 4).toNat, S := (w.extractLsb' 4 1).toNat, E := (w.extractLsb' 5 4).toNat
    bias := (w.extractLsb' 9 8).toInt, spec := (w.extractLsb' 17 2).toNat, sub := w.getLsbD 19 }

/-- What `fset` accepts (R230). -/
def fmtLegal (w : Word) : Bool :=
  let f := Fmt.ofWord w
  decide (w.extractLsb' 20 12 = 0) && decide (1 ≤ f.W) && decide (f.W ≤ 8) && decide (f.E ≤ 8)
    && decide (f.S + f.E ≤ f.W) && decide (f.spec ≠ 3)
    && (decide (f.E ≠ 0) || (decide (f.spec = 0) && !f.sub))
    && (decide (f.spec ≠ 2) || (decide (2 ≤ f.E) && decide (1 ≤ f.M)))

/-- An exact value: NaN, an infinity, or (−1)^neg · m · 2^e, with the sign of a zero kept. `sticky` says that the value
lies strictly between m · 2^e and (m + 1) · 2^e. -/
inductive Val where
  | nan
  | inf (neg : Bool)
  | num (neg : Bool) (m : Nat) (e : Int) (sticky : Bool)
  deriving DecidableEq, Repr

/-- The value of an encoding (R231). -/
def val (c : Nat) (f : Fmt) : Val :=
  let s := decide (f.S = 1) && decide (bits c (f.W - 1) (f.W - 1) = 1)
  let mag := c % 2 ^ (f.W - f.S)
  let M := f.M
  if f.E = 0 then
    let n : Int := if f.S = 1 then sextN c f.W else (c % 2 ^ f.W : Nat)
    .num (decide (n < 0)) n.natAbs (-f.bias) false
  else
    let e := mag / 2 ^ M
    let m := mag % 2 ^ M
    if f.spec = 1 ∧ mag = 2 ^ (f.E + M) - 1 then .nan
    else if f.spec = 2 ∧ e = 2 ^ f.E - 1 then (if m = 0 then .inf s else .nan)
    else if e = 0 ∧ f.sub then .num s m (1 - f.bias - M) false
    else .num s (2 ^ M + m) ((e : Int) - f.bias - M) false

/-- The format has a NaN (R230). -/
def Fmt.hasNan (f : Fmt) : Bool := decide (f.spec ≠ 0)

/-- The canonical NaN (R227, R231). -/
def Fmt.nan (f : Fmt) : Nat :=
  if f.spec = 1 then 2 ^ (f.E + f.M) - 1
  else if f.spec = 2 then (2 ^ f.E - 1) * 2 ^ f.M + 2 ^ (f.M - 1) else 0

/-- The largest finite magnitude code (R235). -/
def Fmt.maxMag (f : Fmt) : Nat :=
  if f.E = 0 then 2 ^ (f.W - f.S) - 1
  else if f.spec = 1 then 2 ^ (f.E + f.M) - 2
  else if f.spec = 2 then (2 ^ f.E - 1) * 2 ^ f.M - 1
  else 2 ^ (f.E + f.M) - 1

/-- The encoding of a magnitude with a sign, for a format whose codes reach it. -/
def Fmt.encode (f : Fmt) (neg : Bool) (mag : Nat) : Nat :=
  if f.E = 0 then (if neg then (2 ^ f.W - mag) % 2 ^ f.W else mag)
  else (if neg && decide (f.S = 1) then 2 ^ (f.W - 1) else 0) + mag

/-- The encoding of an infinity of a format that has one. -/
def Fmt.inf (f : Fmt) (neg : Bool) : Nat := f.encode neg ((2 ^ f.E - 1) * 2 ^ f.M)

/-- The largest finite value of a sign; for S = 0 and a negative sign the least finite value (R237). -/
def Fmt.largest (f : Fmt) (neg : Bool) : Nat :=
  if neg && decide (f.S = 0) then 0
  else if f.E = 0 ∧ neg then f.encode true (2 ^ (f.W - 1))
  else f.encode neg f.maxMag

/-! ### Rounding (R234 to R236) -/

/-- What rounding a finite value gives: an encoding, or an overflow with the sign of the value. -/
inductive Rounded where
  | code (c : Nat)
  | overflow (neg : Bool)
  deriving DecidableEq, Repr

/-- Whether the mode (0 RNE, 1 RTZ, 2 RDN, 3 RUP, 4 RNA, 5 stochastic with draw r) takes the value away from zero:
`odd` is the parity of the nearer-to-zero code, the fraction is (rem + sticky) / 2^sh (R235, R236). -/
def awayFromZero (mode r : Nat) (neg odd : Bool) (rem sh : Nat) (sticky : Bool) : Bool :=
  if rem = 0 ∧ !sticky then false else
  match mode with
  | 0 => decide (2 ^ sh < 2 * rem) || (decide (2 ^ sh = 2 * rem) && (sticky || odd))
  | 1 => false
  | 2 => neg
  | 3 => !neg
  | 4 => decide (2 ^ sh ≤ 2 * rem)
  | _ => decide (r < rem * 65536 / 2 ^ sh)

/-- The exponent of the least significant place below which a format has no finer values (R235). -/
def Fmt.bottom (f : Fmt) : Int := if f.E = 0 then -f.bias else if f.sub then 1 - f.bias - f.M else -f.bias - f.M

/-- The magnitude code that value k · 2^q has in U, the exponent unbounded above (R235). -/
def Fmt.magOf (f : Fmt) (k : Nat) (q : Int) : Nat :=
  if f.E = 0 then k
  else if f.sub then (q - f.bottom).toNat * 2 ^ f.M + k
  else (q - f.bottom).toNat * 2 ^ f.M + k - 2 ^ f.M

/-- Rounds a finite value (R235): steps 1 to 3, and the case of a format without zero. -/
def roundFinite (f : Fmt) (mode r : Nat) (neg : Bool) (m : Nat) (e : Int) (sticky : Bool) : Rounded :=
  let zero := decide (m = 0) && !sticky
  let top : Int := Nat.log2 m + e
  if f.E ≠ 0 ∧ !f.sub ∧ (zero ∨ top < -f.bias) then
    if f.S = 0 ∧ neg ∧ !zero then .overflow true else .code (f.encode neg 0)
  else
    let q : Int := if f.E = 0 ∨ m = 0 then f.bottom else max (top - f.M) f.bottom
    let m' := if q ≤ e then m * 2 ^ (e - q).toNat else m
    let sh := if q ≤ e then 0 else (q - e).toNat
    let mag := f.magOf (m' / 2 ^ sh) q
    let y := if awayFromZero mode r neg (decide (mag % 2 = 1)) (m' % 2 ^ sh) sh sticky then mag + 1 else mag
    let limit := if f.E = 0 ∧ f.S = 1 ∧ neg then 2 ^ (f.W - 1) else f.maxMag
    if limit < y then .overflow neg
    else if f.S = 0 ∧ neg ∧ (y ≠ 0 ∨ (f.E ≠ 0 ∧ !f.sub)) ∧ !zero then .overflow true
    else .code (f.encode (neg && decide (f.S = 1)) y)

/-- `round` for a standard format (R228, R235): overflow follows the mode, NaN is the canonical one. -/
def roundVal (f : Fmt) (mode r : Nat) (v : Val) : Nat :=
  match v with
  | .nan => f.nan
  | .inf neg => f.inf neg
  | .num neg m e st =>
    match roundFinite f mode r neg m e st with
    | .code c => c
    | .overflow n =>
      if mode = 1 ∨ (mode = 2 ∧ !n) ∨ (mode = 3 ∧ n) then f.largest n else f.inf n

/-- The overflow policies of R237 (0 SAT, 1 INF, 2 NAN, 3 TRAP): the encoding, or none for a trap. `fin` says that the
input was finite, for which R238 makes its exceptions. -/
def overflowPolicy (f : Fmt) (mode ovf : Nat) (neg fin : Bool) : Option Nat :=
  match ovf with
  | 0 => some (f.largest neg)
  | 1 =>
    if fin && (decide (mode = 1) || (decide (mode = 2) && !neg) || (decide (mode = 3) && neg)) then some (f.largest neg)
    else if f.spec = 2 ∧ (f.S = 1 ∨ !neg) then some (f.inf neg)
    else if f.hasNan then some f.nan else some (f.largest neg)
  | 2 => some (if f.hasNan then f.nan else f.largest neg)
  | _ => none

/-- `convert_down` (R235, R237, R238): the encoding, or none where the TRAP policy traps. -/
def convertDown (f : Fmt) (mode r ovf : Nat) (v : Val) : Option Nat :=
  match v with
  | .nan => if f.hasNan then some f.nan else if ovf = 3 then none else some 0
  | .inf neg => if f.spec = 2 ∧ (f.S = 1 ∨ !neg) then some (f.inf neg) else overflowPolicy f mode ovf neg false
  | .num neg m e st =>
    match roundFinite f mode r neg m e st with
    | .code c => some c
    | .overflow n => overflowPolicy f mode ovf n true

/-- One draw of a generator (R236). -/
def nextGen (g : Word) : Word :=
  let a := g ^^^ (g <<< 13)
  let b := a ^^^ (a >>> 17)
  b ^^^ (b <<< 5)

/-- The generator that a seed starts (R236). -/
def genOf (seed : Word) : Word := if seed = 0 then 0x9E3779B9 else seed

/-- The 16 random bits of a generator after its draw (R236). -/
def drawBits (g : Word) : Nat := (g.extractLsb' 16 16).toNat

/-- One draw for one element under the stochastic mode; no draw under another (R236, R267). -/
def drawFor (mode : Nat) (t : Thread) : Nat × Thread :=
  if mode = 5 then (drawBits (nextGen t.gen), { t with gen := nextGen t.gen }) else (0, t)

/-! ### Exact arithmetic -/

/-- Negation. -/
def Val.neg : Val → Val
  | .nan => .nan
  | .inf n => .inf (!n)
  | .num n m e s => .num (!n) m e s

/-- The sum; an exact zero is −0 only for two zeros of that sign, or under RDN (R228). -/
def Val.add (mode : Nat) : Val → Val → Val
  | .nan, _ => .nan
  | _, .nan => .nan
  | .inf a, .inf b => if a = b then .inf a else .nan
  | .inf a, _ => .inf a
  | _, .inf b => .inf b
  | .num na ma ea _, .num nb mb eb _ =>
    let e := min ea eb
    let a : Int := (if na then -1 else 1) * ((ma * 2 ^ (ea - e).toNat : Nat) : Int)
    let b : Int := (if nb then -1 else 1) * ((mb * 2 ^ (eb - e).toNat : Nat) : Int)
    if a + b = 0 then .num (if ma = 0 ∧ mb = 0 ∧ na = nb then na else decide (mode = 2)) 0 e false
    else .num (decide (a + b < 0)) (a + b).natAbs e false

/-- The product. -/
def Val.mul : Val → Val → Val
  | .nan, _ => .nan
  | _, .nan => .nan
  | .inf a, .inf b => .inf (a != b)
  | .inf a, .num nb m _ _ => if m = 0 then .nan else .inf (a != nb)
  | .num na m _ _, .inf b => if m = 0 then .nan else .inf (na != b)
  | .num na ma ea _, .num nb mb eb _ => .num (na != nb) (ma * mb) (ea + eb) false

/-- The order of two values that are no NaN: their difference is negative; −0 equals +0 (R282). -/
def Val.lt (a b : Val) : Bool :=
  match a, b with
  | .nan, _ => false
  | _, .nan => false
  | .inf n, .inf k => n && !k
  | .inf n, _ => n
  | _, .inf k => !k
  | a, b =>
    match a.add 0 b.neg with
    | .num n m _ _ => n && decide (m ≠ 0)
    | _ => false

/-- Is a NaN. -/
def Val.isNan : Val → Bool
  | .nan => true
  | _ => false

/-- Equal values, neither a NaN; −0 equals +0 (R282). -/
def Val.eq (a b : Val) : Bool := !a.isNan && !b.isNan && !a.lt b && !b.lt a

/-- A zero. -/
def Val.isZero : Val → Bool
  | .num _ m _ s => decide (m = 0) && !s
  | _ => false

/-- The sign of an encoding. -/
def Fmt.signOf (f : Fmt) (c : Nat) : Bool := decide (bits c (f.W - 1) (f.W - 1) = 1)

/-- The lesser of two encodings, with −0 < +0, and the other operand where one is a NaN (R229, R279). -/
def fminCode (f : Fmt) (a b : Nat) : Nat :=
  let x := val a f
  let y := val b f
  if x.isNan ∧ y.isNan then f.nan else if x.isNan then b else if y.isNan then a
  else if x.lt y then a else if y.lt x then b else if f.signOf a then a else b

/-- The greater of two encodings, with −0 < +0, and the other operand where one is a NaN (R229, R279). -/
def fmaxCode (f : Fmt) (a b : Nat) : Nat :=
  let x := val a f
  let y := val b f
  if x.isNan ∧ y.isNan then f.nan else if x.isNan then b else if y.isNan then a
  else if x.lt y then b else if y.lt x then a else if f.signOf a then b else a

/-- Gives an encoding a sign; a NaN becomes the canonical one (R279). -/
def withSign (f : Fmt) (c : Nat) (neg : Bool) : Nat :=
  if (val c f).isNan then f.nan else c % 2 ^ (f.W - 1) + (if neg then 2 ^ (f.W - 1) else 0)

/-! ### Roots and quotients -/

/-- The integer square root, by its bits from bit `n - 1` down. -/
def isqrtFrom (x : Nat) : Nat → Nat → Nat
  | 0, acc => acc
  | n + 1, acc => let t := acc + 2 ^ n; if t * t ≤ x then isqrtFrom x n t else isqrtFrom x n acc

/-- The integer square root. -/
def isqrt (x : Nat) : Nat := isqrtFrom x (Nat.log2 x / 2 + 1) 0

/-- The exact square root with 80 places more than the operand (R246). -/
def Val.sqrt : Val → Val
  | .nan => .nan
  | .inf n => if n then .nan else .inf false
  | .num n m e s =>
    if m = 0 then .num n 0 e s else if n then .nan else
    let m' := if e % 2 = 0 then m else 2 * m
    let e' := if e % 2 = 0 then e else e - 1
    let r := isqrt (m' * 2 ^ 160)
    .num false r (e' / 2 - 80) (decide (r * r ≠ m' * 2 ^ 160))

/-- The exact reciprocal (R246). -/
def Val.rcp : Val → Val
  | .nan => .nan
  | .inf n => .num n 0 0 false
  | .num n m e _ =>
    if m = 0 then .inf n else
    .num n (2 ^ 160 / m) (-e - 160) (decide (2 ^ 160 % m ≠ 0))

/-- The exact reciprocal of the square root (R246). -/
def Val.rsq : Val → Val
  | .nan => .nan
  | .inf n => if n then .nan else .num false 0 0 false
  | .num n m e _ =>
    if m = 0 then .inf n else if n then .nan else
    let m' := if e % 2 = 0 then m else 2 * m
    let e' := if e % 2 = 0 then e else e - 1
    let r := isqrt (2 ^ 320 / m')
    .num false r (-(e' / 2) - 160) (decide (r * r * m' ≠ 2 ^ 320))

end Sys2Proof.Machine
end

