-- ==== Sys2Proof/Machine/Service.lean ====
section
/-! DEFINITION. The service gatherer (R111 to R113, R383): calls and translation faults are gathered in batches, posted
in a slot of their die's ring, and answered. Opcode-table rows SERVICE_BATCH_TIMEOUT and SERVICE_BATCH_POST. -/
namespace Sys2Proof.Machine

/-- A translation fault of an engine forms a batch of its own, closed at once (R383). -/
def State.engineBatch (s : State) (g : GroupId) (die asid : Nat) (va : Dword) (acc : Nat) (e : EngineRef) : State :=
  if s.service.batches.any (fun b => decide (b.engine = e)) then s else
  let c : Call := { member := 0, number := 0, args := [], addr := va, access := acc, dst := 0 }
  let b : ServiceBatch := { group := g, home := g.teamId, kind := 2, die := die, asid := asid, calls := [c], opened := 0, closed := true
                            slot := none, engine := e }
  { s with service := { s.service with batches := s.service.batches ++ [b] } }

/-- A service batch holds an engine's access (R383). -/
def State.engineWaits (s : State) (e : EngineRef) : Bool := s.service.batches.any (fun b => decide (b.engine = e))

/-- Work that is abandoned leaves its batch: an unposted one goes, a posted one keeps its slot until it is answered (R113, R383). -/
def State.leaveBatch (s : State) (e : EngineRef) : State :=
  let clear : ServiceBatch → ServiceBatch := fun b => if b.engine = e then { b with calls := [], engine := .none } else b
  { s with service := { s.service with batches := (s.service.batches.filter (fun b => !(decide (b.engine = e) && b.slot.isNone))).map clear } }

/-- SERVICE_BATCH_TIMEOUT: 64 cycles after its first call a batch closes (R111). -/
def execServiceBatchTimeout (group : GroupId) (kind : Nat) (s : State) : Host.Outcome State Fault Refusal :=
  .next { s with service := { s.service with batches := s.service.batches.map (fun b =>
    if b.group = group ∧ b.kind = kind ∧ !b.closed ∧ b.opened + batchCycles ≤ s.groupCycles group
    then { b with closed := true } else b) } }

/-- The bytes of slot `k` of a ring (R111). -/
def slotPa (ring k : Nat) : Nat := chipPa (ring + 4096 * k)

/-- The next free slot from a position on, in cyclic order (R111). -/
def State.freeSlot (s : State) (die ring next : Nat) : Option Nat :=
  ((List.range 64).map (fun i => (next + i) % 64)).find? (fun k =>
    s.read (slotPa ring k + 16) 4 = 0 ∧ !s.service.batches.any (fun b => b.slot == some k && b.die == die))

/-- The bytes of a call (R112). -/
def callBytes (kind : Nat) (c : Call) : List Byte :=
  if kind = 0 then natBytes 4 (c.number % 65536) ++ (c.args.flatMap (fun a => natBytes 4 a.toNat)) ++ natBytes 4 0
  else natBytes 8 c.addr.toNat ++ natBytes 1 c.access ++ List.replicate 23 0

/-- The mask field of a batch (R112, R383). -/
def ServiceBatch.mask (b : ServiceBatch) : Dword := if b.kind = 2 then 0 else maskOf (b.calls.map (fun c => c.member))

/-- An event directed at a thread's core: a thread waiting in `wfe` completes with its latch clear, any other sets its
latch (R353). -/
def State.latchThread (s : State) (id : ThreadId) : State :=
  match s.thread? id with
  | none => s
  | some t =>
    if !t.live then s else
    match t.wait with
    | .wfe _ => s.complete id
    | _ => s.setThread id { t with latch := true }

/-- Sets the event latch of every thread on a core (R112, R353). -/
def State.latchCore (s : State) (core : Nat) : State :=
  ((s.threads.map (fun p => p.1)).filter (fun id => id.core == core)).foldl (fun s id => s.latchThread id) s

/-- Writes a posted batch into its slot: the fields, then state = 1 (R112). -/
def State.writeSlot (s : State) (b : ServiceBatch) (pa : Nat) : State :=
  let s := s.write pa 8 b.mask.toNat
  let s := s.write (pa + 8) 2 b.home.core
  let s := s.write (pa + 10) 1 b.home.team
  let s := s.write (pa + 11) 1 b.group.grp
  let s := s.write (pa + 12) 2 b.asid
  let s := s.write (pa + 14) 2 b.kind
  let s := b.calls.foldl (fun s c => s.store (pa + 64 + 32 * (if b.kind = 2 then 0 else c.member)) (callBytes b.kind c)) s
  s.write (pa + 16) 4 1

/-- SERVICE_BATCH_POST: a closed batch takes the next free slot of its die's ring, and the write is an event on the
service core (R111, R112). Without a ring or a free slot it waits. -/
def execServiceBatchPost (index : Nat) (s : State) : Host.Outcome State Fault Refusal :=
  match s.service.batches[index]? with
  | none => .next s
  | some b =>
    if !b.closed ∨ b.slot.isSome then .next s else
    match AMap.get? s.service.rings b.die with
    | none => .next s
    | some (ring, next, core) =>
      match s.freeSlot b.die ring next with
      | none => .next s
      | some k =>
        let s := s.writeSlot b (slotPa ring k)
        let s := { s with service := { s.service with
          rings := AMap.set s.service.rings b.die (ring, (k + 1) % 64, core),
          batches := s.service.batches.set index { b with slot := some k } } }
        .next (s.latchCore core)

/-- The answer words of a member in a slot (R112). -/
def State.answer (s : State) (pa member : Nat) : Word × Word :=
  (BitVec.ofNat 32 (s.read (pa + 2112 + 8 * member) 4), BitVec.ofNat 32 (s.read (pa + 2112 + 8 * member + 4) 4))

/-- The thread of a member of a batch. -/
def ServiceBatch.thread (b : ServiceBatch) (c : Call) : ThreadId := ⟨b.group.core, b.group.team, b.group.grp, c.member⟩

/-- The answer of an `svc` in the operand log: its two result words are deferred (R113, R348). -/
def callEntry (kernel : Bool) (dst stamp : Nat) (w0 w1 : Word) : LogEntry :=
  { index := 16, stamp := stamp, issue := stamp, word := 0, hints := [], kernel := kernel, access := .svc dst
    state := .returned [(dst, w0), (dst + 1, w1)], fill := true }

/-- An `svc` is answered, and retires (R113, R348). -/
def Thread.answerCall (t : Thread) (dst stamp : Nat) (w0 w1 : Word) : Thread :=
  { t.retire (t.pc + 4) with log := t.log ++ [callEntry t.kernel dst stamp w0 w1] }

/-- An `svc` of a thread that a debugger holds back is answered: it retires at the thread's turn (R113, R224). -/
def Thread.heldCall (t : Thread) (dst stamp : Nat) (w0 w1 : Word) : Thread :=
  { t with wait := .done, log := t.log ++ [callEntry t.kernel dst stamp w0 w1] }

/-- A retried translation fault: the flagged entries are issued again, and the thread waits for them where it waited before (R113,
R154, R155). -/
def Thread.retryFault (t : Thread) (back : Wait) : Thread :=
  { t with log := t.log.map (fun e => match e.state with
      | .flagged _ _ => { e with state := .pending }
      | _ => e)
           wait := if t.log.isEmpty then .run else back }

/-- The tlog mask of a list of entries (R154). -/
def tlogOf (es : List LogEntry) : Word := es.foldl (fun m e => if e.index < 16 then m ||| (1#32 <<< e.index) else m) 0

/-- A denied translation fault: permission with the faulting address, the flagged entries kept (R113, R154). -/
def State.denyFault (s : State) (id : ThreadId) (t : Thread) (addr : Dword) : State :=
  s.trapAt id { t with kept := t.log, log := [] } 0x07 t.firstWord addr (tlogOf t.log)

/-- A denied translation of a stream element (R113, R144): permission at the instruction that reads or writes it. -/
def State.denyElement (s : State) (id : ThreadId) (k : Nat) : State :=
  match (s.thread? id).bind (fun t => t.stream k) with
  | none => s
  | some q =>
    if q.write then (if q.total ≤ q.next then s else
      s.modThread id (fun t => t.setStream k (some { q with fifo := [.fault .permission (q.elemAddr q.next)] })))
    else if q.total ≤ q.fetched then s
    else s.modThread id (fun t => t.setStream k (some { q with fetched := q.fetched + 1,
                                                               fifo := q.fifo ++ [.fault .permission (q.elemAddr q.fetched)] }))

/-- A saved thread takes the answer of its call; a step trap follows when it resumes (R220, R222). -/
def State.resumeSaved (s : State) (b : ServiceBatch) (pa : Nat) (c : Call) : State :=
  let id := b.thread c
  match s.savedThread? id with
  | none => s
  | some t =>
    match t.wait with
    | .call =>
      let (w0, w1) := s.answer pa c.member
      let u := t.answerCall c.dst s.stamp w0 w1
      ({ s with stamp := s.stamp + 1 } : State).setSaved id (if t.stepping then { u with wait := .stepTrap } else u)
    | _ => s

/-- A member of an answered batch of kind 0 or 1 resumes, and has seen what came before the answer (R113). -/
def State.resumeMember (s : State) (b : ServiceBatch) (pa : Nat) (c : Call) : State :=
  let id := b.thread c
  match s.thread? id with
  | none => s.resumeSaved b pa c
  | some t =>
    let t := { t with view := t.view.join (View.upTo s.hist.length) }
    let (w0, w1) := s.answer pa c.member
    match b.engine, t.wait with
    | .stream _ k, _ => if w0 = 0 then s else s.denyElement id k
    | _, .call =>
      if b.kind ≠ 0 then s
      else if s.staysPut id t then ({ s with stamp := s.stamp + 1 }).setThread id (t.heldCall c.dst s.stamp w0 w1)
      else (({ s with stamp := s.stamp + 1 }).setThread id (t.answerCall c.dst s.stamp w0 w1)).afterIssue id t.stepping
    | _, .service back => if b.kind = 0 then s else if w0 = 0 then s.setThread id (t.retryFault back) else s.denyFault id t c.addr
    | _, _ => s

end Sys2Proof.Machine
end

