-- ==== Sys2Proof/Machine/Access.lean ====
section
/-! DEFINITION. Variable-latency accesses after their issue: where their bytes lie, what holds them back (R25, R182,
R191), how they are performed on each path (R314), and the commit at a marker (R148, R154). Opcode-table rows
MARKER_COMMIT and ASYNC_ERROR_ARRIVAL. -/
namespace Sys2Proof.Machine

/-! ### What an access touches -/

/-- The physical address of a barrier object, and of a tile's (R171); the second lies outside every address space. -/
def State.barPa (s : State) : BarName → Nat
  | .object t off => s.coPa t off
  | .tile t k => 2 ^ 64 + ((t.core * 4 + t.team) * 256 + k) * 8

/-- The parts an access touches, for the orders of R191. -/
def State.accessParts (s : State) (id : ThreadId) (kernel : Bool) : Access → List (Place × Nat)
  | .load space a n _ _ _ => s.parts id kernel space a n .load
  | .store space a n _ _ _ => s.parts id kernel space a n .store
  | .atom _ a w _ _ _ _ _ => s.parts id kernel .gl a (if w then 8 else 4) .atomic
  | .cadd k _ _ => [(.mem 0 (2 ^ 65 + k) 0, 1)]
  | .cpoll k _ => [(.mem 0 (2 ^ 65 + k) 0, 1)]
  | .barm b _ => [(.mem 0 (s.barPa b) 0, 8)]
  | .ssq off _ => [(.mem 0 (s.coPa id.teamId off) 0, 128)]
  | _ => []

/-- An access that stores and that no release waits for (R191, R198). -/
def Access.nonTemporal : Access → Bool
  | .store _ _ _ .nt _ _ => true
  | _ => false

/-- An acquire, which every later access waits for (R191). -/
def Access.acquires : Access → Bool
  | .load _ _ _ .acq _ _ => true
  | .atom _ _ _ _ ret _ _ _ => ret
  | _ => false

/-- A release, which waits for every earlier access (R191, R324, R350). -/
def Access.releases : Access → Bool
  | .store _ _ _ .rel _ _ => true
  | .atom _ _ _ _ _ _ _ _ => true
  | .cadd _ _ _ => true
  | .wsig _ _ _ _ _ => true
  | .spawn _ _ _ => true
  | _ => false

/-- An access that reads bytes a plain store of its thread may still have to write: `wred` (R325). -/
def Access.afterStores : Access → Bool
  | .wred _ _ _ _ => true
  | _ => false

/-! ### What holds an access back -/

/-- The coherence grain of a page entry (R185). -/
def grainOf (e : Nat) : Nat := if bits e 8 7 = 0 then 32 else if bits e 8 7 = 1 then 128 else 512

/-- The pages that a range can touch. -/
def pageFuel (n : Nat) : Nat := n / 65536 + 2

/-- A virtual range cut at its pages. -/
def pageCuts : (fuel va n : Nat) → List (Nat × Nat)
  | 0, _, _ => []
  | fuel + 1, va, n =>
    if n = 0 then [] else
    let k := min n (65536 - va % 65536)
    (va, k) :: pageCuts fuel (va + k) (n - k)

/-- A virtual range that an engine of a core owns has a grain that a physical range touches (R181). -/
def State.grainsMeet (s : State) (w : Walker) (asid : Nat) (l : Nat × Nat) (pa n : Nat) : Bool :=
  (pageCuts (pageFuel l.2) l.1 l.2).any (fun c =>
    match s.leaf w asid c.1 with
    | some (e, b) =>
      let g := grainOf e
      let a := leafPa e b c.1
      decide (pa / g ≤ (a + c.2 - 1) / g) && decide (a / g ≤ (pa + n - 1) / g)
    | none => false)

/-- An engine other than the one named, by its core and unit, owns a grain that a physical range touches (R181, R182). -/
def State.ownedOther (s : State) (by' : Option (Nat × Nat)) (pa n : Nat) : Bool :=
  s.cores.any (fun p => p.2.ranges.any (fun r => decide (by' ≠ some (p.1, r.unit)) && r.left.any (fun l => s.grainsMeet (.core p.1) r.asid l pa n)))

/-- A physical range touches a line that a host CPU holds exclusively for an atomic (R207). -/
def State.hostHolds (s : State) (pa n : Nat) : Bool := s.hostLines.any (fun l => rangesMeet (l * 64) 64 pa n)

/-- Bytes of memory are held back from an engine, by a tier move of their page (R25), by another engine's ownership (R182), or by a host
CPU's atomic (R207). -/
def State.heldOther (s : State) (by' : Option (Nat × Nat)) (pa n : Nat) : Bool := s.moving pa n || s.ownedOther by' pa n || s.hostHolds pa n

/-- Bytes of memory are held back from every agent that is no engine (R25, R182). -/
def State.held (s : State) (pa n : Nat) : Bool := s.heldOther none pa n

/-- A part is held by a tier move of its page (R25) or by an engine's ownership (R182). -/
def State.partHeld (s : State) (p : Place × Nat) : Bool :=
  match p.1 with
  | .mem _ pa _ => s.held pa p.2
  | _ => false

/-- A log entry that is not performed yet (R191). One that a fault has flagged holds nothing up: the run goes on to its marker (R154;
DEDUCED: log entry 14). -/
def LogEntry.unperformed (e : LogEntry) : Bool :=
  match e.state with
  | .returned _ => false
  | .flagged _ _ => false
  | _ => true

/-- A stream has an appended element of an older stamp: it is ordered as a plain store (R296). -/
def Stream.appendedBefore (q : Stream) (stamp : Nat) : Bool := q.appended.any (fun a => decide (a.stamp < stamp))

/-- A read stream bound before a stamp has an element that it can still fetch: it is ordered as a plain load issued by the `sdef` (R296).
One whose next element faults fetches no more. -/
def Stream.unfetchedBefore (q : Stream) (stamp : Nat) : Bool :=
  decide (q.stamp < stamp) && decide (q.fetched < q.total) && (match q.fifo.getLast? with
    | some (.fault _ _) => false
    | _ => true)

/-- Stream elements that a later release, fence or barrier waits for (R296). -/
def Thread.streamsPending (t : Thread) (stamp : Nat) : Bool :=
  t.q.any (fun q => match q with
    | some q => if q.write then q.appendedBefore stamp else q.unfetchedBefore stamp
    | none => false)

/-- Some element of a stream, of the `k` from `n` on, meets one of the parts. -/
def State.elementsMeet (s : State) (id : ThreadId) (q : Stream) (ps : List (Place × Nat)) (n : Nat) : Nat → Bool
  | 0 => false
  | k + 1 =>
    (s.parts id q.kernel q.space (q.elemAddr n) q.size .load).any (fun p => ps.any (fun r => placesMeet p r))
      || s.elementsMeet id q ps (n + 1) k

/-- An older element of a stream meets one of the parts: a write element not performed, or a read element not fetched (R191, R296). -/
def State.streamMeets (s : State) (id : ThreadId) (stamp : Nat) (ps : List (Place × Nat)) (q : Stream) : Bool :=
  if q.write then q.appended.any (fun a => decide (a.stamp < stamp) && a.parts.any (fun p => ps.any (fun r => placesMeet p r)))
  else q.unfetchedBefore stamp && s.elementsMeet id q ps q.fetched (q.total - q.fetched)

/-- An access that stores. -/
def Access.stores : Access → Bool
  | .store _ _ _ _ _ _ => true
  | .atom _ _ _ _ _ _ _ _ => true
  | _ => false

/-- Every access of a thread older than a stamp has left it: performed here, or on its way to another device; non-temporal stores
excepted (R191). -/
def State.leftBefore (s : State) (id : ThreadId) (stamp : Nat) : Bool :=
  (match s.thread? id with
    | some t => t.log.all (fun e => !(decide (e.stamp < stamp) && e.unperformed && !e.access.nonTemporal))
        && !t.streamsPending stamp
    | none => true)
  && s.buffer.all (fun b => !(decide (b.thread = id) && decide (b.stamp < stamp) && !b.access.nonTemporal))

/-- The pod stores of a thread, older than a stamp, that are not known to be placed; `nt` picks its non-temporal ones (R188, R198). -/
def State.unplaced (s : State) (id : ThreadId) (stamp : Nat) (nt : Bool) : List Tracked :=
  s.net.tracked.filter (fun t => decide (t.thread = id) && t.own && decide (t.stamp < stamp) && (t.nt == nt))

/-- Those of them that the thread still waits for: no flush of its own for them has failed (R320). -/
def State.awaited (s : State) (id : ThreadId) (stamp : Nat) (nt : Bool) : List Tracked :=
  (s.unplaced id stamp nt).filter (fun t => !t.excused.contains id)

/-- A store of a thread over Ethernet, older than a stamp, that is not acknowledged (R188, R203). -/
def Message.unacked (m : Message) (id : ThreadId) (stamp : Nat) (nt : Bool) : Bool :=
  decide (m.thread = id) && decide (m.stamp < stamp) && (match m.body with
    | .store _ n _ => n == nt
    | _ => false)

/-- Every store of a thread older than a stamp is performed on its target device, or its failure is known (R188, R320). -/
def State.landed (s : State) (id : ThreadId) (stamp : Nat) (nt : Bool) : Bool :=
  (s.awaited id stamp nt).isEmpty && s.net.messages.all (fun m => !m.unacked id stamp nt)

/-- Every access of a thread older than a stamp is performed, non-temporal stores excepted (R188, R191, R199). -/
def State.doneBefore (s : State) (id : ThreadId) (stamp : Nat) : Bool := s.leftBefore id stamp && s.landed id stamp false

/-- What a release of a thread waits for in its own thread: a store whose flush has failed is not placed (R191, R201). -/
def State.releasable (s : State) (id : ThreadId) (stamp : Nat) : Bool := s.doneBefore id stamp && (s.unplaced id stamp false).isEmpty

/-- Preserved order within one thread (R191): an earlier access that is not performed and that this one must follow. -/
def State.blocked (s : State) (id : ThreadId) (stamp : Nat) (kernel : Bool) (a : Access) : Bool :=
  if a.releases && !s.releasable id stamp then true else
  let ps := s.accessParts id kernel a
  let meets := fun k (b : Access) => b.acquires || (a.afterStores && b.stores)
    || (s.accessParts id k b).any (fun q => ps.any (fun p => placesMeet p q))
  (match s.thread? id with
    | some t => t.log.any (fun e => decide (e.stamp < stamp) && e.unperformed && meets e.kernel e.access)
        || t.q.any (fun q => match q with
          | some q => s.streamMeets id stamp ps q || (a.afterStores && q.write && q.appendedBefore stamp)
              || (!q.write && q.marked && q.unfetchedBefore stamp)
          | none => false)
    | none => false)
  || s.buffer.any (fun b => decide (b.thread = id) && decide (b.stamp < stamp)
      && (a.afterStores || (!b.posted && b.parts.any (fun q => ps.any (fun p => placesMeet p q)))))

/-- A store of the same issue on a lower lane, with an older stamp, that touches a common byte is still to be performed (R161, R326). -/
def State.issueBlocked (s : State) (id : ThreadId) (stamp issue : Nat) (ps : List (Place × Nat)) : Bool :=
  let meet := fun (qs : List (Place × Nat)) => qs.any (fun q => ps.any (fun p => placesMeet p q))
  s.buffer.any (fun b => decide (b.issue = issue) && decide (b.thread.group = id.group) && decide (b.stamp < stamp) && meet b.parts)
  || s.threads.any (fun p => decide (p.1.group = id.group) && (p.2.log.any (fun e => decide (e.issue = issue) && decide (e.stamp < stamp)
      && e.unperformed && e.access.stores && meet (s.accessParts p.1 e.kernel e.access))
    || p.2.q.any (fun q => match q with
      | some q => q.appended.any (fun a => decide (a.issue = issue) && decide (a.stamp < stamp) && meet a.parts)
      | none => false)))

/-- A part that lies with a pod member. -/
def Place.isPod : Place → Bool
  | .pod _ _ _ _ => true
  | _ => false

/-- A pod request of an older stamp to the same block, of whatever kind and from any thread of the device, goes first (R43, R200). -/
def State.podBlocked (s : State) (stamp : Nat) (ps : List (Place × Nat)) : Bool :=
  let ps := ps.filter (fun p => p.1.isPod)
  let meet := fun (qs : List (Place × Nat)) => qs.any (fun q => ps.any (fun p => placesMeet p q))
  !ps.isEmpty && (s.buffer.any (fun b => decide (b.stamp < stamp) && meet b.parts)
    || s.threads.any (fun p => p.2.log.any (fun e => decide (e.stamp < stamp) && decide (e.state = .pending) && meet (s.accessParts p.1 e.kernel e.access))
        || p.2.q.any (fun q => match q with
          | some q => q.appended.any (fun a => decide (a.stamp < stamp) && meet a.parts)
          | none => false)))

/-! ### The pod agent (R42 to R44, R201) -/

/-- Sorts ascending, each number once. -/
def insertOnce (x : Nat) : List Nat → List Nat
  | [] => [x]
  | y :: r => if x < y then x :: y :: r else if x = y then y :: r else y :: insertOnce x r

/-- The port set of a rank in ascending port number (R42, R59). -/
def State.portSet (s : State) (rank : Nat) : List Nat :=
  match s.rankEntry rank with
  | none => []
  | some (e, _) =>
    (s.validPaths (bits e 59 51) 1).foldl (fun l p => insertOnce (bits (s.pathEntry (bits e 59 51) p) 28 24) l) []

/-- The port of a pod request (R42). -/
def State.podPort (s : State) (rank member off : Nat) : Nat :=
  let set := s.portSet rank
  let h := (bits off 23 8 ^^^ bits off 39 24) ^^^ member
  (set[h % set.length]?).getD 0

/-- Every pod part can leave now: traffic of the job flows on the port that R42 gives it (R38). -/
def State.podFlows (s : State) (ps : List (Place × Nat)) : Bool :=
  ps.all (fun p => match p.1 with
    | .pod r m _ o => s.flows (s.podPort r m o)
    | _ => true)

/-- This device's pod member identifier (R56). -/
def State.podMember (s : State) : Nat := bits (s.reg32 0x40010) 26 16

/-- A request of this device to a pod member (R41); `rel` says that it is a release, and then what happens before it there is the target's
to know. The requests of an engine travel in class BULK (R36). -/
def State.podSend (s : State) (rank member region off : Nat) (rel : Bool) (k : PodKind) (bulk : Bool := false) : State :=
  s.send (.podRequest member (s.podPort rank member off)
    { member := s.podMember, port := s.podPort rank member off, region := region, offset := off
      key := BitVec.ofNat 32 (s.regionKey region), signalled := false, kind := k, bulk := bulk, release := if rel then some [] else none })

/-- Starts a flush to a member: two zero-length reads on every port of its port set; every request sent so far is
covered (R44). Those of a port where no traffic flows do not leave, and the flush has no response there (R38). -/
def State.startFlush (s : State) (rank member : Nat) : State :=
  let q : Bool → Nat → PodRequest := fun bulk p => { member := s.podMember, port := p, region := 0, offset := 0, key := 0
                                                     signalled := false, kind := .flush bulk, bulk := bulk }
  let s := ((s.portSet rank).filter s.flows).foldl (fun s p =>
    (s.send (.podRequest member p (q false p))).send (.podRequest member p (q true p))) s
  { s with net := { s.net with flushes := s.net.flushes ++ [{ member := member, users := [] }],
                               tracked := s.net.tracked.map (fun t => if t.member = member then { t with covered := true } else t) } }

/-- The rank of a pod member, by the numbers that the rank table gives (R58). -/
def State.rankOfMember (s : State) (member : Nat) : Nat :=
  ((List.range s.nranks).find? (fun k => decide (s.pathOf k = some (.pod member)))).getD 0

/-- Makes a user wait for the flush in progress to a member. -/
def State.useFlush (s : State) (member : Nat) (u : ThreadId × Nat) : State :=
  { s with net := { s.net with flushes := s.net.flushes.map (fun f =>
      if f.member = member ∧ u ∉ f.users then { f with users := f.users ++ [u] } else f) } }

/-- Flushes members for a user (R44, R201). -/
def State.flushMembers (s : State) (ms : List Nat) (u : ThreadId × Nat) : State :=
  ms.foldl (fun s m =>
    if s.net.flushes.any (fun f => f.member == m) then s.useFlush m u
    else (s.startFlush (s.rankOfMember m) m).useFlush m u) s

/-- A thread that waits for its own accesses, older than a stamp, flushes the members that hold its pod stores (R188, R320). -/
def State.pursue (s : State) (id : ThreadId) (stamp : Nat) : State :=
  if s.leftBefore id stamp then s.flushMembers ((s.awaited id stamp false).map (fun t => t.member)) (id, 0) else s

/-- A release that waits for its thread's own accesses does so, too; it goes with a flush of its own that fails (R201). -/
def State.pursueOwn (s : State) (id : ThreadId) (stamp : Nat) : State :=
  if s.leftBefore id stamp then s.flushMembers ((s.unplaced id stamp false).map (fun t => t.member)) (id, stamp) else s

/-- The pod stores of the device older than a stamp that are not known to be placed, uncollected non-temporal ones excepted (R198, R201). A
`fence` passes over those for which a flush of its thread has failed (R320). -/
def State.podPending (s : State) (stamp : Nat) (fence : Option ThreadId) : List Tracked :=
  s.net.tracked.filter (fun t => !t.nt && decide (t.stamp < stamp) && !(match fence with
    | some id => t.excused.contains id
    | none => false))

/-- Where the bytes lie that an access of the operand log writes; a signalled write goes to its target (R201, R203, R324). -/
def State.writeParts (s : State) (id : ThreadId) (e : LogEntry) : List (Place × Nat) :=
  match e.access with
  | .store _ _ _ _ _ _ => s.accessParts id e.kernel e.access
  | .atom _ _ _ _ _ _ _ _ => s.accessParts id e.kernel e.access
  | .wsig _ dst len _ _ =>
    (match s.globalPart (s.asidOf id.teamId) (gRank dst.toNat) (gRegion dst.toNat) (gOffset dst.toNat) with
    | some (r, off, .pod m) => [(.pod r m (gRegion dst.toNat) off, len)]
    | some (r, off, .glb) => [(.glb r (gRegion dst.toNat) off, len)]
    | _ => [])
  | _ => []

/-- Every store of the device older than a stamp to a place of a kind has been sent: none is pending in a log, accepted, or appended to
a stream; non-temporal ones excepted (R198, R201, R203). -/
def State.allSent (s : State) (stamp : Nat) (f : Place → Bool) : Bool :=
  s.buffer.all (fun b => !(decide (b.stamp < stamp) && !b.access.nonTemporal && b.parts.any (fun p => f p.1)))
  && s.threads.all (fun p => p.2.log.all (fun e => !(decide (e.stamp < stamp) && decide (e.state = .pending) && !e.access.nonTemporal
        && (s.writeParts p.1 e).any (fun r => f r.1)))
      && p.2.q.all (fun q => match q with
        | some q => q.appended.all (fun a => !(decide (a.stamp < stamp) && a.parts.any (fun r => f r.1)))
        | none => true))

/-- A message on the pod path older than a stamp, to one member or to any, has writes that have not left (R71, R201). -/
def State.podWaiting (s : State) (stamp : Nat) (member : Option Nat) : Bool :=
  s.net.messages.any (fun m => m.pod && decide (m.stamp < stamp) && decide (m.acked = 0)
    && (match member with
      | some k => decide (s.pathOf m.rank = some (.pod k))
      | none => true) && (match m.body with
    | .wsig _ _ _ => true
    | .piece _ _ _ _ => true
    | _ => false))

/-- Every pod or glb store of the device older than a stamp has been sent. -/
def State.remoteSent (s : State) (stamp : Nat) (glb : Bool) : Bool :=
  s.allSent stamp (fun p => match p with
    | .pod _ _ _ _ => true
    | .glb _ _ _ => glb
    | _ => false) && !s.podWaiting stamp none

/-- Every glb write of the device older than a stamp has been acknowledged, uncollected non-temporal stores excepted (R198, R203). -/
def State.glbAcked (s : State) (stamp : Nat) : Bool :=
  s.net.messages.all (fun m => !(decide (m.stamp < stamp) && match m.body with
    | .store _ nt _ => !nt
    | .wsig _ _ _ => true
    | .piece _ _ _ _ => true
    | _ => false))

/-- What a release at a scope, or a `fence` of a thread, waits for beyond its own thread (R201, R203). -/
def State.releaseReady (s : State) (stamp : Nat) (c : Scope) (fence : Option ThreadId) : Bool :=
  match c with
  | .pod => s.remoteSent stamp false && (s.podPending stamp fence).isEmpty
  | .glb => s.remoteSent stamp true && (s.podPending stamp fence).isEmpty && s.glbAcked stamp
  | _ => true

/-- A release that still waits starts the flushes it needs (R201); a user with stamp 0 is a `fence`. -/
def State.pursueRelease (s : State) (stamp : Nat) (c : Scope) (u : ThreadId × Nat) : State :=
  let flush := s.flushMembers ((s.podPending stamp (if u.2 = 0 then some u.1 else none)).map (fun t => t.member)) u
  match c with
  | .pod => if s.remoteSent stamp false then flush else s
  | .glb => if s.remoteSent stamp true then flush else s
  | _ => s

/-- The answers that loads of a core still await for some places no longer fill the pod read buffer: they would bring back bytes that an
acquire, a store or a newer answer of the core has made old (R202). -/
def State.spoil (s : State) (core : Nat) (f : Place → Bool) : State :=
  let entry : LogEntry → LogEntry := fun e => match e.state with
    | .sent ps => if ps.any (fun p => f p.1) then { e with fill := false } else e
    | _ => e
  { s with threads := s.threads.map (fun p => if p.1.core = core then (p.1, { p.2 with log := p.2.log.map entry }) else p) }

/-- The bytes of a pod place that lie in a range of a member's region. -/
def Place.inPod (member region off n : Nat) : Place → Bool
  | .pod _ m g o => decide (m = member) && decide (g = region) && rangesMeet (o / 256 * 256) 256 off n
  | _ => false

/-- A pod store of a core drops the read-buffer entries it overlaps (R202). -/
def State.dropPodLines (s : State) (core member region off n : Nat) : State :=
  let k := s.core core
  (s.setCore core { k with podBuf := k.podBuf.filter (fun l =>
    !(decide (l.member = member) && decide (l.region = region) && rangesMeet (l.block * 256) 256 off n)) }).spoil core (Place.inPod member region off n)

/-- Drops the whole pod read buffer of a core (R202). -/
def State.clearPodBuf (s : State) (core : Nat) : State := (s.setCore core { s.core core with podBuf := [] }).spoil core Place.isPod

/-- The bytes of a pod part that the core's read buffer holds (R202, R314). -/
def State.podCached (s : State) (core member region off n : Nat) : Option (List Byte) :=
  ((s.core core).podBuf.find? (fun l => l.member == member && l.region == region && l.block == off / 256)).map
    (fun l => (l.bytes.drop (off % 256)).take n)

/-- A link receiver numbers a flit of a class that it accepts (R51). -/
def State.numberFlit (s : State) (rx cls : Nat) : State :=
  { s with cut := { s.cut with rxSeq := AMap.set s.cut.rxSeq (rx, cls) (AMap.getD s.cut.rxSeq (rx, cls) 0 + 1) } }

/-- The receiver of what answers a read of a place, in class RSP, number 1 (R36): the port of a pod member's request, or the PCI Express link,
which stands behind the fabric ports (log entry 57). -/
def State.answerPort (s : State) : Place → Option Nat
  | .pod k m _ o => some (s.podPort k m o)
  | .peer _ => some 26
  | _ => none

/-- The answers to an engine's reads are numbered (R51). -/
def State.numberReads (s : State) (ps : List (Place × Nat)) : State :=
  (ps.filterMap (fun p => s.answerPort p.1)).foldl (fun s p => s.numberFlit p 1) s

/-- ctxbase (R119). -/
def State.ctxbase (s : State) : Nat := bits (s.reg64 0x280018) 47 0

/-- ctxlen (R119). -/
def State.ctxlen (s : State) : Nat := bits (s.reg64 0x280020) 39 0

/-- The bytes that a saved flit takes of the save area: its number and class, and what it carries (DEDUCED: log entry 57). -/
def flitSize (f : FlitBody) : Nat :=
  let data : Remote → Nat := fun r => match r with
    | .data b => b.length
    | _ => 0
  16 + (match f with
    | .answer _ _ r => data r
    | .element _ _ r => data r
    | .raw b => b.length)

/-- The bytes of the save area that hold contexts and flits. -/
def State.areaUsed (s : State) : Nat :=
  s.saved.foldl (fun n v => v.teams.foldl (fun n t => n + t.bytes) n) (s.cut.flits.foldl (fun n f => n + flitSize f.2.2.2) 0)

/-- The save area takes `n` further bytes, where it has them. Their layout is not architectural: each holds a free value (R119). -/
def State.fillArea (s : State) (n : Nat) : State :=
  if s.ctxlen < s.areaUsed + n then s else
  { s.store (s.ctxbase + s.areaUsed) ((List.range n).map (Config.workByte s.stamp)) with stamp := s.stamp + 1 }

/-- A receiver writes a flit for a stopped unit to the save area, under its number (R51). -/
def State.saveFlit (s : State) (rx cls : Nat) (f : FlitBody) : State :=
  let n := AMap.getD s.cut.rxSeq (rx, cls) 0
  let s := (s.fillArea (flitSize f)).numberFlit rx cls
  { s with cut := { s.cut with flits := s.cut.flits ++ [(rx, cls, n, f)] } }

/-- A thread has stopped for a cut (R122). -/
def State.threadStopped (s : State) (id : ThreadId) : Bool := s.cut.units.contains (.thread id)

/-- Something answers the first of the parts of an access or of a stream element of a thread that waits for an answer: on a port that is up, whose
receiver numbers it, or saves it for a thread that has stopped (R38, R51). -/
def State.answered (s : State) (id : ThreadId) (ps : List (Place × Nat × Option (List Byte))) (r : Remote) (flit : FlitBody) (f : State → State) : State :=
  match (if r = .none then none else (ps.find? (fun p => p.2.2.isNone)).bind (fun p => s.answerPort p.1)) with
  | none => f s
  | some p =>
    if p ≠ 26 ∧ s.portUp p = false then s
    else if s.threadStopped id then s.saveFlit p 1 flit
    else f (s.numberFlit p 1)

/-- Fills the read buffer with a block; beyond 64 entries the oldest goes (R314). -/
def State.fillPod (s : State) (core member region block : Nat) (bytes : List Byte) : State :=
  let k := s.core core
  let rest := k.podBuf.filter (fun l => !(l.member == member && l.region == region && l.block == block))
  let line : PodLine := { member := member, region := region, block := block, bytes := bytes }
  let all := (rest ++ [line]).drop (if 64 ≤ rest.length then 1 else 0)
  (s.setCore core { k with podBuf := all }).spoil core (Place.inPod member region (block * 256) 256)

/-! ### Messages over Ethernet (R46, R76) -/

/-- Puts a message in the transport (R46, R71). -/
def State.postMessage (s : State) (id : ThreadId) (stamp : Nat) (kernel : Bool) (rank : Nat) (ga : Dword) (len : Nat)
    (pod : Bool) (b : MsgBody) : State :=
  let m : Message := { number := s.net.numbers, home := id.teamId, stamp := stamp, thread := id, kernel := kernel, asid := s.asidOf id.teamId
                       rank := rank, gaddr := ga, len := len, body := b, sent := 0, acked := 0, pod := pod }
  { s with net := { s.net with numbers := s.net.numbers + 1, messages := s.net.messages ++ [m] } }

/-! ### Performing loads, stores and atomics -/

/-- Replaces a log entry of a thread, by index and stamp. -/
def Thread.setEntry (t : Thread) (e : LogEntry) : Thread :=
  { t with log := t.log.map (fun o => if o.index = e.index ∧ o.stamp = e.stamp then e else o) }

/-- Sets the state of a log entry. -/
def State.setEntry (s : State) (id : ThreadId) (e : LogEntry) (st : EntryState) : State :=
  s.modThread id (fun t => t.setEntry { e with state := st })

/-- Flags an entry; a failure at a self-rank target is also counted (R65, R154). -/
def State.flagEntry (s : State) (id : ThreadId) (e : LogEntry) (cause : Cause) (tval : Dword) (code : Nat) : State :=
  (if code = 0 then s else s.count (0x1010 + 8 * (code - 1))).setEntry id e (.flagged cause tval)

/-- The first poisoned byte of the parts in memory, counted from the start of the access (R26). -/
def State.partsPoison (s : State) : List (Place × Nat) → Nat → Option Nat
  | [], _ => none
  | (.mem _ pa _, n) :: r, k =>
    match s.poisoned pa n with
    | some i => some (k + i)
    | none => s.partsPoison r (k + n)
  | (_, n) :: r, k => s.partsPoison r (k + n)

/-- The L2 line of a location that L2 holds (R162, R164): cacheable HBM4, second tier or host memory. -/
def lineOf (pa entry : Nat) : Option Nat :=
  if bits entry 12 11 = 2 ∨ entry = 0 then none else
  match physPart pa with
  | .hbm => some (pa / 512)
  | .second => some (pa / 512)
  | .bus => some (pa / 512)
  | _ => none

/-- The L2 lines that some parts of an access use. -/
def linesUsed (ps : List (Place × Nat)) : List Nat :=
  ps.flatMap (fun p => match p.1 with
    | .mem _ pa e => (match lineOf pa e with
      | some l => (List.range ((pa + p.2 - 1) / 512 + 1 - l)).map (fun i => l + i)
      | none => [])
    | _ => [])

/-- An access uses lines of L2 (R166). -/
def State.useLines (s : State) (ps : List (Place × Nat)) : State :=
  let ls := (linesUsed ps).eraseDups
  { s with recent := s.recent.filter (fun l => !ls.contains l) ++ ls }

/-- A synchronising access records its scope on its L2 line; a present record that differs is reported (R164). -/
def State.recordScope (s : State) (id : ThreadId) (p : Place) (va : Dword) (c : Scope) : State :=
  match p with
  | .mem _ pa e =>
    match lineOf pa e with
    | none => s
    | some l =>
      let old := AMap.get? s.scopeRec l
      let s' := { s with scopeRec := AMap.set s.scopeRec l c }
      if old = none ∨ old = some c then s' else
      let s' := s'.modTeam id.teamId (fun t => { t with scoperep := t.scoperep ||| (1#7 <<< c.code) })
      s'.modThread id (fun t => if t.scopeTraps ∧ !t.handling ∧ t.mismatch.isNone then { t with mismatch := some va } else t)
  | _ => s

/-- The register values of a load of `n` bytes (R312). -/
def loadValues (dst n v : Nat) : List (Nat × Word) :=
  (List.range (max 1 (n / 4))).map (fun i => (dst + i, BitVec.ofNat 32 (v / 2 ^ (32 * i))))

/-- The ranges of memory among the parts of a load. -/
def memRanges (ps : List (Place × Nat)) : List (Nat × Nat) :=
  ps.filterMap (fun p => match p.1 with
    | .mem _ pa _ => some (pa, p.2)
    | _ => none)

/-- What the device knows at once of the bytes of each part of a load: those in memory at the versions `ks`, and those of the pod read
buffer. -/
def State.partsNow (s : State) (id : ThreadId) (nt : Bool) (ks : List (Nat × Nat)) (ps : List (Place × Nat)) :
    List (Place × Nat × Option (List Byte)) :=
  ps.map (fun p => (p.1, p.2, match p.1 with
    | .mem _ pa _ => some (s.bytesAt (ownVersions [(pa, p.2)] ks))
    | .pod _ m g o => if nt then none else s.podCached id.core m g o p.2
    | _ => none))

/-- The parts whose bytes are not here yet. -/
def missingParts (now : List (Place × Nat × Option (List Byte))) : List (Place × Nat) :=
  now.filterMap (fun p => if p.2.2.isNone then some (p.1, p.2.1) else none)

/-- Sends the requests for the parts of a load that are not here (R314); `body` is what the message for part `i` of it serves. -/
def State.requestPart (s : State) (id : ThreadId) (stamp : Nat) (kernel : Bool) (body : Nat → MsgBody) (ga : Dword) (nt : Bool) (i : Nat)
    (p : Place × Nat × Option (List Byte)) : State :=
  if p.2.2.isSome then s else
  match p.1 with
  | .pod r m g o => s.podSend r m g (if nt then o else o / 256 * 256) false (.read (if nt then p.2.1 else 256))
  | .glb r _ _ => s.postMessage id stamp kernel r ga p.2.1 false (body i)
  | .peer bus => s.send (.peerRead bus p.2.1)
  | _ => s

/-- Requests for every part, from part `i` on. -/
def State.requestAll (s : State) (id : ThreadId) (stamp : Nat) (kernel : Bool) (body : Nat → MsgBody) (ga : Dword) (nt : Bool) :
    (i : Nat) → List (Place × Nat × Option (List Byte)) → State
  | _, [] => s
  | i, p :: r => (s.requestPart id stamp kernel body ga nt i p).requestAll id stamp kernel body (ga + BitVec.ofNat 64 p.2.1) nt (i + 1) r

/-- Requests for the parts of an access of the operand log. -/
def State.requestParts (s : State) (id : ThreadId) (e : LogEntry) (ga : Dword) (nt : Bool) (i : Nat)
    (ps : List (Place × Nat × Option (List Byte))) : State := s.requestAll id e.stamp e.kernel (.load e.index) ga nt i ps

/-- All bytes of a load, where every part has them. -/
def partsBytes : List (Place × Nat × Option (List Byte)) → Option (List Byte)
  | [] => some []
  | (_, _, some b) :: r => (partsBytes r).map (fun t => b ++ t)
  | (_, _, none) :: _ => none

/-- Ends a load whose bytes may all be here: its values go to the return buffer (R147). -/
def State.loadDone (s : State) (id : ThreadId) (e : LogEntry) (dst n : Nat)
    (ps : List (Place × Nat × Option (List Byte))) : State :=
  match partsBytes ps with
  | some b => s.setEntry id e (.returned (loadValues dst n (leNat b)))
  | none => s.setEntry id e (.sent ps)

/-- Two ranges touch a common word of 4 bytes. -/
def wordsMeet (p q : Nat × Nat) : Bool := decide (p.1 / 4 ≤ (q.1 + q.2 - 1) / 4) && decide (q.1 / 4 ≤ (p.1 + p.2 - 1) / 4)

/-- A load from scratchpads that waits in a log, with its thread and its ranges. -/
structure Mate where
  thread : ThreadId
  entry  : LogEntry
  ps     : List (Nat × Nat)
  dst    : Nat
  n      : Nat
  deriving DecidableEq, Repr

/-- The loads of one issue of a group from scratchpads that wait in the logs of its members (R161). -/
def State.issueLoads (s : State) (g : GroupId) (issue : Nat) : List Mate :=
  (s.members g).flatMap (fun i => match s.thread? (memberOf g i) with
    | none => []
    | some t => t.log.filterMap (fun e => if e.issue ≠ issue ∨ e.state ≠ .pending then none else
        match e.access with
        | .load sp a n _ _ d =>
          if sp ≠ .co ∧ sp ≠ .cl then none else
          let ps := s.parts (memberOf g i) e.kernel sp a n .load
          if (firstBad ps).isSome then none else some { thread := memberOf g i, entry := e, ps := memRanges ps, dst := d, n := n }
        | _ => none))

/-- The loads among `rest` that share a word with those among `ms`, directly or through each other. `fuel` rounds. -/
def sharers : (fuel : Nat) → (ms rest : List Mate) → List Mate
  | 0, ms, _ => ms
  | fuel + 1, ms, rest =>
    let near := fun (m : Mate) => ms.any (fun k => k.ps.any (fun p => m.ps.any (fun q => wordsMeet p q)))
    if rest.any near then sharers fuel (ms ++ rest.filter near) (rest.filter (fun m => !near m)) else ms

/-- The loads of one issue that share words with a load from scratchpads, itself first (R161). -/
def State.matesOf (s : State) (id : ThreadId) (e : LogEntry) : List Mate :=
  let all := s.issueLoads id.group e.issue
  let me := fun (m : Mate) => decide (m.thread = id) && decide (m.entry.stamp = e.stamp)
  sharers 64 (all.filter me) (all.filter (fun m => !me m))

/-- Loads of one issue that share words are performed together, once nothing holds any of them back: they receive the same value of a byte
(R161). -/
def State.startShared (s : State) (ms : List Mate) (acq : Option Scope) (back : List Nat) : State :=
  if ms.any (fun m => s.blocked m.thread m.entry.stamp m.entry.kernel m.entry.access || m.ps.any (fun p => s.held p.1 p.2)) then s else
  let r := s.loadOf acq (ms.map (fun m => s.readerOf m.thread m.ps)) back
  (ms.zip r.1).foldl (fun u p =>
    (u.noteLoad p.1.thread acq p.2 r.2).setEntry p.1.thread p.1.entry
      (.returned (loadValues p.1.dst p.1.n (leNat (s.bytesAt (ownVersions p.2.ps r.2)))))) s

/-- The scope at which a load acquires, if it does. -/
def Order.acquiring (o : Order) (c : Scope) : Option Scope := if o = .acq then some c else none

/-- An acquire that reaches beyond the device drops the pod read buffer of its core, as it leaves and as it is performed (R202, R314). -/
def State.acquiresPod (s : State) (core : Nat) (acq : Option Scope) : State :=
  if acq = some .pod ∨ acq = some .glb then s.clearPodBuf core else s

/-- A load is performed, or its requests leave (R309 to R314). `back` says which versions of its bytes it takes. -/
def State.startLoad (s : State) (id : ThreadId) (e : LogEntry) (space : Space) (a : Dword) (n : Nat) (o : Order)
    (c : Scope) (dst : Nat) (back : List Nat) : State :=
  let ps := s.parts id e.kernel space a n .load
  match firstBad ps with
  | some (cause, tval, code) => s.flagEntry id e cause tval code
  | none =>
    if ps.any s.partHeld then s else
    match s.partsPoison ps 0 with
    | some i => (s.pend id .uncorrectableMemory (spaceAddr space a + BitVec.ofNat 64 i)).setEntry id e (.returned [])
    | none =>
      if space = .co ∨ space = .cl then s.startShared (s.matesOf id e) (o.acquiring c) back else
      let acq := o.acquiring (pathScope ps c)
      let u := s.acquiresPod id.core acq
      let r := u.loadOf acq [u.readerOf id (memRanges ps)] back
      let now := u.partsNow id (decide (o = .nt)) r.2 ps
      if s.podBlocked e.stamp (missingParts now) || !s.podFlows (missingParts now) then s else
      let u := r.1.foldl (fun u x => u.noteLoad id acq x r.2) u
      let u := match o, ps with
        | .acq, p :: _ => u.recordScope id p.1 a (pathScope ps c)
        | _, _ => u
      (u.requestParts id e a (decide (o = .nt)) 0 now).loadDone id e dst n now

/-- A response from a pod member or a peer fills the first part that waits for it. -/
def fillFirst (b : List Byte) (nt : Bool) :
    List (Place × Nat × Option (List Byte)) → Option (List (Place × Nat × Option (List Byte)) × Place)
  | [] => none
  | (p, n, some d) :: r => (fillFirst b nt r).map (fun t => ((p, n, some d) :: t.1, t.2))
  | (.pod rk m g o, n, none) :: r =>
    if nt then (if b.length = n then some ((.pod rk m g o, n, some b) :: r, .pod rk m g o) else none)
    else if b.length = 256 then some ((.pod rk m g o, n, some ((b.drop (o % 256)).take n)) :: r, .pod rk m g o) else none
  | (.peer bus, n, none) :: r => if b.length = n then some ((.peer bus, n, some b) :: r, .peer bus) else none
  | (p, n, none) :: r => (fillFirst b nt r).map (fun t => ((p, n, none) :: t.1, t.2))

/-- A remote access fails: its destination keeps its value and the cause is pending (R217). -/
def State.failEntry (s : State) (id : ThreadId) (e : LogEntry) (tval : Dword) : State :=
  (s.pend id .remoteAccessFailure tval).setEntry id e (.returned [])

/-- The outside answers a load in progress (R314); an acquire drops the pod read buffer once more as it is performed (R202). -/
def State.answerLoad (s : State) (id : ThreadId) (e : LogEntry) (a : Dword) (n : Nat) (nt : Bool) (acq : Option Scope) (dst : Nat)
    (ps : List (Place × Nat × Option (List Byte))) (r : Remote) : State :=
  match r with
  | .none => s
  | .failed => s.failEntry id e a
  | .data b =>
    match fillFirst b nt ps with
    | none => s
    | some (qs, .pod _ m g o) =>
      let s := s.acquiresPod id.core acq
      (if nt then s.dropPodLines id.core m g o b.length else if e.fill then s.fillPod id.core m g (o / 256) b else s).loadDone id e dst n qs
    | some (qs, _) => s.loadDone id e dst n qs

/-- A store is accepted by the memory pipeline with its translation, or flagged (R154, R191, R310). -/
def State.acceptStore (s : State) (id : ThreadId) (e : LogEntry) (space : Space) (a : Dword) (n : Nat) : State :=
  let ps := s.parts id e.kernel space a n .store
  match firstBad ps with
  | some (cause, tval, code) => s.flagEntry id e cause tval code
  | none =>
    let b : BufStore := { thread := id, stamp := e.stamp, issue := e.issue, kernel := e.kernel, access := e.access, parts := ps, done := [] }
    ({ s with buffer := s.buffer ++ [b] }).setEntry id e (.returned [])

/-- Performs one part of a store with its bytes, as an origin (R314). -/
def State.storePart (s : State) (o : Origin) (b : BufStore) (a : Dword) (p : Place × Nat) (bs : List Byte) : State :=
  match p.1 with
  | .mem _ pa _ => s.storeFrom o pa bs
  | .peer bus => s.send (.peerWrite bus bs)
  | .pod r m g u =>
    let s := (s.podSend r m g u b.access.releases (.write bs) (decide (o.by' ≠ s.agent b.thread))).dropPodLines b.thread.core m g u p.2
    { s with net := { s.net with tracked := s.net.tracked ++ [{ member := m, stamp := b.stamp, thread := b.thread
                                                                own := decide (o.by' = s.agent b.thread), nt := b.access.nonTemporal, covered := false }] } }
  | .glb r _ _ => s.postMessage b.thread b.stamp b.kernel r a p.2 false (.store bs b.access.nonTemporal b.access.releases)
  | .bad _ _ _ => s

/-- Performs the parts of a store from byte `k` of its data on. -/
def State.storeParts (s : State) (o : Origin) (b : BufStore) (a : Dword) (data : List Byte) : Nat → List (Place × Nat) → State
  | _, [] => s
  | k, p :: r => (s.storePart o b (a + BitVec.ofNat 64 k) p ((data.drop k).take p.2)).storeParts o b a data (k + p.2) r

/-- A part of a store of which only some bytes are performed now: single bytes in memory, a part elsewhere only as a whole (R158, R170,
R190). -/
def narrowed (take done : List Nat) (k : Nat) (p : Place × Nat) : List (Nat × Place × Nat) :=
  let now := (List.range p.2).filter (fun i => take.contains (k + i) && !done.contains (k + i))
  match p.1 with
  | .mem va pa e => now.map (fun i => (k + i, .mem (va + i) (pa + i) e, 1))
  | _ => if now.length = p.2 then [(k, p)] else []

/-- What is performed now of a store's parts from byte `k` on: places with their lengths and offsets. -/
def takenNow (take done : List Nat) : Nat → List (Place × Nat) → List (Nat × Place × Nat)
  | _, [] => []
  | k, p :: r => (if take.isEmpty && done.isEmpty then [(k, p)] else narrowed (if take.isEmpty then List.range (k + p.2) else take) done k p)
      ++ takenNow take done (k + p.2) r

/-- Performs the chosen places of a store. -/
def State.storeTaken (s : State) (o : Origin) (b : BufStore) (a : Dword) (data : List Byte) (ps : List (Nat × Place × Nat)) : State :=
  ps.foldl (fun s p => s.storePart o b (a + BitVec.ofNat 64 p.1) p.2 ((data.drop p.1).take p.2.2)) s

/-- A thread's stores are performed up to now; uncollected non-temporal ones are not ordered by it (R191, R198). -/
def State.noteWrite (s : State) (id : ThreadId) (nt : Bool) : State :=
  if nt then s else s.modThread id (fun t => { t with wrote := s.hist.length })

/-- A part on a page of a PCI Express peer. -/
def Place.isPeer : Place → Bool
  | .peer _ => true
  | _ => false

/-- Performs what `take` names of the bytes of a store that are not performed yet, or all of them where it names none (R158, R170, R190), and
gives the store as it is then: none, once all of it is performed. One to a PCI Express peer is sent first, and performed later, at the peer
(R95, R188). -/
def State.storeNow (s : State) (o : Origin) (b : BufStore) (a : Dword) (n v : Nat) (take : List Nat) : State × Option BufStore :=
  if b.posted then (s, none) else
  let ps := takenNow take b.done 0 b.parts
  let done := b.done ++ ps.flatMap (fun p => (List.range p.2.2).map (fun i => p.1 + i))
  (s.storeTaken o b a (natBytes n v) ps,
    if b.parts.any (fun p => p.1.isPeer) then some { b with posted := true } else if n ≤ done.length then none else some { b with done := done })

/-- Something holds an accepted store or an appended element back (R25, R38, R43, R161, R182). -/
def State.storeHeld (s : State) (id : ThreadId) (stamp issue : Nat) (ps : List (Place × Nat)) : Bool :=
  ps.any s.partHeld || s.podBlocked stamp ps || s.issueBlocked id stamp issue ps || !s.podFlows ps

/-- A store in the buffer is replaced by what is left of it. -/
def State.keepStore (s : State) (b : BufStore) (left : Option BufStore) : State :=
  { s with buffer := match left with
      | none => s.buffer.filter (fun (x : BufStore) => decide (x.stamp ≠ b.stamp))
      | some c => s.buffer.map (fun (x : BufStore) => if x.stamp = b.stamp then c else x) }

/-- A buffered store is performed, where nothing holds it (R191, R198, R201, R203): the bytes `take`, if any are named, and the others later
(R158, R170, R190). -/
def State.performStore (s : State) (b : BufStore) (take : List Nat) : State :=
  match b.access with
  | .store _ a n o c v =>
    let eff := pathScope b.parts c
    if b.posted then s.keepStore b none
    else if s.blocked b.thread b.stamp b.kernel b.access then (if o = .rel then s.pursueOwn b.thread b.stamp else s)
    else if s.storeHeld b.thread b.stamp b.issue b.parts then s
    else if o = .rel && !s.releaseReady b.stamp eff none then s.pursueRelease b.stamp eff (b.thread, b.stamp)
    else
      let s : State := match o, b.parts with
        | .rel, p :: _ => s.recordScope b.thread p.1 a eff
        | _, _ => s
      let r := s.storeNow (s.originOf b.thread (if o = .rel then some eff else none) false) b a n v take
      (r.1.keepStore b r.2).noteWrite b.thread (decide (o = .nt))
  | _ => s

/-- The new value of an atomic of `w` bytes (R316). -/
def atomNew (op : AtomOp) (w old rv sv : Nat) : Nat :=
  match op with
  | .add => (old + rv) % 2 ^ (8 * w)
  | .and => old &&& rv
  | .or => old ||| rv
  | .xor => old ^^^ rv
  | .minI => if sextN old (8 * w) ≤ sextN rv (8 * w) then old else rv
  | .maxI => if sextN rv (8 * w) ≤ sextN old (8 * w) then old else rv
  | .minN => min old rv
  | .maxN => max old rv
  | .swap => rv
  | .cas => if old = rv then sv else old
  | .fadd =>
    let f := if w = 8 then binary64 else binary32
    roundVal f 0 0 ((val old f).add 0 (val rv f))

/-- The code of an atomic operation (R258). -/
def AtomOp.code : AtomOp → Nat
  | .add => 0 | .and => 1 | .or => 2 | .xor => 3 | .minI => 4 | .maxI => 5 | .minN => 6 | .maxN => 7 | .swap => 8
  | .cas => 9 | .fadd => 10

/-- The atomic operation of a code (R258). -/
def AtomOp.ofCode : Nat → Option AtomOp
  | 0 => some .add | 1 => some .and | 2 => some .or | 3 => some .xor | 4 => some .minI | 5 => some .maxI
  | 6 => some .minN | 7 => some .maxN | 8 => some .swap | 9 => some .cas | 10 => some .fadd | _ => none

/-- The values an atomic returns (R316). -/
def atomValues (ret : Bool) (dst w old : Nat) : List (Nat × Word) :=
  if ret then loadValues dst w old else []

/-- An atomic is performed in one step, or its request leaves (R316, R317). -/
def State.startAtom (s : State) (id : ThreadId) (e : LogEntry) (op : AtomOp) (a : Dword) (wide : Bool) (c : Scope)
    (ret : Bool) (dst rv sv : Nat) : State :=
  let w := if wide then 8 else 4
  let ps := s.parts id e.kernel .gl a w .atomic
  let eff := pathScope ps c
  match firstBad ps with
  | some (cause, tval, code) => s.flagEntry id e cause tval code
  | none =>
    if ps.any s.partHeld || s.podBlocked e.stamp ps || s.issueBlocked id e.stamp e.issue ps || !s.podFlows ps then s
    else if !s.releaseReady e.stamp eff none then s.pursueRelease e.stamp eff (id, e.stamp)
    else
      let s := s.acquiresPod id.core (if ret then some eff else none)
      match ps with
      | (.mem va pa en, _) :: _ =>
        match s.poisoned pa w with
        | some i => (s.pend id .uncorrectableMemory (a + BitVec.ofNat 64 i)).setEntry id e (.returned [])
        | none =>
          let q := s.loadOf (some eff) [s.readerOf id [(pa, w)]] []
          let old := s.read pa w
          let s := s.recordScope id (.mem va pa en) a eff
          let s := if ret then q.1.foldl (fun s x => s.noteLoad id (some eff) x q.2) s else s
          let s := (s.storeFrom (s.originOf id (some eff) true) pa (natBytes w (atomNew op w old rv sv))).noteWrite id false
          s.setEntry id e (.returned (atomValues ret dst w old))
      | (.pod r m g o, n) :: _ =>
        ((s.podSend r m g o true (.atomic op.code wide (if op = .cas then sv else rv) rv ret)).dropPodLines id.core m g o n).setEntry id e
          (.sent [(.pod r m g o, n, none)])
      | (.glb r g o, n) :: _ =>
        (s.postMessage id e.stamp e.kernel r a w false (.atomic e.index)).setEntry id e (.sent [(.glb r g o, n, none)])
      | _ => s

/-- The outside answers an atomic in progress (R317): an old value of `w` bytes, or nothing for one without return. One with return is a pod
acquire, and drops the pod read buffer as it is performed (R202). -/
def State.answerAtom (s : State) (id : ThreadId) (e : LogEntry) (a : Dword) (w : Nat) (ret : Bool) (dst : Nat)
    (r : Remote) : State :=
  match r with
  | .none => s
  | .failed => s.failEntry id e a
  | .data b =>
    if ret then (if b.length = w then (s.clearPodBuf id.core).setEntry id e (.returned (loadValues dst w (leNat b))) else s)
    else s.setEntry id e (.returned [])

/-! ### Arrival counters (R69, R70) -/

/-- The mode of a counter (R69), from the tables in force (R62; log entry 10). -/
def State.ctrMode (s : State) (k : Nat) : Nat := bits (Memory.readLE s.tables (0x3000000 + 16 * k + 8) 8) 1 0

/-- The value of a counter (R69). -/
def State.ctrValue (s : State) (k : Nat) : Nat := s.read (s.ctrbase + 16 * k) 8

/-- A counter is enabled: its mode is 01 or 10 (R69). -/
def State.ctrOn (s : State) (k : Nat) : Bool := decide (s.ctrMode k = 1) || decide (s.ctrMode k = 2)

/-- Adds to an enabled counter, modulo 2^64 (R70), as an origin that a `cwait` can synchronise with (R204). -/
def State.ctrAdd (s : State) (o : Origin) (k n : Nat) : State :=
  if s.ctrOn k then s.storeFrom o (s.ctrbase + 16 * k) (natBytes 8 ((s.ctrValue k + n) % 2 ^ 64)) else s

/-- A completed message or reduction of a length counts by the counter's mode (R70). -/
def State.ctrMessage (s : State) (o : Origin) (k len : Nat) : State := s.ctrAdd o k (if s.ctrMode k = 2 then len else 1)

/-- What a `cwait` of a thread at a scope sees (R204, R323): for every increment that the value of the counter holds, and whose origin the two
scopes join, what it counts. -/
def State.ctrView (s : State) (id : ThreadId) (k : Nat) (c : Scope) : View :=
  s.ctrViewFrom (s.agent id) c (s.ctrbase + 16 * k) .none 0 s.hist

/-- A local completion counter counts one message, with the writes here that placed it; one that is disabled is counted in the error counters
(R71, R204, R324). -/
def State.ctrLocal (s : State) (placed : List Nat) : Option Nat → State
  | none => s
  | some k => if s.ctrOn k then s.ctrAdd (countOrigin .device placed .none) k 1 else s.count 0x10A0

/-! ### Commit (R148, R154, R219) -/

/-- Writes deferred results to the registers in program order (R149). -/
def Thread.commit (t : Thread) : List LogEntry → Thread
  | [] => t
  | e :: r =>
    match e.state with
    | .returned vs => (vs.foldl (fun t p => t.setReg p.1 p.2) t).commit r
    | _ => t.commit r

/-- Every entry has returned or is flagged. -/
def allReturned (log : List LogEntry) : Bool :=
  log.all (fun e => match e.state with
    | .returned _ => true
    | .flagged _ _ => true
    | _ => false)

/-- The flagged entries of a log. -/
def flaggedOf (log : List LogEntry) : List LogEntry :=
  log.filter (fun e => match e.state with
    | .flagged _ _ => true
    | _ => false)

/-- The lowest-numbered flagged entry whose cause is not translation (R154). -/
def firstTrap (log : List LogEntry) : Option (Cause × Dword) :=
  ((List.range 17).findSome? (fun i => log.findSome? (fun e =>
    match e.state with
    | .flagged c v => if e.index = i ∧ c ≠ .translation then some (c, v) else none
    | _ => none)))

/-- A thread begins to wait for its stores anew: a flush that failed before excuses it from none (R320). -/
def State.pardon (s : State) (id : ThreadId) : State :=
  { s with net := { s.net with tracked := s.net.tracked.map (fun t => { t with excused := t.excused.filter (fun i => decide (i ≠ id)) }) } }

/-- The access code of a faulting entry in a service batch (R112). -/
def accessCode : Access → Nat
  | .load _ _ _ _ _ _ => 0
  | .store _ _ _ _ _ _ => 1
  | .atom _ _ _ _ _ _ _ _ => 2
  | _ => 0

/-- The lowest-numbered entry flagged for translation. -/
def firstMissing (log : List LogEntry) : Option (Dword × Nat) :=
  ((List.range 17).findSome? (fun i => log.findSome? (fun e =>
    match e.state with
    | .flagged .translation v => if e.index = i then some (v, accessCode e.access) else none
    | _ => none)))

/-- Where a thread waits again once the service team has repaired its flagged accesses: at its marker, or for them alone before the
instruction with its own fault is judged again (R154, R155). -/
def Wait.again : Wait → Wait
  | .marker a l => .marker a l
  | .toSend k a => .toSend k a
  | .stepTrap => .stepTrap
  | _ => .reissue

/-- A thread behind an `xiss` that read an illegal word: it has stepped its x registers and taken its stream element (R303). -/
def Thread.pastXiss (t : Thread) (x : List Word) (stream : Option Nat) : Thread :=
  let t := { t with x := x }
  let t := match stream with
    | none => t
    | some k => match t.stream k with
      | some q => t.setStream k (some { q with fifo := q.fifo.tail, next := q.next + 1, flags := q.flagsAt q.next })
      | none => t
  t.retire (t.pc + 4)

/-- Steps 1 to 5 of R219 for a thread parked at an instruction: commit, flagged entries (R154), pending causes, and the
fault that the instruction had; without any, `.committed` lets it issue. After accesses issued again, the instruction is reached anew. -/
def State.commitAt (s : State) (id : ThreadId) (t : Thread) : State :=
  let u := (t.commit t.log).ordered
  let fl := flaggedOf t.log
  match firstTrap fl with
  | some (c, v) => s.trapAt id { u with kept := fl, log := [] } c.code u.firstWord v (tlogOf fl)
  | none =>
    match firstMissing fl with
    | some (va, code) => s.postFault id { u with log := fl } (.service t.wait.again) va code
    | none =>
      let u := { u with log := [] }
      match t.wait with
      | .reissue => s.setThread id { u with wait := .run }
      | .stepTrap => s.trap id u 0x11 0xFFFFFFFF
      | .fault c v => (s.deliver id { u with wait := .run }).getD (s.trap id u c.code v)
      | .xiss w x k => (s.deliver id { u with wait := .run }).getD (s.trap id (u.pastXiss x k) 0x0B (w.setWidth 64))
      | .marker false _ => s.setThread id { u with wait := .committed }
      | .marker true l => (s.deliver id { u with wait := .run }).getD (s.setThread id { u with wait := if l then .leaving else .committed })
      | .toSend _ false => s.setThread id { u with wait := .committed }
      | _ => (s.deliver id { u with wait := .run }).getD (s.setThread id { u with wait := .committed })

/-- A thread is parked at a marker (R148, R155, R222). -/
def Wait.atMarker : Wait → Bool
  | .marker _ _ => true
  | .fault _ _ => true
  | .xiss _ _ _ => true
  | .toSend _ _ => true
  | .stepTrap => true
  | .reissue => true
  | _ => false

/-- An `rrecv` at a slot that has not received: its first register and count. -/
def LogEntry.receives (e : LogEntry) (slot : Nat) : Option (Nat × Nat) :=
  match e.state, e.access with
  | .pending, .rrecv k base n => if k = slot then some (base, n) else none
  | _, _ => none

/-- An access that does not hold up its thread where it is parked: its own `rrecv`, which the `rsend` at this slot can serve (R305). -/
def Wait.passes (w : Wait) (e : LogEntry) : Bool :=
  match w with
  | .toSend slot _ => (e.receives slot).isSome
  | _ => false

/-- Commits a parked thread; the accesses that do not hold it up stay in its log (R305). -/
def State.commitParked (s : State) (id : ThreadId) (t : Thread) : State :=
  if t.log.all (fun e => !t.wait.passes e) then s.commitAt id t else
  (s.commitAt id { t with log := t.log.filter (fun e => !t.wait.passes e) }).modThread id (fun u =>
    { u with log := t.log.filter (fun e => t.wait.passes e || u.log.any (fun o => decide (o.stamp = e.stamp))) })

/-- A thread that something is to stop and that is parked with returned results commits them, and is at a boundary then (R118, R151;
DEDUCED: log entry 101). -/
def State.commitsToStop (s : State) (id : ThreadId) (t : Thread) : Bool :=
  s.stopAsked id && t.wait.rests && !t.settled && allReturned t.log

/-- MARKER_COMMIT: the last access of a parked thread has returned (R148, R151, R154, R219). -/
def execMarkerCommit (thread : ThreadId) (s : State) : Host.Outcome State Fault Refusal :=
  match s.thread? thread with
  | none => .next s
  | some t =>
    .next (if t.wait.atMarker && allReturned (t.log.filter (fun e => !t.wait.passes e)) then s.commitParked thread t
      else if s.commitsToStop thread t then s.setThread thread { t.commit t.log with log := flaggedOf t.log }
      else s)

/-- ASYNC_ERROR_ARRIVAL: an error of an access that has left the thread fills its pending slot, or is counted and
dropped (R217, R218). -/
def execAsyncErrorArrival (thread : ThreadId) (cause : Byte) (tval : Dword) (s : State) : Host.Outcome State Fault Refusal :=
  .next (match cause.toNat with
    | 0x14 => s.pend thread .uncorrectableMemory tval
    | 0x15 => s.pend thread .remoteAccessFailure tval
    | _ => s)

end Sys2Proof.Machine
end

