-- ==== Sys2Proof/Machine/Aes.lean ====
section
/-! DEFINITION. AES-256 and its XTS mode, which R97 names (PRESUMED: FIPS 197 and IEEE 1619; log entry 8). -/
namespace Sys2Proof.Machine

/-! ### The field of 256 elements -/

/-- Twice an element. -/
def gfDouble (a : Byte) : Byte := (a <<< 1) ^^^ if a.msb then 0x1B else 0

/-- The product of two elements, from the low `n` bits of the second. -/
def gfMul (a b : Byte) : (n : Nat) → Byte
  | 0 => 0
  | n + 1 => (if b.getLsbD 0 then a else 0) ^^^ gfMul (gfDouble a) (b >>> 1) n

/-- The inverse of an element, its power 254; of zero, zero. -/
def gfInverse (a : Byte) : Byte :=
  let square := fun (x : Byte) => gfMul x x 8
  (List.range 6).foldl (fun p _ => gfMul (square p) (square a) 8) (square a)

/-- The S-box. -/
def subByte (a : Byte) : Byte :=
  let i := gfInverse a
  i ^^^ i.rotateLeft 1 ^^^ i.rotateLeft 2 ^^^ i.rotateLeft 3 ^^^ i.rotateLeft 4 ^^^ 0x63

/-- The inverse S-box. -/
def subByteInverse (a : Byte) : Byte := gfInverse (a.rotateLeft 1 ^^^ a.rotateLeft 3 ^^^ a.rotateLeft 6 ^^^ 0x05)

/-! ### AES-256: a block is 16 bytes, byte 4c + r in row r of column c -/

/-- The sum of two byte lists. -/
def xorBytes (a b : List Byte) : List Byte := List.zipWith (· ^^^ ·) a b

/-- Four bytes of the expanded key, from the last eight words, newest first. -/
def nextKeyWord (i : Nat) (rcon : Byte) (ws : List (List Byte)) : List Byte :=
  let t := ws.getD 0 []
  let t := if i % 8 = 0 then xorBytes ((t.drop 1 ++ t.take 1).map subByte) [rcon, 0, 0, 0]
    else if i % 8 = 4 then t.map subByte else t
  xorBytes (ws.getD 7 []) t

/-- The expanded key, newest word first: `n` words from word `i` on. -/
def expandKey : (n i : Nat) → Byte → List (List Byte) → List (List Byte)
  | 0, _, _, ws => ws
  | n + 1, i, rcon, ws => expandKey n (i + 1) (if i % 8 = 0 then gfDouble rcon else rcon) (nextKeyWord i rcon ws :: ws)

/-- The 15 round keys of a key of 32 bytes. -/
def roundKeys (key : List Byte) : List (List Byte) :=
  let first := (List.range 8).map (fun i => (key.drop (4 * i)).take 4)
  let bytes := (expandKey 52 8 1 first.reverse).reverse.flatten
  (List.range 15).map (fun i => (bytes.drop (16 * i)).take 16)

/-- A block with row r rotated by `k` r places. -/
def shiftRows (k : Nat) (b : List Byte) : List Byte := (List.range 16).map (fun i => b.getD (4 * ((i / 4 + k * (i % 4)) % 4) + i % 4) 0)

/-- A block with each column multiplied by a circulant matrix, given by its first row. -/
def mixColumns (m b : List Byte) : List Byte :=
  (List.range 16).map (fun i => (List.range 4).foldl (fun s j =>
    s ^^^ gfMul (b.getD (i / 4 * 4 + j) 0) (m.getD ((j + 4 - i % 4) % 4) 0) 4) 0)

/-- AES-256 encryption of a block under round keys. -/
def aesEncrypt (keys : List (List Byte)) (b : List Byte) : List Byte :=
  let b := ((keys.drop 1).take 13).foldl (fun b k => xorBytes (mixColumns [2, 3, 1, 1] (shiftRows 1 (b.map subByte))) k)
    (xorBytes b (keys.getD 0 []))
  xorBytes (shiftRows 1 (b.map subByte)) (keys.getD 14 [])

/-- AES-256 decryption of a block under round keys. -/
def aesDecrypt (keys : List (List Byte)) (b : List Byte) : List Byte :=
  let b := ((keys.drop 1).take 13).reverse.foldl (fun b k => mixColumns [14, 11, 13, 9] (xorBytes ((shiftRows 3 b).map subByteInverse) k))
    (xorBytes b (keys.getD 14 []))
  xorBytes ((shiftRows 3 b).map subByteInverse) (keys.getD 0 [])

/-! ### XTS -/

/-- The next block's mask: the mask of a block times the primitive element of the field of 2^128 elements. -/
def nextMask (n : Nat) : Nat := n * 2 % 2 ^ 128 ^^^ if 2 ^ 127 ≤ n then 0x87 else 0

/-- Decrypts `n` blocks, each with its mask. -/
def xtsBlocks (keys : List (List Byte)) : (n mask : Nat) → List Byte → List Byte
  | 0, _, _ => []
  | n + 1, mask, d =>
    let m := natBytes 16 mask
    xorBytes (aesDecrypt keys (xorBytes (d.take 16) m)) m ++ xtsBlocks keys n (nextMask mask) (d.drop 16)

/-- AES-256-XTS decryption of a data unit of whole blocks: the data key in bytes 31:0 of `key`, the tweak key in bytes 63:32 (R96). -/
def xtsDecrypt (key : List Byte) (tweak : Nat) (d : List Byte) : List Byte :=
  let mask := leNat (aesEncrypt (roundKeys (key.drop 32)) (natBytes 16 tweak))
  xtsBlocks (roundKeys (key.take 32)) (d.length / 16) mask d

end Sys2Proof.Machine
end

