-- ==== Sys2Proof/Machine/Lz4.lean ====
section
/-! DEFINITION. The LZ4 block format, which R97 names (PRESUMED: the format's published description; log entry 8). -/
namespace Sys2Proof.Machine

/-- Appends `n` bytes of a match that begins `off` bytes back; it can run into the bytes it appends. -/
def copyMatch (off : Nat) : (n : Nat) → Array Byte → Array Byte
  | 0, out => out
  | n + 1, out => copyMatch off n (out.push (out.getD (out.size - off) 0))

/-- A length that a nibble begins, and that bytes continue while they are 255; none where the bytes end. -/
def lz4Length (n : Nat) : List Byte → Option (Nat × List Byte)
  | [] => none
  | b :: r => if b = 255 then lz4Length (n + 255) r else some (n + b.toNat, r)

/-- A length with its nibble. -/
def lz4Nibble (n : Nat) (d : List Byte) : Option (Nat × List Byte) := if n = 15 then lz4Length 15 d else some (n, d)

/-- Decompresses sequences; none where malformed. The last sequence ends with its literals. -/
def lz4Sequences : (fuel : Nat) → List Byte → Array Byte → Option (List Byte)
  | fuel + 1, token :: d, out =>
    match lz4Nibble (token.toNat / 16) d with
    | none => none
    | some (lits, d) =>
      if d.length < lits then none else
      let out := out ++ (d.take lits).toArray
      match d.drop lits with
      | [] => some out.toList
      | [_] => none
      | a :: b :: d =>
        let off := a.toNat + 256 * b.toNat
        match lz4Nibble (token.toNat % 16) d with
        | none => none
        | some (len, d) => if off = 0 ∨ out.size < off then none else lz4Sequences fuel d (copyMatch off (len + 4) out)
  | _, _, _ => none

/-- LZ4 block decompression, none where malformed (R97). -/
def lz4 (d : List Byte) : Option (List Byte) := lz4Sequences d.length d #[]

end Sys2Proof.Machine
end

