-- ==== Sys2Proof/Machine/Inflate.lean ====
section
/-! DEFINITION. Raw Deflate, which R97 names (PRESUMED: RFC 1951; log entry 8). -/
namespace Sys2Proof.Machine

/-- The bits that remain, the next one first. -/
abbrev Bits := List Bool

/-- The bits of bytes, each byte from its lowest bit on. -/
def bitsOf (d : List Byte) : Bits := d.flatMap (fun b => (List.range 8).map (fun i => b.getLsbD i))

/-- The next `n` bits as a number, the lowest first; none where the bits end. -/
def takeBits : (n : Nat) → Bits → Option (Nat × Bits)
  | 0, b => some (0, b)
  | _ + 1, [] => none
  | n + 1, x :: b => (takeBits n b).map (fun r => (2 * r.1 + x.toNat, r.2))

/-! ### Huffman codes -/

/-- A prefix code: a leaf, a branch on the next bit, or no code. -/
inductive Huffman where
  | none
  | leaf (sym : Nat)
  | node (zero one : Huffman)
  deriving DecidableEq, Repr

/-- Adds a code of `len` bits, the highest first. -/
def Huffman.insert : (len code sym : Nat) → Huffman → Huffman
  | 0, _, sym, _ => .leaf sym
  | len + 1, code, sym, t =>
    let lr := match t with
      | .node l r => (l, r)
      | _ => (.none, .none)
    if code.testBit len then .node lr.1 (lr.2.insert len code sym) else .node (lr.1.insert len code sym) lr.2

/-- The symbol of the next bits. -/
def Huffman.read : Huffman → Bits → Option (Nat × Bits)
  | .leaf sym, b => some (sym, b)
  | .node l r, x :: b => if x then r.read b else l.read b
  | _, _ => Option.none

/-- The canonical code of lengths, and whether it is complete, or a single code of one bit, or empty. -/
def Huffman.ofLengths (ls : List Nat) : Option Huffman :=
  let step := fun (t : Huffman × Nat) (len : Nat) =>
    let r := (List.range ls.length).foldl (fun (t : Huffman × Nat) sym =>
      if ls.getD sym 0 = len then (t.1.insert len t.2 sym, t.2 + 1) else t) (t.1, 2 * t.2)
    r
  let r := ((List.range 15).map (· + 1)).foldl step (.none, 0)
  let used := (ls.filter (· ≠ 0)).length
  if r.2 = 2 ^ 15 ∨ used = 0 ∨ (used = 1 ∧ r.2 = 2 ^ 14) then some r.1 else Option.none

/-! ### Blocks -/

/-- The base of each length symbol, from 257 on, with its extra bits. -/
def lengthCodes : List (Nat × Nat) :=
  [(3, 0), (4, 0), (5, 0), (6, 0), (7, 0), (8, 0), (9, 0), (10, 0), (11, 1), (13, 1), (15, 1), (17, 1), (19, 2), (23, 2), (27, 2), (31, 2),
   (35, 3), (43, 3), (51, 3), (59, 3), (67, 4), (83, 4), (99, 4), (115, 4), (131, 5), (163, 5), (195, 5), (227, 5), (258, 0)]

/-- The base of each distance symbol, with its extra bits. -/
def distanceCodes : List (Nat × Nat) :=
  [(1, 0), (2, 0), (3, 0), (4, 0), (5, 1), (7, 1), (9, 2), (13, 2), (17, 3), (25, 3), (33, 4), (49, 4), (65, 5), (97, 5), (129, 6), (193, 6)]
  ++ [(257, 7), (385, 7), (513, 8), (769, 8), (1025, 9), (1537, 9), (2049, 10), (3073, 10), (4097, 11), (6145, 11), (8193, 12), (12289, 12),
      (16385, 13), (24577, 13)]

/-- A length or a distance: its symbol's base and the extra bits. -/
def withExtra (codes : List (Nat × Nat)) (sym : Nat) (b : Bits) : Option (Nat × Bits) :=
  match codes[sym]? with
  | some (base, extra) => (takeBits extra b).map (fun r => (base + r.1, r.2))
  | none => none

/-- The symbols of a compressed block, to its end. -/
def inflateSymbols (lit dist : Huffman) : (fuel : Nat) → Bits → Array Byte → Option (Bits × Array Byte)
  | 0, _, _ => none
  | fuel + 1, b, out =>
    match lit.read b with
    | none => none
    | some (sym, b) =>
      if sym < 256 then inflateSymbols lit dist fuel b (out.push (BitVec.ofNat 8 sym))
      else if sym = 256 then some (b, out)
      else
        match withExtra lengthCodes (sym - 257) b with
        | none => none
        | some (len, b) =>
          match dist.read b with
          | none => none
          | some (ds, b) =>
            match withExtra distanceCodes ds b with
            | none => none
            | some (off, b) => if out.size < off then none else inflateSymbols lit dist fuel b (copyMatch off len out)

/-- The code lengths of a dynamic block: `n` lengths, a repeat running from one alphabet into the other. -/
def codeLengths (t : Huffman) (n : Nat) : (fuel : Nat) → Bits → List Nat → Option (List Nat × Bits)
  | 0, _, _ => none
  | fuel + 1, b, got =>
    if got.length = n then some (got, b) else
    if n < got.length then none else
    match t.read b with
    | none => none
    | some (sym, b) =>
      if sym < 16 then codeLengths t n fuel b (got ++ [sym])
      else if sym = 16 ∧ got = [] then none
      else
        let form := if sym = 16 then (got.getLastD 0, 3, 2) else if sym = 17 then (0, 3, 3) else (0, 11, 7)
        match takeBits form.2.2 b with
        | none => none
        | some (k, b) => codeLengths t n fuel b (got ++ List.replicate (form.2.1 + k) form.1)

/-- The order in which a dynamic block gives the lengths of its code lengths. -/
def lengthOrder : List Nat := [16, 17, 18, 0, 8, 7, 9, 6, 10, 5, 11, 4, 12, 3, 13, 2, 14, 1, 15]

/-- The two codes of a dynamic block. Its literals need an end symbol. -/
def dynamicCodes (b : Bits) : Option (Huffman × Huffman × Bits) :=
  match takeBits 5 b with
  | none => none
  | some (hlit, b) =>
    match takeBits 5 b with
    | none => none
    | some (hdist, b) =>
      match takeBits 4 b with
      | none => none
      | some (hclen, b) =>
        match takeBits (3 * (hclen + 4)) b with
        | none => none
        | some (w, b) =>
          let ls := (List.range 19).map (fun s => w / 8 ^ (lengthOrder.idxOf s) % 8)
          match Huffman.ofLengths ls with
          | none => none
          | some t =>
            match codeLengths t (hlit + 257 + (hdist + 1)) 512 b [] with
            | none => none
            | some (all, b) =>
              match Huffman.ofLengths (all.take (hlit + 257)), Huffman.ofLengths (all.drop (hlit + 257)) with
              | some lit, some dist => if 286 < hlit + 257 ∨ all.getD 256 0 = 0 then none else some (lit, dist, b)
              | _, _ => none

/-- The code of the literals and lengths of a fixed block. -/
def fixedLengths : List Nat := List.replicate 144 8 ++ List.replicate 112 9 ++ List.replicate 24 7 ++ List.replicate 8 8

/-- A stored block: the rest of the byte is skipped, and a length with its complement comes before the bytes. -/
def storedBlock (b : Bits) (out : Array Byte) : Option (Bits × Array Byte) :=
  match takeBits 16 (b.drop (b.length % 8)) with
  | none => none
  | some (n, b) =>
    match takeBits 16 b with
    | none => none
    | some (c, b) =>
      if n + c ≠ 65535 then none
      else (takeBits (8 * n) b).map (fun r => (r.2, out ++ (natBytes n r.1).toArray))

/-- Blocks, to the last one. -/
def inflateBlocks : (fuel : Nat) → Bits → Array Byte → Option (List Byte)
  | fuel + 1, last :: k0 :: k1 :: b, out =>
    let r := match k0, k1 with
      | false, false => storedBlock b out
      | true, false =>
        match Huffman.ofLengths fixedLengths, Huffman.ofLengths (List.replicate 32 5) with
        | some lit, some dist => inflateSymbols lit dist (b.length + 1) b out
        | _, _ => none
      | false, true =>
        match dynamicCodes b with
        | none => none
        | some (lit, dist, b) => inflateSymbols lit dist (b.length + 1) b out
      | true, true => none
    match r with
    | none => none
    | some (b, out) => if last then some out.toList else inflateBlocks fuel b out
  | _, _, _ => none

/-- Raw Deflate decompression, none where malformed (R97). Bytes after the last block are not read. -/
def inflate (d : List Byte) : Option (List Byte) := inflateBlocks (8 * d.length) (bitsOf d) #[]

end Sys2Proof.Machine
end

