-- ==== Sys2Proof/Machine/Float.lean ====
section
/-! DEFINITION. Floating-point arithmetic and compares, majors 0x10 to 0x12 and 0x14 (R278 to R280, R282). -/
namespace Sys2Proof.Machine

/-- The rounding mode of an instruction: the RND hint, or tstat.rnd; code 110 reads tstat.rnd (R234, R278). -/
def modeOf : Issue Nat := fun c =>
  let code := match c.hs.rnd with
    | some (_, _, r) => r
    | none => 6
  (if code = 6 then c.th.rnd.toNat else code.toNat, c)

/-- One draw under the stochastic mode (R236). -/
def draw (mode : Nat) : Issue Nat := fun c => let r := drawFor mode c.th; (r.1, { c with th := r.2 })

/-- An FP32 form of two operands (R278). -/
def arith32 (f : Nat → Val → Val → Val) (d a b : RegField) : Issue Unit := do
  let x ← src a
  let y ← srcB b
  let l ← dst d
  let m ← modeOf
  let r ← draw m
  wr l (BitVec.ofNat 32 (roundVal binary32 m r (f m (val x.toNat binary32) (val y.toNat binary32))))

/-- An FP64 form of two operands (R278). -/
def arith64 (f : Nat → Val → Val → Val) (d a b : RegField) : Issue Unit := do
  let x ← srcP a
  let y ← srcP b
  let l ← dstP d
  let m ← modeOf
  let r ← draw m
  wrp l (BitVec.ofNat 64 (roundVal binary64 m r (f m (val x.toNat binary64) (val y.toNat binary64))))

/-- The destination and the addend of a fused form: the ADD addend before the destination, or the old destination
(R253, R266). -/
def addend (d : RegField) : Issue (Loc × Word) := do
  let c ← get
  match c.hs.add with
  | some fe =>
    let e ← src fe
    let l ← dst d
    pure (l, e)
  | none =>
    let l ← dst d
    let e ← rdDst l
    pure (l, e)

/-- The destination pair and the addend pair of a fused form (R253, R266). -/
def addendP (d : RegField) : Issue (Loc × Dword) := do
  let c ← get
  match c.hs.add with
  | some fe =>
    let e ← srcP fe
    let l ← dstP d
    pure (l, e)
  | none =>
    let l ← dstP d
    let e ← rdDstP l
    pure (l, e)

/-- An FP32 fused form (R278). -/
def fused32 (f : Nat → Val → Val → Val → Val) (d a b : RegField) : Issue Unit := do
  let x ← src a
  let y ← srcB b
  let p ← addend d
  let m ← modeOf
  let r ← draw m
  wr p.1 (BitVec.ofNat 32 (roundVal binary32 m r
    (f m (val x.toNat binary32) (val y.toNat binary32) (val p.2.toNat binary32))))

/-- An FP64 fused form (R278). -/
def fused64 (f : Nat → Val → Val → Val → Val) (d a b : RegField) : Issue Unit := do
  let x ← srcP a
  let y ← srcP b
  let p ← addendP d
  let m ← modeOf
  let r ← draw m
  wrp p.1 (BitVec.ofNat 64 (roundVal binary64 m r
    (f m (val x.toNat binary64) (val y.toNat binary64) (val p.2.toNat binary64))))

/-- A non-rounding FP32 form (R279). -/
def raw32 (f : Fmt → Nat → Nat → Nat) (d a b : RegField) : Issue Unit := do
  let x ← src a
  let y ← srcB b
  let l ← dst d
  wr l (BitVec.ofNat 32 (f binary32 x.toNat y.toNat))

/-- A non-rounding FP64 form (R279). -/
def raw64 (f : Fmt → Nat → Nat → Nat) (d a b : RegField) : Issue Unit := do
  let x ← srcP a
  let y ← srcP b
  let l ← dstP d
  wrp l (BitVec.ofNat 64 (f binary64 x.toNat y.toNat))

/-- A non-rounding unary FP32 form (R279). -/
def raw32u (f : Fmt → Nat → Nat) (d a : RegField) : Issue Unit := do
  let x ← src a
  let l ← dst d
  wr l (BitVec.ofNat 32 (f binary32 x.toNat))

/-- A non-rounding unary FP64 form (R279). -/
def raw64u (f : Fmt → Nat → Nat) (d a : RegField) : Issue Unit := do
  let x ← srcP a
  let l ← dstP d
  wrp l (BitVec.ofNat 64 (f binary64 x.toNat))

/-- The element format of major 0x12 (R280). -/
def pkFmt (t : BitVec 1) : Fmt := if t = 1 then binary16 else bfloat16

/-- Two 16-bit elements as a register. -/
def joinHalves (lo hi : Nat) : Word := BitVec.ofNat 32 (lo % 65536 + hi % 65536 * 65536)

/-- The low 16-bit element. -/
def loHalf (x : Word) : Nat := x.toNat % 65536
/-- The high 16-bit element. -/
def hiHalf (x : Word) : Nat := x.toNat / 65536

/-- A packed rounding form: element 0 draws before element 1 (R280). -/
def arithPk (fm : Fmt) (f : Nat → Val → Val → Val) (d a b : RegField) : Issue Unit := do
  let x ← src a
  let y ← srcB b
  let l ← dst d
  let m ← modeOf
  let r0 ← draw m
  let r1 ← draw m
  wr l (joinHalves (roundVal fm m r0 (f m (val (loHalf x) fm) (val (loHalf y) fm)))
    (roundVal fm m r1 (f m (val (hiHalf x) fm) (val (hiHalf y) fm))))

/-- A packed fused form (R280). -/
def fusedPk (fm : Fmt) (f : Nat → Val → Val → Val → Val) (d a b : RegField) : Issue Unit := do
  let x ← src a
  let y ← srcB b
  let p ← addend d
  let m ← modeOf
  let r0 ← draw m
  let r1 ← draw m
  wr p.1 (joinHalves (roundVal fm m r0 (f m (val (loHalf x) fm) (val (loHalf y) fm) (val (loHalf p.2) fm)))
    (roundVal fm m r1 (f m (val (hiHalf x) fm) (val (hiHalf y) fm) (val (hiHalf p.2) fm))))

/-- A packed non-rounding form (R280). -/
def rawPk (fm : Fmt) (f : Fmt → Nat → Nat → Nat) (d a b : RegField) : Issue Unit := do
  let x ← src a
  let y ← srcB b
  let l ← dst d
  wr l (joinHalves (f fm (loHalf x) (loHalf y)) (f fm (hiHalf x) (hiHalf y)))

/-- A packed non-rounding unary form (R280). -/
def rawPkU (fm : Fmt) (f : Fmt → Nat → Nat) (d a : RegField) : Issue Unit := do
  let x ← src a
  let l ← dst d
  wr l (joinHalves (f fm (loHalf x)) (f fm (hiHalf x)))

/-- The conditions of `fcmp` (R282). -/
def floatCond (k : BitVec 3) (x y : Val) : Bool :=
  let un := x.isNan || y.isNan
  match k.toNat with
  | 0 => x.eq y
  | 1 => un || !x.eq y
  | 2 => x.lt y
  | 3 => x.lt y || x.eq y
  | 4 => y.lt x
  | 5 => y.lt x || x.eq y
  | 6 => un
  | _ => !un

/-- An FP32 compare (R282). -/
def fcompare32 (k c : BitVec 3) (a b : RegField) : Issue Unit := do
  let x ← src a
  let y ← src b
  setCond c (floatCond k (val x.toNat binary32) (val y.toNat binary32))

/-- An FP64 compare (R282). -/
def fcompare64 (k c : BitVec 3) (a b : RegField) : Issue Unit := do
  let x ← srcP a
  let y ← srcP b
  setCond c (floatCond k (val x.toNat binary64) (val y.toNat binary64))

/-- R278 -/
def bodyFadd (d : BitVec 7) (a : BitVec 7) (b : BitVec 7) : Issue Unit := arith32 (fun m x y => x.add m y) d a b
/-- R278 -/
def execFadd (w : BitVec 1) (d : BitVec 7) (a : BitVec 7) (b : BitVec 7) (st : State) : Host.Outcome State Fault Refusal := plain (Enc.fadd w d a b) { Accepts.rndOnly with opi := true } (bodyFadd d a b) st

/-- R278 -/
def bodyFaddF64 (d : BitVec 7) (a : BitVec 7) (b : BitVec 7) : Issue Unit := arith64 (fun m x y => x.add m y) d a b
/-- R278 -/
def execFaddF64 (w : BitVec 1) (d : BitVec 7) (a : BitVec 7) (b : BitVec 7) (st : State) : Host.Outcome State Fault Refusal := plain (Enc.faddF64 w d a b) .rndOnly (bodyFaddF64 d a b) st

/-- R278 -/
def bodyFsub (d : BitVec 7) (a : BitVec 7) (b : BitVec 7) : Issue Unit := arith32 (fun m x y => x.add m y.neg) d a b
/-- R278 -/
def execFsub (w : BitVec 1) (d : BitVec 7) (a : BitVec 7) (b : BitVec 7) (st : State) : Host.Outcome State Fault Refusal := plain (Enc.fsub w d a b) { Accepts.rndOnly with opi := true } (bodyFsub d a b) st

/-- R278 -/
def bodyFsubF64 (d : BitVec 7) (a : BitVec 7) (b : BitVec 7) : Issue Unit := arith64 (fun m x y => x.add m y.neg) d a b
/-- R278 -/
def execFsubF64 (w : BitVec 1) (d : BitVec 7) (a : BitVec 7) (b : BitVec 7) (st : State) : Host.Outcome State Fault Refusal := plain (Enc.fsubF64 w d a b) .rndOnly (bodyFsubF64 d a b) st

/-- R278 -/
def bodyFmul (d : BitVec 7) (a : BitVec 7) (b : BitVec 7) : Issue Unit := arith32 (fun _ x y => x.mul y) d a b
/-- R278 -/
def execFmul (w : BitVec 1) (d : BitVec 7) (a : BitVec 7) (b : BitVec 7) (st : State) : Host.Outcome State Fault Refusal := plain (Enc.fmul w d a b) { Accepts.rndOnly with opi := true } (bodyFmul d a b) st

/-- R278 -/
def bodyFmulF64 (d : BitVec 7) (a : BitVec 7) (b : BitVec 7) : Issue Unit := arith64 (fun _ x y => x.mul y) d a b
/-- R278 -/
def execFmulF64 (w : BitVec 1) (d : BitVec 7) (a : BitVec 7) (b : BitVec 7) (st : State) : Host.Outcome State Fault Refusal := plain (Enc.fmulF64 w d a b) .rndOnly (bodyFmulF64 d a b) st

/-- R278 -/
def bodyFfma (d : BitVec 7) (a : BitVec 7) (b : BitVec 7) : Issue Unit := fused32 (fun m x y e => (x.mul y).add m e) d a b
/-- R278 -/
def execFfma (w : BitVec 1) (d : BitVec 7) (a : BitVec 7) (b : BitVec 7) (st : State) : Host.Outcome State Fault Refusal := plain (Enc.ffma w d a b) { Accepts.rndOnly with opi := true, add := true } (bodyFfma d a b) st

/-- R278 -/
def bodyFfmaF64 (d : BitVec 7) (a : BitVec 7) (b : BitVec 7) : Issue Unit := fused64 (fun m x y e => (x.mul y).add m e) d a b
/-- R278 -/
def execFfmaF64 (w : BitVec 1) (d : BitVec 7) (a : BitVec 7) (b : BitVec 7) (st : State) : Host.Outcome State Fault Refusal := plain (Enc.ffmaF64 w d a b) { Accepts.rndOnly with add := true } (bodyFfmaF64 d a b) st

/-- R278 -/
def bodyFnma (d : BitVec 7) (a : BitVec 7) (b : BitVec 7) : Issue Unit := fused32 (fun m x y e => e.add m (x.mul y).neg) d a b
/-- R278 -/
def execFnma (w : BitVec 1) (d : BitVec 7) (a : BitVec 7) (b : BitVec 7) (st : State) : Host.Outcome State Fault Refusal := plain (Enc.fnma w d a b) { Accepts.rndOnly with opi := true, add := true } (bodyFnma d a b) st

/-- R278 -/
def bodyFnmaF64 (d : BitVec 7) (a : BitVec 7) (b : BitVec 7) : Issue Unit := fused64 (fun m x y e => e.add m (x.mul y).neg) d a b
/-- R278 -/
def execFnmaF64 (w : BitVec 1) (d : BitVec 7) (a : BitVec 7) (b : BitVec 7) (st : State) : Host.Outcome State Fault Refusal := plain (Enc.fnmaF64 w d a b) { Accepts.rndOnly with add := true } (bodyFnmaF64 d a b) st

/-- R279 -/
def bodyFmin (d : BitVec 7) (a : BitVec 7) (b : BitVec 7) : Issue Unit := raw32 fminCode d a b
/-- R279 -/
def execFmin (w : BitVec 1) (d : BitVec 7) (a : BitVec 7) (b : BitVec 7) (st : State) : Host.Outcome State Fault Refusal := plain (Enc.fmin w d a b) { Accepts.rndOnly with opi := true } (bodyFmin d a b) st

/-- R279 -/
def bodyFminF64 (d : BitVec 7) (a : BitVec 7) (b : BitVec 7) : Issue Unit := raw64 fminCode d a b
/-- R279 -/
def execFminF64 (w : BitVec 1) (d : BitVec 7) (a : BitVec 7) (b : BitVec 7) (st : State) : Host.Outcome State Fault Refusal := plain (Enc.fminF64 w d a b) .rndOnly (bodyFminF64 d a b) st

/-- R279 -/
def bodyFmax (d : BitVec 7) (a : BitVec 7) (b : BitVec 7) : Issue Unit := raw32 fmaxCode d a b
/-- R279 -/
def execFmax (w : BitVec 1) (d : BitVec 7) (a : BitVec 7) (b : BitVec 7) (st : State) : Host.Outcome State Fault Refusal := plain (Enc.fmax w d a b) { Accepts.rndOnly with opi := true } (bodyFmax d a b) st

/-- R279 -/
def bodyFmaxF64 (d : BitVec 7) (a : BitVec 7) (b : BitVec 7) : Issue Unit := raw64 fmaxCode d a b
/-- R279 -/
def execFmaxF64 (w : BitVec 1) (d : BitVec 7) (a : BitVec 7) (b : BitVec 7) (st : State) : Host.Outcome State Fault Refusal := plain (Enc.fmaxF64 w d a b) .rndOnly (bodyFmaxF64 d a b) st

/-- R279 -/
def bodyFsgnj (d : BitVec 7) (a : BitVec 7) (b : BitVec 7) : Issue Unit := raw32 (fun f x y => withSign f x (f.signOf y)) d a b
/-- R279 -/
def execFsgnj (w : BitVec 1) (d : BitVec 7) (a : BitVec 7) (b : BitVec 7) (st : State) : Host.Outcome State Fault Refusal := plain (Enc.fsgnj w d a b) { Accepts.rndOnly with opi := true } (bodyFsgnj d a b) st

/-- R279 -/
def bodyFsgnjF64 (d : BitVec 7) (a : BitVec 7) (b : BitVec 7) : Issue Unit := raw64 (fun f x y => withSign f x (f.signOf y)) d a b
/-- R279 -/
def execFsgnjF64 (w : BitVec 1) (d : BitVec 7) (a : BitVec 7) (b : BitVec 7) (st : State) : Host.Outcome State Fault Refusal := plain (Enc.fsgnjF64 w d a b) .rndOnly (bodyFsgnjF64 d a b) st

/-- R279 -/
def bodyFabs (d : BitVec 7) (a : BitVec 7) : Issue Unit := raw32u (fun f x => withSign f x false) d a
/-- R279 -/
def execFabs (w : BitVec 1) (d : BitVec 7) (a : BitVec 7) (st : State) : Host.Outcome State Fault Refusal := plain (Enc.fabs w d a) .rndOnly (bodyFabs d a) st

/-- R279 -/
def bodyFabsF64 (d : BitVec 7) (a : BitVec 7) : Issue Unit := raw64u (fun f x => withSign f x false) d a
/-- R279 -/
def execFabsF64 (w : BitVec 1) (d : BitVec 7) (a : BitVec 7) (st : State) : Host.Outcome State Fault Refusal := plain (Enc.fabsF64 w d a) .rndOnly (bodyFabsF64 d a) st

/-- R279 -/
def bodyFneg (d : BitVec 7) (a : BitVec 7) : Issue Unit := raw32u (fun f x => withSign f x (!f.signOf x)) d a
/-- R279 -/
def execFneg (w : BitVec 1) (d : BitVec 7) (a : BitVec 7) (st : State) : Host.Outcome State Fault Refusal := plain (Enc.fneg w d a) .rndOnly (bodyFneg d a) st

/-- R279 -/
def bodyFnegF64 (d : BitVec 7) (a : BitVec 7) : Issue Unit := raw64u (fun f x => withSign f x (!f.signOf x)) d a
/-- R279 -/
def execFnegF64 (w : BitVec 1) (d : BitVec 7) (a : BitVec 7) (st : State) : Host.Outcome State Fault Refusal := plain (Enc.fnegF64 w d a) .rndOnly (bodyFnegF64 d a) st

/-- R280 -/
def bodyFaddPk (t : BitVec 1) (d : BitVec 7) (a : BitVec 7) (b : BitVec 7) : Issue Unit := arithPk (pkFmt t) (fun m x y => x.add m y) d a b
/-- R280 -/
def execFaddPk (w : BitVec 1) (t : BitVec 1) (d : BitVec 7) (a : BitVec 7) (b : BitVec 7) (st : State) : Host.Outcome State Fault Refusal := plain (Enc.faddPk w t d a b) { Accepts.rndOnly with opi := true } (bodyFaddPk t d a b) st

/-- R280 -/
def bodyFsubPk (t : BitVec 1) (d : BitVec 7) (a : BitVec 7) (b : BitVec 7) : Issue Unit := arithPk (pkFmt t) (fun m x y => x.add m y.neg) d a b
/-- R280 -/
def execFsubPk (w : BitVec 1) (t : BitVec 1) (d : BitVec 7) (a : BitVec 7) (b : BitVec 7) (st : State) : Host.Outcome State Fault Refusal := plain (Enc.fsubPk w t d a b) { Accepts.rndOnly with opi := true } (bodyFsubPk t d a b) st

/-- R280 -/
def bodyFmulPk (t : BitVec 1) (d : BitVec 7) (a : BitVec 7) (b : BitVec 7) : Issue Unit := arithPk (pkFmt t) (fun _ x y => x.mul y) d a b
/-- R280 -/
def execFmulPk (w : BitVec 1) (t : BitVec 1) (d : BitVec 7) (a : BitVec 7) (b : BitVec 7) (st : State) : Host.Outcome State Fault Refusal := plain (Enc.fmulPk w t d a b) { Accepts.rndOnly with opi := true } (bodyFmulPk t d a b) st

/-- R280 -/
def bodyFfmaPk (t : BitVec 1) (d : BitVec 7) (a : BitVec 7) (b : BitVec 7) : Issue Unit := fusedPk (pkFmt t) (fun m x y e => (x.mul y).add m e) d a b
/-- R280 -/
def execFfmaPk (w : BitVec 1) (t : BitVec 1) (d : BitVec 7) (a : BitVec 7) (b : BitVec 7) (st : State) : Host.Outcome State Fault Refusal := plain (Enc.ffmaPk w t d a b) { Accepts.rndOnly with opi := true, add := true } (bodyFfmaPk t d a b) st

/-- R280 -/
def bodyFnmaPk (t : BitVec 1) (d : BitVec 7) (a : BitVec 7) (b : BitVec 7) : Issue Unit := fusedPk (pkFmt t) (fun m x y e => e.add m (x.mul y).neg) d a b
/-- R280 -/
def execFnmaPk (w : BitVec 1) (t : BitVec 1) (d : BitVec 7) (a : BitVec 7) (b : BitVec 7) (st : State) : Host.Outcome State Fault Refusal := plain (Enc.fnmaPk w t d a b) { Accepts.rndOnly with opi := true, add := true } (bodyFnmaPk t d a b) st

/-- R280 -/
def bodyFminPk (t : BitVec 1) (d : BitVec 7) (a : BitVec 7) (b : BitVec 7) : Issue Unit := rawPk (pkFmt t) fminCode d a b
/-- R280 -/
def execFminPk (w : BitVec 1) (t : BitVec 1) (d : BitVec 7) (a : BitVec 7) (b : BitVec 7) (st : State) : Host.Outcome State Fault Refusal := plain (Enc.fminPk w t d a b) { Accepts.rndOnly with opi := true } (bodyFminPk t d a b) st

/-- R280 -/
def bodyFmaxPk (t : BitVec 1) (d : BitVec 7) (a : BitVec 7) (b : BitVec 7) : Issue Unit := rawPk (pkFmt t) fmaxCode d a b
/-- R280 -/
def execFmaxPk (w : BitVec 1) (t : BitVec 1) (d : BitVec 7) (a : BitVec 7) (b : BitVec 7) (st : State) : Host.Outcome State Fault Refusal := plain (Enc.fmaxPk w t d a b) { Accepts.rndOnly with opi := true } (bodyFmaxPk t d a b) st

/-- R280 -/
def bodyFnegPk (t : BitVec 1) (d : BitVec 7) (a : BitVec 7) : Issue Unit := rawPkU (pkFmt t) (fun f x => withSign f x (!f.signOf x)) d a
/-- R280 -/
def execFnegPk (w : BitVec 1) (t : BitVec 1) (d : BitVec 7) (a : BitVec 7) (st : State) : Host.Outcome State Fault Refusal := plain (Enc.fnegPk w t d a) .rndOnly (bodyFnegPk t d a) st

/-- R282 -/
def bodyFcmp (k : BitVec 3) (c : BitVec 3) (a : BitVec 7) (b : BitVec 7) : Issue Unit := fcompare32 k c a b
/-- R282 -/
def execFcmp (w : BitVec 1) (k : BitVec 3) (c : BitVec 3) (a : BitVec 7) (b : BitVec 7) (st : State) : Host.Outcome State Fault Refusal := plain (Enc.fcmp w k c a b) .nothing (bodyFcmp k c a b) st

/-- R282 -/
def bodyFcmpF64 (k : BitVec 3) (c : BitVec 3) (a : BitVec 7) (b : BitVec 7) : Issue Unit := fcompare64 k c a b
/-- R282 -/
def execFcmpF64 (w : BitVec 1) (k : BitVec 3) (c : BitVec 3) (a : BitVec 7) (b : BitVec 7) (st : State) : Host.Outcome State Fault Refusal := plain (Enc.fcmpF64 w k c a b) .nothing (bodyFcmpF64 k c a b) st

end Sys2Proof.Machine
end

