-- ==== Sys2Proof/Machine/Convert.lean ====
section
/-! DEFINITION. Conversions, majors 0x15 to 0x17 (R283 to R286). -/
namespace Sys2Proof.Machine

/-- An integer as an exact value. -/
def intVal (x : Int) : Val := .num (decide (x < 0)) x.natAbs 0 false

/-- The overflow policy: the RND hint where it carries one, or the form's own (R284). -/
def policyOf (own : Nat) : Issue Nat := fun c =>
  (match c.hs.rnd with
    | some (o, p, _) => if p = 1 then o.toNat else own
    | none => own, c)

/-- An integer to FP32, which cannot overflow (R283). -/
def convRound (v : Word → Val) (f : Fmt) (d a : RegField) : Issue Unit := do
  let x ← src a
  let l ← dst d
  let m ← modeOf
  let r ← draw m
  wr l (BitVec.ofNat 32 (roundVal f m r (v x)))

/-- FP32 to a destination of at most 32 bits, which can overflow (R283, R284). -/
def convDown32 (f : Fmt) (own : Nat) (d a : RegField) : Issue Unit := do
  let x ← src a
  let l ← dst d
  let m ← modeOf
  let o ← policyOf own
  let r ← draw m
  match convertDown f m r o (val x.toNat binary32) with
  | some v => wr l (BitVec.ofNat 32 v)
  | none => flagIf true .conversionOverflow (x.setWidth 64)

/-- FP64 to a destination of 32 bits; tval of a trap is the high word (R283, R284). -/
def convDown64 (f : Fmt) (own : Nat) (d a : RegField) : Issue Unit := do
  let x ← srcP a
  let l ← dst d
  let m ← modeOf
  let o ← policyOf own
  let r ← draw m
  match convertDown f m r o (val x.toNat binary64) with
  | some v => wr l (BitVec.ofNat 32 v)
  | none => flagIf true .conversionOverflow (x >>> 32)

/-- An exact conversion to FP64: no draw (R283). -/
def convWide (v : Word → Val) (d a : RegField) : Issue Unit := do
  let x ← src a
  let l ← dstP d
  wrp l (BitVec.ofNat 64 (roundVal binary64 0 0 (v x)))

/-- An exact conversion to FP32: no draw (R283). -/
def convExact (v : Word → Val) (d a : RegField) : Issue Unit := do
  let x ← src a
  let l ← dst d
  wr l (BitVec.ofNat 32 (roundVal binary32 0 0 (v x)))

/-- The container bits of a narrow format (R233). -/
def Fmt.container (f : Fmt) : Nat := if 4 < f.W then 8 else 4

/-- A format register. -/
def Thread.fmt (t : Thread) (f : BitVec 3) : Fmt := Fmt.ofWord (t.f.getD f.toNat 0)

/-- Writes a narrow element into slot j of an old value (R285). -/
def putSlot (old : Word) (cb j v : Nat) : Word :=
  let m : Word := BitVec.ofNat 32 ((2 ^ cb - 1) * 2 ^ (cb * j))
  (old &&& ~~~m) ||| BitVec.ofNat 32 (v * 2 ^ (cb * j))

/-- `cvtdn` (R285). -/
def convSlot (o r : BitVec 2) (d a : RegField) (f : BitVec 3) (j : BitVec 4) : Issue Unit := do
  let c ← get
  let fm := c.th.fmt f
  if 32 / fm.container ≤ j.toNat then flagWord .illegalInstruction
  let x ← src a
  let l ← dst d
  let old ← rdDst l
  let m := match r.toNat with
    | 0 => 0
    | 1 => 1
    | 2 => 5
    | _ => c.th.rnd.toNat
  let rb ← draw m
  match convertDown fm m rb o.toNat (val x.toNat binary32) with
  | some v => wr l (putSlot old fm.container j.toNat v)
  | none => flagIf true .conversionOverflow (x.setWidth 64)

/-- `cvtup` (R286). -/
def convUp (d a : RegField) (f : BitVec 3) (j : BitVec 4) : Issue Unit := do
  let c ← get
  let fm := c.th.fmt f
  if 32 / fm.container ≤ j.toNat then flagWord .illegalInstruction
  let x ← src a
  let l ← dst d
  let m ← modeOf
  let rb ← draw m
  wr l (BitVec.ofNat 32 (roundVal binary32 m rb (val (x.toNat / 2 ^ (fm.container * j.toNat) % 2 ^ fm.W) fm)))

/-- R283, R284 -/
def bodyCvtF32I32 (d : BitVec 7) (a : BitVec 7) : Issue Unit := convRound (fun x => intVal x.toInt) binary32 d a
/-- R283, R284 -/
def execCvtF32I32 (w : BitVec 1) (d : BitVec 7) (a : BitVec 7) (st : State) : Host.Outcome State Fault Refusal := plain (Enc.cvtF32I32 w d a) .rndOnly (bodyCvtF32I32 d a) st

/-- R283, R284 -/
def bodyCvtF32N32 (d : BitVec 7) (a : BitVec 7) : Issue Unit := convRound (fun x => intVal x.toNat) binary32 d a
/-- R283, R284 -/
def execCvtF32N32 (w : BitVec 1) (d : BitVec 7) (a : BitVec 7) (st : State) : Host.Outcome State Fault Refusal := plain (Enc.cvtF32N32 w d a) .rndOnly (bodyCvtF32N32 d a) st

/-- R283, R284 -/
def bodyCvtI32F32 (d : BitVec 7) (a : BitVec 7) : Issue Unit := convDown32 int32 0 d a
/-- R283, R284 -/
def execCvtI32F32 (w : BitVec 1) (d : BitVec 7) (a : BitVec 7) (st : State) : Host.Outcome State Fault Refusal := plain (Enc.cvtI32F32 w d a) .rndPolicy (bodyCvtI32F32 d a) st

/-- R283, R284 -/
def bodyCvtN32F32 (d : BitVec 7) (a : BitVec 7) : Issue Unit := convDown32 nat32 0 d a
/-- R283, R284 -/
def execCvtN32F32 (w : BitVec 1) (d : BitVec 7) (a : BitVec 7) (st : State) : Host.Outcome State Fault Refusal := plain (Enc.cvtN32F32 w d a) .rndPolicy (bodyCvtN32F32 d a) st

/-- R283, R284 -/
def bodyCvtF64F32 (d : BitVec 7) (a : BitVec 7) : Issue Unit := convWide (fun x => val x.toNat binary32) d a
/-- R283, R284 -/
def execCvtF64F32 (w : BitVec 1) (d : BitVec 7) (a : BitVec 7) (st : State) : Host.Outcome State Fault Refusal := plain (Enc.cvtF64F32 w d a) .rndOnly (bodyCvtF64F32 d a) st

/-- R283, R284 -/
def bodyCvtF32F64 (d : BitVec 7) (a : BitVec 7) : Issue Unit := convDown64 binary32 1 d a
/-- R283, R284 -/
def execCvtF32F64 (w : BitVec 1) (d : BitVec 7) (a : BitVec 7) (st : State) : Host.Outcome State Fault Refusal := plain (Enc.cvtF32F64 w d a) .rndPolicy (bodyCvtF32F64 d a) st

/-- R283, R284 -/
def bodyCvtF64I32 (d : BitVec 7) (a : BitVec 7) : Issue Unit := convWide (fun x => intVal x.toInt) d a
/-- R283, R284 -/
def execCvtF64I32 (w : BitVec 1) (d : BitVec 7) (a : BitVec 7) (st : State) : Host.Outcome State Fault Refusal := plain (Enc.cvtF64I32 w d a) .rndOnly (bodyCvtF64I32 d a) st

/-- R283, R284 -/
def bodyCvtF64N32 (d : BitVec 7) (a : BitVec 7) : Issue Unit := convWide (fun x => intVal x.toNat) d a
/-- R283, R284 -/
def execCvtF64N32 (w : BitVec 1) (d : BitVec 7) (a : BitVec 7) (st : State) : Host.Outcome State Fault Refusal := plain (Enc.cvtF64N32 w d a) .rndOnly (bodyCvtF64N32 d a) st

/-- R283, R284 -/
def bodyCvtI32F64 (d : BitVec 7) (a : BitVec 7) : Issue Unit := convDown64 int32 0 d a
/-- R283, R284 -/
def execCvtI32F64 (w : BitVec 1) (d : BitVec 7) (a : BitVec 7) (st : State) : Host.Outcome State Fault Refusal := plain (Enc.cvtI32F64 w d a) .rndPolicy (bodyCvtI32F64 d a) st

/-- R283, R284 -/
def bodyCvtN32F64 (d : BitVec 7) (a : BitVec 7) : Issue Unit := convDown64 nat32 0 d a
/-- R283, R284 -/
def execCvtN32F64 (w : BitVec 1) (d : BitVec 7) (a : BitVec 7) (st : State) : Host.Outcome State Fault Refusal := plain (Enc.cvtN32F64 w d a) .rndPolicy (bodyCvtN32F64 d a) st

/-- R283, R284 -/
def bodyCvtF32Bf16 (d : BitVec 7) (a : BitVec 7) : Issue Unit := convExact (fun x => val (loHalf x) bfloat16) d a
/-- R283, R284 -/
def execCvtF32Bf16 (w : BitVec 1) (d : BitVec 7) (a : BitVec 7) (st : State) : Host.Outcome State Fault Refusal := plain (Enc.cvtF32Bf16 w d a) .rndOnly (bodyCvtF32Bf16 d a) st

/-- R283, R284 -/
def bodyCvtF32F16 (d : BitVec 7) (a : BitVec 7) : Issue Unit := convExact (fun x => val (loHalf x) binary16) d a
/-- R283, R284 -/
def execCvtF32F16 (w : BitVec 1) (d : BitVec 7) (a : BitVec 7) (st : State) : Host.Outcome State Fault Refusal := plain (Enc.cvtF32F16 w d a) .rndOnly (bodyCvtF32F16 d a) st

/-- R283, R284 -/
def bodyCvtBf16F32 (d : BitVec 7) (a : BitVec 7) : Issue Unit := convDown32 bfloat16 1 d a
/-- R283, R284 -/
def execCvtBf16F32 (w : BitVec 1) (d : BitVec 7) (a : BitVec 7) (st : State) : Host.Outcome State Fault Refusal := plain (Enc.cvtBf16F32 w d a) .rndPolicy (bodyCvtBf16F32 d a) st

/-- R283, R284 -/
def bodyCvtF16F32 (d : BitVec 7) (a : BitVec 7) : Issue Unit := convDown32 binary16 1 d a
/-- R283, R284 -/
def execCvtF16F32 (w : BitVec 1) (d : BitVec 7) (a : BitVec 7) (st : State) : Host.Outcome State Fault Refusal := plain (Enc.cvtF16F32 w d a) .rndPolicy (bodyCvtF16F32 d a) st

/-- R285 -/
def bodyCvtdn (o : BitVec 2) (r : BitVec 2) (d : BitVec 7) (a : BitVec 7) (f : BitVec 3) (j : BitVec 4) : Issue Unit := convSlot o r d a f j
/-- R285 -/
def execCvtdn (w : BitVec 1) (o : BitVec 2) (r : BitVec 2) (d : BitVec 7) (a : BitVec 7) (f : BitVec 3) (j : BitVec 4) (st : State) : Host.Outcome State Fault Refusal := plain (Enc.cvtdn w o r d a f j) .nothing (bodyCvtdn o r d a f j) st

/-- R286 -/
def bodyCvtup (d : BitVec 7) (a : BitVec 7) (f : BitVec 3) (j : BitVec 4) : Issue Unit := convUp d a f j
/-- R286 -/
def execCvtup (w : BitVec 1) (d : BitVec 7) (a : BitVec 7) (f : BitVec 3) (j : BitVec 4) (st : State) : Host.Outcome State Fault Refusal := plain (Enc.cvtup w d a f j) .rndOnly (bodyCvtup d a f j) st

end Sys2Proof.Machine
end

