-- ==== Sys2Proof/Machine/Tiles.lean ====
section
/-! DEFINITION. Tiles, the sluice table and barrier objects (R167 to R172, R328 to R330), with opcode-table rows
TILE_WAIT_RELEASE and BWAIT_RELEASE. -/
namespace Sys2Proof.Machine

/-! ### Barrier objects (R171, R172) -/

/-- A tile of a team. -/
def State.tile? (s : State) (id : TeamId) (t : Nat) : Option Tile := (s.team? id).bind (fun v => v.tiles[t]?)

/-- Changes a tile of a team. -/
def State.modTile (s : State) (id : TeamId) (t : Nat) (f : Tile → Tile) : State :=
  s.modTeam id (fun v => match v.tiles[t]? with
    | some x => { v with tiles := v.tiles.set t (f x) }
    | none => v)

/-- The 8 bytes of a barrier object (R171). -/
def State.barValue (s : State) : BarName → Dword
  | .object t off => BitVec.ofNat 64 (s.read (s.coPa t off) 8)
  | .tile t k => match s.tile? t k with
    | some x => x.bar
    | none => 0

/-- An update of a barrier object: `d` is added to the count, and the phase toggles at zero (R172); `err` is sticky. -/
def barUpdate (v : Dword) (d : Int) (err : Bool) : Dword :=
  let c : BitVec 40 := v.extractLsb' 0 40 + BitVec.ofInt 40 d
  let phase := if c = 0 then !v.getLsbD 63 else v.getLsbD 63
  BitVec.ofNat 64 (c.toNat + bits v.toNat 61 40 * 2 ^ 40 + b2n (v.getLsbD 62 || err) * 2 ^ 62 + b2n phase * 2 ^ 63)

/-- What a barrier's present phase has counted, and what the phases before it have (R199). -/
def State.counts (s : State) (b : BarName) : View × View := AMap.getD s.counted (s.barPa b) (.none, .none)

/-- The present phase of a barrier counts what a view sees; a phase that is over is what a `bwait` acquires (R199). -/
def State.noteCount (s : State) (b : BarName) (flipped : Bool) (v : View) : State :=
  let c := s.counts b
  let now := c.1.join v
  { s with counted := AMap.set s.counted (s.barPa b) (if flipped then (.none, c.2.join now) else (now, c.2)) }

/-- Updates a barrier object; a filling tile whose phase toggles is ready (R168). -/
def State.barPut (s : State) (b : BarName) (v : Dword) : State :=
  match b with
  | .object t off => s.write (s.coPa t off) 8 v.toNat
  | .tile t k => s.modTile t k (fun x =>
      { x with bar := v, state := if x.state = .filling ∧ v.getLsbD 63 ≠ x.bar.getLsbD 63 then .ready else x.state })

/-- Adds to a barrier object (R172), which counts what a view sees. -/
def State.barAdd (s : State) (b : BarName) (d : Int) (err : Bool) (seen : View) : State :=
  let v := barUpdate (s.barValue b) d err
  (s.barPut b v).noteCount b (v.getLsbD 63 != (s.barValue b).getLsbD 63) seen

/-- arm(e) of R172. -/
def State.barArm (s : State) (b : BarName) (e : Nat) : State := s.barAdd b e false .none

/-- arrive(b) of R172, behind the writes that a view sees. -/
def State.barArrive (s : State) (b : BarName) (n : Nat) (err : Bool) (seen : View) : State := s.barAdd b (-(n : Int)) err seen

/-- A thread sees what the phases of a barrier that are over have counted (R199). -/
def State.seesCounted (s : State) (id : ThreadId) (b : BarName) : State := s.sees id (s.counts b).2

/-! ### Tile states (R168, R169) -/

/-- A dispatched task of a team reads a tile (R168, R177). -/
def State.tileRead (s : State) (id : TeamId) (t : Nat) : Bool :=
  (s.core id.core).flow.any (fun e => decide (e.team = id) && e.running && decide (t ∈ e.tiles.inputs))

/-- `tdef` and `tfree` wait for the tile (R168). -/
def State.tileBusy (s : State) (id : TeamId) (t : Nat) : Bool :=
  (match s.tile? id t with
    | some x => decide (x.state = .filling) || decide (x.state = .draining)
    | none => false) || s.tileRead id t

/-- A destination tile enters filling, its barrier armed with its bytes (R168). -/
def State.fillTile (s : State) (id : TeamId) (t : Nat) : State :=
  match s.tile? id t with
  | none => s
  | some x => (s.modTile id t (fun x => { x with state := .filling })).barArm (.tile id t) x.bytes

/-- The number of tiles of a team (R103). -/
def State.tileCount (s : State) (id : TeamId) : Nat :=
  match s.team? id with
  | some v => v.tiles.length
  | none => 0

/-- A tile index at or above the team's tiles (R169). -/
def tileExists (t : BitVec 8) : Issue Unit := do
  let c ← get
  if c.s.tileCount c.id.teamId ≤ t.toNat then flag .undefinedTile (t.setWidth 64)

/-- A tile that is not defined (R169, R329). -/
def tileDefined (t : BitVec 8) : Issue Unit := do
  let c ← get
  match c.s.tile? c.id.teamId t.toNat with
  | some x => if !x.valid then flag .undefinedTile (t.setWidth 64)
  | none => flag .undefinedTile (t.setWidth 64)

/-- A tile that has to leave its busy state first (R168). -/
def tileIdle (t : BitVec 8) : Issue Unit := do
  let c ← get
  if c.s.tileBusy c.id.teamId t.toNat then holdFor (.tile t.toNat false)

/-- TILE_WAIT_RELEASE: a thread parked on a tile issues once the tile is as it needs it (R168, R169). -/
def execTileWaitRelease (thread : ThreadId) (s : State) : Host.Outcome State Fault Refusal :=
  match s.thread? thread with
  | none => .next s
  | some t =>
    match t.wait with
    | .tile k ready =>
      let go := if ready then (match s.tile? thread.teamId k with
          | some x => decide (x.state = .ready)
          | none => true)
        else !s.tileBusy thread.teamId k
      .next (if go then s.setThread thread { t with wait := .committed } else s)
    | _ => .next s

/-! ### tdef, tfree, tstate (R328, R329) -/

/-- A barrier begins anew: it has counted nothing. -/
def State.forgetCounts (s : State) (b : BarName) : State := { s with counted := AMap.erase s.counted (s.barPa b) }

/-- The definition of a tile from its packed value (R328). -/
def defineTile (t : BitVec 8) (v : Nat) : Issue Unit := do
  let c ← get
  let base := 64 * bits v 12 0
  let bytes := 64 * (bits v 25 13 + 1)
  flagWordIf (decide (2 ^ 26 ≤ v)) .reservedOperand
  flagIf (!c.s.inRange c.id .co base bytes) .permission (BitVec.ofNat 64 base)
  tileExists t
  tileIdle t
  modDev (fun s => (s.modTile c.id.teamId t.toNat (fun _ =>
    { valid := true, state := .empty, base := base, bytes := bytes, bar := 0 })).forgetCounts (.tile c.id.teamId t.toNat))

/-- R328: form 0. -/
def bodyTdef (t : BitVec 8) (i : BitVec 11) : Issue Unit := do
  let c ← get
  defineTile t (c.hs.immU i.toNat 11)
/-- R328 -/
def execTdef (w : BitVec 1) (t : BitVec 8) (i : BitVec 11) (st : State) : Host.Outcome State Fault Refusal :=
  plain (Enc.tdef w t i) .immOnly (bodyTdef t i) st

/-- R328: form 1, which has no immediate and accepts no hint (R253). -/
def bodyTdefReg (t : BitVec 8) (a : BitVec 7) : Issue Unit := do
  let v ← src a
  defineTile t v.toNat
/-- R328 -/
def execTdefReg (w : BitVec 1) (t : BitVec 8) (a : BitVec 7) (st : State) : Host.Outcome State Fault Refusal :=
  plain (Enc.tdefReg w t a) .nothing (bodyTdefReg t a) st

/-- R329 -/
def bodyTfree (t : BitVec 8) : Issue Unit := do
  let c ← get
  tileExists t
  tileDefined t
  tileIdle t
  modDev (fun s => s.modTile c.id.teamId t.toNat (fun x => { x with state := .empty }))
/-- R329 -/
def execTfree (w : BitVec 1) (t : BitVec 8) (st : State) : Host.Outcome State Fault Refusal :=
  plain (Enc.tfree w t) .nothing (bodyTfree t) st

/-- The code of a tile state (R167). -/
def TileState.code : TileState → Nat
  | .empty => 0
  | .filling => 1
  | .ready => 2
  | .draining => 3

/-- What `tstate` writes (R329). -/
def Tile.status (x : Tile) : Word :=
  if !x.valid then 0
  else BitVec.ofNat 32 (x.state.code + 4 + 8 * b2n (x.bar.getLsbD 62) + 16 * b2n (x.bar.getLsbD 63))

/-- R329 -/
def bodyTstate (t : BitVec 8) (d : BitVec 7) : Issue Unit := do
  let c ← get
  let l ← dst d
  tileExists t
  wr l (match c.s.tile? c.id.teamId t.toNat with
    | some x => x.status
    | none => 0)
/-- R329 -/
def execTstate (w : BitVec 1) (t : BitVec 8) (d : BitVec 7) (st : State) : Host.Outcome State Fault Refusal :=
  plain (Enc.tstate w t d) .nothing (bodyTstate t d) st

/-! ### barm and bwait (R330) -/

/-- An offset of a structure of `n` bytes, aligned to `align`, in the team's scratchpad (R327). -/
def coOffset (a : RegField) (align n : Nat) : Issue Nat := do
  let k ← block a 1 1
  let v ← regOf k
  let c ← get
  flagIf (decide (v.toNat % align ≠ 0)) .misaligned (v.setWidth 64)
  flagIf (!c.s.inRange c.id .co v.toNat n) .permission (v.setWidth 64)
  pure v.toNat

/-- R330: object form. -/
def bodyBarm (a b : BitVec 7) : Issue Unit := do
  let o ← coOffset a 8 8
  let e ← src b
  let c ← get
  access (.barm (.object c.id.teamId o) e)
/-- R330 -/
def execBarm (w : BitVec 1) (a b : BitVec 7) (st : State) : Host.Outcome State Fault Refusal :=
  plain (Enc.barm w a b) .nothing (bodyBarm a b) st

/-- R330: tile form. -/
def bodyBarmT (t : BitVec 8) (b : BitVec 7) : Issue Unit := do
  let e ← src b
  tileExists t
  tileDefined t
  let c ← get
  access (.barm (.tile c.id.teamId t.toNat) e)
/-- R330 -/
def execBarmT (w : BitVec 1) (t : BitVec 8) (b : BitVec 7) (st : State) : Host.Outcome State Fault Refusal :=
  plain (Enc.barmT w t b) .nothing (bodyBarmT t b) st

/-- A `barm` is performed at the bank (R330). -/
def State.startBarm (s : State) (id : ThreadId) (e : LogEntry) (b : BarName) (v : Word) : State :=
  (s.barArm b v.toNat).setEntry id e (.returned [])

/-- A `bwait` that reads another phase completes, as an acquire of what was counted before (R172, R199, R330). -/
def State.bwaitStep (s : State) (id : ThreadId) : State :=
  match s.thread? id with
  | none => s
  | some t =>
    match t.wait with
    | .bwait b phase => if (s.barValue b).getLsbD 63 ≠ phase then (s.seesCounted id b).complete id else s
    | _ => s

/-- BWAIT_RELEASE (R330). -/
def execBwaitRelease (thread : ThreadId) (s : State) : Host.Outcome State Fault Refusal := .next (s.bwaitStep thread)

/-- R330: object form. -/
def bodyBwait (a b : BitVec 7) : Issue Unit := do
  let o ← coOffset a 8 8
  let p ← src b
  let c ← get
  parkAt (.bwait (.object c.id.teamId o) (p.getLsbD 0))
/-- R330 -/
def execBwait (w : BitVec 1) (a b : BitVec 7) (st : State) : Host.Outcome State Fault Refusal :=
  issue (Enc.bwait w a b) true .nothing (bodyBwait a b) (fun s => s.bwaitStep st.cur) st

/-- R330: tile form. -/
def bodyBwaitT (t : BitVec 8) (b : BitVec 7) : Issue Unit := do
  let p ← src b
  tileExists t
  tileDefined t
  let c ← get
  parkAt (.bwait (.tile c.id.teamId t.toNat) (p.getLsbD 0))
/-- R330 -/
def execBwaitT (w : BitVec 1) (t : BitVec 8) (b : BitVec 7) (st : State) : Host.Outcome State Fault Refusal :=
  issue (Enc.bwaitT w t b) true .nothing (bodyBwaitT t b) (fun s => s.bwaitStep st.cur) st

end Sys2Proof.Machine
end

