-- ==== Sys2Proof/Machine/Engine.lean ====
section
/-! DEFINITION. What the engines share: reaching a virtual range page by page, the ranges they own (R175, R181, R182,
R383), and the SSB of a state-space operation (R341, R342). -/
namespace Sys2Proof.Machine

/-- What an engine finds when it reaches for a local virtual range: its physical pieces, or what stops it. -/
inductive Reach where
  | ok (parts : List (Nat × Nat))
  | missing (va : Nat)
  | refused
  | poison (va : Nat)
  | held
  deriving DecidableEq, Repr

/-- Reaches a local virtual range with the K of its issuer, page by page; a grain of another engine and a moving page
hold it (R25, R175, R182). `fuel` pages. -/
def State.reachRange (s : State) (w : Walker) (asid : Nat) (kernel : Bool) (by' : Option (Nat × Nat)) (need : Need) : (fuel va n : Nat) → Reach
  | 0, _, _ => .ok []
  | fuel + 1, va, n =>
    if n = 0 then .ok [] else
    let k := min n (65536 - va % 65536)
    match s.translate w asid va need kernel with
    | .missing => .missing va
    | .denied => .refused
    | .ok pa en =>
      if bits en 13 13 = 1 then .refused
      else if s.heldOther by' pa k then .held
      else match (if need = .load then s.poisoned pa k else none) with
      | some i => .poison (va + i)
      | none => match s.reachRange w asid kernel by' need fuel (va + k) (n - k) with
        | .ok r => .ok ((pa, k) :: r)
        | x => x

/-- The bytes that an engine of a team reads of physical pieces, for a piece of an operation: of each byte any version that what happens
before the operation leaves open (R175, R190, R199; Config.staleness). -/
def State.engineRead (s : State) (t : TeamId) (v : View) (op piece : Nat) (ps : List (Nat × Nat)) : List Byte :=
  let r := s.loadOf none [{ by' := s.engineAgent t, view := v, ps := ps }] ((List.range (bytesOf ps).length).map (Config.staleness op piece))
  s.bytesAt (ownVersions ps r.2)

/-- The bytes of physical pieces. -/
def State.piecesBytes (s : State) (ps : List (Nat × Nat)) : List Byte := ps.flatMap (fun p => Memory.read s.mem p.1 p.2)

/-- Writes bytes over physical pieces, as an origin. -/
def State.piecesWrite (s : State) (o : Origin) : List (Nat × Nat) → List Byte → State
  | [], _ => s
  | (pa, n) :: r, bs => (s.storeFrom o pa (bs.take n)).piecesWrite o r (bs.drop n)

/-- The number of dataflow entries and of owned ranges that a core holds (R177, R181). -/
def tableSize : Nat := 64

/-- No grain of a range is owned by another engine than a unit of this core (R181, R182). -/
def State.rangeFree (s : State) (core unit asid : Nat) (l : Nat × Nat) : Bool :=
  (pageCuts (pageFuel l.2) l.1 l.2).all (fun c =>
    match s.leaf (.core core) asid c.1 with
    | some (e, b) => !s.ownedOther (some (core, unit)) (leafPa e b c.1) c.2
    | none => true)

/-- An engine operation of a core can register its ranges now (R181). -/
def State.canOwn (s : State) (core : Nat) (rs : List Range) : Bool :=
  decide ((s.core core).ranges.length + rs.length ≤ tableSize)
    && rs.all (fun r => r.left.all (fun l => s.rangeFree core r.unit r.asid l))

/-- The ranges of a core with a virtual piece of an operation written or failed; a range without any left is freed
(R181). -/
def Core.releasePiece (k : Core) (tag va n : Nat) : Core :=
  let cut := fun (r : Range) =>
    if r.tag = tag then { r with left := r.left.filter (fun l => !(decide (va ≤ l.1) && decide (l.1 + l.2 ≤ va + n))) } else r
  { k with ranges := (k.ranges.map cut).filter (fun r => !r.left.isEmpty) }

/-- Frees every range of an operation (R181, R345). -/
def Core.releaseAll (k : Core) (tag : Nat) : Core := { k with ranges := k.ranges.filter (fun r => decide (r.tag ≠ tag)) }

/-- Changes a core. -/
def State.modCore (s : State) (c : Nat) (f : Core → Core) : State := s.setCore c (f (s.core c))

/-- Cuts a range into virtual pieces of up to 64 bytes aligned at 64 (R175). -/
def cutPieces : (fuel va n : Nat) → List (Nat × Nat)
  | 0, _, _ => []
  | fuel + 1, va, n =>
    if n = 0 then [] else
    let k := min n (64 - va % 64)
    (va, k) :: cutPieces fuel (va + k) (n - k)

/-! ### The SSB (R341, R342) -/

/-- A field of an SSB. -/
def ssbField (b : List Byte) (at' n : Nat) : Nat := leNat ((b.drop at').take n)

/-- N of an SSB. -/
def ssbN (b : List Byte) : Nat := 16 * 2 ^ ssbField b 0 1
/-- P of an SSB. -/
def ssbP (b : List Byte) : Nat := 16 * ssbField b 1 1
/-- H of an SSB. -/
def ssbH (b : List Byte) : Nat := ssbField b 2 2
/-- L of an SSB. -/
def ssbL (b : List Byte) : Nat := ssbField b 4 4
/-- Q of an SSB. -/
def ssbQ (b : List Byte) : Nat := 16 * ssbField b 8 1
/-- The number of chunks. -/
def ssbC (b : List Byte) : Nat := (ssbL b + ssbQ b - 1) / ssbQ b
/-- Completed chunks. -/
def ssbDone (b : List Byte) : Nat := ssbField b 72 4
/-- The steps of chunk c. -/
def ssbSteps (b : List Byte) (c : Nat) : Nat := min (ssbQ b) (ssbL b - c * ssbQ b)
/-- A pointer of an SSB: 0 x, 1 a, 2 B, 3 C, 4 y, 5 slot 0, 6 slot 1. -/
def ssbPtr (b : List Byte) (k : Nat) : Nat := ssbField b (16 + 8 * k) 8

/-- The checks of R342 at the last signature. The element sizes are 2 bytes for x, B and C and 4 for the others. -/
def ssbOk (b : List Byte) (cistBytes : Nat) : Bool :=
  decide (ssbField b 0 1 ≤ 3) && decide (1 ≤ ssbField b 1 1) && decide (ssbField b 1 1 ≤ 4)
    && decide (1 ≤ ssbH b) && decide (ssbH b ≤ 256) && decide (1 ≤ ssbL b) && decide (ssbL b ≤ 2 ^ 24)
    && decide (1 ≤ ssbField b 8 1) && decide (ssbField b 8 1 ≤ 4) && decide (ssbField b 9 1 ≤ 64)
    && decide (ssbField b 10 1 ≤ 2) && decide (ssbField b 11 1 ≤ 1)
    && decide (ssbField b 12 4 % 256 = 0) && decide (ssbField b 12 4 + 131072 ≤ cistBytes)
    && (List.range 7).all (fun k => decide (ssbPtr b k < 2 ^ 48)
        && decide (ssbPtr b k % (if k = 0 ∨ k = 2 ∨ k = 3 then 2 else 4) = 0))
    && decide (ssbDone b ≤ ssbC b) && decide (ssbField b 80 4 < 4) && decide (ssbField b 84 44 = 0)

/-- Where chunk c writes y: address and bytes. -/
def ssbChunkY (b : List Byte) (c : Nat) : Nat × Nat :=
  (ssbPtr b 4 + 4 * c * ssbQ b * ssbH b * ssbP b, 4 * ssbSteps b c * ssbH b * ssbP b)

/-- The bytes of one state slot. -/
def ssbSlotBytes (b : List Byte) : Nat := 4 * ssbH b * ssbN b * ssbP b

/-- The ranges of an `ssx` from chunk `done` on: y by chunks, and both slots (R342). -/
def ssbRanges (b : List Byte) (tag asid : Nat) : List Range :=
  let c0 := ssbDone b
  [ { tag := tag, asid := asid, left := (List.range (ssbC b - c0)).map (fun i => ssbChunkY b (c0 + i)), unit := 2 },
    { tag := tag, asid := asid, left := [(ssbPtr b 5, ssbSlotBytes b)], unit := 2 },
    { tag := tag, asid := asid, left := [(ssbPtr b 6, ssbSlotBytes b)], unit := 2 } ]

end Sys2Proof.Machine
end

