-- ==== Sys2Proof/Machine/MemoryOps.lean ====
section
/-! DEFINITION. Loads, stores, atomics and the ordering and counter instructions, majors 0x20 to 0x2B (R309 to R326),
with the ends of their waits: opcode-table rows COUNTER_WAIT_RELEASE, FENCE_COMPLETE and STREAM_ELEMENT_FETCH. -/
namespace Sys2Proof.Machine

/-! ### Checks at issue -/

/-- The checks of R311 on the address of an access of `n` bytes; `ordered` is an acquire, release or atomic. -/
def checkAddress (space : Space) (addr : Dword) (n : Nat) (ordered : Bool) : Issue Unit := do
  let c ← get
  if space = .gl then
    if addr.msb then do
      let st := c.s.straddles addr n
      flagIf (ordered && st) .straddle addr
      flagIf (ordered && !st && decide (addr.toNat % n ≠ 0)) .misaligned addr
      flagIf (!c.s.globalOk (c.s.asidOf c.id.teamId) addr n) .permission addr
    else flagIf (ordered && decide (addr.toNat % n ≠ 0)) .misaligned addr
  else do
    flagIf (decide (addr.toNat % n ≠ 0)) .misaligned addr
    flagIf (!c.s.inRange c.id space addr.toNat n) .permission addr

/-! ### Data registers of a given access size (R309) -/

/-- The number of registers that `n` bytes take; also what the first register's number is a multiple of. -/
def sizeRegs (n : Nat) : Nat := max 1 (n / 4)

/-- Resolves the destination of a fixed-latency load of `n` bytes. -/
def dstSized (f : RegField) (n : Nat) : Issue Loc := fun c =>
  let r := c.resolve f false
  match r.1 with
  | .none => r
  | .reg k =>
    if k % sizeRegs n = 0 ∧ k + sizeRegs n ≤ r.2.th.regs then r
    else (.none, r.2.loseWord)
  | .str k => if n = 16 then (.none, r.2.loseWord) else (r.1, r.2.checkAppend k (fun z => decide (z = n)))

/-- The registers `k` to `k + m - 1` as one number, the lowest register lowest (R312). -/
def Thread.regsValue (t : Thread) (k : Nat) : Nat → Nat
  | 0 => 0
  | m + 1 => (t.reg k).toNat + 2 ^ 32 * t.regsValue (k + 1) m

/-- Resolves and reads the data of a store of `n` bytes. -/
def srcSized (f : RegField) (n : Nat) : Issue Nat := fun c =>
  let r := c.resolve f true
  match r.1 with
  | .none => (0, r.2)
  | .reg k =>
    if k % sizeRegs n = 0 ∧ k + sizeRegs n ≤ r.2.th.regs then (r.2.th.regsValue k (sizeRegs n) % 256 ^ n, r.2)
    else (0, r.2.loseWord)
  | .str k => if n = 16 then (0, r.2.loseWord) else r.2.popStream k (fun z => decide (z = n))

/-- Writes the value of a fixed-latency load of `n` bytes (R312). -/
def wrSized (l : Loc) (n v : Nat) : Issue Unit := modify (fun c =>
  match l with
  | .none => c
  | .reg k => { c with th := (loadValues k n v).foldl (fun t p => t.setReg p.1 p.2) c.th }
  | .str k => c.append k v)

/-! ### Loads and stores (R309 to R314) -/

/-- The hints that loads and stores of a space accept (R253). -/
def memAccepts (space : Space) : Accepts :=
  if space = .ln then Accepts.immOnly else { Accepts.nothing with imm := true, scope := true, cache := true }

/-- An op cell marked illegal in R257. -/
def opIllegal (space : Space) (op : BitVec 3) : Bool :=
  (decide (space = .ln) && decide (5 ≤ op.toNat)) || (decide (space ≠ .gl) && decide (op = 7))

/-- The size of an access (R257, R309): a CACHE hint's for op 111. -/
def opSize (op : BitVec 3) (h : HintSet) : Nat :=
  match op.toNat with
  | 0 => 1
  | 1 => 2
  | 2 => 4
  | 3 => 8
  | 4 => 16
  | 5 => 4
  | 6 => 8
  | _ => match h.cache with
    | some (z, _, _) => 2 ^ z.toNat
    | none => 4

/-- The order of an access (R257). -/
def opOrder (op : BitVec 3) (load : Bool) : Order :=
  match op.toNat with
  | 5 => if load then .acq else .rel
  | 6 => if load then .acq else .rel
  | 7 => .nt
  | _ => .plain

/-- CACHE bits [6:4] that are not a size: 101 to 111, or nonzero on an op other than 111 (R311). -/
def cacheBad (h : HintSet) (nt : Bool) : Bool :=
  match h.cache with
  | none => false
  | some (z, _, _) => decide (5 ≤ z.toNat) || (!nt && decide (z ≠ 0))

/-- The default scope of a space (R310). -/
def spaceScope : Space → Scope
  | .ln => .grp
  | .co => .team
  | .cl => .clu
  | .ch => .dev
  | .gl => .dev

/-- The scope of an instruction: the SCOPE hint's, or its default. -/
def HintSet.scopeOr (h : HintSet) (d : Scope) : Scope :=
  match h.scope with
  | some c => (Scope.ofCode c).getD d
  | none => d

/-- The address of a load or store (R312). -/
def memAddress (space : Space) (fa : RegField) (off : BitVec 8) (n : Nat) : Issue Dword := do
  let c ← get
  let d := c.hs.immS off.toNat 8 * (n : Int)
  if space = .gl then do
    let k ← block fa 2 2
    let b ← pairOf k
    pure (b + BitVec.ofInt 64 d)
  else do
    let k ← block fa 1 1
    let b ← regOf k
    pure ((b + BitVec.ofInt 32 d).setWidth 64)

/-- An earlier element of the thread's own streams that a lane-slice access has to follow (R191, R296). -/
def Ctx.laneHeld (c : Ctx) (addr : Dword) (n : Nat) : Bool :=
  c.th.q.any (fun q => match q with
    | some q => decide (q.space = .ln)
        && c.s.streamMeets c.id c.s.stamp (c.s.parts c.id c.th.kernel .ln addr n .load) q
    | none => false)

/-- A load or store of a space (R309 to R312). -/
def memBody (space : Space) (load : Bool) (op : BitVec 3) (fd fa : RegField) (off : BitVec 8) : Issue Unit := do
  let c ← get
  if opIllegal space op || cacheBad c.hs (decide (op = 7)) then flagWord .illegalInstruction
  let n := opSize op c.hs
  let ord := opOrder op load
  let addr ← memAddress space fa off n
  if load then
    if space = .ln then do
      let lost ← isLost
      let l ← dstSized fd n
      checkedWith lost (checkAddress space addr n false)
      let c ← get
      if c.laneHeld addr n then modify (fun c => { c with stall := true })
      wrSized l n (c.s.read (laneBase c.id.core c.th.lane c.th.slot + addr.toNat) n)
    else do
      let lost ← isLost
      let d ← dstDeferred fd (sizeRegs n) (sizeRegs n)
      checkedWith lost (checkAddress space addr n (decide (ord = .acq)))
      access (.load space addr n ord (c.hs.scopeOr (spaceScope space)) d)
  else do
    let lost ← isLost
    let v ← srcSized fd n
    checkedWith lost (checkAddress space addr n (decide (ord = .rel)))
    if space = .ln then do
      let c ← get
      if c.laneHeld addr n then modify (fun c => { c with stall := true })
      modDev (fun s => s.storeFrom (s.originOf c.id none false) (laneBase c.id.core c.th.lane c.th.slot + addr.toNat) (natBytes n v))
    else access (.store space addr n ord (c.hs.scopeOr (spaceScope space)) v)

/-- R312 -/
def bodyLdLn (o : BitVec 3) (d a : BitVec 7) (f : BitVec 8) : Issue Unit := memBody .ln true o d a f
/-- R312 -/
def execLdLn (w : BitVec 1) (o : BitVec 3) (d a : BitVec 7) (f : BitVec 8) (st : State) :
    Host.Outcome State Fault Refusal := plain (Enc.ldLn w o d a f) (memAccepts .ln) (bodyLdLn o d a f) st
/-- R312 -/
def bodyStLn (o : BitVec 3) (d a : BitVec 7) (f : BitVec 8) : Issue Unit := memBody .ln false o d a f
/-- R312 -/
def execStLn (w : BitVec 1) (o : BitVec 3) (d a : BitVec 7) (f : BitVec 8) (st : State) :
    Host.Outcome State Fault Refusal := plain (Enc.stLn w o d a f) (memAccepts .ln) (bodyStLn o d a f) st
/-- R312 -/
def execLdCo (w : BitVec 1) (o : BitVec 3) (d a : BitVec 7) (f : BitVec 8) (st : State) :
    Host.Outcome State Fault Refusal := plain (Enc.ldCo w o d a f) (memAccepts .co) (memBody .co true o d a f) st
/-- R312 -/
def execStCo (w : BitVec 1) (o : BitVec 3) (d a : BitVec 7) (f : BitVec 8) (st : State) :
    Host.Outcome State Fault Refusal := plain (Enc.stCo w o d a f) (memAccepts .co) (memBody .co false o d a f) st
/-- R312 -/
def execLdCl (w : BitVec 1) (o : BitVec 3) (d a : BitVec 7) (f : BitVec 8) (st : State) :
    Host.Outcome State Fault Refusal := plain (Enc.ldCl w o d a f) (memAccepts .cl) (memBody .cl true o d a f) st
/-- R312 -/
def execStCl (w : BitVec 1) (o : BitVec 3) (d a : BitVec 7) (f : BitVec 8) (st : State) :
    Host.Outcome State Fault Refusal := plain (Enc.stCl w o d a f) (memAccepts .cl) (memBody .cl false o d a f) st
/-- R312 -/
def execLdCh (w : BitVec 1) (o : BitVec 3) (d a : BitVec 7) (f : BitVec 8) (st : State) :
    Host.Outcome State Fault Refusal := plain (Enc.ldCh w o d a f) (memAccepts .ch) (memBody .ch true o d a f) st
/-- R312 -/
def execStCh (w : BitVec 1) (o : BitVec 3) (d a : BitVec 7) (f : BitVec 8) (st : State) :
    Host.Outcome State Fault Refusal := plain (Enc.stCh w o d a f) (memAccepts .ch) (memBody .ch false o d a f) st
/-- R312 -/
def execLdGl (w : BitVec 1) (o : BitVec 3) (d a : BitVec 7) (f : BitVec 8) (st : State) :
    Host.Outcome State Fault Refusal := plain (Enc.ldGl w o d a f) (memAccepts .gl) (memBody .gl true o d a f) st
/-- R312 -/
def execStGl (w : BitVec 1) (o : BitVec 3) (d a : BitVec 7) (f : BitVec 8) (st : State) :
    Host.Outcome State Fault Refusal := plain (Enc.stGl w o d a f) (memAccepts .gl) (memBody .gl false o d a f) st

/-! ### Atomics (R315 to R317) -/

/-- `atom` (R316). d is resolved once, after the address: as the destination of a form with return, and as a source
otherwise (log entry 13). -/
def atomBody (op : AtomOp) (sc : BitVec 3) (wide ret : Bool) (fd fa : RegField) : Issue Unit := do
  let c ← get
  if cacheBad c.hs false || decide (sc = 7) then flagWord .illegalInstruction
  let k ← block fa 2 2
  let addr ← pairOf k
  let n := if wide then 8 else 4
  let regs := (if wide then 2 else 1) * (if op = .cas then 2 else 1)
  let scope := (Scope.ofCode sc).getD .dev
  if ret || decide (op = .cas) then do
    let lost ← isLost
    let d ← if ret then dstDeferred fd regs regs else block fd regs regs
    checkedWith lost (checkAddress .gl addr n true)
    let c ← get
    let v := c.th.regsValue d regs
    access (.atom op addr wide scope ret d (v % 256 ^ n) (v / 256 ^ n))
  else do
    let lost ← isLost
    let v ← srcSized fd n
    checkedWith lost (checkAddress .gl addr n true)
    access (.atom op addr wide scope false 0 v 0)

/-- An atomic accepts a CACHE hint only (R253). -/
def atomAccepts : Accepts := { Accepts.nothing with cache := true }

/-- R316 -/
def execAtomAdd (w : BitVec 1) (s : BitVec 3) (z r : BitVec 1) (d a : BitVec 7) (st : State) :
    Host.Outcome State Fault Refusal :=
  plain (Enc.atomAdd w s z r d a) atomAccepts (atomBody .add s (decide (z = 1)) (decide (r = 1)) d a) st
/-- R316 -/
def execAtomAnd (w : BitVec 1) (s : BitVec 3) (z r : BitVec 1) (d a : BitVec 7) (st : State) :
    Host.Outcome State Fault Refusal :=
  plain (Enc.atomAnd w s z r d a) atomAccepts (atomBody .and s (decide (z = 1)) (decide (r = 1)) d a) st
/-- R316 -/
def execAtomOr (w : BitVec 1) (s : BitVec 3) (z r : BitVec 1) (d a : BitVec 7) (st : State) :
    Host.Outcome State Fault Refusal :=
  plain (Enc.atomOr w s z r d a) atomAccepts (atomBody .or s (decide (z = 1)) (decide (r = 1)) d a) st
/-- R316 -/
def execAtomXor (w : BitVec 1) (s : BitVec 3) (z r : BitVec 1) (d a : BitVec 7) (st : State) :
    Host.Outcome State Fault Refusal :=
  plain (Enc.atomXor w s z r d a) atomAccepts (atomBody .xor s (decide (z = 1)) (decide (r = 1)) d a) st
/-- R316 -/
def execAtomMinI (w : BitVec 1) (s : BitVec 3) (z r : BitVec 1) (d a : BitVec 7) (st : State) :
    Host.Outcome State Fault Refusal :=
  plain (Enc.atomMinI w s z r d a) atomAccepts (atomBody .minI s (decide (z = 1)) (decide (r = 1)) d a) st
/-- R316 -/
def execAtomMaxI (w : BitVec 1) (s : BitVec 3) (z r : BitVec 1) (d a : BitVec 7) (st : State) :
    Host.Outcome State Fault Refusal :=
  plain (Enc.atomMaxI w s z r d a) atomAccepts (atomBody .maxI s (decide (z = 1)) (decide (r = 1)) d a) st
/-- R316 -/
def execAtomMinN (w : BitVec 1) (s : BitVec 3) (z r : BitVec 1) (d a : BitVec 7) (st : State) :
    Host.Outcome State Fault Refusal :=
  plain (Enc.atomMinN w s z r d a) atomAccepts (atomBody .minN s (decide (z = 1)) (decide (r = 1)) d a) st
/-- R316 -/
def execAtomMaxN (w : BitVec 1) (s : BitVec 3) (z r : BitVec 1) (d a : BitVec 7) (st : State) :
    Host.Outcome State Fault Refusal :=
  plain (Enc.atomMaxN w s z r d a) atomAccepts (atomBody .maxN s (decide (z = 1)) (decide (r = 1)) d a) st
/-- R316 -/
def execAtomSwap (w : BitVec 1) (s : BitVec 3) (z r : BitVec 1) (d a : BitVec 7) (st : State) :
    Host.Outcome State Fault Refusal :=
  plain (Enc.atomSwap w s z r d a) atomAccepts (atomBody .swap s (decide (z = 1)) (decide (r = 1)) d a) st
/-- R316 -/
def execAtomCas (w : BitVec 1) (s : BitVec 3) (z r : BitVec 1) (d a : BitVec 7) (st : State) :
    Host.Outcome State Fault Refusal :=
  plain (Enc.atomCas w s z r d a) atomAccepts (atomBody .cas s (decide (z = 1)) (decide (r = 1)) d a) st
/-- R316 -/
def execAtomFadd (w : BitVec 1) (s : BitVec 3) (z r : BitVec 1) (d a : BitVec 7) (st : State) :
    Host.Outcome State Fault Refusal :=
  plain (Enc.atomFadd w s z r d a) atomAccepts (atomBody .fadd s (decide (z = 1)) (decide (r = 1)) d a) st

/-! ### Fences and drains (R319 to R322) -/

/-- The thread waits for a flush of its own (R320). -/
def State.flushing (s : State) (id : ThreadId) : Bool := s.net.flushes.any (fun f => decide ((id, 0) ∈ f.users))

/-- A `fence` completes, or starts the flushes that it still needs (R320). -/
def State.stepFence (s : State) (id : ThreadId) (c : Scope) (stamp : Nat) : State :=
  if !s.doneBefore id stamp then s.pursue id stamp
  else if !s.releaseReady stamp c (some id) then s.pursueRelease stamp c (id, 0)
  else if s.flushing id then s
  else (((if c = .pod ∨ c = .glb then s.clearPodBuf id.core else s).passFence id c).pardon id).complete id

/-- The last write of an agent, plus one (R198). -/
def lastWrite (a : Agent) : (i : Nat) → List Write → Nat
  | _, [] => 0
  | i, w :: r => max (if w.from'.by' = a then i + 1 else 0) (lastWrite a (i + 1) r)

/-- A `drain.nt` completes once every non-temporal store of its thread is performed, on another device too, where it flushes the pod
members that hold some; they are then ordered as plain stores (R188, R198, R321). -/
def State.stepDrain (s : State) (id : ThreadId) : State :=
  if s.buffer.any (fun b => decide (b.thread = id) && b.access.nonTemporal) then s
  else if !(s.awaited id s.stamp true).isEmpty then s.flushMembers ((s.awaited id s.stamp true).map (fun t => t.member)) (id, 0)
  else if !s.landed id s.stamp true || s.flushing id then s
  else ((s.modThread id (fun t => { t with wrote := max t.wrote (lastWrite (s.agent id) 0 s.hist) })).pardon id).complete id

/-- A `pflush` starts its flush once every earlier pod store of the device to the peer has been sent, and completes with it (R322). -/
def State.stepPflush (s : State) (id : ThreadId) (t : Thread) (rank peer stamp : Nat) (begun : Bool) : State :=
  if begun then (if s.flushing id then s else (s.pardon id).complete id)
  else if !s.allSent stamp (fun p => match p with
      | .pod _ m _ _ => decide (m = peer)
      | _ => false) || s.podWaiting stamp (some peer) || s.net.flushes.any (fun f => f.member == peer) then s
  else ((s.startFlush rank peer).useFlush peer (id, 0)).setThread id { t with wait := .pflush rank peer stamp true }

/-- A `fence`, `drain.nt` or `pflush` goes on (R320 to R322), but where a stop holds its thread (R319). -/
def State.fenceStep (s : State) (id : ThreadId) : State :=
  match s.thread? id with
  | none => s
  | some t =>
    if s.staysPut id t then s else
    match t.wait with
    | .fence c stamp => s.stepFence id c stamp
    | .drain => s.stepDrain id
    | .pflush rank peer stamp begun => s.stepPflush id t rank peer stamp begun
    | _ => s

/-- FENCE_COMPLETE: a `fence`, `drain.nt` or `pflush` goes on or completes (R320 to R322). -/
def execFenceComplete (thread : ThreadId) (s : State) : Host.Outcome State Fault Refusal := .next (s.fenceStep thread)

/-- R320 -/
def bodyFence : Issue Unit := do
  let c ← get
  modDev (fun s => s.pardon c.id)
  parkAt (.fence (c.hs.scopeOr .dev) c.s.stamp)
/-- R320 -/
def execFence (w : BitVec 1) (st : State) : Host.Outcome State Fault Refusal :=
  issue (Enc.fence w) true .scopeOnly bodyFence (fun s => s.fenceStep st.cur) st

/-- R321 -/
def bodyDrainNt : Issue Unit := do
  let c ← get
  modDev (fun s => s.pardon c.id)
  parkAt .drain
/-- R321 -/
def execDrainNt (w : BitVec 1) (st : State) : Host.Outcome State Fault Refusal :=
  issue (Enc.drainNt w) true .nothing bodyDrainNt (fun s => s.fenceStep st.cur) st

/-- The checks of R57 that concern a rank as a whole (R322, R325). -/
def State.rankCheck (s : State) (asid rank : Nat) : Option Path :=
  if !s.jobOn ∨ asid ≠ bits (s.reg32 0x40014) 15 0 ∨ s.nranks ≤ rank then none else
  match s.pathOf rank with
  | none => none
  | some .dev => some .dev
  | some p =>
    match s.rankEntry rank with
    | none => none
    | some (e, _) => if (s.validPaths (bits e 59 51) (match p with | .glb => 0 | _ => 1)).isEmpty then none else some p

/-- R322 -/
def bodyPflush (a : BitVec 7) : Issue Unit := do
  let v ← src a
  let c ← get
  let rank := (v.extractLsb' 0 17).toNat
  flagWordIf (decide (v.extractLsb' 17 15 ≠ 0)) .reservedOperand
  if rank ≠ c.s.selfrank then
    match c.s.rankCheck (c.s.asidOf c.id.teamId) rank with
    | some (.pod m) => parkAt (.pflush rank m c.s.stamp false)
    | _ => flagIf true .permission (BitVec.ofNat 64 (gAddr rank 0 0))
/-- R322 -/
def execPflush (w : BitVec 1) (a : BitVec 7) (st : State) : Host.Outcome State Fault Refusal :=
  issue (Enc.pflush w a) true .nothing (bodyPflush a) (fun s => s.fenceStep st.cur) st

/-! ### Counters (R323) -/

/-- A counter index register: bits [31:16] are zero (R318). -/
def counterIndex (f : RegField) : Issue Nat := do
  let v ← src f
  flagWordIf (decide (v.extractLsb' 16 16 ≠ 0)) .reservedOperand
  pure (v.extractLsb' 0 16).toNat

/-- The scope at which a `cwait` acquires: those below pod act as dev (R323). -/
def waitScope (c : Scope) : Scope := if c = .pod ∨ c = .glb then c else .dev

/-- A `cwait` whose counter is at or above n completes, as an acquire at its scope (R204, R323), but where a stop holds its thread (R319). -/
def State.counterStep (s : State) (id : ThreadId) : State :=
  match s.thread? id with
  | none => s
  | some t =>
    if s.staysPut id t then s else
    match t.wait with
    | .counter k n c =>
      if n.toNat ≤ s.ctrValue k then
        ((if c = .pod ∨ c = .glb then s.clearPodBuf id.core else s).sees id (s.ctrView id k (waitScope c))).complete id
      else s
    | _ => s

/-- COUNTER_WAIT_RELEASE (R323). -/
def execCounterWaitRelease (thread : ThreadId) (s : State) : Host.Outcome State Fault Refusal := .next (s.counterStep thread)

/-- R323 -/
def bodyCwait (c n : BitVec 7) : Issue Unit := do
  let k ← counterIndex c
  let v ← srcP n
  let h ← get
  parkAt (.counter k v (h.hs.scopeOr .dev))
/-- R323 -/
def execCwait (w : BitVec 1) (c n : BitVec 7) (st : State) : Host.Outcome State Fault Refusal :=
  issue (Enc.cwait w c n) true .scopeOnly (bodyCwait c n) (fun s => s.counterStep st.cur) st

/-- R323 -/
def bodyCadd (c n : BitVec 7) : Issue Unit := do
  let k ← counterIndex c
  let v ← srcP n
  let h ← get
  access (.cadd k v (h.hs.scopeOr .dev))
/-- R323 -/
def execCadd (w : BitVec 1) (c n : BitVec 7) (st : State) : Host.Outcome State Fault Refusal :=
  plain (Enc.cadd w c n) .scopeOnly (bodyCadd c n) st

/-- R323 -/
def bodyCpoll (d c : BitVec 7) : Issue Unit := do
  let k ← counterIndex c
  let r ← dstDeferred d 2 2
  access (.cpoll k r)
/-- R323 -/
def execCpoll (w : BitVec 1) (d c : BitVec 7) (st : State) : Host.Outcome State Fault Refusal :=
  plain (Enc.cpoll w d c) .nothing (bodyCpoll d c) st

/-- A `cadd` is performed, as a release at its scope (R323). -/
def State.startCadd (s : State) (id : ThreadId) (e : LogEntry) (k : Nat) (n : Dword) (c : Scope) : State :=
  if !s.releaseReady e.stamp c none then s.pursueRelease e.stamp c (id, e.stamp)
  else ((s.ctrAdd (s.originOf id (some c) true) k n.toNat).noteWrite id false).setEntry id e (.returned [])

/-- A `cpoll` reads its counter (R323). -/
def State.startCpoll (s : State) (id : ThreadId) (e : LogEntry) (k d : Nat) : State :=
  s.setEntry id e (.returned (loadValues d 8 (s.ctrValue k)))

/-! ### Signalled writes and contributions (R324, R325) -/

/-- R324 -/
def bodyWsig (a : BitVec 7) : Issue Unit := do
  let k ← block a 8 8
  let c ← get
  let v := fun i => c.th.reg (k + i)
  let src := v 1 ++ v 0
  let dst := v 3 ++ v 2
  let len := (v 4).toNat
  flagWordIf (decide ((v 5).extractLsb' 16 16 ≠ 0) || decide ((v 6).extractLsb' 17 15 ≠ 0) || decide (v 7 ≠ 0)
    || decide (len = 0) || decide (2 ^ 24 < len)) .reservedOperand
  flagIf (dst.msb && c.s.straddles dst len) .straddle dst
  flagIf (decide (src.extractLsb' 48 16 ≠ 0)) .permission src
  flagIf (!dst.msb) .permission dst
  flagIf (!c.s.globalOk (c.s.asidOf c.id.teamId) dst len) .permission dst
  access (.wsig src dst len ((v 5).extractLsb' 0 16).toNat
    (if (v 6).getLsbD 16 then some ((v 6).extractLsb' 0 16).toNat else none))
/-- R324 -/
def execWsig (w : BitVec 1) (a : BitVec 7) (st : State) : Host.Outcome State Fault Refusal :=
  plain (Enc.wsig w a) .nothing (bodyWsig a) st

/-- A reduction group's entry as a number of 512 bits (R73), from the tables in force (R62; log entry 10). -/
def State.groupEntry (s : State) (gid : Nat) : Nat := Memory.readLE s.tables (0x2000000 + 64 * gid) 64

/-- The device sets gen of a group's entry: in memory, and in the copy in force (R74). -/
def State.setGen (s : State) (gid : Nat) (gen : Byte) : State :=
  let at' := fun (e : Nat) => e - bits e 25 18 * 2 ^ 18 + gen.toNat * 2 ^ 18
  let pa := s.grpbase + 64 * gid
  { s.write pa 64 (at' (s.read pa 64)) with tables := Memory.writeLE s.tables (0x2000000 + 64 * gid) 64 (at' (s.groupEntry gid)) }

/-- gen of an entry advances by 1 modulo 256 (R74). At a home that is a member too, the home's own generation stays behind (log entry
34). -/
def State.advanceGen (s : State) (gid e : Nat) : State :=
  let f : Folding := { gen := BitVec.ofNat 8 (bits e 25 18), covered := [], held := [] }
  let s := if bits e 16 16 = 1 ∧ (AMap.get? s.net.folds gid).isNone then { s with net := { s.net with folds := AMap.set s.net.folds gid f } } else s
  s.setGen gid (BitVec.ofNat 8 (bits e 25 18 + 1))

/-- R325 -/
def bodyWred (a : BitVec 7) : Issue Unit := do
  let k ← block a 4 4
  let c ← get
  let v := fun i => c.th.reg (k + i)
  let src := v 1 ++ v 0
  let gid := ((v 2).extractLsb' 0 16).toNat
  let e := c.s.groupEntry gid
  let home := bits e 97 81
  flagWordIf (decide ((v 2).extractLsb' 16 16 ≠ 0) || decide ((v 3).extractLsb' 17 15 ≠ 0)) .reservedOperand
  let dst := BitVec.ofNat 64 (gAddr home (bits e 165 160) (bits e 231 192))
  flagIf (decide (src.toNat % 4 ≠ 0)) .misaligned src
  flagIf (c.s.straddles dst (4 * bits e 151 128)) .straddle dst
  flagIf (decide (src.extractLsb' 48 16 ≠ 0)) .permission src
  flagIf (decide (bits e 17 17 = 0)) .permission src
  flagIf (!stripeOk (c.s.stripe (bits e 165 160))) .permission dst
  flagIf (c.s.rankCheck (c.s.asidOf c.id.teamId) home).isNone .permission (BitVec.ofNat 64 (gAddr home 0 0))
  access (.wred src gid (BitVec.ofNat 8 (bits e 25 18))
    (if (v 3).getLsbD 16 then some ((v 3).extractLsb' 0 16).toNat else none))
  modDev (fun s => s.advanceGen gid e)
/-- R325 -/
def execWred (w : BitVec 1) (a : BitVec 7) (st : State) : Host.Outcome State Fault Refusal :=
  plain (Enc.wred w a) .nothing (bodyWred a) st

/-- Frees an entry of the operand log. -/
def State.dropEntry (s : State) (id : ThreadId) (e : LogEntry) : State :=
  s.modThread id (fun t => { t with log := t.log.filter (fun o => decide (o.index ≠ e.index) || decide (o.stamp ≠ e.stamp)) })

/-- What happens before a message that is a release (R193, R204). -/
def State.releasing (s : State) (n : Nat) (v : View) : State :=
  { s with net := { s.net with messages := s.net.messages.map (fun m => if m.number = n then { m with view := v } else m) } }

/-- A `wsig` is handed to the transport once its release condition holds, and its entry is free then (R324). -/
def State.startWsig (s : State) (id : ThreadId) (e : LogEntry) (src dst : Dword) (len tctr : Nat) (lctr : Option Nat) : State :=
  let r := gRank dst.toNat
  match s.globalPart (s.asidOf id.teamId) r (gRegion dst.toNat) (gOffset dst.toNat) with
  | none => s.setEntry id e (.flagged .permission dst)
  | some (trank, _, p) =>
    let c := p.widen .dev
    if !s.releaseReady e.stamp c none then s.pursueRelease e.stamp c (id, e.stamp)
    else ((s.postMessage id e.stamp e.kernel trank dst len (decide (p ≠ .glb)) (.wsig src tctr lctr)).releasing s.net.numbers (s.sofar id)).dropEntry id e

/-- A `wred` is handed to the transport for its home (R74, R325); its elements are read as its packets are sent. -/
def State.startWred (s : State) (id : ThreadId) (e : LogEntry) (src : Dword) (gid : Nat) (gen : Byte) (lctr : Option Nat) : State :=
  let g := s.groupEntry gid
  let home := bits g 97 81
  (s.postMessage id e.stamp e.kernel home (BitVec.ofNat 64 (gAddr home (bits g 165 160) (bits g 231 192))) (4 * bits g 151 128)
    (decide (s.pathOf home ≠ some .glb)) (.contribution src gid gen lctr)).setEntry id e (.returned [])

/-! ### Stream elements (R144, R296) -/

/-- A part lies with a pod member or a rank over Ethernet. -/
def Place.remote : Place → Bool
  | .pod _ _ _ _ => true
  | .glb _ _ _ => true
  | _ => false

/-- A part of an access in progress that the outside answers with the access's own row: a pod member's or a peer's. -/
def awaitsAnswer (ps : List (Place × Nat × Option (List Byte))) : Bool :=
  ps.any (fun p => p.2.2.isNone && (match p.1 with
    | .pod _ _ _ _ => true
    | .peer _ => true
    | _ => false))

/-- A transport that has stopped sends nothing new for this access. Before that the accesses of threads on their way to a boundary still
leave (R122; DEDUCED: log entry 57). -/
def State.transportHolds (s : State) (ps : List (Place × Nat)) : Bool := s.cut.units.contains .transport && ps.any (fun p => p.1.remote)

/-- Changes a stream that a thread has bound to a register. -/
def State.modStream (s : State) (id : ThreadId) (k : Nat) (f : Stream → Stream) : State :=
  s.modThread id (fun t => t.setStream k ((t.stream k).map f))

/-- The next element of a read stream takes its place in the FIFO. -/
def State.putElement (s : State) (id : ThreadId) (k : Nat) (i : StreamItem) : State :=
  s.modStream id k (fun q => { q with fetched := q.fetched + 1, fifo := q.fifo ++ [i], arriving := [], shows := .none })

/-- An element whose value the spec leaves open: its fetch failed or read poison (R144, R217; log entry 8). Its requests come to nothing. -/
def State.openElement (s : State) (id : ThreadId) (k : Nat) (q : Stream) : State :=
  ({ s with stamp := s.stamp + 1
            net := { s.net with messages := s.net.messages.filter (fun m => !(decide (m.thread = id) && decide (m.stamp = q.stamp) && (match m.body with
              | .element j _ => j == k
              | _ => false))) } } : State).putElement id k (.data (Config.openElement s.stamp).toNat q.shows)

/-- A remote part of an element of a stream fails (R217). -/
def State.failElement (s : State) (id : ThreadId) (k : Nat) (q : Stream) : State :=
  (s.pend id .remoteAccessFailure (q.elemAddr q.fetched)).openElement id k q

/-- Bytes of an element arrive: once all are here it takes its place in the FIFO. -/
def State.elementParts (s : State) (id : ThreadId) (k : Nat) (q : Stream) (ps : List (Place × Nat × Option (List Byte))) : State :=
  match partsBytes ps with
  | some b => s.putElement id k (.data (leNat b) q.shows)
  | none => s.modStream id k (fun q => { q with arriving := ps })

/-- The outside answers an element whose requests have left (R314). -/
def State.answerElement (s : State) (id : ThreadId) (k : Nat) (q : Stream) (r : Remote) : State :=
  if !awaitsAnswer q.arriving then s else
  match r with
  | .none => s
  | .failed => s.failElement id k q
  | .data b =>
    match fillFirst b true q.arriving with
    | none => s
    | some (ps, .pod _ m g o) => (s.dropPodLines id.core m g o b.length).elementParts id k q ps
    | some (ps, _) => s.elementParts id k q ps

/-- A thread has fetched an element at the versions `ks`: its later loads of these bytes, and what its next marker orders, see it (R191,
R296). -/
def State.noteElement (s : State) (id : ThreadId) (r : Reader) (ks : List (Nat × Nat)) : State :=
  let v := s.elementShows r ks
  s.modThread id (fun t => { t with
    next := t.next ++ r.ps.map (fun p => { pa := p.1, len := p.2, view := v })
    reads := t.reads ++ (ownVersions r.ps ks).filter (fun p => (writeOf p.1 p.2 0 s.hist).isSome) })

/-- An element that nothing holds back is fetched: the bytes that are here at once, and requests for the others. -/
def State.startElement (s : State) (id : ThreadId) (k : Nat) (q : Stream) (a : Dword) (ps : List (Place × Nat)) (back : List Nat) : State :=
  let r := s.loadOf none [s.readerOf id (memRanges ps)] back
  let now := s.partsNow id false r.2 ps
  if s.podBlocked q.stamp (missingParts now) || !s.podFlows (missingParts now) then s else
  let q := { q with shows := joinAll (r.1.map (fun x => s.elementShows x r.2)) }
  let u := (r.1.foldl (fun u x => u.noteElement id x r.2) s).requestAll id q.stamp q.kernel (.element k) a true 0 now
  (u.modStream id k (fun v => { v with shows := q.shows })).elementParts id k q now

/-- What STREAM_ELEMENT_FETCH does for a read stream, the outside's answer included. An element whose fault is found is not fetched;
one without a translation waits for the service team. -/
def State.fetchElement (s : State) (id : ThreadId) (k : Nat) (q : Stream) (r : Remote) (back : List Nat) : State :=
  let a := q.elemAddr q.fetched
  if !q.arriving.isEmpty then s.answerElement id k q r
  else if q.total ≤ q.fetched || s.engineWaits (.stream id k) then s else
  match s.elemBad id q a with
  | some (.translation, _) => s.streamBatch id k a 0
  | some (c, code) => (s.countCode code).putElement id k (.fault c a)
  | none =>
    let ps := s.parts id q.kernel q.space a q.size .load
    if s.blocked id q.stamp q.kernel (.load q.space a q.size .plain .dev 0) || ps.any s.partHeld || s.transportHolds ps then s else
    match s.partsPoison ps 0 with
    | some i => (s.pend id .uncorrectableMemory (spaceAddr q.space a + BitVec.ofNat 64 i)).openElement id k q
    | none => s.startElement id k q a ps back

/-- Whether a read stream fetches on: its last item is no fault, or one that its element no longer has. -/
def State.fetches (s : State) (id : ThreadId) (q : Stream) : Bool :=
  match q.fifo.getLast? with
  | some (.fault _ a) => (s.elemBad id q a).isNone
  | _ => true

/-- A read element whose fault was found is fetched again once it has none (R144): a handler may have repaired its page. -/
def Stream.refetch (q : Stream) : Stream :=
  match q.fifo.getLast? with
  | some (.fault _ _) => { q with fifo := q.fifo.dropLast, fetched := q.fetched - 1 }
  | _ => q

/-- A read stream goes on: an element whose fault is gone is fetched again, and any other one follows. -/
def State.fetchStep (s : State) (id : ThreadId) (k : Nat) (q : Stream) (r : Remote) (back : List Nat) : State :=
  if !s.fetches id q then s else (s.modStream id k Stream.refetch).fetchElement id k q.refetch r back

/-- An appended element as an accepted store (R296). -/
def Appended.asStore (e : Appended) (id : ThreadId) (q : Stream) : BufStore :=
  { thread := id, stamp := e.stamp, issue := e.issue, kernel := q.kernel, access := .store q.space e.addr q.size .plain .dev e.value
    parts := e.parts, done := e.done, posted := e.posted }

/-- The oldest appended element of a write stream is performed where nothing holds it: the bytes `take`, if any are named, and the others
later (R158, R190, R296). One for another device has left then, and is performed there (R188). -/
def State.performElement (s : State) (id : ThreadId) (k : Nat) (q : Stream) (take : List Nat) : State :=
  match q.appended with
  | [] => s
  | e :: rest =>
    let b := e.asStore id q
    if !e.posted && (s.blocked id e.stamp q.kernel b.access || s.storeHeld id e.stamp e.issue e.parts || s.transportHolds e.parts) then s else
    let r := s.storeNow (s.originOf id none false) b e.addr q.size e.value take
    let left := match r.2 with
      | none => rest
      | some c => { e with done := c.done, posted := c.posted } :: rest
    let out := if r.2.isNone && e.parts.any (fun p => p.1.remote) then [e.stamp] else []
    (r.1.modStream id k (fun q => { q with appended := left, sent := q.sent ++ out, fetched := if r.2.isNone then q.fetched + 1 else q.fetched })).noteWrite
      id false

/-- A thread that waits for the elements of a write stream flushes the pod members that hold some, once all have left (R188, R296). -/
def State.landStream (s : State) (id : ThreadId) (t : Thread) (k : Nat) : State :=
  match t.stream k with
  | some q => if q.appended.isEmpty then s.flushMembers ((s.elementsOut id q).map (fun t => t.member)) (id, 0) else s
  | none => s

/-- An `sstop` or `sdef` whose write stream has no element left issues again (R294, R296). -/
def State.streamDrained (s : State) (id : ThreadId) : State :=
  match s.thread? id with
  | none => s
  | some t =>
    match t.wait with
    | .sstop k =>
      if s.undrained id t k then s.landStream id t k
      else if s.staysPut id t then s else s.setThread id { t with wait := .run }
    | _ => s

/-- STREAM_ELEMENT_FETCH: the next element of a read stream is fetched, or the oldest of a write stream performed
(R144, R296). A missing translation is serviced out of sight: the element waits for it. The row's choice says which versions a fetch takes,
or which bytes of an element are performed now (R190; log entry 83). -/
def execStreamElementFetch (thread : ThreadId) (stream : Nat) (answer : ElementAnswer) (s : State) :
    Host.Outcome State Fault Refusal :=
  match (s.thread? thread).bind (fun t => if t.live then t.stream stream else none) with
  | none => .next s
  | some q =>
    let s := s.useLines (s.parts thread q.kernel q.space (q.elemAddr q.fetched) q.size .load)
    .next (if q.write then (s.performElement thread stream q answer.back).streamDrained thread
      else s.answered thread q.arriving answer.remote (.element thread stream answer.remote)
        (fun s => s.fetchStep thread stream q answer.remote answer.back))

end Sys2Proof.Machine
end

