-- ==== Sys2Proof/Machine/Matrix.lean ====
section
/-! DEFINITION. Convergence registers, signing, the cistern and the matrix engine (R134 to R137, R239 to R241, R308,
R334 to R340), with opcode-table rows PAIR_TIMEOUT, MATRIX_OP_START and MATRIX_OP_COMPLETE. -/
namespace Sys2Proof.Machine

/-! ### Reservations (R183, R334) -/

/-- The offset of a reservation in the team's cistern. -/
def Reservation.off (r : Reservation) : Nat := bits r.record 31 0
/-- The length of a reservation. -/
def Reservation.len (r : Reservation) : Nat := bits r.record 63 32
/-- The kind: 0 narrow, 1 BF16, 2 FP16. -/
def Reservation.kind (r : Reservation) : Nat := bits r.record 83 82
/-- The block length of A. -/
def Reservation.blkA (r : Reservation) : Nat := 16 * 2 ^ bits r.record 91 90
/-- The block length of B. -/
def Reservation.blkB (r : Reservation) : Nat := 16 * 2 ^ bits r.record 93 92
/-- The sparsity code. -/
def Reservation.sp (r : Reservation) : Nat := bits r.record 95 94
/-- The scale byte offset of A. -/
def Reservation.sofA (r : Reservation) : Nat := bits r.record 97 96
/-- The scale byte offset of B. -/
def Reservation.sofB (r : Reservation) : Nat := bits r.record 113 112

/-- `cres` (R334). -/
def bodyCres (k : BitVec 4) (a : BitVec 7) : Issue Unit := do
  let n ← block a 4 4
  let c ← get
  let r := c.th.regsValue n 4
  let off := bits r 31 0
  let len := bits r 63 32
  let cap := match c.s.team? c.id.teamId with
    | some t => t.cistBytes
    | none => 0
  flagWordIf (decide (bits r 81 64 ≠ 0) || decide (bits r 111 98 ≠ 0) || decide (bits r 127 114 ≠ 0) || decide (off % 256 ≠ 0)
    || decide (len % 256 ≠ 0) || decide (len = 0) || decide (cap < off + len)) .reservedOperand
  let v : Reservation := { record := r, fmtA := c.th.f.getD (bits r 86 84) 0, fmtB := c.th.f.getD (bits r 89 87) 0
                           fmtS := c.th.f.getD 6 0, freeing := none }
  modDev (fun s => s.modTeam c.id.teamId (fun t => { t with resv := t.resv.set k.toNat (some v) }))
/-- R334 -/
def execCres (w : BitVec 1) (k : BitVec 4) (a : BitVec 7) (st : State) : Host.Outcome State Fault Refusal :=
  plain (Enc.cres w k a) .nothing (bodyCres k a) st

/-- A signed operation names reservation k (R334). -/
def SigOp.names (op : SigOp) (k : Nat) : Bool :=
  match op with
  | .mma o _ _ => decide (bits o.toNat 3 0 = k) || decide (bits o.toNat 7 4 = k)
  | .mmap o _ _ => decide (bits o.toNat 3 0 = k) || decide (bits o.toNat 7 4 = k)
  | .mldb o => decide (bits o.toNat 11 8 = k)
  | _ => false

/-- The convergence registers of a team whose pending operation names reservation k. -/
def Team.naming (t : Team) (k : Nat) : List Nat :=
  (List.range t.conv.length).filter (fun g => match t.conv[g]? with
    | some c => c.sigs.any (fun x => x.op.names k)
    | none => false)

/-- The operation of an entry that is to be dispatched to the matrix engine of a team's core (R332). -/
def FlowEntry.undispatched (e : FlowEntry) (id : TeamId) : Option MatrixOp :=
  match e.cmd with
  | .matrix m => if e.team = id ∧ !e.running then some m else none
  | _ => none

/-- What is to issue and names reservation k of a team: pending operations, and those in the dataflow table, which issue as it dispatches
them (R332, R334). -/
def State.naming (s : State) (id : TeamId) (k : Nat) : List Nat :=
  (match s.team? id with
    | some t => t.naming k
    | none => [])
    ++ (s.core id.core).flow.filterMap (fun e => match e.undispatched id with
      | some m => if m.op.names k then some (8 + m.stamp) else none
      | none => none)

/-- `crel` marks a record, which waits for some operations; without any it is free at once (R334). -/
def Team.markFree (t : Team) (k : Nat) (ops : List Nat) : Team :=
  match (t.resv[k]?).getD none with
  | none => t
  | some r =>
    let w := (r.freeing.getD []) ++ ops
    { t with resv := t.resv.set k (if w = [] then none else some { r with freeing := some w }) }

/-- R334 -/
def bodyCrel (k : BitVec 4) : Issue Unit := do
  let c ← get
  modDev (fun s => s.modTeam c.id.teamId (fun t => t.markFree k.toNat (s.naming c.id.teamId k.toNat)))
/-- R334 -/
def execCrel (w : BitVec 1) (k : BitVec 4) (st : State) : Host.Outcome State Fault Refusal :=
  plain (Enc.crel w k) .nothing (bodyCrel k) st

/-- The pending operation of register g enters the dataflow table: marked records wait for it there (R332, R334). -/
def Team.tasked (t : Team) (g n : Nat) : Team :=
  { t with resv := t.resv.map (fun o => o.map (fun r => { r with freeing := r.freeing.map (fun l => l.map (fun x => if x = g then n else x)) })) }

/-- An operation that was to issue is gone: marked records that waited for it alone are free (R334). -/
def Team.signaturesGone (t : Team) (g : Nat) : Team :=
  { t with resv := t.resv.map (fun o => match o with
      | none => none
      | some r => match r.freeing with
        | none => some r
        | some l => if l.filter (fun x => decide (x ≠ g)) = [] then none else some { r with freeing := some (l.filter (fun x => decide (x ≠ g))) }) }

/-! ### Operand layout and checks (R335, R336, R338) -/

/-- The element format of an operand: the kept format for kind 00, BF16 or FP16 otherwise (R183). -/
def elemFmt (kind : Nat) (w : Word) : Fmt := if kind = 0 then Fmt.ofWord w else if kind = 1 then bfloat16 else binary16

/-- The K of an instruction (R335). -/
def opK (kind : Nat) (f : Fmt) (sp : Nat) : Nat :=
  (if kind = 0 then (if 4 < f.W then 32 else 64) else 16) * (if sp = 1 then 2 else 1)

/-- The block sizes of A and B (R335). -/
def blockA (sp : Nat) : Nat := if sp = 1 then 3072 else 2048
/-- The block size of B (R335). -/
def blockB (sp : Nat) : Nat := if sp = 1 then 4096 else 2048

/-- Accumulator bytes lie within the team's cistern (R336). -/
def Team.hasAcc (t : Team) (acc : Nat) : Bool := decide (16384 * (acc + 1) ≤ t.cistBytes)

/-- The fields of an operand word (R336). -/
def opAcc (o : Word) : Nat := bits o.toNat 27 24
/-- The block of B. -/
def opStepB (o : Word) : Nat := bits o.toNat 23 16
/-- The block of A. -/
def opStepA (o : Word) : Nat := bits o.toNat 15 8

/-- The reservations that an `mma` names. -/
def Team.operands (t : Team) (o : Word) : Option (Reservation × Reservation) :=
  match (t.resv[bits o.toNat 3 0]?).getD none, (t.resv[bits o.toNat 7 4]?).getD none with
  | some a, some b => some (a, b)
  | _, _ => none

/-- Everything R336 asks of an `mma` or `mmap` on one core at its last signature. -/
def Team.mmaOk (t : Team) (o : Word) (n : Nat) : Bool :=
  match t.operands o with
  | none => false
  | some (a, b) =>
    let fa := elemFmt a.kind a.fmtA
    let fb := elemFmt b.kind b.fmtB
    let K := opK a.kind fa a.sp
    let a0 := a.off + opStepA o * blockA a.sp
    let b0 := b.off + opStepB o * blockB a.sp
    decide (bits o.toNat 31 28 = 0) && t.hasAcc (opAcc o) && decide (a.kind = b.kind) && decide (a.kind ≠ 3)
      && decide (a.sp ≤ 1) && decide (b.sp = 0)
      && (decide (a.kind ≠ 0) || (decide (fa.container = fb.container) && decide (1 ≤ fa.W) && decide (1 ≤ fb.W)
          && decide ((Fmt.ofWord a.fmtS).W = 8) && decide ((Fmt.ofWord b.fmtS).W = 8)
          && decide (K / a.blkA ≤ 4) && decide (K / b.blkB ≤ 4) && decide (n = 64)))
      && decide ((opStepA o + 1) * blockA a.sp ≤ a.len) && decide ((opStepB o + 1) * blockB a.sp ≤ b.len)
      && !rangesMeet a0 (blockA a.sp) (16384 * opAcc o) 16384 && !rangesMeet b0 (blockB a.sp) (16384 * opAcc o) 16384

/-- What must agree between the two operations of a pair (R336); for kinds 01 and 10 the formats are fixed, and the block lengths and
scales are ignored (R239). -/
def Team.pairKey (t : Team) (o : Word) : Option (List Nat) :=
  (t.operands o).map (fun r => [r.1.kind, r.1.sp, opK r.1.kind (elemFmt r.1.kind r.1.fmtA) r.1.sp]
    ++ (if r.1.kind = 0 then [r.1.fmtA.toNat, r.2.fmtB.toNat, r.1.fmtS.toNat, r.2.fmtS.toNat, r.1.blkA, r.2.blkB] else []))

/-- The bytes that an `mst` of a type writes (R338). -/
def mstBytes (o : Word) : Nat := if bits o.toNat 13 12 = 0 then 16384 else 8192

/-- The checks at the last signature (R336, R338, R342); `n` is the number of signers. -/
def Team.opOk (t : Team) (pairLaunch : Bool) (ssb : List Byte) (op : SigOp) (n : Nat) : Bool :=
  match op with
  | .mma o _ _ => t.mmaOk o n
  | .mmap o _ _ => t.mmaOk o n && pairLaunch
  | .mldb o =>
    decide (bits o.toNat 31 24 = 0) && (match (t.resv[bits o.toNat 11 8]?).getD none, t.tiles[bits o.toNat 7 0]? with
      | some r, some x => decide (256 * bits o.toNat 23 12 + x.bytes ≤ r.len)
      | _, _ => false)
  | .mzero acc => t.hasAcc acc
  | .mst o =>
    decide (bits o.toNat 31 14 = 0) && decide (bits o.toNat 13 12 ≠ 3) && t.hasAcc (bits o.toNat 3 0)
      && (match t.tiles[bits o.toNat 11 4]? with
        | some x => decide (x.bytes = mstBytes o)
        | none => false)
  | .ssx _ => ssbOk ssb t.cistBytes

/-! ### Issue at the last signature (R133 to R137) -/

/-- The live members of a member set. -/
def State.setMembers (s : State) (id : TeamId) (pairs : List (Nat × Dword)) : List ThreadId :=
  pairs.flatMap (fun p => ((s.members (groupOf id p.1)).filter (fun i => p.2.getLsbD i)).map (memberOf (groupOf id p.1)))

/-- Row order of signers: ascending gidx, then ascending lane (R135). -/
def State.rowKey (s : State) (id : ThreadId) : Nat :=
  id.grp * 64 + (match s.thread? id with
    | some t => t.lane
    | none => id.mem)

/-- Inserts a signature by row. -/
def State.insertRow (s : State) (x : Signature) : List Signature → List Signature
  | [] => [x]
  | y :: r => if s.rowKey x.thread < s.rowKey y.thread then x :: y :: r else y :: s.insertRow x r

/-- Signatures in row order. -/
def State.rows (s : State) (l : List Signature) : List Signature := l.foldl (fun r x => s.insertRow x r) []

/-- The 128 bytes of an SSB named by an `ssx`. -/
def State.ssbOf (s : State) (id : TeamId) (op : SigOp) : List Byte :=
  match op with
  | .ssx off => Memory.read s.mem (s.coPa id off) 128
  | _ => []

/-- What an attempt to issue a convergence register's operation gives. -/
inductive ConvResult where
  | waiting
  | issued (s : State)
  | failed (s : State)
  deriving DecidableEq, Repr

/-- Replaces a convergence register. -/
def State.setConv (s : State) (id : TeamId) (g : Nat) (c : ConvReg) : State :=
  s.modTeam id (fun t => { t with conv := t.conv.set g c })

/-- Threads parked because they had signed register g sign again (R135). -/
def State.wakeSigners (s : State) (id : TeamId) (g : Nat) : State :=
  { s with threads := s.threads.map (fun p =>
      if p.1.teamId = id ∧ p.2.wait = .signed g then (p.1, { p.2 with wait := .committed }) else p) }

/-- The register after its operation is gone; `issued` counts the operation and undeclares the register at the last
(R135, R136). -/
def State.convDone (s : State) (id : TeamId) (g : Nat) (c : ConvReg) (issued : Bool) : State :=
  let decl := match c.declared with
    | some (p, some 1) => if issued then none else some (p, some 1)
    | some (p, some k) => some (p, some (if issued then k - 1 else k))
    | d => d
  ((s.setConv id g { declared := decl, sigs := [], offered := none }).modTeam id (fun t => t.signaturesGone g)).wakeSigners id g

/-- Every signer but `cur` gets illegal-matrix-configuration as a pending cause (R136). -/
def State.pendSigners (s : State) (l : List Signature) (cur : Option ThreadId) : State :=
  l.foldl (fun s x => if cur = some x.thread then s else s.pend x.thread .illegalMatrix (x.word.setWidth 64)) s

/-- The operation of a complete set as the engine gets it. -/
def State.matrixOp (s : State) (id : TeamId) (l : List Signature) (op : SigOp) (paired : Option Nat) : MatrixOp :=
  let t := (s.team? id).bind (fun t => match op with
    | .mma o _ _ => t.operands o
    | .mmap o _ _ => t.operands o
    | .mldb o => ((t.resv[bits o.toNat 11 8]?).getD none).map (fun r => (r, r))
    | _ => none)
  { team := id, stamp := s.stamp, asid := s.asidOf id, op := op, view := joinAll (l.map (fun x => x.view)), words := l.map (fun x => x.word), signers := l.map (fun x => x.thread)
    scales := l.map (fun x => (x.scaleA, x.scaleB)), resvA := t.map (fun r => r.1), resvB := t.map (fun r => r.2)
    kernel := l.any (fun x => x.kernel), paired := paired, started := false, ssb := s.ssbOf id op
    number := (s.core id.core).issued, flow := l.any (fun x => x.task.isSome) }

/-- Puts an operation in the engine's order (R340). -/
def Core.enqueue (k : Core) (op : MatrixOp) : Core := { k with matrix := k.matrix ++ [{ op with number := k.issued }], issued := k.issued + 1 }

/-- The issue of a complete set: to the engine, or to the dataflow table for a `task`; an `ssx` also registers its ranges
and sets busy (R332, R340, R342). -/
def State.convIssue (s : State) (id : TeamId) (g : Nat) (c : ConvReg) (l : List Signature) (op : SigOp) (paired : Option Nat) : State :=
  let m := { s.matrixOp id l op paired with kernel := match c.sigs.getLast? with
    | some x => x.kernel
    | none => false }
  let s := match (l.head?).bind (fun x => x.task) with
    | some tiles =>
      let e : FlowEntry := { team := id, cmd := .matrix m, tiles := tiles, running := false }
      (s.modCore id.core (fun k => { k with flow := k.flow ++ [e] })).modTeam id (fun t => t.tasked g (8 + m.stamp))
    | none => s.modCore id.core (fun k => k.enqueue m)
  let s := match op with
    | .ssx off =>
      let tag := s.nextId
      let s := ({ s with nextId := tag + 1 }).modCore id.core (fun k => { k with
        ranges := k.ranges ++ ssbRanges m.ssb tag m.asid
        matrix := k.matrix.map (fun (o : MatrixOp) => if o.number + 1 = k.issued then { o with paired := some tag } else o) })
      s.write (s.coPa id off + 80) 4 1
    | _ => s
  s.convDone id g c true

/-- The partner core of a pair (R104, R137). -/
def partnerCore (c : Nat) : Nat := if c % 2 = 0 then c + 1 else c - 1

/-- The team of the same cluster on a core. -/
def State.teamOn (s : State) (id : TeamId) (core : Nat) : Option TeamId :=
  (s.clusterOf id).bind (fun c => c.teams.find? (fun t => decide (t.core = core)))

/-- The partner's offered operation on register g: its team, register and rows (R137). -/
def State.partnerOffer (s : State) (id : TeamId) (g : Nat) : Option (TeamId × ConvReg) :=
  (s.teamOn id (partnerCore id.core)).bind (fun t => ((s.team? t).bind (fun v => v.conv[g]?)).bind (fun c =>
    if c.offered.isSome then some (t, c) else none))

/-- The header's pair flag of a team (R336). -/
def State.pairLaunch (s : State) (id : TeamId) : Bool :=
  match s.clusterOf id with
  | some c => c.pair
  | none => false

/-- The issue of an `mmap` (R136, R137): an offer, or, where the partner has offered, both operations or neither. -/
def State.convPair (s : State) (id : TeamId) (g : Nat) (c : ConvReg) (l : List Signature) (op : SigOp) (cur : Option ThreadId) : ConvResult :=
  match s.partnerOffer id g with
  | none => .issued (s.setConv id g { c with offered := some (match s.team? id with
      | some t => t.ncyc
      | none => 0) })
  | some (pid, pc) =>
    let pl := s.rows pc.sigs
    let key : TeamId → Option SigOp → Option (List Nat) := fun t o => match o with
      | some (.mmap w _ _) => (s.team? t).bind (fun v => v.pairKey w)
      | _ => none
    let pop := (pl.head?).map (fun x => x.op)
    if (key id (some op)).isSome ∧ key id (some op) = key pid pop then
      let s := s.convIssue id g c l op (some pid.core)
      .issued (s.convIssue pid g pc pl (pop.getD op) (some id.core))
    else
      let s := ((s.convDone id g c false).convDone pid g pc false).pendSigners l cur
      .failed (s.pendSigners pl none)

/-- Every live member of a set has signed (R135). -/
def State.setSigned (s : State) (id : TeamId) (pairs : List (Nat × Dword)) (c : ConvReg) : Bool :=
  (s.setMembers id pairs).all (fun m => c.sigs.any (fun y => decide (y.thread = m)))

/-- The attempt to issue register g of a team; `cur` is the thread that signs last, if one does (R133, R135, R136). -/
def State.convTry (s : State) (id : TeamId) (g : Nat) (cur : Option ThreadId) : ConvResult :=
  match s.team? id with
  | none => .waiting
  | some t =>
    match t.conv[g]? with
    | none => .waiting
    | some c =>
      match c.declared, c.sigs with
      | none, _ => .waiting
      | _, [] => .waiting
      | some (pairs, _), x :: _ =>
        if c.offered.isSome || !s.setSigned id pairs c then .waiting else
        let l := s.rows c.sigs
        let same := l.all (fun y => decide (y.op = x.op) && decide (y.task = x.task))
        if !same || !t.opOk (s.pairLaunch id) (s.ssbOf id x.op) x.op l.length then
          .failed ((s.convDone id g c false).pendSigners l cur)
        else if x.task.isSome && decide (tableSize ≤ (s.core id.core).flow.length) then .waiting
        else match x.op with
          | .mmap _ _ _ => s.convPair id g c l x.op cur
          | .ssx _ =>
            if s.canOwn id.core (ssbRanges (s.ssbOf id x.op) 0 (s.asidOf id)) then .issued (s.convIssue id g c l x.op none) else .waiting
          | _ => .issued (s.convIssue id g c l x.op none)

/-- Every convergence register of a team that can issue does (R133). -/
def State.convAll (s : State) (id : TeamId) : State :=
  (List.range 8).foldl (fun s g => match s.convTry id g none with
    | .waiting => s
    | .issued r => r
    | .failed r => r) s

/-- Every convergence register that can issue does, once a table has room or a range is free (R181, R332, R342). -/
def State.convEverywhere (s : State) : State := (s.teams.map (fun p => p.1)).foldl (fun s t => s.convAll t) s

/-- The thread signs an operation on register g (R135, R136). One whose instruction has a fault already does not sign, and the last one of a
`task` waits for room in the table (R332). -/
def sign (g : BitVec 3) (op : SigOp) (scaleA scaleB : Word) (task : Option TaskTiles) : Issue Unit := do
  let c ← get
  let id := c.id.teamId
  match (c.s.team? id).bind (fun t => t.conv[g.toNat]?) with
  | none => flagWord .illegalMatrix
  | some r =>
    match r.declared with
    | none => flagWord .illegalMatrix
    | some (pairs, _) =>
      if !pairs.any (fun p => decide (p.1 = c.id.grp) && p.2.getLsbD c.id.mem) then flagWord .illegalMatrix
      else if r.sigs.any (fun x => decide (x.thread = c.id)) then holdFor (.signed g.toNat)
      else do
        if c.flag.isSome then return
        let x : Signature := { thread := c.id, word := c.word, op := op, scaleA := scaleA, scaleB := scaleB, kernel := c.th.kernel, task := task
                               view := c.th.sofar }
        let s := { (c.s.setConv id g.toNat { r with sigs := r.sigs ++ [x] }) with stamp := c.s.stamp + 1 }
        match s.convTry id g.toNat (some c.id) with
        | .waiting => if task.isSome && s.setSigned id pairs { r with sigs := r.sigs ++ [x] } then stallNow else modDev (fun _ => s)
        | .issued s' => modDev (fun _ => s')
        | .failed s' =>
          whenFaulting (fun _ => s')
          flagWord .illegalMatrix

/-! ### Declaring and signing instructions (R308, R336, R338, R342) -/

/-- R308 -/
def bodyGdef (g : BitVec 3) (a : BitVec 7) : Issue Unit := do
  let n ← block a 4 4
  let c ← get
  let teamg := match c.s.team? c.id.teamId with
    | some t => t.groups
    | none => 0
  let set := c.th.reg n
  let cnt := c.th.reg (n + 1)
  let mask := c.th.pair (n + 2)
  let empty := (List.range 32).all (fun i => !set.getLsbD i || decide (mask.toNat % 2 ^ c.s.gwidth ⟨c.id.core, c.id.team, i⟩ = 0))
  flagWordIf (empty || decide (2 ^ teamg ≤ set.toNat) || decide (cnt.extractLsb' 16 16 ≠ 0)) .reservedOperand
  match (c.s.team? c.id.teamId).bind (fun t => t.conv[g.toNat]?) with
  | none => flagWord .illegalMatrix
  | some r => do
    flagWordIf (!r.sigs.isEmpty) .illegalMatrix
    let pairs := ((List.range 32).filter (fun i => set.getLsbD i)).map (fun i => (i, mask))
    let count := (cnt.extractLsb' 0 16).toNat
    modDev (fun s => s.setConv c.id.teamId g.toNat
      { declared := some (pairs, if count = 0 then none else some count), sigs := [], offered := none })
/-- R308 -/
def execGdef (w : BitVec 1) (g : BitVec 3) (a : BitVec 7) (st : State) : Host.Outcome State Fault Refusal :=
  plain (Enc.gdef w g a) .nothing (bodyGdef g a) st

/-- R336: the scale pair and the operand word. -/
def bodyMma (paired : Bool) (g : BitVec 3) (s o : BitVec 7) (l : BitVec 2) (u : BitVec 1) : Issue Unit := do
  let k ← block s 2 2
  let a ← regOf k
  let b ← regOf (k + 1)
  let v ← src o
  sign g (if paired then .mmap v l.toNat (decide (u = 1)) else .mma v l.toNat (decide (u = 1))) a b none
/-- R336 -/
def execMma (w : BitVec 1) (g : BitVec 3) (s o : BitVec 7) (l : BitVec 2) (u : BitVec 1) (st : State) :
    Host.Outcome State Fault Refusal := plain (Enc.mma w g s o l u) .nothing (bodyMma false g s o l u) st
/-- R336 -/
def execMmap (w : BitVec 1) (g : BitVec 3) (s o : BitVec 7) (l : BitVec 2) (u : BitVec 1) (st : State) :
    Host.Outcome State Fault Refusal := plain (Enc.mmap w g s o l u) .nothing (bodyMma true g s o l u) st

/-- An instruction with a tile operand issues only while the tile is ready (R169), and after every write counted into it (R199). -/
def tileReady (t : BitVec 8) : Issue Unit := do
  tileExists t
  tileDefined t
  let c ← get
  match c.s.tile? c.id.teamId t.toNat with
  | some x =>
    if x.state ≠ .ready then holdFor (.tile t.toNat true)
    else modTh (fun u => { u with view := u.view.join (c.s.counts (.tile c.id.teamId t.toNat)).2 })
  | none => pure ()

/-- R338: each signer parks until the tile is ready. -/
def bodyMldb (g : BitVec 3) (o : BitVec 7) : Issue Unit := do
  let v ← src o
  tileReady (v.extractLsb' 0 8)
  let c ← get
  if c.hold.isNone then sign g (.mldb v) 0 0 none
/-- R338 -/
def execMldb (w : BitVec 1) (g : BitVec 3) (o : BitVec 7) (st : State) : Host.Outcome State Fault Refusal :=
  plain (Enc.mldb w g o) .nothing (bodyMldb g o) st

/-- R338 -/
def execMzero (w : BitVec 1) (g : BitVec 3) (c : BitVec 4) (st : State) : Host.Outcome State Fault Refusal :=
  plain (Enc.mzero w g c) .nothing (sign g (.mzero c.toNat) 0 0 none) st

/-- R338 -/
def bodyMst (g : BitVec 3) (o : BitVec 7) : Issue Unit := do
  let v ← src o
  tileExists (v.extractLsb' 4 8)
  tileDefined (v.extractLsb' 4 8)
  sign g (.mst v) 0 0 none
/-- R338 -/
def execMst (w : BitVec 1) (g : BitVec 3) (o : BitVec 7) (st : State) : Host.Outcome State Fault Refusal :=
  plain (Enc.mst w g o) .nothing (bodyMst g o) st

/-- The issue waits until the thread's earlier accesses are performed, and flushes the pod members that hold its stores (R188, R199). -/
def waitPerformed : Issue Unit := do
  let c ← get
  regardless (fun s => s.pursue c.id c.s.stamp)
  stallNow

/-- R342: the offset is checked on the signer that names it. The signature waits for the signer's earlier accesses, which the operation's
issue releases and the checks of its block may read (R199; DEDUCED: log entry 16). -/
def bodySsx (g : BitVec 3) (a : BitVec 7) : Issue Unit := do
  let off ← coOffset a 128 128
  let c ← get
  if !c.s.doneBefore c.id c.s.stamp then waitPerformed
  else sign g (.ssx off) 0 0 none
/-- R342 -/
def execSsx (w : BitVec 1) (g : BitVec 3) (a : BitVec 7) (st : State) : Host.Outcome State Fault Refusal :=
  plain (Enc.ssx w g a) .nothing (bodySsx g a) st

/-- R339 -/
def bodyMrd (acc : BitVec 4) (d a : BitVec 7) : Issue Unit := do
  let v ← src a
  let r ← dstDeferred d 4 4
  let c ← get
  flagWordIf (decide (v.extractLsb' 12 20 ≠ 0) || decide (bits v.toNat 11 6 % 4 ≠ 0)) .reservedOperand
  flagWordIf (match c.s.team? c.id.teamId with
    | some t => !t.hasAcc acc.toNat
    | none => true) .illegalMatrix
  access (.mrd acc.toNat (bits v.toNat 5 0) (bits v.toNat 11 6) r (c.s.core c.id.core).issued)
/-- R339 -/
def execMrd (w : BitVec 1) (c : BitVec 4) (d a : BitVec 7) (st : State) : Host.Outcome State Fault Refusal :=
  plain (Enc.mrd w c d a) .nothing (bodyMrd c d a) st

/-! ### Execution (R240, R241, R335, R337, R338) -/

/-- The cistern address of byte `a` of a team's allocation. -/
def State.cistPa (s : State) (id : TeamId) (a : Nat) : Nat :=
  id.core * 262144 + (match s.team? id with
    | some t => t.cistBase
    | none => 0) + a

/-- The encoding of element `k` of a row or column that starts at `row` (R233, R335). -/
def State.cistElem (s : State) (id : TeamId) (f : Fmt) (row k : Nat) : Nat :=
  if 8 < f.W then Memory.readLE s.cist (s.cistPa id (row + 2 * k)) 2
  else if 4 < f.W then (Memory.get s.cist (s.cistPa id (row + k))).toNat % 2 ^ f.W
  else bits (Memory.get s.cist (s.cistPa id (row + k / 2))).toNat (4 * (k % 2) + 3) (4 * (k % 2)) % 2 ^ f.W

/-- The metadata nibble of a group of a sparse row (R335): f and s. -/
def State.sparseNibble (s : State) (id : TeamId) (blk i g : Nat) : Nat × Nat :=
  let n := bits (Memory.get s.cist (s.cistPa id (blk + 2048 + 16 * i + g / 2))).toNat (4 * (g % 2) + 3) (4 * (g % 2))
  (n % 4, n / 4)

/-- The element (i, k) of A; none for a pruned one, an exact zero (R335). -/
def State.elemA (s : State) (id : TeamId) (f : Fmt) (sp blk i k : Nat) : Option Val :=
  if sp = 0 then some (val (s.cistElem id f (blk + 32 * i) k) f)
  else
    let g := k / 4
    let (a, b) := s.sparseNibble id blk i g
    if k % 4 = a then some (val (s.cistElem id f (blk + 32 * i) (2 * g)) f)
    else if k % 4 = b then some (val (s.cistElem id f (blk + 32 * i) (2 * g + 1)) f) else none

/-- Every nibble of a sparse block has f below s (R336). -/
def State.sparseOk (s : State) (id : TeamId) (blk K : Nat) : Bool :=
  (List.range 64).all (fun i => (List.range (K / 4)).all (fun g => decide ((s.sparseNibble id blk i g).1 < (s.sparseNibble id blk i g).2)))

/-- The scale of the block that holds element k: byte (sof + sel + b) mod 4 of a scale register (R240). -/
def scaleOf (kind : Nat) (fs : Word) (w : Word) (blk sof sel k : Nat) : Val :=
  if kind ≠ 0 then .num false 1 0 false
  else val (bits w.toNat (8 * ((sof + sel + k / blk) % 4) + 7) (8 * ((sof + sel + k / blk) % 4))) (Fmt.ofWord fs)

/-- What one side of an `mma` computes with: the team that holds A and the team of this core, the reservations, the
operand words and the scale pairs of both. -/
structure MmaSide where
  teamA : TeamId
  teamB : TeamId
  resA  : Reservation
  resB  : Reservation
  wordA : Word
  wordB : Word
  selA  : Nat
  selB  : Nat
  rowsA : List (Word × Word)
  rowsB : List (Word × Word)

/-- One unit of R241: the exact sum of the products of elements `k0` to `k0 + n - 1`. -/
def State.unitSum (s : State) (m : MmaSide) (i j k0 n : Nat) : Val :=
  let fa := elemFmt m.resA.kind m.resA.fmtA
  let fb := elemFmt m.resB.kind m.resB.fmtB
  let ba := m.resA.off + opStepA m.wordA * blockA m.resA.sp
  let bb := m.resB.off + opStepB m.wordB * blockB m.resA.sp
  (List.range n).foldl (fun acc d =>
    match s.elemA m.teamA fa m.resA.sp ba i (k0 + d) with
    | none => acc
    | some x => acc.add 0 (x.mul (val (s.cistElem m.teamB fb (bb + (if m.resA.sp = 1 then 64 else 32) * j) (k0 + d)) fb)))
    (.num false 0 0 false)

/-- The new value of accumulator element (i, j) (R241, R337). -/
def State.mmaElem (s : State) (m : MmaSide) (i j : Nat) (old : Nat) : Nat :=
  let K := opK m.resA.kind (elemFmt m.resA.kind m.resA.fmtA) m.resA.sp
  let U := if m.resA.kind = 0 then min (min m.resA.blkA m.resB.blkB) K else K
  (List.range (K / U)).foldl (fun acc u =>
    let sA := scaleOf m.resA.kind m.resA.fmtS (m.rowsA.getD i (0, 0)).1 m.resA.blkA m.resA.sofA m.selA (u * U)
    let sB := scaleOf m.resB.kind m.resB.fmtS (m.rowsB.getD j (0, 0)).2 m.resB.blkB m.resB.sofB m.selB (u * U)
    let p := ((s.unitSum m i j (u * U) U).mul sA).mul sB
    roundVal binary32 0 0 ((val acc binary32).add 0 p)) old

/-- The bytes of the accumulator after an `mma` (R337). -/
def State.mmaBytes (s : State) (m : MmaSide) : List Byte :=
  (List.range 4096).flatMap (fun e =>
    natBytes 4 (s.mmaElem m (e / 64) (e % 64) (Memory.readLE s.cist (s.cistPa m.teamB (16384 * opAcc m.wordB + 4 * e)) 4)))

/-- Writes cistern bytes of a team. -/
def State.cistWrite (s : State) (id : TeamId) (a : Nat) (bs : List Byte) : State :=
  { s with cist := Memory.write s.cist (s.cistPa id a) bs }

/-- The operand word and select of an `mma` or `mmap`. -/
def SigOp.mmaWord : SigOp → Word × Nat
  | .mma o sel _ => (o, sel)
  | .mmap o sel _ => (o, sel)
  | _ => (0, 0)

/-- The side of an operation, with A from `src` (R337). -/
def MatrixOp.side (op src : MatrixOp) : Option MmaSide :=
  match src.resvA, op.resvB with
  | some a, some b => some { teamA := src.team, teamB := op.team, resA := a, resB := b, wordA := src.op.mmaWord.1, wordB := op.op.mmaWord.1
                             selA := src.op.mmaWord.2, selB := op.op.mmaWord.2, rowsA := src.scales, rowsB := op.scales }
  | _, _ => none

/-- Every signer of an operation gets the cause as a pending cause (R136). -/
def State.pendOp (s : State) (op : MatrixOp) : State :=
  (op.signers.zip op.words).foldl (fun s p => s.pend p.1 .illegalMatrix (p.2.setWidth 64)) s

/-- A sparse A block's metadata is in order (R336). -/
def State.metadataOk (s : State) (m : MmaSide) : Bool :=
  decide (m.resA.sp ≠ 1)
    || s.sparseOk m.teamA (m.resA.off + opStepA m.wordA * blockA 1) (opK m.resA.kind (elemFmt m.resA.kind m.resA.fmtA) 1)

/-- An `mma` executes (R336, R337). -/
def State.runMma (s : State) (op : MatrixOp) : State :=
  match op.side op with
  | none => s
  | some m => if s.metadataOk m then s.cistWrite op.team (16384 * opAcc m.wordB) (s.mmaBytes m) else s.pendOp op

/-- Both halves of an `mmap` execute, with A from the even core (R337). -/
def State.runPair (s : State) (a b : MatrixOp) : State :=
  let src := if a.team.core % 2 = 0 then a else b
  match a.side src, b.side src with
  | some x, some y =>
    if s.metadataOk x then
      let bx := s.mmaBytes x
      let by' := s.mmaBytes y
      (s.cistWrite a.team (16384 * opAcc x.wordB) bx).cistWrite b.team (16384 * opAcc y.wordB) by'
    else (s.pendOp a).pendOp b
  | _, _ => s

/-- The format of an `mst` (R338). -/
def mstFmt (o : Word) : Fmt := if bits o.toNat 13 12 = 0 then binary32 else if bits o.toNat 13 12 = 1 then bfloat16 else binary16

/-- The bytes that an `mst` writes: every element down-converted under RNE and INF (R338). -/
def State.mstData (s : State) (id : TeamId) (o : Word) : List Byte :=
  let f := mstFmt o
  (List.range 4096).flatMap (fun e =>
    let v := Memory.readLE s.cist (s.cistPa id (16384 * bits o.toNat 3 0 + 4 * e)) 4
    natBytes (f.W / 8) ((convertDown f 0 0 1 (val v binary32)).getD 0))

/-- What an operation of the engine does when it executes (R337, R338). -/
def State.runMatrix (s : State) (op : MatrixOp) : State :=
  match op.op with
  | .mma _ _ _ => s.runMma op
  | .mmap _ _ _ => s
  | .mldb o =>
    match s.tile? op.team (bits o.toNat 7 0), op.resvA with
    | some x, some r => s.cistWrite op.team (r.off + 256 * bits o.toNat 23 12) (Memory.read s.mem (s.coPa op.team x.base) x.bytes)
    | _, _ => s
  | .mzero acc => { s with cist := Memory.clear s.cist (s.cistPa op.team (16384 * acc)) 16384 }
  | .mst o =>
    let t := bits o.toNat 11 4
    match s.tile? op.team t with
    | some x =>
      let s := s.storeFrom (s.engineOrigin op.team false) (s.coPa op.team x.base) (s.mstData op.team o)
      s.barArrive (.tile op.team t) (mstBytes o) false (op.view.join (s.countedView op.team [(s.coPa op.team x.base, mstBytes o)]))
    | none => s
  | .ssx _ => s

/-- A core from which a cut saves a team: its engines bring their operations to an end (R118, R121; DEDUCED: log entry 33). -/
def State.savingAt (s : State) (core : Nat) : Bool :=
  s.cut.saving && s.teams.any (fun p => decide (p.1.core = core) && !p.2.ended && decide (p.2.action = some .save))

/-- A unit that holds or runs threads' instructions. -/
def unitIsThread : CutUnit → Bool
  | .thread _ => true
  | _ => false

/-- A unit starts nothing new for a cut (R122): a thread once it has stopped at a boundary, every other unit from the stop request on. -/
def State.unitStopped (s : State) (u : CutUnit) : Bool :=
  (decide (u ∈ s.cut.units) || ((s.cut.stopping || s.cut.isStopped) && !unitIsThread u)) && !(match u with
    | .headgate c => s.savingAt c
    | .flume c => s.savingAt c
    | .matrix c => s.savingAt c
    | _ => false)

/-- The head of the engine's order. -/
def State.matrixHead (s : State) (core : Nat) : Option MatrixOp := (s.core core).matrix.head?

/-- Marks the head as started. -/
def Core.startHead (k : Core) : Core :=
  { k with matrix := match k.matrix with
      | [] => []
      | o :: r => { o with started := true } :: r }

/-- An `mrd` of the operation's team that was issued before it has not read yet (R340, R354). -/
def State.unread (s : State) (op : MatrixOp) : Bool :=
  s.threads.any (fun p => decide (p.1.teamId = op.team) && p.2.log.any (fun e => decide (e.state = .pending) && (match e.access with
    | .mrd _ _ _ _ after => decide (after ≤ op.number)
    | _ => false)))

/-- The accesses that the signers issued before the operation are performed (R199), and no earlier `mrd` is left (R340). -/
def State.released (s : State) (op : MatrixOp) : Bool := op.signers.all (fun t => s.doneBefore t op.stamp) && !s.unread op

/-- Flushes the pod members that hold stores that the operation waits for (R199). -/
def State.pursueOp (s : State) (op : MatrixOp) : State := op.signers.foldl (fun s t => s.pursue t op.stamp) s

/-- The head of a core is the half of an `mmap` that waits for its pair (R340). -/
def State.waitingHalf (s : State) (core : Nat) : Bool :=
  match s.matrixHead core with
  | some o => !o.started && s.released o && (match o.op with
    | .mmap _ _ _ => true
    | _ => false)
  | none => false

/-- A team is to stop at its boundaries for a flush or a save (R117, R118). -/
def State.teamStops (s : State) (id : TeamId) : Bool :=
  match s.team? id with
  | some v => match v.action with
    | some .flush => true
    | some .save => true
    | _ => false
  | none => false

/-- MATRIX_OP_START: the head of the engine's order starts (R338, R340); an `ssx` that was stopped registers its ranges
again (R342, R345). -/
def execMatrixOpStart (core : Nat) (s : State) : Host.Outcome State Fault Refusal :=
  match s.matrixHead core with
  | none => .next s
  | some o =>
    if o.started || s.unitStopped (.matrix core) then .next s else
    if !s.released o then .next (s.pursueOp o) else
    match o.op with
    | .mmap _ _ _ =>
      .next (if s.waitingHalf (partnerCore core) && !s.unitStopped (.matrix (partnerCore core))
        then (s.modCore core Core.startHead).modCore (partnerCore core) Core.startHead else s)
    | .mst w =>
      match s.tile? o.team (bits w.toNat 11 4) with
      | some x =>
        .next (if o.flow then s.modCore core Core.startHead
          else if x.state = .empty then (s.fillTile o.team (bits w.toNat 11 4)).modCore core Core.startHead else s)
      | none => .next (s.modCore core Core.startHead)
    | .ssx _ =>
      let tag := s.nextId
      if s.cut.stopping || s.cut.isStopped || s.teamStops o.team then .next s
      else if o.paired.isSome then .next (s.modCore core Core.startHead)
      else if !s.canOwn core (ssbRanges o.ssb tag o.asid) then .next s
      else .next (({ s with nextId := tag + 1 }).modCore core (fun k =>
        { k.startHead with
          ranges := k.ranges ++ ssbRanges o.ssb tag o.asid
          matrix := match k.startHead.matrix with
            | [] => []
            | x :: r => { x with paired := some tag } :: r }))
    | _ => .next (s.modCore core Core.startHead)

/-- The head leaves the engine, and its dataflow entry is freed (R177). -/
def Core.popHead (k : Core) : Core :=
  { k with
    matrix := k.matrix.drop 1
    flow := match k.matrix.head? with
      | none => k.flow
      | some o => k.flow.filter (fun e => match e.cmd with
        | .matrix m => !(e.running && decide (m.number = o.number))
        | _ => true) }

/-- MATRIX_OP_COMPLETE: the operation in progress writes its results and leaves the engine; both halves of an `mmap` at
once (R337, R338, R340). -/
def execMatrixOpComplete (core : Nat) (s : State) : Host.Outcome State Fault Refusal :=
  match s.matrixHead core with
  | none => .next s
  | some o =>
    if !o.started then .next s else
    match o.op with
    | .ssx _ => .next s
    | .mmap _ _ _ =>
      match s.matrixHead (partnerCore core) with
      | some p => .next (((s.runPair o p).modCore core Core.popHead).modCore (partnerCore core) Core.popHead).convEverywhere
      | none => .next s
    | _ => .next ((s.runMatrix o).modCore core Core.popHead).convEverywhere

/-- An `mrd` reads its elements once the operations issued before it have written (R340). -/
def State.startMrd (s : State) (id : ThreadId) (e : LogEntry) (acc row col dst after : Nat) : State :=
  if (s.core id.core).matrix.any (fun o => decide (o.team = id.teamId) && decide (o.number < after)) then s else
  let a := 16384 * acc + 256 * row + 4 * col
  s.setEntry id e (.returned ((List.range 4).map (fun i =>
    (dst + i, BitVec.ofNat 32 (Memory.readLE s.cist (s.cistPa id.teamId (a + 4 * i)) 4)))))

/-- PAIR_TIMEOUT: 2^24 cycles after its offer a core withdraws it and discards the signatures; its signers get
pair-timeout (R137). -/
def execPairTimeout (team : TeamId) (g : Nat) (s : State) : Host.Outcome State Fault Refusal :=
  match s.team? team with
  | none => .next s
  | some t =>
    match t.conv[g]? with
    | none => .next s
    | some c =>
      match c.offered with
      | none => .next s
      | some at' =>
        if t.ncyc < at' + 2 ^ 24 then .next s else
        .next (c.sigs.foldl (fun s x => s.pend x.thread .pairTimeout (BitVec.ofNat 64 (partnerCore team.core))) (s.convDone team g c false))

end Sys2Proof.Machine
end

