-- ==== Sys2Proof/Machine/CrossLane.lean ====
section
/-! DEFINITION. Cross-lane instructions, major 0x2C: forced reconvergence, deadlock and the effects of each operation
(R129 to R131, R242, R300 to R302). -/
namespace Sys2Proof.Machine

/-! ### Arrival (R129, R300) -/

/-- A source register that cannot be a stream (R300). -/
def laneSource (f : RegField) : Issue Nat := block f 1 1

/-- A destination register that cannot be a stream (R300). -/
def laneDest (f : RegField) : Issue Nat := dstDeferred f 1 1

/-- Arrival at a cross-lane instruction with member mask m: the thread's own bit is checked, and it parks there (R129, R130) with its x
registers as they were before it resolved a field (R142). -/
def arriveLane (m : BitVec 3) (op : XOp) : Issue Unit := do
  let c ← get
  let mask := c.s.maskReg c.id c.th m
  flagWordIf (!mask.getLsbD c.id.mem) .reservedOperand
  parkAt (.xlane op mask (match c.s.thread? c.id with
    | some t => t.x
    | none => c.th.x))

/-- The immediate n of a pick, which IMM hints extend (R300). -/
def pickImm (n : BitVec 4) : Issue Nat := fun c => (c.hs.immU n.toNat 4, c)

/-! ### Execution (R130, R301) -/

/-- The participants of a mask: its live members (R129, R132). -/
def State.participants (s : State) (g : GroupId) (mask : Dword) : List Nat := (s.members g).filter (fun i => mask.getLsbD i)

/-- What a member waits for at a cross-lane instruction: its pc, its operation and its participants. -/
def State.laneWait (s : State) (g : GroupId) (i : Nat) : Option (Addr × XOp × List Nat) :=
  match s.thread? (memberOf g i) with
  | none => none
  | some t => match t.wait with
    | .xlane op mask _ => some (t.pc, op, s.participants g mask)
    | _ => none

/-- The source register of an operation. -/
def XOp.source : XOp → Nat
  | .pickK _ a _ => a
  | .pickR _ a _ => a
  | .pickXor _ a _ => a
  | .pickAdd _ a _ => a
  | .pickSub _ a _ => a
  | .kin _ a _ => a
  | .combAdd _ a _ => a
  | .combMin _ a _ => a
  | .combMax _ a _ => a
  | .scanAdd _ a _ => a
  | _ => 0

/-- The predicate of an operation. -/
def XOp.predicate : XOp → BitVec 4
  | .census _ p => p
  | .agreeAll _ _ _ p => p
  | .agreeAny _ _ _ p => p
  | .agreeSame _ _ _ p => p
  | _ => 0

/-- The addition of two FP32 encodings (R242). -/
def addSingle (a b : Word) : Word :=
  BitVec.ofNat 32 (roundVal binary32 0 0 ((val a.toNat binary32).add 0 (val b.toNat binary32)))

/-- One pass of the pairwise tree (R242). -/
def treePass : List Word → List Word
  | a :: b :: r => addSingle a b :: treePass r
  | l => l

/-- The pairwise tree (R242); `fuel` passes. -/
def tree : Nat → List Word → Word
  | 0, l => l.headD 0
  | n + 1, l => match l with
    | [] => 0
    | [a] => a
    | l => tree n (treePass l)

/-- A single value as its sum: an FP32 NaN becomes the canonical one (R229). -/
def soleSingle (a : Word) : Word := if val a.toNat binary32 = .nan then BitVec.ofNat 32 binary32.nan else a

/-- A sum over a list: wrap-around, or the FP32 tree (R229, R242). -/
def laneSum (t : BitVec 2) (l : List Word) : Word :=
  if t = 1 then (match l with
    | [a] => soleSingle a
    | l => tree 7 l) else l.foldl (· + ·) 0

/-- The lesser or greater of two values read as .i, .n or FP32 (R229, R301). -/
def lanePick (least : Bool) (t : BitVec 2) (a b : Word) : Word :=
  match t.toNat with
  | 0 => if decide (a.toInt ≤ b.toInt) = least then a else b
  | 1 => if decide (a.toNat ≤ b.toNat) = least then a else b
  | _ => BitVec.ofNat 32 (if least then fminCode binary32 a.toNat b.toNat else fmaxCode binary32 a.toNat b.toNat)

/-- The extremum over a list (R229, R301); one FP32 value alone is read under R229 as well. -/
def laneExtreme (least : Bool) (t : BitVec 2) : List Word → Word
  | [] => 0
  | a :: r => r.foldl (lanePick least t) (if t = 2 then lanePick least t a a else a)

/-- What the operation does to participant `i` of P, from the registers of all participants (R301). -/
def State.laneEffect (s : State) (g : GroupId) (ps : List Nat) (ops : Nat → XOp) (i : Nat) (t : Thread) : Thread :=
  let th := fun j => s.thread? (memberOf g j)
  let w := s.gwidth g
  let src := fun j => match th j with
    | some u => u.reg (ops j).source
    | none => 0
  let srcP := fun j => match th j with
    | some u => u.pair (ops j).source
    | none => 0
  let pred := fun j => match th j with
    | some u => u.cond ((ops j).predicate.extractLsb' 0 3) != (ops j).predicate.getLsbD 3
    | none => false
  let pick := fun (d : Nat) (k : Nat) => t.setReg d (if ps.contains k then src k else src i)
  let mask := maskOf (ps.filter pred)
  let all := ps.all pred
  let any := ps.any pred
  let agree := fun (x : Bool) (r c : BitVec 3) (b : Bool) => (if x then t.setMask r w mask else t).setCond c b
  match ops i with
  | .pickK d _ n => pick d n
  | .pickR d _ k => pick d (t.reg k).toNat
  | .pickXor d _ n => pick d (i ^^^ n)
  | .pickAdd d _ n => pick d ((i + n) % w)
  | .pickSub d _ n => pick d (((i : Int) - (n : Int)) % (w : Int)).toNat
  | .census r _ => t.setMask r w mask
  | .kin r _ wide => t.setMask r w (maskOf (ps.filter (fun j => if wide then srcP j == srcP i else src j == src i)))
  | .agreeAll x r c _ => agree x r c all
  | .agreeAny x r c _ => agree x r c any
  | .agreeSame x r c _ => agree x r c (all || !any)
  | .combAdd d _ k => t.setReg d (laneSum k (ps.map src))
  | .combMin d _ k => t.setReg d (laneExtreme true k (ps.map src))
  | .combMax d _ k => t.setReg d (laneExtreme false k (ps.map src))
  | .scanAdd d _ k => t.setReg d (laneSum k ((ps.filter (fun j => decide (j ≤ i))).map src))
  | .fenceGrp => t

/-- The participants of member `i` are all parked at its pc with its set, and a `fence.grp` has its accesses performed
(R130, R197). -/
def State.laneReady (s : State) (g : GroupId) (i : Nat) : Option (List Nat) :=
  match s.laneWait g i with
  | none => none
  | some (pc, op, ps) =>
    if ps.all (fun j => match s.laneWait g j with
        | some (q, _, rs) => decide (q = pc) && decide (rs = ps)
        | none => false)
      && (decide (op ≠ .fenceGrp) || ps.all (fun j => s.doneBefore (memberOf g j) s.stamp))
    then some ps else none

/-- The operation of a member. -/
def State.laneOp (s : State) (g : GroupId) (i : Nat) : XOp :=
  match s.laneWait g i with
  | some (_, op, _) => op
  | none => .fenceGrp

/-- What the participants of a `fence.grp` see after it: what any of them saw or did before it (R197). Any other operation carries no
order (R192). -/
def State.laneView (s : State) (g : GroupId) (ps : List Nat) : View :=
  ps.foldl (fun v i => match s.laneOp g i, s.thread? (memberOf g i) with
    | .fenceGrp, some t => v.join (s.fenceView (memberOf g i) t .grp)
    | _, _ => v) .none

/-- A participant passes the operation: a `fence.grp` is a fence of all of them at once (R193, R197). -/
def State.passLane (r s : State) (g : GroupId) (ps : List Nat) (i : Nat) : State :=
  if s.laneOp g i = .fenceGrp then (r.sees (memberOf g i) (s.laneView g ps)).passFence (memberOf g i) .grp else r

/-- Executes an operation once for its participants (R130). -/
def State.laneExecute (s : State) (g : GroupId) (ps : List Nat) : State :=
  ps.foldl (fun r i =>
    match s.thread? (memberOf g i) with
    | none => r
    | some t => ((r.setThread (memberOf g i) (s.laneEffect g ps (s.laneOp g) i t)).passLane s g ps i).complete (memberOf g i)) s

/-- Every complete set of the members of a group that `f` names executes (R130, R133). -/
def State.laneSets (s : State) (g : GroupId) (f : Nat → Bool) : Nat → State
  | 0 => s
  | n + 1 =>
    match ((s.members g).filter f).findSome? (fun i => s.laneReady g i) with
    | none => s
    | some ps => (s.laneExecute g ps).laneSets g f n

/-- A member of a group in deadlock takes its cause at the instruction where it is parked (R131). -/
def State.deadlockTrap (s : State) (id : ThreadId) : State :=
  match s.thread? id with
  | none => s
  | some t =>
    match t.wait with
    | .xlane _ _ x =>
      let u := { t with x := x }
      if u.log ≠ [] then s.setThread id { u with wait := .fault .convergenceDeadlock 0 }
      else (s.deliver id u).getD (s.trap id u 0x0C 0)
    | _ => s

/-- Convergence deadlock (R131): every live member is parked at a cross-lane instruction and no set is complete. -/
def State.laneDeadlock (s : State) (g : GroupId) : Bool :=
  !(s.members g).isEmpty && (s.members g).all (fun i => (s.laneWait g i).isSome)
    && (s.members g).all (fun i => match s.laneWait g i with
      | some (pc, _, ps) => !ps.all (fun j => match s.laneWait g j with
        | some (q, _, rs) => decide (q = pc) && decide (rs = ps)
        | none => false)
      | none => false)

/-- Members at a `fence.grp` flush the pod members that hold their stores (R188, R197). -/
def State.laneLand (s : State) (g : GroupId) : State :=
  (s.members g).foldl (fun r i => match s.laneWait g i with
    | some (_, .fenceGrp, _) => r.pursue (memberOf g i) s.stamp
    | _ => r) s

/-- What cross-lane instructions do after a member arrives or leaves (R130, R131, R133). A halted group issues nothing
(R224). -/
def State.meet (s : State) (g : GroupId) : State :=
  match s.group? g with
  | none => s
  | some v =>
    if v.halted ∨ v.fault.isSome then s else
    let s := s.laneLand g
    let s := s.laneSets g (fun _ => true) 64
    if s.laneDeadlock g then (s.members g).foldl (fun r i => r.deadlockTrap (memberOf g i)) s else s

/-- A cross-lane instruction: its arrival, and what that completes. -/
def lane (word : Word) (sw : Bool) (acc : Accepts) (body : Issue Unit) (st : State) : Host.Outcome State Fault Refusal :=
  issue word sw acc body (fun s => s.meet st.cur.group) st

/-! ### The instructions (R300, R301) -/

/-- R301 -/
def execPickK (w : BitVec 1) (m : BitVec 3) (d a : BitVec 7) (n : BitVec 4) (st : State) : Host.Outcome State Fault Refusal :=
  lane (Enc.pickK w m d a n) false .immOnly (do
    let x ← laneSource a
    let r ← laneDest d
    let k ← pickImm n
    arriveLane m (.pickK r x k)) st
/-- R301 -/
def execPickR (w : BitVec 1) (m : BitVec 3) (d a : BitVec 7) (k : BitVec 4) (st : State) : Host.Outcome State Fault Refusal :=
  lane (Enc.pickR w m d a k) false .nothing (do
    let x ← laneSource a
    let r ← laneDest d
    arriveLane m (.pickR r x k.toNat)) st
/-- R301 -/
def execPickXor (w : BitVec 1) (m : BitVec 3) (d a : BitVec 7) (n : BitVec 4) (st : State) : Host.Outcome State Fault Refusal :=
  lane (Enc.pickXor w m d a n) false .immOnly (do
    let x ← laneSource a
    let r ← laneDest d
    let k ← pickImm n
    arriveLane m (.pickXor r x k)) st
/-- R301 -/
def execPickAdd (w : BitVec 1) (m : BitVec 3) (d a : BitVec 7) (n : BitVec 4) (st : State) : Host.Outcome State Fault Refusal :=
  lane (Enc.pickAdd w m d a n) false .immOnly (do
    let x ← laneSource a
    let r ← laneDest d
    let k ← pickImm n
    arriveLane m (.pickAdd r x k)) st
/-- R301 -/
def execPickSub (w : BitVec 1) (m : BitVec 3) (d a : BitVec 7) (n : BitVec 4) (st : State) : Host.Outcome State Fault Refusal :=
  lane (Enc.pickSub w m d a n) false .immOnly (do
    let x ← laneSource a
    let r ← laneDest d
    let k ← pickImm n
    arriveLane m (.pickSub r x k)) st
/-- R301 -/
def execCensus (w : BitVec 1) (m r : BitVec 3) (p : BitVec 4) (st : State) : Host.Outcome State Fault Refusal :=
  lane (Enc.census w m r p) false .nothing (arriveLane m (.census r p)) st
/-- R301 -/
def execKin (w : BitVec 1) (m r : BitVec 3) (a : BitVec 7) (z : BitVec 1) (st : State) : Host.Outcome State Fault Refusal :=
  lane (Enc.kin w m r a z) false .nothing (do
    let x ← if z = 1 then block a 2 2 else laneSource a
    arriveLane m (.kin r x (decide (z = 1)))) st
/-- R301 -/
def execAgreeAll (w : BitVec 1) (m : BitVec 3) (x : BitVec 1) (r c : BitVec 3) (p : BitVec 4) (st : State) :
    Host.Outcome State Fault Refusal :=
  lane (Enc.agreeAll w m x r c p) false .nothing (arriveLane m (.agreeAll (decide (x = 1)) r c p)) st
/-- R301 -/
def execAgreeAny (w : BitVec 1) (m : BitVec 3) (x : BitVec 1) (r c : BitVec 3) (p : BitVec 4) (st : State) :
    Host.Outcome State Fault Refusal :=
  lane (Enc.agreeAny w m x r c p) false .nothing (arriveLane m (.agreeAny (decide (x = 1)) r c p)) st
/-- R301 -/
def execAgreeSame (w : BitVec 1) (m : BitVec 3) (x : BitVec 1) (r c : BitVec 3) (p : BitVec 4) (st : State) :
    Host.Outcome State Fault Refusal :=
  lane (Enc.agreeSame w m x r c p) false .nothing (arriveLane m (.agreeSame (decide (x = 1)) r c p)) st
/-- R242 -/
def execCombAdd (w : BitVec 1) (m : BitVec 3) (d a : BitVec 7) (t : BitVec 2) (st : State) : Host.Outcome State Fault Refusal :=
  lane (Enc.combAdd w m d a t) false .nothing (do
    let x ← laneSource a
    let r ← laneDest d
    arriveLane m (.combAdd r x t)) st
/-- R301 -/
def execCombMin (w : BitVec 1) (m : BitVec 3) (d a : BitVec 7) (t : BitVec 2) (st : State) : Host.Outcome State Fault Refusal :=
  lane (Enc.combMin w m d a t) false .nothing (do
    let x ← laneSource a
    let r ← laneDest d
    arriveLane m (.combMin r x t)) st
/-- R301 -/
def execCombMax (w : BitVec 1) (m : BitVec 3) (d a : BitVec 7) (t : BitVec 2) (st : State) : Host.Outcome State Fault Refusal :=
  lane (Enc.combMax w m d a t) false .nothing (do
    let x ← laneSource a
    let r ← laneDest d
    arriveLane m (.combMax r x t)) st
/-- R242 -/
def execScanAdd (w : BitVec 1) (m : BitVec 3) (d a : BitVec 7) (t : BitVec 2) (st : State) : Host.Outcome State Fault Refusal :=
  lane (Enc.scanAdd w m d a t) false .nothing (do
    let x ← laneSource a
    let r ← laneDest d
    arriveLane m (.scanAdd r x t)) st
/-- R302 -/
def execFenceGrp (w : BitVec 1) (m : BitVec 3) (st : State) : Host.Outcome State Fault Refusal :=
  lane (Enc.fenceGrp w m) true .nothing (arriveLane m .fenceGrp) st

end Sys2Proof.Machine
end

