-- ==== Sys2Proof/Machine/Sync.lean ====
section
/-! DEFINITION. Turnouts and barriers, majors 0x2D minors 1 to 5 (R180, R304 to R307). -/
namespace Sys2Proof.Machine

/-! ### Turnouts (R180, R304, R305) -/

/-- What a member sends at a slot: its word, first register and count. -/
def State.sendOf (s : State) (id : ThreadId) (slot : Nat) : Option (Word × Nat × Nat) :=
  match s.thread? id with
  | none => none
  | some t => match t.wait with
    | .send w k base n => if k = slot then some (w, base, n) else none
    | _ => none

/-- The oldest `rrecv` of a member at a slot. -/
def State.recvOf (s : State) (id : ThreadId) (slot : Nat) : Option (LogEntry × Nat × Nat) :=
  match s.thread? id with
  | none => none
  | some t => t.log.findSome? (fun e => (e.receives slot).map (fun r => (e, r)))

/-- A group's sending side is present (R305). -/
def State.sendPresent (s : State) (g : GroupId) (slot : Nat) : Bool :=
  !(s.members g).isEmpty && (s.members g).all (fun i => (s.sendOf (memberOf g i) slot).isSome)

/-- A group's receiving side is present (R305). -/
def State.recvPresent (s : State) (g : GroupId) (slot : Nat) : Bool :=
  !(s.members g).isEmpty && (s.members g).all (fun i => (s.recvOf (memberOf g i) slot).isSome)

/-- The side of a slot: the group that holds it while it is present, or else the lowest gidx present (R180). -/
def State.turnoutSide (s : State) (id : TeamId) (held : Option Nat) (present : GroupId → Bool) : Option Nat :=
  match held with
  | some g => if present (groupOf id g) then some g else (s.liveGroups id).find? (fun k => present (groupOf id k))
  | none => (s.liveGroups id).find? (fun k => present (groupOf id k))

/-- The register counts that both groups name at a slot. -/
def State.turnoutCounts (s : State) (a b : GroupId) (slot : Nat) : List Nat :=
  (s.members a).filterMap (fun i => (s.sendOf (memberOf a i) slot).map (fun r => r.2.2))
    ++ (s.members b).filterMap (fun i => (s.recvOf (memberOf b i) slot).map (fun r => r.2.2))

/-- The receiving side takes its registers (R305). -/
def State.receive (s : State) (a b : GroupId) (slot : Nat) : State :=
  (s.members b).foldl (fun r i =>
    match s.recvOf (memberOf b i) slot with
    | none => r
    | some (e, base, n) =>
      let vs := match s.sendOf (memberOf a i) slot, s.thread? (memberOf a i) with
        | some (_, from', _), some t => (List.range n).map (fun k => (base + k, t.reg (from' + k)))
        | _, _ => []
      r.setEntry (memberOf b i) e (.returned vs)) s

/-- A sender's own fault at its `rsend` (R155): its own `rrecv`, where its group is the receiver too, is flagged and taken first. -/
def State.sendFault (s : State) (id : ThreadId) (t : Thread) (w : Word) : State :=
  let u := { t with wait := .fault .reservedOperand (w.setWidth 64) }
  if allReturned t.log then s.commitAt id u else s.setThread id u

/-- The counts differ: every member of both groups takes reserved-operand, a receiver at its marker (R305). -/
def State.turnoutFault (s : State) (a b : GroupId) (slot : Nat) : State :=
  let s := (s.members b).foldl (fun r i =>
    match r.recvOf (memberOf b i) slot with
    | some (e, _) => r.setEntry (memberOf b i) e (.flagged .reservedOperand (e.word.setWidth 64))
    | none => r) s
  (s.members a).foldl (fun r i =>
    match r.sendOf (memberOf a i) slot, r.thread? (memberOf a i) with
    | some (w, _), some t => r.sendFault (memberOf a i) t w
    | _, _ => r) s

/-- A member of a group stays where it is for a debugger or a cut (R122, R224). -/
def State.groupStays (s : State) (g : GroupId) : Bool :=
  (s.members g).any (fun i => match s.thread? (memberOf g i) with
    | some t => s.staysPut (memberOf g i) t
    | none => false)

/-- One transfer of a slot, where both sides are present (R305). A halted sending group takes no fault: it waits (R224). -/
def State.turnoutStep (s : State) (id : TeamId) (slot : Nat) : State :=
  match (s.team? id).bind (fun t => t.turnouts[slot]?) with
  | none => s
  | some v =>
    let put := fun (s : State) (x : Turnout) => s.modTeam id (fun t => { t with turnouts := t.turnouts.set slot x })
    let a := s.turnoutSide id v.sender (fun g => s.sendPresent g slot)
    let b := s.turnoutSide id v.receiver (fun g => s.recvPresent g slot)
    match a, b with
    | some x, some y =>
      let gx := groupOf id x
      let gy := groupOf id y
      let counts := s.turnoutCounts gx gy slot
      let s' := put s { sender := none, receiver := none }
      if counts.all (fun n => n == counts.headD 0) then
        let r := s'.receive gx gy slot
        (s.members gx).foldl (fun r i => r.complete (memberOf gx i)) r
      else if s.groupStays gx then put s { sender := a, receiver := b }
      else s'.turnoutFault gx gy slot
    | _, _ => put s { sender := a, receiver := b }

/-- Every slot of a team moves on; `fuel` transfers each. -/
def State.turnouts (s : State) (id : TeamId) : State :=
  (List.range 16).foldl (fun s slot => (List.range 4).foldl (fun s _ => s.turnoutStep id slot) s) s

/-- R304 -/
def bodyRsend (slot : BitVec 4) (b : BitVec 7) (n : BitVec 5) : Issue Unit := do
  let k ← block b 1 (n.toNat + 1)
  let c ← get
  parkAt (.send c.word slot.toNat k (n.toNat + 1))
/-- A thread reaches an `rsend` at a slot where its own `rrecv` waits: it commits its other accesses, and the `rrecv` stays in its log until
the transfer (R305; DEDUCED: log entry 86). -/
def State.reachSend (s : State) (id : ThreadId) (t : Thread) (word : Word) (slot : Nat) : State :=
  if t.wait ≠ .run ∨ t.log.all (fun e => (e.receives slot).isNone) then s
  else if t.log.any (fun e => (e.receives slot).isNone) then s.setThread id { t with wait := .toSend slot word.msb }
  else if s.delivers id t word then s else s.setThread id { t.ordered with wait := .committed }

/-- R304 -/
def execRsend (w : BitVec 1) (s : BitVec 4) (b : BitVec 7) (n : BitVec 5) (st : State) :
    Host.Outcome State Fault Refusal :=
  let word := Enc.rsend w s b n
  issue word true .nothing (bodyRsend s b n) (fun r => r.turnouts st.cur.teamId)
    (match st.thread? st.cur with
    | some t => st.reachSend st.cur t word s.toNat
    | none => st)

/-- R304 -/
def bodyRrecv (slot : BitVec 4) (b : BitVec 7) (n : BitVec 5) : Issue Unit := do
  let k ← dstDeferred b 1 (n.toNat + 1)
  access (.rrecv slot.toNat k (n.toNat + 1))
/-- R304 -/
def execRrecv (w : BitVec 1) (s : BitVec 4) (b : BitVec 7) (n : BitVec 5) (st : State) :
    Host.Outcome State Fault Refusal :=
  issue (Enc.rrecv w s b n) false .nothing (bodyRrecv s b n) (fun r => r.turnouts st.cur.teamId) st

/-! ### Barriers (R306, R307) -/

/-- A barrier of a team, or of its cluster. -/
def State.barrier? (s : State) (id : TeamId) (cl : Bool) (b : Nat) : Option Barrier :=
  if cl then (s.clusterOf id).bind (fun c => c.bars[b]?) else (s.team? id).bind (fun t => t.bars[b]?)

/-- Replaces a barrier. -/
def State.setBarrier (s : State) (id : TeamId) (cl : Bool) (b : Nat) (x : Barrier) : State :=
  if cl then
    match s.team? id, s.clusterOf id with
    | some t, some c => { s with clusters := AMap.set s.clusters t.cluster { c with bars := c.bars.set b x } }
    | _, _ => s
  else s.modTeam id (fun t => { t with bars := t.bars.set b x })

/-- The teams that share a barrier and are resident: the team, or every team of its cluster. -/
def State.barrierTeams (s : State) (id : TeamId) (cl : Bool) : List TeamId :=
  if cl then
    match s.team? id, s.clusterOf id with
    | some t, some c => c.teams.filter (fun k => match s.team? k with
        | some v => decide (v.cluster = t.cluster)
        | none => false)
    | _, _ => []
  else [id]

/-- The groups that can arrive: those that have not ended (R307). -/
def State.barrierGroups (s : State) (id : TeamId) (cl : Bool) : List GroupId :=
  (s.barrierTeams id cl).flatMap (fun t => (s.liveGroups t).map (groupOf t))

/-- Every live member of a group has reached the barrier (R307). -/
def State.groupReached (s : State) (b : Barrier) (g : GroupId) : Bool :=
  !(s.members g).isEmpty && (s.members g).all (fun i => b.reached.any (fun r => decide (r.1 = memberOf g i)))

/-- The barrier with the groups that have arrived by now. -/
def State.noteArrivals (s : State) (b : Barrier) (gs : List GroupId) : Barrier :=
  { b with arrived := b.arrived ++ gs.filter (fun g => !b.arrived.contains g && s.groupReached b g) }

/-- The phase has all its arrivals (R307). -/
def Barrier.full (b : Barrier) (gs : List GroupId) : Bool :=
  match b.n with
  | none => false
  | some 0 => !b.arrived.isEmpty && gs.all (fun g => b.arrived.contains g)
  | some n => decide (n ≤ b.arrived.length)

/-- Every access that an arrived member issued before it arrived is performed (R307). -/
def State.arrivalsDone (s : State) (b : Barrier) : Bool :=
  b.reached.all (fun r => !b.arrived.contains r.1.group || s.doneBefore r.1 r.2)

/-- The arrived members flush the pod members that hold their stores (R188, R307). -/
def State.landArrivals (s : State) (b : Barrier) : State :=
  b.reached.foldl (fun s r => if b.arrived.contains r.1.group then s.pursue r.1 r.2 else s) s

/-- The phase completes: parked members of the arrived groups go on and see what any arrived member did before (R307), and those that came a
second time arrive in the next phase. Members of a group that has not arrived have reached the next phase (DEDUCED: log entry 24). -/
def State.completePhase (s : State) (id : TeamId) (cl : Bool) (k : Nat) (b : Barrier) : State :=
  let rest := b.reached.filter (fun r => !b.arrived.contains r.1.group)
  let s := s.setBarrier id cl k { n := if rest = [] then none else b.n, reached := rest, arrived := [] }
  let seen := b.reached.foldl (fun v r => if b.arrived.contains r.1.group then v.join (s.sofar r.1) else v) View.none
  let ts := (s.barrierTeams id cl).flatMap (fun t => (s.threads.map (fun p => p.1)).filter (fun i => decide (i.teamId = t)))
  ts.foldl (fun r i =>
    match r.thread? i with
    | none => r
    | some t =>
      if t.wait = (if cl then Wait.barCl k else Wait.bar k) ∧ b.arrived.contains i.group then (r.sees i seen).complete i
      else if t.wait = .barNext k cl then r.setThread i { t with wait := .committed } else r) s

/-- Takes the arrivals of a barrier, and completes its phase where it is full (R307). -/
def State.barrierStep (s : State) (id : TeamId) (cl : Bool) (k : Nat) : State :=
  match s.barrier? id cl k with
  | none => s
  | some b =>
    if b.n.isNone then s else
    let gs := s.barrierGroups id cl
    let b' := s.noteArrivals b gs
    if !b'.full gs then s.setBarrier id cl k b'
    else if s.arrivalsDone b' then s.completePhase id cl k b'
    else (s.landArrivals b').setBarrier id cl k b'

/-- Every barrier of a team and of its cluster moves on. -/
def State.barriers (s : State) (id : TeamId) : State :=
  (List.range 16).foldl (fun s k => (s.barrierStep id false k).barrierStep id true k) s

/-- A member reaches a barrier (R307): a second time in one phase it waits for the next; another n than the phase's is
refused. -/
def reachBarrier (cl : Bool) (b : BitVec 4) (n : Nat) (park : Bool) : Issue Unit := do
  let c ← get
  let teamg := match c.s.team? c.id.teamId with
    | some t => t.groups
    | none => 0
  flagWordIf (decide (teamg < n)) .reservedOperand
  match c.s.barrier? c.id.teamId cl b.toNat with
  | none => flagWord .reservedOperand
  | some x =>
    if x.reached.any (fun r => decide (r.1 = c.id)) || x.full (c.s.barrierGroups c.id.teamId cl) then holdFor (.barNext b.toNat cl)
    else do
      flagWordIf (decide (x.n ≠ none) && decide (x.n ≠ some n)) .reservedOperand
      let y : Barrier := { x with n := some n, reached := x.reached ++ [(c.id, c.s.stamp)] }
      modDev (fun s => (s.pardon c.id).setBarrier c.id.teamId cl b.toNat y)
      if park then parkAt (if cl then .barCl b.toNat else .bar b.toNat)

/-- R306, R307 -/
def execBar (w : BitVec 1) (b : BitVec 4) (n : BitVec 6) (st : State) : Host.Outcome State Fault Refusal :=
  issue (Enc.bar w b n) true .nothing (reachBarrier false b n.toNat true) (fun r => r.barrierStep st.cur.teamId false b.toNat) st

/-- R306, R307 -/
def execBarCl (w : BitVec 1) (b : BitVec 4) (st : State) : Host.Outcome State Fault Refusal :=
  issue (Enc.barCl w b) true .nothing (reachBarrier true b 0 true) (fun r => r.barrierStep st.cur.teamId true b.toNat) st

/-- R306: a nonzero n of the cluster form is a reserved field (R259). -/
def bodyArrive (b : BitVec 4) (n : BitVec 6) (cl : BitVec 1) : Issue Unit := do
  if cl = 1 ∧ n ≠ 0 then flagWord .illegalInstruction
  reachBarrier (decide (cl = 1)) b n.toNat false
/-- R306, R307 -/
def execArrive (w : BitVec 1) (b : BitVec 4) (n : BitVec 6) (c : BitVec 1) (st : State) :
    Host.Outcome State Fault Refusal :=
  issue (Enc.arrive w b n c) false .nothing (bodyArrive b n c) (fun r => r.barrierStep st.cur.teamId (decide (c = 1)) b.toNat) st

end Sys2Proof.Machine
end

