-- ==== Sys2Proof/Machine/Lifecycle.lean ====
section
/-! DEFINITION. The end of threads, groups, teams and clusters (R110, R132, R133, R215), with `exit` and opcode-table
row GROUP_FAULT_STOP. -/
namespace Sys2Proof.Machine

/-! ### What the end of a member sets free (R132, R133) -/

/-- Everything of a team that a removal can complete: cross-lane sets, convergence registers, turnouts, barriers and
service batches. -/
def State.settle (s : State) (g : GroupId) : State :=
  ((((s.meet g).convAll g.teamId).turnouts g.teamId).barriers g.teamId).closeBatches g

/-! ### The fault record (R215) -/

/-- The address of the lanes' fault, as a record's bytes; `seq` is its number. -/
def faultBytes (g : GroupId) (f : FaultInfo) (seq : Word) : List Byte :=
  natBytes 4 seq.toNat ++ natBytes 2 g.core ++ natBytes 1 g.team ++ natBytes 1 g.grp ++ natBytes 1 f.lane ++ [f.cause, f.prior, 0]
    ++ natBytes 4 f.pc.toNat ++ natBytes 4 f.val.toNat ++ natBytes 4 f.tstat.toNat ++ natBytes 2 (f.pc.toNat / 2 ^ 32)
    ++ [0, 0] ++ natBytes 4 (f.val.toNat / 2 ^ 32) ++ List.replicate 32 0

/-- The cores that hold a pinned team: where a fault record is an event (R215). -/
def State.pinnedCores (s : State) : List Nat := ((s.teams.filter (fun p => p.2.pinned && !p.2.ended)).map (fun p => p.1.core)).eraseDups

/-- Writes a fault record where the ring is valid (R215). -/
def State.faultRecord (s : State) (g : GroupId) (f : FaultInfo) : State :=
  let r := s.reg64 0x280038
  if bits r 63 63 = 0 then s else
  let seq := s.faultSeq + 1
  let s := ({ s with faultSeq := seq }).store (bits r 47 0 + 64 * (seq.toNat % 64)) (faultBytes g f seq)
  s.pinnedCores.foldl (fun s c => s.latchCore c) s

/-! ### Groups, teams and clusters (R110) -/

/-- Groups from the head of the pending list enter the active set while it has room (R108; DEDUCED: log entry 25). `fuel` groups. -/
def State.fillActive (s : State) (core : Nat) : (fuel : Nat) → State
  | 0 => s
  | fuel + 1 =>
    match (s.core core).pending with
    | [] => s
    | g :: r =>
      if (s.core core).active.length < 8 then
        ((s.modCore core (fun k => { k with active := k.active ++ [g], pending := r })).entered g).fillActive core fuel
      else s

/-- A group leaves its core's sets, and another takes its place (R108). -/
def State.leaveCore (s : State) (g : GroupId) : State :=
  (s.modCore g.core (fun k => { k with active := k.active.filter (fun x => decide (x ≠ g)), pending := k.pending.filter (fun x => decide (x ≠ g)) })).fillActive g.core 8

/-- Changes a launch, if it is there. -/
def State.modLaunch (s : State) (l : Nat) (f : Launch → Launch) : State :=
  match AMap.get? s.launches l with
  | some v => { s with launches := AMap.set s.launches l (f v) }
  | none => s

/-- Every team of a cluster has ended; none is saved, and the cluster is not being flushed (R110, R117, R118). -/
def State.clusterOver (s : State) (n : Nat) (c : Cluster) : Bool :=
  !c.flushed && s.saved.all (fun v => decide (v.number ≠ n)) && c.teams.all (fun t => match s.team? t with
    | some v => decide (v.cluster ≠ n) || v.ended
    | none => true)

/-- A team whose groups have all ended ends, with its dataflow entries that were never dispatched; so does its cluster
with its last team (R110, R177). The ranges that such an entry owned are neither written nor failed, and stay owned (R181; DESIGN CHOICE: log
entry 103). -/
def State.endTeam (s : State) (id : TeamId) : State :=
  match s.team? id with
  | none => s
  | some t =>
    if t.ended ∨ s.liveGroups id ≠ [] then s else
    let s := s.modTeam id (fun t => { t with ended := true })
    let s := s.modCore id.core (fun k => { k with flow := k.flow.filter (fun e => decide (e.team ≠ id) || e.running) })
    match AMap.get? s.clusters t.cluster with
    | none => s
    | some c => if s.clusterOver t.cluster c then s.modLaunch t.launch (fun l => { l with ended := l.ended + 1 }) else s

/-- A group without live members ends (R110, R133, R215). -/
def State.endGroup (s : State) (g : GroupId) : State :=
  match s.group? g with
  | none => s
  | some v =>
    if v.ended ∨ s.members g ≠ [] then s else
    let s := match v.fault with
      | some f =>
        let s := s.faultRecord g f
        match s.team? g.teamId with
        | some t => s.modLaunch t.launch (fun l => { l with faulted := l.faulted + 1 })
        | none => s
      | none => s
    let s := (s.modGroup g (fun v => { v with ended := true, halted := false })).leaveCore g
    (s.barriers g.teamId).endTeam g.teamId

/-- A member is removed (R132, R133). -/
def State.removeMember (s : State) (id : ThreadId) : State :=
  let s := s.modThread id (fun t => { t with wait := .exited, log := [], kept := [], hints := [], q := [none, none, none, none] })
  let s := { s with service := { s.service with batches := s.service.batches.filter (fun b => !(b.slot.isNone && (match b.engine with
    | .stream t _ => decide (t = id)
    | _ => false))) } }
  (s.settle id.group).endGroup id.group

/-- Every store of a thread has been accepted and performed here, or is on its way to another device. -/
def State.storesGone (s : State) (id : ThreadId) (t : Thread) : Bool :=
  s.buffer.all (fun b => decide (b.thread ≠ id)) && t.q.all (fun q => match q with
    | some q => q.appended.isEmpty
    | none => true)

/-- GROUP_FAULT_STOP: a member of a group that a double trap ends is removed once its accesses are performed, on other devices too, where it
flushes the pod members that hold stores of it; their results are discarded (R188, R215). -/
def execGroupFaultStop (thread : ThreadId) (s : State) : Host.Outcome State Fault Refusal :=
  match s.thread? thread, s.group? thread.group with
  | some t, some g =>
    .next (if !(t.live && g.fault.isSome && allReturned t.log && s.storesGone thread t) then s
      else if s.landed thread s.stamp false && s.landed thread s.stamp true then s.removeMember thread
      else s.flushMembers ((s.awaited thread s.stamp false ++ s.awaited thread s.stamp true).map (fun t => t.member)) (thread, 0))
  | _, _ => .next s

/-! ### exit (R132, R299) -/

/-- A store of the thread, one of its write streams included, is still to be performed, uncollected non-temporal ones excepted (R188, R198,
R296). -/
def State.storesLeft (s : State) (id : ThreadId) (t : Thread) : Bool :=
  s.buffer.any (fun b => decide (b.thread = id) && !b.access.nonTemporal) || (List.range 4).any (fun k => s.undrained id t k)
    || !s.landed id s.stamp false

/-- A thread that is to leave flushes the pod members that hold its stores, once all have left (R188). -/
def State.landAll (s : State) (id : ThreadId) (t : Thread) : State :=
  if s.buffer.all (fun b => decide (b.thread ≠ id) || b.access.nonTemporal) && t.q.all (fun q => match q with
      | some q => q.appended.isEmpty
      | none => true)
  then s.flushMembers ((s.awaited id s.stamp false).map (fun t => t.member)) (id, 0) else s

/-- R132: the thread's stores are performed first, those of its write streams among them (R296). -/
def bodyExit : Issue Unit := do
  let c ← get
  if c.s.storesLeft c.id c.th then do
    regardless (fun s => s.landAll c.id c.th)
    stallNow
  modTh (fun t => { t with nret := t.nret + 1 })
  parkAt .exited

/-- R132, R299 -/
def execExit (w : BitVec 1) (st : State) : Host.Outcome State Fault Refusal :=
  issue (Enc.exit w) true .nothing bodyExit (fun s => s.removeMember st.cur) st

end Sys2Proof.Machine
end

