-- ==== Sys2Proof/Machine/Headgate.lean ====
section
/-! DEFINITION. Copy requests and the headgate (R168, R173 to R176, R181, R331): `kick`, with opcode-table rows
COPY_REQUEST_CHECK, COPY_REQUEST_DISPATCH and COPY_PIECE_COMPLETE. -/
namespace Sys2Proof.Machine

/-! ### Fields of a request (R173) -/

/-- mc: the request goes to the cores of its mask. -/
def rqMc (r : Nat) : Bool := decide (bits r 255 255 = 1)
/-- tv: the request names a tile. -/
def rqTv (r : Nat) : Bool := decide (bits r 254 254 = 1)
/-- The destination space. -/
def rqDsp (r : Nat) : Nat := bits r 253 251
/-- The source space. -/
def rqSsp (r : Nat) : Nat := bits r 250 248
/-- The tile. -/
def rqTile (r : Nat) : Nat := bits r 247 240
/-- The offset of the barrier object. -/
def rqBar (r : Nat) : Nat := 8 * bits r 239 224
/-- The length. -/
def rqLen (r : Nat) : Nat := bits r 223 192
/-- The mask of a multicast. -/
def rqMask (r : Nat) : Dword := BitVec.ofNat 64 (bits r 191 128)
/-- The destination address. -/
def rqDst (r : Nat) : Nat := bits r 127 64
/-- The source address. -/
def rqSrc (r : Nat) : Nat := bits r 63 0
/-- The tile is the destination. -/
def rqTileDst (r : Nat) : Bool := rqTv r && decide (rqDsp r = 0)
/-- The tile is the source. -/
def rqTileSrc (r : Nat) : Bool := rqTv r && decide (rqDsp r ≠ 0)

/-- The space of a code of R173. -/
def rqSpace : Nat → Space
  | 0 => .co
  | 1 => .cl
  | 2 => .ch
  | _ => .gl

/-! ### Teams, barriers and sides -/

/-- The team of the cluster on core-in-cluster index k, where it has not ended (R157). -/
def State.clTeam (s : State) (id : TeamId) (k : Nat) : Option TeamId :=
  match s.team? id, s.clusterOf id with
  | some t, some c =>
    match c.teams[k]? with
    | none => none
    | some j =>
      match s.team? j with
      | some v => if v.ended ∨ v.cluster ≠ t.cluster then none else some j
      | none => none
  | _, _ => none

/-- A barrier exists: the object lies in the team's allocation, or the tile is defined (R174). -/
def State.barExists (s : State) : BarName → Bool
  | .object t off => match s.team? t with
    | some v => decide (off + 8 ≤ v.coBytes)
    | none => false
  | .tile t k => match s.tile? t k with
    | some x => x.valid
    | none => false

/-- The barrier that a request uses on a team. -/
def rqBarOn (r : Nat) (t : TeamId) : BarName := if rqTv r then .tile t (rqTile r) else .object t (rqBar r)

/-- The destination teams whose barriers a request counts on, none for one that is gone (R175, R176). -/
def State.rqTeams (s : State) (id : TeamId) (r : Nat) : List (Option TeamId) :=
  if rqMc r ∧ rqDsp r = 0 then (maskMembers (rqMask r)).map (fun k => s.clTeam id k)
  else if rqDsp r = 1 ∧ !rqTv r then [s.clTeam id (rqDst r / 524288)]
  else [some id]

/-- The barriers of a request that exist. -/
def State.rqBars (s : State) (id : TeamId) (r : Nat) : List BarName :=
  (s.rqTeams id r).filterMap (fun o => match o with
    | some t => if s.barExists (rqBarOn r t) then some (rqBarOn r t) else none
    | none => none)

/-- Arrives bytes on barriers (R172), behind the writes that a view sees. -/
def State.arriveAll (s : State) (bs : List BarName) (n : Nat) (err : Bool) (seen : View) : State := bs.foldl (fun s b => s.barArrive b n err seen) s

/-- The base and length that bound one side on a team: its tile, or the allocation. -/
def State.coBound (s : State) (t : TeamId) (tile : Option Nat) : Nat × Nat :=
  match tile with
  | some k => match s.tile? t k with
    | some x => (x.base, x.bytes)
    | none => (0, 0)
  | none => match s.team? t with
    | some v => (0, v.coBytes)
    | none => (0, 0)

/-- One side lies in its space: a scratchpad side in the allocation or tile of each team in question (R157, R174). -/
def State.sideOk (s : State) (id : TeamId) (sp a len : Nat) (tile : Option Nat) (teams : List TeamId) : Bool :=
  match sp with
  | 0 => decide (a < 2 ^ 32) && teams.all (fun t => decide (a + len ≤ (s.coBound t tile).2))
  | 1 => decide (a < 2 ^ 32) && (match s.clusterOf id with
      | some c => decide (a / 524288 < c.width * c.height) && decide (a % 524288 + len ≤ (s.coBound id none).2)
      | none => false)
  | 2 => decide (a < 2 ^ 32) && decide (a + len ≤ 2 ^ 30)
  | _ => true

/-- An address of `.gl` on another rank (R174). -/
def State.farAddress (s : State) (sp a : Nat) : Bool := decide (sp = 3) && decide (2 ^ 63 ≤ a) && decide (gRank a ≠ s.selfrank)

/-- The check of a request (R173, R174). -/
def State.rqOk (s : State) (id : TeamId) (r : Nat) : Bool :=
  let teams := (s.rqTeams id r).filterMap (fun o => o)
  let size := match s.clusterOf id with
    | some c => c.width * c.height
    | none => 0
  decide (rqDsp r ≤ 3) && decide (rqSsp r ≤ 3) && decide (1 ≤ rqLen r)
    && !(rqTv r && decide (rqDsp r ≠ 0) && decide (rqSsp r ≠ 0))
    && (!rqMc r || (decide (rqDsp r = 0) && (maskMembers (rqMask r)).all (fun k => decide (k < size))))
    && (!rqTv r || s.barExists (.tile id (rqTile r)))
    && (s.rqTeams id r).all (fun o => match o with
      | some t => s.barExists (rqBarOn r t)
      | none => false)
    && s.barExists (rqBarOn r id) && (decide (rqDsp r ≠ 1) || (s.clTeam id (rqDst r / 524288)).isSome)
    && s.sideOk id (rqDsp r) (rqDst r) (rqLen r) (if rqTileDst r then some (rqTile r) else none) (if rqMc r then teams else [id])
    && s.sideOk id (rqSsp r) (rqSrc r) (rqLen r) (if rqTileSrc r then some (rqTile r) else none) [id]
    && !(s.farAddress (rqDsp r) (rqDst r) && s.farAddress (rqSsp r) (rqSrc r))

/-- A request with a local `.gl` destination owns its range (R181). -/
def rqOwns (r : Nat) : Bool := decide (rqDsp r = 3) && decide (rqDst r < 2 ^ 63)

/-- The bytes from a source address on to the next stripe or region boundary of a global source (R67). -/
def State.toSourceEnd (s : State) (r a : Nat) : Option Nat :=
  if rqSsp r = 3 ∧ 2 ^ 63 ≤ a ∧ a < 2 ^ 64 then some (s.toBoundary (gRegion a) (gOffset a)) else none

/-- The pieces of a request: offset from its start, and length. They are aligned to the destination, and cut once more at a boundary of a
global source; those of a global destination are aligned already (R67, R175). -/
def State.rqPieces (s : State) (r : Nat) : List (Nat × Nat) :=
  (cutPieces (rqLen r / 64 + 2) (rqDst r) (rqLen r)).flatMap (fun p =>
    let off := p.1 - rqDst r
    match s.toSourceEnd r (rqSrc r + off) with
    | some b => if b < p.2 then [(off, b), (off + b, p.2 - b)] else [(off, p.2)]
    | none => [(off, p.2)])

/-! ### kick (R331) -/

/-- R331: the release, then the wait for room; the batch is read as the thread waits. -/
def bodyKick (a : BitVec 7) (n : BitVec 8) : Issue Unit := do
  let off ← coOffset a 32 (32 * (n.toNat + 1))
  let c ← get
  if 16 ≤ (c.s.core c.id.core).batches.length then stallNow
  let b : Batch := { thread := c.id, stamp := c.s.stamp, off := off, left := n.toNat + 1, kernel := c.th.kernel, view := c.th.sofar }
  modDev (fun s => ({ s with stamp := s.stamp + 1 } : State).modCore c.id.core (fun k => { k with batches := k.batches ++ [b] }))
  parkAt .kick
/-- R331 -/
def execKick (w : BitVec 1) (a : BitVec 7) (n : BitVec 8) (st : State) : Host.Outcome State Fault Refusal :=
  issue (Enc.kick w a n) true .nothing (bodyKick a n) id st

/-- The range that a request with a local `.gl` destination owns, by its pieces (R181). -/
def CopyReq.ranges (c : CopyReq) : List Range :=
  if rqOwns c.raw then [{ tag := c.tag, asid := c.asid, left := c.cuts.map (fun p => (rqDst c.raw + p.1, p.2)) }] else []

/-- COPY_REQUEST_CHECK: the headgate takes the next request of its oldest batch, once the accesses before the `kick` are
performed, and checks it; a `kick` completes with its last request (R174, R181, R199, R331). -/
def execCopyRequestCheck (core : Nat) (s : State) : Host.Outcome State Fault Refusal :=
  match (s.core core).batches with
  | [] => .next s
  | b :: rest =>
    let id := b.thread.teamId
    let r := s.read (s.coPa id b.off) 32
    let ok := s.rqOk id r
    let tag := s.nextId
    let req : CopyReq := { thread := b.thread, stamp := b.stamp, asid := s.asidOf id, kernel := b.kernel, raw := r, started := false
                           cuts := s.rqPieces r, pieces := List.range (s.rqPieces r).length, drained := false, tag := tag, view := b.view }
    if s.unitStopped (.headgate core) then .next s
    else if !s.doneBefore b.thread b.stamp then .next (s.pursue b.thread b.stamp)
    else if ok && !s.canOwn core req.ranges then .next s else
    let s := if ok then
        ({ s with nextId := tag + 1 }).modCore core (fun k => { k with
          copies := k.copies ++ [req]
          ranges := k.ranges ++ req.ranges })
      else (s.arriveAll (s.rqBars id r) (rqLen r) true .none).count 0x1088
    let next : List Batch := if b.left ≤ 1 then rest else { b with off := b.off + 32, left := b.left - 1 } :: rest
    let s := s.modCore core (fun k => { k with batches := next })
    .next (if b.left ≤ 1 then (match s.thread? b.thread with
        | some t => if t.wait = .kick then s.complete b.thread else s
        | none => s)
      else s)

/-! ### Dispatch (R168) -/

/-- The teams whose tile a request fills. -/
def State.rqFills (s : State) (id : TeamId) (r : Nat) : List TeamId :=
  if rqTileDst r then (if rqMc r then (s.rqTeams id r).filterMap (fun o => o) else [id]) else []

/-- A tile of a team is in a state. -/
def State.tileIs (s : State) (id : TeamId) (t : Nat) (st : TileState) : Bool :=
  match s.tile? id t with
  | some x => decide (x.state = st)
  | none => false

/-- The source tile is ready, or the request names none (R168). -/
def State.rqSourceReady (s : State) (id : TeamId) (r : Nat) : Bool := !rqTileSrc r || s.tileIs id (rqTile r) .ready

/-- The source tile enters draining (R168). -/
def State.drainTile (s : State) (id : TeamId) (r : Nat) : State :=
  if rqTileSrc r then s.modTile id (rqTile r) (fun x => { x with state := .draining }) else s

/-- What happens before an operation that reads tiles which are ready: what was counted into them (R199). -/
def State.tilesView (s : State) (id : TeamId) (ts : List Nat) : View := joinAll (ts.map (fun t => (s.counts (.tile id t)).2))

/-- What happens before a request that starts now. -/
def State.rqView (s : State) (c : CopyReq) : View :=
  if rqTileSrc c.raw then c.view.join (s.tilesView c.thread.teamId [rqTile c.raw]) else c.view

/-- COPY_REQUEST_DISPATCH: a checked request starts once its tiles allow it (R168, R175). -/
def execCopyRequestDispatch (core request : Nat) (s : State) : Host.Outcome State Fault Refusal :=
  match (s.core core).copies.find? (fun c => c.tag == request) with
  | none => .next s
  | some c =>
    let id := c.thread.teamId
    if c.started || s.unitStopped (.headgate core) then .next s else
    if (s.rqFills id c.raw).all (fun t => s.tileIs t (rqTile c.raw) .empty) && s.rqSourceReady id c.raw then
      let u := (s.rqFills id c.raw).foldl (fun s t => s.fillTile t (rqTile c.raw)) (s.drainTile id c.raw)
      .next (u.modCore core (fun k => { k with copies := k.copies.map (fun (x : CopyReq) =>
        if x.tag = request then { x with started := true, view := s.rqView c } else x) }))
    else .next s

/-! ### Pieces (R175, R176) -/

/-- The base of the scratchpad side of a request on a team. -/
def State.rqBase (s : State) (t : TeamId) (r : Nat) (dst : Bool) : Nat :=
  if (if dst then rqTileDst r else rqTileSrc r) then (s.coBound t (some (rqTile r))).1 else 0

/-- The parts of a range that an engine reaches. An address past the last one names no rank (R67). -/
def State.engineParts (s : State) (id : ThreadId) (kernel : Bool) (sp a n : Nat) (need : Need) : List (Place × Nat) :=
  if 2 ^ 64 ≤ a then [(.bad .permission (BitVec.ofNat 64 a) 0, n)] else s.parts id kernel (rqSpace sp) (BitVec.ofNat 64 a) n need

/-- The address of the source bytes of a piece in their space. -/
def State.pieceAddr (s : State) (c : CopyReq) (off : Nat) : Nat :=
  rqSrc c.raw + off + (if rqSsp c.raw = 0 then s.rqBase c.thread.teamId c.raw false else 0)

/-- Where the source bytes of a piece lie. -/
def State.pieceSource (s : State) (c : CopyReq) (off n : Nat) : List (Place × Nat) :=
  s.engineParts c.thread c.kernel (rqSsp c.raw) (s.pieceAddr c off) n .load

/-- Where the bytes of a piece go: one list of parts for each destination. -/
def State.pieceTargets (s : State) (c : CopyReq) (off n : Nat) : List (List (Place × Nat)) :=
  let id := c.thread.teamId
  if rqDsp c.raw = 0 then
    let ts := if rqMc c.raw then (s.rqTeams id c.raw).filterMap (fun o => o) else [id]
    ts.map (fun t => [(.mem 0 (s.coPa t (s.rqBase t c.raw true + rqDst c.raw + off)) 0, n)])
  else [s.engineParts c.thread c.kernel (rqDsp c.raw) (rqDst c.raw + off) n .store]

/-- What stops an engine at parts: a missing translation, a failure with its code of R65, poison at a byte, or a hold (R25, R26, R175,
R182, R186). -/
inductive PartStop where
  | go
  | missing (va : Dword)
  | fail (code : Nat)
  | poison (i : Nat)
  | wait
  deriving DecidableEq, Repr

/-- What parts from byte `k` on do to an engine, by its core and unit; peer pages refuse engines (R186, R314). -/
def State.partStop (s : State) (by' : Nat × Nat) (load : Bool) : Nat → List (Place × Nat) → PartStop
  | _, [] => .go
  | k, p :: r =>
    match p.1 with
    | .bad .translation va _ => .missing va
    | .bad _ _ code => .fail code
    | .peer _ => .fail 0
    | .mem _ pa _ =>
      if s.heldOther (some by') pa p.2 then .wait
      else match (if load then s.poisoned pa p.2 else none) with
        | some i => .poison (k + i)
        | none => s.partStop by' load (k + p.2) r
    | _ => s.partStop by' load (k + p.2) r

/-- The virtual address of an address in a space of R173, where it has one: poison lies only behind translation (R26, R160). -/
def spaceVa (sp a : Nat) : Dword := BitVec.ofNat 64 (if sp = 2 then 0xFFFFC0000000 + a else a)

/-- The parts are remote: on the pod or glb path. -/
def isFar (ps : List (Place × Nat)) : Bool := ps.any (fun p => match p.1 with
  | .pod _ _ _ _ => true
  | .glb _ _ _ => true
  | _ => false)

/-- The bytes of parts: those in memory, and those that another device has sent for the others. -/
def mergeParts : List (Place × Nat) → (near far : List Byte) → List Byte
  | [], _, _ => []
  | p :: r, near, far =>
    match p.1 with
    | .mem _ _ _ => near.take p.2 ++ mergeParts r (near.drop p.2) far
    | _ => far.take p.2 ++ mergeParts r near (far.drop p.2)

/-- The number of bytes that other devices have to send. -/
def farBytes (ps : List (Place × Nat)) : Nat := ((ps.filter (fun p => isFar [p])).map (fun p => p.2)).sum

/-- The present bytes of parts in memory. -/
def State.partsRead (s : State) (ps : List (Place × Nat)) : List Byte :=
  ps.flatMap (fun p => match p.1 with
    | .mem _ pa _ => Memory.read s.mem pa p.2
    | _ => List.replicate p.2 0)

/-- The bytes of parts that can be read: in memory, and not poisoned. -/
def State.partsKnown (s : State) (ps : List (Place × Nat)) : List (Option Byte) :=
  ps.flatMap (fun p => match p.1 with
    | .mem _ pa _ => (List.range p.2).map (fun i => if (pa + i) / 32 ∈ s.poison then none else some (Memory.get s.mem (pa + i)))
    | _ => List.replicate p.2 none)

/-- Writes bytes to parts in memory, as an origin. -/
def State.partsWrite (s : State) (o : Origin) : List (Place × Nat) → List Byte → State
  | [], _ => s
  | (.mem _ pa _, n) :: r, bs => (s.storeFrom o pa (bs.take n)).partsWrite o r (bs.drop n)
  | (_, n) :: r, bs => s.partsWrite o r (bs.drop n)

/-- A failed piece may have written any subset of its bytes, of those that were there to write (R175; Config.subset). -/
def State.partsMaybe (s : State) (o : Origin) (event : Nat) : Nat → List (Place × Nat) → List (Option Byte) → State
  | _, [], _ => s
  | k, (.mem _ pa _, n) :: r, bs =>
    ((List.range n).foldl (fun s i => match bs.getD i none with
      | some b => if Config.subset event (k + i) then s.storeFrom o (pa + i) [b] else s
      | none => s) s).partsMaybe o event (k + n) r (bs.drop n)
  | k, (_, n) :: r, bs => s.partsMaybe o event (k + n) r (bs.drop n)

/-- A dataflow entry runs the operation with a tag. -/
def FlowEntry.runs (e : FlowEntry) (tag : Nat) : Bool :=
  match e.cmd with
  | .copy c => decide (c.tag = tag)
  | .chain c => decide (c.tag = tag)
  | .matrix _ => false

/-- The headgate has read the last byte of a draining source (R168): every piece left is on its way to another rank. -/
def State.allRead (s : State) (core tag : Nat) (pieces : List Nat) : Bool :=
  pieces.all (fun i => s.net.messages.any (fun m => match m.body with
    | .piece k r j _ => decide (k = core) && decide (r = tag) && decide (j = i)
    | _ => false))

/-- A tile that a request drains is empty once the request has read its last byte, and the request empties it once (R168). -/
def State.drainDone (s : State) (core : Nat) (c : CopyReq) (pieces : List Nat) : State :=
  if rqTileSrc c.raw ∧ c.drained = false ∧ s.allRead core c.tag pieces then
    (s.modTile c.thread.teamId (rqTile c.raw) (fun x => { x with state := if x.state = .draining then .empty else x.state })).modCore core
      (fun k => { k with copies := k.copies.map (fun (x : CopyReq) => if x.tag = c.tag then { x with drained := true } else x) })
  else s

/-- A piece is over: it arrives on its barriers, its range is freed, and the request goes with its last piece
(R175, R177, R181). -/
def State.pieceDone (s : State) (core : Nat) (c : CopyReq) (piece n : Nat) (err : Bool) : State :=
  let left := c.pieces.filter (fun i => decide (i ≠ piece))
  let off := match c.cuts[piece]? with
    | some p => p.1
    | none => 0
  let into := memRanges ((s.pieceTargets c off n).flatMap (fun ps => ps))
  let s := s.arriveAll (s.rqBars c.thread.teamId c.raw) n err (c.view.join (s.countedView c.thread.teamId into))
  let s := s.modCore core (fun k =>
    let k := k.releasePiece c.tag (rqDst c.raw + off) n
    if left = [] then { k with copies := k.copies.filter (fun x => decide (x.tag ≠ c.tag)), flow := k.flow.filter (fun e => !e.runs c.tag) }
    else { k with copies := k.copies.map (fun x => if x.tag = c.tag then { x with pieces := left } else x) })
  (s.drainDone core c left).convEverywhere

/-- A message of the transport carries a piece already. -/
def State.pieceSent (s : State) (core tag piece : Nat) : Bool := s.net.messages.any (fun m => match m.body with
  | .piece k r j _ => decide (k = core) && decide (r = tag) && decide (j = piece)
  | _ => false)

/-- The origin of the writes of a request (R199). -/
def State.rqOrigin (s : State) (c : CopyReq) : Origin := s.engineOrigin c.thread.teamId (rqOwns c.raw)

/-- A piece fails: of the bytes that were there to write, any subset is written to the destinations that take them, and the failure of a
self-rank check is counted (R65, R175). -/
def State.pieceFail (s : State) (core : Nat) (c : CopyReq) (piece off n code : Nat) (bs : List (Option Byte)) : State :=
  let into : State → List (Place × Nat) → State := fun r ps => if s.partStop (core, 0) false 0 ps = .wait then r else r.partsMaybe (s.rqOrigin c) s.stamp 0 ps bs
  (((s.pieceTargets c off n).foldl into { s with stamp := s.stamp + 1 }).countCode code).pieceDone core c piece n true

/-- Denied, refused or unanswered, a piece fails with what its source still shows (R175). -/
def State.pieceRefused (s : State) (core : Nat) (c : CopyReq) (piece off n code : Nat) : State :=
  s.pieceFail core c piece off n code (s.partsKnown (s.pieceSource c off n))

/-- The rank and path of a piece that leaves the device. -/
def farRank (ps : List (Place × Nat)) : Nat × Bool :=
  match ps with
  | (.pod r _ _ _, _) :: _ => (r, true)
  | (.glb r _ _, _) :: q => (r, q.any (fun p => p.1.isPod))
  | _ => (0, false)

/-- A piece with its bytes goes to its destinations (R175, R176). -/
def State.pieceWrite (s : State) (core : Nat) (c : CopyReq) (piece off n : Nat) (bs : List Byte) : State :=
  let targets := s.pieceTargets c off n
  match targets with
  | [ps] =>
    match s.partStop (core, 0) false 0 ps with
    | .missing va => s.engineBatch ⟨core, c.thread.team, 0⟩ (dieOf core) c.asid va 1 (.piece core c.tag piece)
    | .wait => s
    | .fail code => s.pieceFail core c piece off n code (bs.map some)
    | .poison _ => s
    | .go =>
      if isFar ps then
        let target := farRank ps
        (s.postMessage c.thread c.stamp c.kernel target.1 (BitVec.ofNat 64 (rqDst c.raw + off)) n target.2 (.piece core c.tag piece bs)).drainDone core c
          (c.pieces.filter (fun i => decide (i ≠ piece)))
      else (s.partsWrite (s.rqOrigin c) ps bs).pieceDone core c piece n false
  | _ => (targets.foldl (fun s ps => s.partsWrite (s.rqOrigin c) ps bs) s).pieceDone core c piece n false

/-- A piece whose remote source has failed or does not answer fails, and its thread takes remote-access-failure (R26, R44, R65). -/
def State.pieceUnanswered (s : State) (core : Nat) (c : CopyReq) (piece off n : Nat) : State :=
  (s.pend c.thread .remoteAccessFailure (BitVec.ofNat 64 (s.pieceAddr c off))).pieceRefused core c piece off n 0

/-- What a piece reads of its source in memory. -/
def State.pieceNear (s : State) (c : CopyReq) (piece : Nat) (ps : List (Place × Nat)) : List Byte :=
  s.engineRead c.thread.teamId c.view c.tag piece (memRanges ps)

/-- COPY_PIECE_COMPLETE: a piece of a dispatched request is read and written, or fails; a remote source answers with the row. A
translation fault posts a batch of kind 2, and the piece waits; poison, or a failed remote source, is also the request's thread's (R26, R65,
R175, R383). -/
def execCopyPieceComplete (core request piece : Nat) (fault : Option PieceFault) (remote : Remote) (s : State) :
    Host.Outcome State Fault Refusal :=
  match (s.core core).copies.find? (fun c => c.tag == request) with
  | none => .next s
  | some c =>
    match c.cuts[piece]? with
    | none => .next s
    | some (off, n) =>
      if !c.started || !c.pieces.contains piece || s.pieceSent core request piece || s.engineWaits (.piece core request piece) || s.unitStopped (.headgate core) then .next s else
      let ps := s.pieceSource c off n
      match s.partStop (core, 0) true 0 ps with
      | .missing va => .next (s.engineBatch ⟨core, c.thread.team, 0⟩ (dieOf core) c.asid va 0 (.piece core request piece))
      | .wait => .next s
      | .fail code => .next (s.pieceRefused core c piece off n code)
      | .poison i => .next ((s.pend c.thread .uncorrectableMemory (spaceVa (rqSsp c.raw) (s.pieceAddr c off + i))).pieceRefused core c piece off n 0)
      | .go =>
        if isFar ps then
          .next (if !s.podFlows ps then s else match remote with
            | .data b => if b.length = farBytes ps then (s.numberReads ps).pieceWrite core c piece off n (mergeParts ps (s.pieceNear c piece ps) b) else s
            | .failed => s.pieceUnanswered core c piece off n
            | .none => if fault = some .network then s.pieceUnanswered core c piece off n else s)
        else .next ((s.pieceWrite core c piece off n (s.pieceNear c piece ps)).useLines ps)

end Sys2Proof.Machine
end

