-- ==== Sys2Proof/Machine/Boundary.lean ====
section
/-! DEFINITION. Boundaries (R151), what stops a thread at one (R118, R122, R224), and the clock of a core (R109, R146). -/
namespace Sys2Proof.Machine

/-- A thread that reaches the instruction at its pc again, from the first of its hints (R151). -/
def Thread.restarted (t : Thread) : Thread := { t with pc := t.firstWord, hints := [], wait := .run }

/-- A thread stopped at a boundary, as it goes on from there: from before the first hint of the instruction at which it parked (R151),
from the start of a `fence`, `drain.nt`, `pflush` or `cwait` (R319), and from its arrival at a cross-lane instruction, which has changed
nothing (R130, R142). Without hints any other wait goes on where it stands (R221). -/
def Thread.rewound (t : Thread) : Thread :=
  match t.wait with
  | .committed => t.restarted
  | .fence _ _ => t.restarted
  | .drain => t.restarted
  | .pflush _ _ _ _ => t.restarted
  | .counter _ _ _ => t.restarted
  | .xlane _ _ x => { t.restarted with x := x }
  | .park _ => if t.hints.isEmpty then t else t.restarted
  | .tile _ _ => if t.hints.isEmpty then t else t.restarted
  | .sstop _ => if t.hints.isEmpty then t else t.restarted
  | .service _ => if t.hints.isEmpty then t else { t.restarted with wait := .service (if t.log.isEmpty then .run else .reissue) }
  | _ => t

/-- Every live member of a group is at a boundary. -/
def State.groupAtBoundary (s : State) (g : GroupId) : Bool :=
  (s.members g).all (fun i => match s.thread? (memberOf g i) with
    | some t => t.atBoundary
    | none => true)

/-- Rewinds every thread of a group that a stop has held after a commit (R151). -/
def State.rewindGroup (s : State) (g : GroupId) : State :=
  { s with threads := s.threads.map (fun p => if p.1.group = g then (p.1, p.2.rewound) else p) }

/-- A gang of a group has its turn in the present cycle of its core (R108). -/
def State.tookTurn (s : State) (g : GroupId) : State :=
  let n := (s.core g.core).cycle
  s.modGroup g (fun v => if v.last = n then v else { v with prev := v.last, last := n })

/-- A gang issues: it counts for its group, and for every pending group of the core that waits ready (R109). -/
def State.countIssue (s : State) (g : GroupId) : State :=
  let s := s.modGroup g (fun v => { v with issues := v.issues + 1, parkedFor := 0 })
  (s.core g.core).pending.foldl (fun r p => r.modGroup p (fun v => { v with waited := if s.ready p then v.waited + 1 else 0 })) s

/-- Cycles of a core's clock pass: its resident teams count them, and its parked active groups (R108, R109, R146). -/
def State.clock (s : State) (core cycles : Nat) : State :=
  let tick : TeamId × Team → TeamId × Team := fun p =>
    if p.1.core = core ∧ !p.2.ended then (p.1, { p.2 with ncyc := p.2.ncyc + cycles }) else p
  let s := ({ s with teams := s.teams.map tick } : State).modCore core (fun k => { k with cycle := k.cycle + cycles })
  (s.core core).active.foldl (fun s g => s.modGroup g (fun v =>
    { v with parkedFor := if s.ready g then 0 else v.parkedFor + cycles })) s

end Sys2Proof.Machine
end

