-- ==== Sys2Proof/Machine/Debug.lean ====
section
/-! DEFINITION. The debug interface (R224 to R226): opcode-table rows DEBUG_HALT to DEBUG_CATCH_OFF. -/
namespace Sys2Proof.Machine

/-- The mailbox's registers respond from link-up on, every other one from stage 0x6 (R31, R35). -/
def State.served (s : State) (off : Nat) : Bool :=
  s.boot.powered && (s.boot.ready || (s.boot.linkUp && (decide (off / 4 = 4) || decide (0x800 ≤ off ∧ off < 0x1000))))

/-- Some fabric port of a link is up: 0 UALink, 1 Ethernet (R81). -/
def State.linkIsUp (s : State) (eth : Bool) : Bool := (List.range 26).any (fun p => (decide (18 ≤ p) == eth) && s.portUp p)

/-- Masters 2 and 3 reach the management block only through a port of their own link that is up (R38). -/
def State.masterReaches (s : State) (master : Nat) : Bool :=
  if master = 2 then s.linkIsUp false else if master = 3 then s.linkIsUp true else true

/-- A write to an area of the owner: before stage 0x6 it is Unsupported Request (R31); one of another master is discarded and counted in
rejcnt (R79). -/
def State.byOwner (s : State) (master : Nat) (f : State → State) : State :=
  if !s.masterReaches master then s
  else if !s.served 0x200 then s.send .unsupported
  else if s.own.valid ∧ s.own.id = master then f s else { s with own := { s.own with rejcnt := s.own.rejcnt + 1 } }

/-- The outcome of a debugger operation: 1 done, 2 blocked on convergence, 3 refused (R224). -/
def State.outcome (s : State) (lane n : Nat) : State := { s with dbg := { s.dbg with dlane := lane, outcome := n } }

/-- The group of a target. -/
def targetGroup (d : DebugTarget) : GroupId := ⟨d.core, d.team, d.grp⟩

/-- The lane that an operation acts on: the one named, or the lowest-numbered live lane of the group (R224). -/
def State.debugLane (s : State) (d : DebugTarget) : Nat :=
  if d.dflt then
    match (s.members (targetGroup d)).filterMap (fun i => (s.thread? (memberOf (targetGroup d) i)).map (fun t => t.lane)) with
    | [] => d.lane
    | l :: r => r.foldl min l
  else d.lane

/-- A group that an operation acts on: it exists, and its lane is a live member (R224). -/
def State.debugGroup (s : State) (d : DebugTarget) : Option Group :=
  (s.group? (targetGroup d)).filter (fun g => !g.ended && (s.onLane (targetGroup d) (s.debugLane d)).isSome)

/-- An operation of the owner; one on a group that does not exist, or a lane that is no live member, is refused (R224). While a step is in
progress only a halt of its group is taken (R224, R225). -/
def debugOp (d : DebugTarget) (halt : Bool) (f : State → GroupId → Group → State) (s : State) :
    Host.Outcome State Fault Refusal :=
  .next (s.byOwner d.master (fun s =>
    if s.dbg.busy && !(halt && decide (s.dbg.target = some (targetGroup d)) && (s.debugGroup d).isSome) then s else
    let s := { s with dbg := { s.dbg with target := some (targetGroup d) } }
    match s.debugGroup d with
    | none => s.outcome (s.debugLane d) 3
    | some g => f s (targetGroup d) g))

/-- R224: halt. It ends the wait of a step (R225). -/
def execDebugHalt (cmd : DebugTarget) (s : State) : Host.Outcome State Fault Refusal :=
  debugOp cmd true (fun s g _ =>
    let s := { s with dbg := { s.dbg with busy := false, stepping := [] } }
    (s.modGroup g (fun v => { v with halted := true })).outcome (s.debugLane cmd) 1) s

/-- R224: resume. -/
def execDebugResume (cmd : DebugTarget) (s : State) : Host.Outcome State Fault Refusal :=
  debugOp cmd false (fun s g _ =>
    ((((s.rewindGroup g).modGroup g (fun v => { v with halted := false })).turnouts g.teamId).meet g).outcome (s.debugLane cmd) 1) s

/-- R224: catch on. -/
def execDebugCatchOn (cmd : DebugTarget) (s : State) : Host.Outcome State Fault Refusal :=
  debugOp cmd false (fun s g _ => (s.modGroup g (fun v => { v with catching := true })).outcome (s.debugLane cmd) 1) s

/-- R224: catch off. -/
def execDebugCatchOff (cmd : DebugTarget) (s : State) : Host.Outcome State Fault Refusal :=
  debugOp cmd false (fun s g _ => (s.modGroup g (fun v => { v with catching := false })).outcome (s.debugLane cmd) 1) s

/-- The thread of the selected lane, where the group is halted and every member has stopped (R224). -/
def State.debugThread (s : State) (d : DebugTarget) (g : Group) : Option (ThreadId × Thread) :=
  if !g.halted || !s.groupAtBoundary (targetGroup d) then none else
  match s.onLane (targetGroup d) (s.debugLane d) with
  | none => none
  | some i => (s.thread? (memberOf (targetGroup d) i)).map (fun t => (memberOf (targetGroup d) i, t.rewound))

/-- What a selector reads (R224). -/
def State.debugValue (s : State) (id : ThreadId) (t : Thread) (sel : Nat) : Option Word :=
  if sel < 0x100 then (if sel < t.regs then some (t.reg sel) else none)
  else if sel < 0x108 then some (t.x.getD (sel - 0x100) 0)
  else if sel = 0x108 then some ((1#1 ++ t.c).setWidth 32)
  else if 0x110 ≤ sel ∧ sel < 0x120 then
    some ((s.maskReg id t (BitVec.ofNat 3 ((sel - 0x110) / 2))).extractLsb' (32 * ((sel - 0x110) % 2)) 32)
  else if 0x120 ≤ sel ∧ sel < 0x128 then some (t.f.getD (sel - 0x120) 0)
  else if sel = 0x130 then some (t.pc.extractLsb' 0 32)
  else if sel = 0x131 then some ((t.pc.extractLsb' 32 16).setWidth 32)
  else if 0x200 ≤ sel ∧ sel < 0x600 then (csrValue s id t (sel - 0x200)).map (fun r => r.1)
  else none

/-- R224: read. -/
def execDebugRead (cmd : DebugTarget) (sel : Nat) (s : State) : Host.Outcome State Fault Refusal :=
  debugOp cmd false (fun s _ g =>
    match s.debugThread cmd g with
    | none => s.outcome (s.debugLane cmd) 3
    | some (id, t) =>
      match s.debugValue id t sel with
      | none => s.outcome (s.debugLane cmd) 3
      | some v => ({ s with dbgdata := v }).outcome (s.debugLane cmd) 1) s

/-- The mask after a write of one of its halves. -/
def maskHalf (m : Dword) (high : Bool) (v : Word) : Dword :=
  if high then v ++ m.extractLsb' 0 32 else m.extractLsb' 32 32 ++ v

/-- CSR numbers whose registers are read only (R146). -/
def csrReadOnly (n : Nat) : Bool := decide (n ≤ 6) || (decide (0x20 ≤ n) && decide (n ≤ 0x23))

/-- What a selector's write does to a thread; none where it is refused (R224). -/
def State.debugPut (s : State) (id : ThreadId) (t : Thread) (sel : Nat) (v : Word) : Option Thread :=
  if sel < 0x100 then (if sel < t.regs then some (t.setReg sel v) else none)
  else if sel < 0x108 then some { t with x := t.x.set (sel - 0x100) (v &&& 0x3FFFFFFF) }
  else if sel = 0x108 then some { t with c := v.extractLsb' 0 7 }
  else if 0x110 ≤ sel ∧ sel < 0x11E then
    let k := (sel - 0x110) / 2
    some (t.setMask (BitVec.ofNat 3 k) (s.gwidth id.group) (maskHalf (t.m.getD k 0) (decide (sel % 2 = 1)) v))
  else if 0x120 ≤ sel ∧ sel < 0x128 then (if fmtLegal v then some { t with f := t.f.set (sel - 0x120) v } else none)
  else if sel = 0x130 then some { t with pc := (t.pc.extractLsb' 32 16 ++ v) &&& ~~~3#48 }
  else if sel = 0x131 then some { t with pc := v.extractLsb' 0 16 ++ t.pc.extractLsb' 0 32 }
  else if 0x200 ≤ sel ∧ sel < 0x600 then (if csrReadOnly (sel - 0x200) then none else csrWrite t (sel - 0x200) v)
  else none

/-- R224: write, with the checks of the register. -/
def execDebugWrite (cmd : DebugTarget) (sel : Nat) (s : State) : Host.Outcome State Fault Refusal :=
  debugOp cmd false (fun s _ g =>
    match s.debugThread cmd g with
    | none => s.outcome (s.debugLane cmd) 3
    | some (id, t) =>
      match s.debugPut id t sel s.dbgdata with
      | none => s.outcome (s.debugLane cmd) 3
      | some u =>
        let s := s.setThread id u
        let s := if sel = 0x216 then s.modTeam id.teamId (fun m => { m with scoperep := m.scoperep &&& ~~~(s.dbgdata.extractLsb' 0 7) }) else s
        s.outcome (s.debugLane cmd) 1) s

/-- A hint word (R251). -/
def isHint (w : Word) : Bool := decide (w.extractLsb' 25 6 = 0x3E)

/-- The instruction word at an address for a thread, where its page can be fetched. -/
def State.peek (s : State) (id : ThreadId) (t : Thread) (pc : Addr) : Option Word :=
  match s.translate (.core id.core) (s.asidOf id.teamId) pc.toNat .fetch t.kernel with
  | .ok pa _ => some (BitVec.ofNat 32 (s.read pa 4))
  | _ => none

/-- The first word from an address on that is no hint; `fuel` words. -/
def State.peekInstr (s : State) (id : ThreadId) (t : Thread) : Nat → Addr → Option (Addr × Word)
  | 0, _ => none
  | n + 1, a =>
    match s.peek id t a with
    | none => none
    | some w => if isHint w then s.peekInstr id t n (a + 4) else some (a, w)

/-- A step of a cross-lane instruction has a live participant of its mask elsewhere (R225). -/
def State.stepBlocked (s : State) (id : ThreadId) (t : Thread) : Bool :=
  let away := fun (mask : Dword) (pc : Addr) => (s.participants id.group mask).any (fun i =>
    match s.thread? (memberOf id.group i) with
    | some u => decide (u.pc ≠ pc) && decide (u.pc ≠ t.pc)
    | none => false)
  match s.peekInstr id t 8 t.pc with
  | none => false
  | some (a, w) => decide (w.extractLsb' 25 6 = 0x2C) && away (s.maskReg id t (w.extractLsb' 18 3)) a

/-- R225: the live members at the pc of the selected lane advance by one instruction. -/
def execDebugStep (cmd : DebugTarget) (s : State) : Host.Outcome State Fault Refusal :=
  debugOp cmd false (fun s gid g =>
    match s.debugThread cmd g with
    | none => s.outcome (s.debugLane cmd) 3
    | some (id, t) =>
      let s := s.rewindGroup gid
      if s.stepBlocked id t then s.outcome (s.debugLane cmd) 2 else
      let ms := (s.members gid).filterMap (fun i => (s.thread? (memberOf gid i)).bind (fun u =>
        if u.pc = t.pc then some (i, u.nret, u.pc, u.traps) else none))
      { s with dbg := { s.dbg with dlane := s.debugLane cmd, outcome := 0, busy := true, stepping := ms } }) s

/-- After a move of the device while a step is in progress: stepped members commit, complete cross-lane sets of the sub-group execute, its
side of a turnout moves, and the step ends when every member of the sub-group has stepped and is at a boundary (R225, R226). -/
def State.debugSettle (s : State) : State :=
  match s.dbg.target with
  | none => s
  | some g =>
    let s := (s.laneLand g).laneSets g (fun i => s.dbg.stepping.any (fun m => m.1 == i)) 64
    let s := s.turnouts g.teamId
    let s := s.dbg.stepping.foldl (fun s m => s.modThread (memberOf g m.1) (fun t =>
      if t.stepped m.2.1 m.2.2.1 m.2.2.2 && decide (t.wait = .run) && !t.log.isEmpty then { t with wait := .marker false false } else t)) s
    let done := s.dbg.stepping.all (fun m => match s.thread? (memberOf g m.1) with
      | some t => t.stepped m.2.1 m.2.2.1 m.2.2.2 && t.atBoundary
      | none => true)
    if done then { s with dbg := { s.dbg with busy := false, outcome := 1, stepping := [] } } else s

end Sys2Proof.Machine
end

