-- ==== Sys2Proof/Machine/Registers.lean ====
section
/-! DEFINITION. The management register block (R10, R79, R384): what a write stores, what a read gives, the ownership
registers (R82, R83), the fabric ports (R38) and the job block (R56, R62, R76). Opcode-table rows REGISTER_WRITE, PORT_ENABLE to
PORT_LINK_LOSS, CLAIM to MASTER_LINK_DOWN, JOB_ENABLE to JINVAL_COMPLETE, and POWER_CAP_WRITE. -/
namespace Sys2Proof.Machine

/-! ### Plain registers (R79, R384) -/

/-- A block of structures: the mask of 32-bit word `k` of a structure. -/
def regionMask (k : Nat) : Nat := if k ≤ 2 then 0xFFFFFFFF else if k = 3 then 0xFF else if k = 4 then 0x3F else 0
/-- Word `k` of a run entry (R58). -/
def runMask (k : Nat) : Nat :=
  if k = 1 then 0x1FFFFFFF else if k = 3 then 0x3F else if k = 7 then 0xFFFF else 0xFFFFFFFF

/-- The bits of the 32-bit word at an offset that a plain write stores: none where the offset is reserved, or the word has a
behaviour of its own (R10, R56 to R59, R79). Reserved fields of queue configurations and window descriptors are kept, since
their enables check them (R84, R96). The low 12 bits of ctxbase and ctxlen are kept too, and used as they were written (R119; DESIGN CHOICE: log
entry 113). -/
def wordMask (off : Nat) : Nat :=
  if off = 0x200 ∨ off = 0x208 then 0xFFFFFFFF
  else if 0x10000 ≤ off ∧ off < 0x11000 then 0xFFFFFFFF
  else if 0x11000 ≤ off ∧ off < 0x11800 then 0xFFFFFFFF
  else if 0x12000 ≤ off ∧ off < 0x12800 then (if off % 8 = 0 then 0xF0000000 else 0x8000FFFF)
  else if off = 0x40004 then 0xFFFFFF
  else if off = 0x40008 then 0x1FFFF
  else if off = 0x4000C then 0x3FFFF
  else if off = 0x40010 then 0x7FFFFFF
  else if off = 0x40014 then 0xFFFF
  else if off = 0x40020 then 0x3FFFF
  else if 0x40018 ≤ off ∧ off < 0x40034 then 0xFFFFFFFF
  else if 0x40038 ≤ off ∧ off < 0x40048 then 0xFFFFFFFF
  else if 0x40100 ≤ off ∧ off < 0x40300 then (if off % 8 = 0 then 0xFFFFFFFF else 0x7FFFFF)
  else if 0x41000 ≤ off ∧ off < 0x41800 then regionMask (off / 4 % 8)
  else if 0x50000 ≤ off ∧ off < 0x70000 then runMask (off / 4 % 8)
  else if 0x80000 ≤ off ∧ off < 0xA0000 then 0xDF00FFFF
  else if 0x200000 ≤ off ∧ off < 0x280000 then 0xFFFFFFFF
  else if off = 0x280018 ∨ off = 0x280020 ∨ off = 0x280030 ∨ off = 0x280038 then 0xFFFFFFFF
  else if off = 0x28001C ∨ off = 0x280034 then 0xFFFF
  else if off = 0x280024 then 0xFF
  else if off = 0x28003C then 0x8000FFFF
  else if off = 0x280048 then 0xFFFFFFFF
  else 0

/-- A register that only one 8-byte write changes (R384). -/
def wideOnly (off : Nat) : Bool :=
  decide (0x280000 ≤ off ∧ off < 0x280008) || decide (0x280010 ≤ off ∧ off < 0x280028) || decide (0x280030 ≤ off ∧ off < 0x280048)
    || decide (0x140 ≤ off ∧ off < 0x180)

/-- en of a queue's configuration (R84). -/
def State.queueEn (s : State) (q : Nat) : Bool := decide (bits (s.reg32 (0x200000 + 32 * q)) 0 0 = 1)

/-- The mask that a write of one word finds now: a queue that is enabled takes only what R84 and R90 allow; en and the read-only
bits of word 0 of a queue or a window have behaviour of their own; tspbase and tsplen are fixed while en = 1 (R76), ctxbase and
ctxlen while a context is saved (R119). A descriptor of a window takes every write of its other words, while en = 1 or busy = 1 too (DESIGN CHOICE:
log entry 109). -/
def State.maskNow (s : State) (off v : Nat) : Nat :=
  if 0x200000 ≤ off ∧ off < 0x280000 then
    let q := (off - 0x200000) / 32
    let k := off / 4 % 8
    if s.queueEn q then
      (if (s.queue q).mode = .orphaned then (if k = 0 then (if bits v 0 0 = 1 then 0xC000 else 0) else if 4 ≤ k then 0xFFFFFFFF else 0) else 0)
    else if k = 0 then (if bits v 0 0 = 0 then 0xFFFFFFFE else 0) else 0xFFFFFFFF
  else if 0x10000 ≤ off ∧ off < 0x11000 ∧ off % 64 = 0 then (if bits v 0 0 = 0 then 0xFFFFFFF9 else 0)
  else if 0x40038 ≤ off ∧ off < 0x40048 ∧ s.jobOn then 0
  else if 0x280018 ≤ off ∧ off < 0x280028 ∧ s.saved ≠ [] then 0
  else wordMask off

/-- Stores one 32-bit word of a plain register. A word of a descriptor in use is stored at once, and blocks processed after it follow it (R96; DESIGN
CHOICE: log entry 109). -/
def State.writeWord (s : State) (off v : Nat) : State :=
  if off = 0x280048 then { s with dbgdata := BitVec.ofNat 32 v } else
  let m := s.maskNow off v
  let old := s.reg32 off
  { s with mgmt := Memory.writeLE s.mgmt off 4 ((old - (old &&& m)) ||| (v &&& m)) }

/-- A master whose mailbox commands are accepted (R35). -/
def State.mailMaster (s : State) (m : Nat) : Bool :=
  if s.boot.stage = 0xF then decide (m ≤ 1) else s.boot.ready && s.own.valid && decide (s.own.id = m)

/-- Stores one word of the mailbox: rmoff and rmbuf (R35). -/
def State.writeMail (s : State) (off v : Nat) : State :=
  if off = 0x804 then { s with mailbox := { s.mailbox with rmoff := BitVec.ofNat 32 v } }
  else if 0xC00 ≤ off then { s with mailbox := { s.mailbox with rmbuf := Memory.writeLE s.mailbox.rmbuf (off - 0xC00) 4 v } }
  else s

/-- The words of a write of 4 or 8 bytes. -/
def regWords (off size v : Nat) : List (Nat × Nat) :=
  if size = 8 then [(off, v % 2 ^ 32), (off + 4, v / 2 ^ 32)] else [(off, v % 2 ^ 32)]

/-! ### Ownership (R81 to R83, R90) -/

/-- The result of master i's last claim write (R82). -/
def State.claimResult (s : State) (i n : Nat) : State := { s with own := { s.own with results := s.own.results.set i n } }

/-- The queues of one master pass to another (R83): every queue with it in its owner field, enabled or not (DESIGN CHOICE: log entry 107). -/
def State.passQueues (s : State) (a b : Nat) : State :=
  { s with queues := s.queues.map (fun p => (p.1, if p.2.owner = a then { p.2 with owner := b } else p.2)) }

/-- The operations of a claim register, as the arbiter performs them (R83): claim, request handover, accept handover, release. Queues of an
owner that releases stay as they are: only a link-down event orphans them (R90; DEDUCED: log entry 31). -/
def State.claimOp (s : State) (reg : Nat) (seq : Word) : Nat → State
  | 0 => if s.own.valid then s.claimResult reg 3
    else ({ s with own := { s.own with valid := true, id := reg, csq := seq } } : State).claimResult reg 1
  | 1 => if s.own.valid ∧ s.own.id ≠ reg ∧ !s.own.reqValid then
      ({ s with own := { s.own with reqValid := true, reqId := reg } } : State).claimResult reg 1
    else s.claimResult reg 3
  | 2 => if s.own.valid ∧ s.own.id = reg ∧ s.own.reqValid then
      (({ s with own := { s.own with id := s.own.reqId, reqValid := false, csq := seq } } : State).passQueues reg s.own.reqId).claimResult reg 1
    else s.claimResult reg 3
  | 3 => if s.own.valid ∧ s.own.id = reg then
      ({ s with own := { s.own with valid := false, reqValid := false, csq := seq } } : State).claimResult reg 1
    else s.claimResult reg 3
  | _ => s.claimResult reg 3

/-- A write to a claim register in one access of 8 bytes: its format and its sequence are checked (R82, R83). Election opens at stage 0x6
(R31). -/
def State.claimWrite (s : State) (master reg : Nat) (id : BitVec 3) (seq : Word) (op : Nat) : State :=
  if !s.masterReaches master then s
  else if !s.served 0x140 then s.send .unsupported
  else if master ≠ reg ∨ id.toNat ≠ reg ∨ 3 < op then s.claimResult reg 3
  else if seq ≠ s.own.csq + 1 then s.claimResult reg 2
  else s.claimOp reg seq op

/-- CLAIM (R83). -/
def execClaim (master reg : Nat) (id : BitVec 3) (seq : Word) (s : State) : Host.Outcome State Fault Refusal :=
  .next (s.claimWrite master reg id seq 0)

/-- REQUEST_HANDOVER (R83). -/
def execRequestHandover (master reg : Nat) (id : BitVec 3) (seq : Word) (s : State) : Host.Outcome State Fault Refusal :=
  .next (s.claimWrite master reg id seq 1)

/-- ACCEPT_HANDOVER (R83). -/
def execAcceptHandover (master reg : Nat) (id : BitVec 3) (seq : Word) (s : State) : Host.Outcome State Fault Refusal :=
  .next (s.claimWrite master reg id seq 2)

/-- RELEASE (R83). -/
def execRelease (master reg : Nat) (id : BitVec 3) (seq : Word) (s : State) : Host.Outcome State Fault Refusal :=
  .next (s.claimWrite master reg id seq 3)

/-- A write to a claim register that arrives as a plain register write: one that is no single access of 8 bytes, or that has a reserved op
or a nonzero reserved field, is discarded with result 3 (R82). -/
def State.claimWord (s : State) (master off size v : Nat) : State :=
  let reg := (off - 0x140) / 8
  if size = 8 ∧ off % 8 = 0 ∧ bits v 63 40 = 0 then s.claimWrite master reg (BitVec.ofNat 3 (bits v 34 32)) (BitVec.ofNat 32 v) (bits v 39 35)
  else s.claimResult reg 3

/-! ### Plain writes (R79, R384) -/

/-- The areas that only the owner writes (R79). -/
def ownerArea (off : Nat) : Bool :=
  decide (off = 0x200 ∨ off = 0x208 ∨ off = 0x210) || decide (0x300 ≤ off ∧ off < 0x400) || decide (0x10000 ≤ off ∧ off < 0x11800)
    || decide (0x12000 ≤ off ∧ off < 0x12800) || decide (0x40000 ≤ off ∧ off < 0xC0000) || decide (0x200000 ≤ off ∧ off < 0x280100)

/-- pwrcap takes 1,500 to 5,000; other values are ignored (R28, R79). -/
def State.capPower (s : State) (value : Nat) : State :=
  let v := bits value 12 0
  if 1500 ≤ v ∧ v ≤ 5000 then { s with mgmt := Memory.writeLE s.mgmt 0x210 4 v } else s

/-- POWER_CAP_WRITE (R28, R79). -/
def execPowerCapWrite (master : Nat) (value : Word) (s : State) : Host.Outcome State Fault Refusal :=
  .next (s.byOwner master (fun s => s.capPower value.toNat))

/-! ### Links of the masters (R81, R90) -/

/-- A queue is orphaned: one that runs may fetch on (R90). -/
def Queue.orphan (q : Queue) : Queue := { q with mode := .orphaned, fetching := decide (q.mode = .running) }

/-- A link-down event of one master: it goes as owner or requester, and its queues that run or stand in error are orphaned (R83, R90);
a queue that is disabled keeps its owner field and is not orphaned (DESIGN CHOICE: log entry 107). -/
def State.linkDown (s : State) (j : Nat) : State :=
  let own := if s.own.valid ∧ s.own.id = j then { s.own with valid := false, reqValid := false, csq := s.own.csq + 1 }
    else if s.own.reqValid ∧ s.own.reqId = j then { s.own with reqValid := false } else s.own
  { s with own := own, queues := s.queues.map (fun p => (p.1, if p.2.owner = j ∧ (p.2.mode = .running ∨ p.2.mode = .error) then p.2.orphan else p.2)) }

/-- Masters that share the host port (R81). -/
def hostMasters : List Nat := [0, 4, 5, 6, 7]

/-- MASTER_LINK_DOWN: the link-down event of a master, or of all that share the host port; that of a fabric manager happens with its
last port (R81, R83). The host gives up the lines that it held (R207). -/
def execMasterLinkDown (master : Nat) (s : State) : Host.Outcome State Fault Refusal :=
  .next (if master ∈ hostMasters then { hostMasters.foldl (fun s j => s.linkDown j) s with hostLines := [] }
    else if master = 1 then s.linkDown 1
    else if s.linkIsUp (decide (master = 3)) then s else s.linkDown master)

/-! ### Fabric ports (R38) -/

/-- The control word of a port. -/
def portOff (p : Nat) : Nat := if p < 18 then 0x300 + 4 * p else 0x380 + 4 * (p - 18)

/-- A mode that R38 reserves. -/
def badMode (p mode : Nat) : Bool := decide (mode = 3) || (decide (18 ≤ p) && decide (mode = 2))

/-- A reserved field of a control word is nonzero. -/
def portReserved (v : Nat) : Bool := decide (bits v 31 16 ≠ 0) || decide (bits v 7 4 ≠ 0) || decide (bits v 1 1 ≠ 0)

/-- Stores mode and en. -/
def State.setPortWord (s : State) (p mode en : Nat) : State :=
  { s with mgmt := Memory.writeLE s.mgmt (portOff p) 4 (4 * mode + en) }

/-- A port changes state; with the last port of its link leaving up, its fabric manager's link is down (R38, R81). -/
def State.setPort (s : State) (p : Nat) (st : PortState) : State :=
  let eth := decide (18 ≤ p)
  let before := s.linkIsUp eth
  let s := { s with ports := AMap.set s.ports p st }
  if before && !s.linkIsUp eth then s.linkDown (if eth then 3 else 2) else s

/-- A write of a port's word with en = 1 (R38): en from 0 to 1 trains the port; with en at 1 it changes nothing. -/
def State.enablePort (s : State) (port v : Nat) : State :=
  if bits v 0 0 = 0 ∨ portReserved v ∨ badMode port (bits v 3 2) ∨ bits (s.reg32 (portOff port)) 0 0 = 1 then s
  else (s.setPortWord port (bits v 3 2) 1).setPort port .training

/-- PORT_ENABLE (R38). -/
def execPortEnable (master port : Nat) (value : Word) (s : State) : Host.Outcome State Fault Refusal :=
  .next (s.byOwner master (fun s => s.enablePort port value.toNat))

/-- A write of a port's word with en = 0 (R38): the port goes down whatever mode is written, and the mode is kept for the next training. -/
def State.disablePort (s : State) (port v : Nat) : State :=
  if bits v 0 0 = 1 ∨ portReserved v then s
  else if bits (s.reg32 (portOff port)) 0 0 = 1 then (s.setPortWord port (bits v 3 2) 0).setPort port .disabled
  else if badMode port (bits v 3 2) then s else s.setPortWord port (bits v 3 2) 0

/-- PORT_DISABLE (R38). -/
def execPortDisable (master port : Nat) (value : Word) (s : State) : Host.Outcome State Fault Refusal :=
  .next (s.byOwner master (fun s => s.disablePort port value.toNat))

/-- A port is enabled (R38). -/
def State.portEn (s : State) (p : Nat) : Bool := decide (bits (s.reg32 (portOff p)) 0 0 = 1)

/-- PORT_TRAINING_DONE: a port in training is up or failed; one that has failed has ended the pause between two attempts, and trains again
(R38). -/
def execPortTrainingDone (port : Nat) (up : Bool) (s : State) : Host.Outcome State Fault Refusal :=
  .next (if !s.portEn port then s else
    match AMap.getD s.ports port .disabled with
    | .training => s.setPort port (if up then .up else .failed)
    | .failed => s.setPort port .training
    | _ => s)

/-- PORT_LINK_LOSS: an enabled port that is up fails, and trains again (R38). -/
def execPortLinkLoss (port : Nat) (s : State) : Host.Outcome State Fault Refusal :=
  .next (if s.portEn port && s.portUp port then s.setPort port .failed else s)

/-! ### The job block (R56, R62, R76) -/

/-- The smallest tsplen for a job (R76). -/
def spillNeed (nranks : Nat) : Nat := (136 * nranks + 2 ^ 27 + 4095) / 4096 * 4096

/-- gen of a reduction group's entry in some tables (R73). -/
def tableGen (tables : Memory) (gid : Nat) : Byte := BitVec.ofNat 8 (bits (Memory.readLE tables (0x2000000 + 64 * gid) 64) 25 18)

/-- A fold under new tables: where the owner has rewritten gen, a new round begins with it (R73, R74). -/
def Folding.under (f : Folding) (old new : Byte) : Folding := if old = new then f else { gen := new, covered := [], held := f.held }

/-- The tables in force become what the job block, the exceptions table, the reduction groups and the counters hold now (R62; log entry
10). An exbase that is not 32-byte aligned is used as it was written (DESIGN CHOICE: log entry 91). -/
def State.takeTables (s : State) : State :=
  let ex := s.reg32 0x40018 + s.reg32 0x4001C * 2 ^ 32
  let t := Memory.paste [] 0x40000 (Memory.slice s.mgmt 0x40000 0x80000)
  let t := Memory.paste t 0x1000000 (Memory.slice s.mem ex (32 * bits (s.reg32 0x40020) 17 0))
  let t := Memory.paste t 0x2000000 (Memory.slice s.mem s.grpbase 0x400000)
  let t := Memory.paste t 0x3000000 (Memory.slice s.mem s.ctrbase 0x100000)
  { s with tables := t, net := { s.net with folds := s.net.folds.map (fun p => (p.1, p.2.under (tableGen s.tables p.1) (tableGen t p.1))) } }

/-- jobctl.en = 1, refused with enfail where the spill area does not fit or its address is not 4 KiB aligned (R56, R76). A write that is
refused while en is 1 takes en to 0 too (DESIGN CHOICE: log entry 93). -/
def State.enableJob (s : State) : State :=
  if s.reg64 0x40040 < spillNeed s.nranks ∨ s.reg64 0x40038 % 4096 ≠ 0 then { s with mgmt := Memory.writeLE s.mgmt 0x40000 4 2 }
  else
    let s := if s.jobOn then s else s.takeTables
    { s with mgmt := Memory.writeLE s.mgmt 0x40000 4 1 }

/-- JOB_ENABLE (R56, R76). -/
def execJobEnable (master : Nat) (s : State) : Host.Outcome State Fault Refusal := .next (s.byOwner master State.enableJob)

/-- jobctl.en = 0 (R56). -/
def State.disableJob (s : State) : State := { s with mgmt := Memory.writeLE s.mgmt 0x40000 4 (s.reg32 0x40000 - s.reg32 0x40000 % 2) }

/-- JOB_DISABLE (R56). -/
def execJobDisable (master : Nat) (s : State) : Host.Outcome State Fault Refusal := .next (s.byOwner master State.disableJob)

/-- JINVAL: an invalidation starts (R56, R62). -/
def execJinval (master : Nat) (s : State) : Host.Outcome State Fault Refusal :=
  .next (s.byOwner master (fun s => { s with jinval := true }))

/-- JINVAL_COMPLETE: lookups from now on use the new tables (R62; log entry 10). -/
def execJinvalComplete (s : State) : Host.Outcome State Fault Refusal :=
  .next (if s.jinval then { s.takeTables with jinval := false } else s)

/-! ### Reading (R32, R80, R82, R89, R384) -/

/-- bootstat (R32). -/
def State.bootstat (s : State) : Nat :=
  s.boot.fail.toNat * 2 ^ 16 + s.boot.slot.toNat * 2 ^ 12 + s.boot.stage.toNat * 2 ^ 8 + b2n s.boot.ready

/-- rmsts (R35). -/
def State.rmsts (s : State) : Nat :=
  s.mailbox.vfail.toNat * 2 ^ 16 + s.mailbox.result.toNat * 2 ^ 8 + 2 * b2n s.mailbox.done + b2n s.mailbox.busy

/-- The code of a port's state (R38). -/
def PortState.code : PortState → Nat
  | .disabled => 0 | .training => 1 | .up => 2 | .failed => 3

/-- The code of a queue's state (R89). -/
def QueueMode.code : QueueMode → Nat
  | .disabled => 0 | .running => 1 | .error => 2 | .orphaned => 3

/-- Commands started and not completed (R89). -/
def Queue.inflight (q : Queue) : Nat := (q.cmds.filter (fun c => decide (c.state ≠ .fetched))).length

/-- Word `k` of a queue's state block (R89). -/
def Queue.word (q : Queue) : Nat → Nat
  | 0 => q.mode.code + q.owner * 2 ^ 8 + q.inflight * 2 ^ 24
  | 1 => q.errstat
  | 5 => q.gen.toNat | 6 => q.nextexp.toNat | 7 => q.lastcomp.toNat | 8 => q.donemap.toNat | 9 => q.sqhead
  | 10 => q.sqtail | 11 => q.cqhead | 12 => q.cqtail | 13 => q.rejspawn.toNat | _ => 0

/-- busy of a transform window (R96): it holds blocks. -/
def State.windowBusy (s : State) (w : Nat) : Bool :=
  match AMap.get? s.windows w with
  | some v => !v.held.isEmpty
  | none => false

/-- dbgstat (R224). -/
def State.dbgstat (s : State) : Nat :=
  let halted := match s.dbg.target with
    | some g => (match s.group? g with
      | some v => v.halted && s.groupAtBoundary g
      | none => false)
    | none => false
  s.dbg.dlane * 2 ^ 4 + s.dbg.outcome * 2 ^ 2 + 2 * b2n halted + b2n s.dbg.busy

/-- The 32-bit word that a read of the management block gives at an aligned offset. -/
def State.readWord (s : State) (off : Nat) : Nat :=
  if off = 0x10 then s.bootstat
  else if off = 0x100 then b2n s.own.valid * 2 ^ 31 + s.own.id
  else if off = 0x104 then s.own.csq.toNat
  else if off = 0x108 then b2n s.own.reqValid * 2 ^ 31 + s.own.reqId
  else if 0x180 ≤ off ∧ off < 0x1A0 then s.own.results.getD ((off - 0x180) / 4) 0
  else if off = 0x1A0 then s.own.rejcnt.toNat
  else if 0x300 ≤ off ∧ off < 0x348 then s.reg32 off + (AMap.getD s.ports ((off - 0x300) / 4) .disabled).code * 2 ^ 8
  else if 0x380 ≤ off ∧ off < 0x3A0 then s.reg32 off + (AMap.getD s.ports (18 + (off - 0x380) / 4) .disabled).code * 2 ^ 8
  else if off = 0x804 then s.mailbox.rmoff.toNat
  else if off = 0x808 then s.rmsts
  else if 0xC00 ≤ off ∧ off < 0x1000 then Memory.readLE s.mailbox.rmbuf (off - 0xC00) 4
  else if 0x1000 ≤ off ∧ off < 0x2000 then
    (AMap.getD s.errs (off / 8 * 8) 0).toNat / 2 ^ (if off % 8 = 0 then 0 else 32) % 2 ^ 32
  else if 0x10000 ≤ off ∧ off < 0x11000 ∧ off % 64 = 0 then s.reg32 off + 2 * b2n (s.windowBusy ((off - 0x10000) / 64))
  else if 0x11000 ≤ off ∧ off < 0x11800 then 0
  else if off = 0x40034 then b2n s.jinval
  else if 0x100000 ≤ off ∧ off < 0x200000 then (s.queue ((off - 0x100000) / 64)).word (off / 4 % 16)
  else if off = 0x280008 then s.qres.toNat
  else if off = 0x28002C then 4 * b2n s.cut.saveFail + 2 * b2n s.cut.saving + b2n s.cut.isStopped
  else if off = 0x280048 then s.dbgdata.toNat
  else if off = 0x28004C then s.dbgstat
  else s.reg32 off

/-- What a read of the management block gives. -/
inductive RegRead where
  | unsupported
  | discarded
  | data (v : Nat)
  deriving DecidableEq, Repr

/-- `n` words from an aligned offset on, as one number. -/
def State.readWords (s : State) (off : Nat) : Nat → Nat
  | 0 => 0
  | n + 1 => s.readWord off + s.readWords (off + 4) n * 2 ^ 32

/-- A read of the management block (R384), by any master (R79): Unsupported Request before the offset is served (R31); the addressed bytes of
a word; 4 or 8 bytes, and the 64 of a queue's state block as one snapshot (R89). An access that is not naturally aligned is
discarded. -/
def State.regRead (s : State) (off size : Nat) : RegRead :=
  if !s.served off then .unsupported
  else if size = 1 ∨ size = 2 then
    (if off % size = 0 then .data (s.readWord (off / 4 * 4) / 2 ^ (8 * (off % 4)) % 2 ^ (8 * size)) else .discarded)
  else if off % size = 0 ∧ (size = 4 ∨ size = 8 ∨ (size = 64 ∧ 0x100000 ≤ off ∧ off < 0x200000)) then .data (s.readWords off (size / 4))
  else .discarded

end Sys2Proof.Machine
end

