-- ==== Sys2Proof/Machine/Placement.lean ====
section
/-! DEFINITION. The launch header (R99, R100), what a team takes of a core (R103, R105), the positions of a cluster (R104), and the
start of a team's groups and threads (R101, R105, R108, R138). -/
namespace Sys2Proof.Machine

/-! ### Occupancy of a core (R103) -/

/-- What one lane holds: threads, register words and lane-slice bytes. -/
structure LaneUse where
  threads : Nat
  words   : Nat
  bytes   : Nat
  deriving DecidableEq, Repr

/-- What a group adds to each of its lanes: a thread slot, registers and slice bytes. -/
structure LaneNeed where
  slots : Nat
  regs  : Nat
  slice : Nat
  deriving DecidableEq, Repr

/-- One more thread fits in a lane (R103). -/
def LaneUse.room (u : LaneUse) (n : LaneNeed) : Bool :=
  decide (u.threads < 16) && decide (u.words + n.regs ≤ 2048) && decide (u.bytes + n.slice ≤ 2048)

/-- The lanes of the slices from `b` on that a group of width w takes; the four lanes of a slice hold the same, so one entry stands
for a slice (R105). -/
def addGroup (occ : List LaneUse) (n : LaneNeed) (b w : Nat) : List LaneUse :=
  occ.mapIdx (fun i u => if b ≤ i ∧ i < b + w / 4 then
    { threads := u.threads + n.slots, words := u.words + n.regs, bytes := u.bytes + n.slice } else u)

/-- Every lane of a group at a slice base has room. -/
def groupFits (occ : List LaneUse) (n : LaneNeed) (b w : Nat) : Bool :=
  ((occ.drop b).take (w / 4)).all (fun u => u.room n) && decide (b + w / 4 ≤ 16)

/-- The threads of the most occupied lane of a group at a slice base. -/
def mostThreads (occ : List LaneUse) (b w : Nat) : Nat := ((occ.drop b).take (w / 4)).foldl (fun m u => max m u.threads) 0

/-- The slice base that R105 takes: fewest threads in the most occupied lane, then the lowest. -/
def bestBase (occ : List LaneUse) (n : LaneNeed) (w : Nat) : Option Nat :=
  (((List.range 16).filter (fun b => decide (b % (w / 4) = 0) && groupFits occ n b w)).foldl (fun r b =>
    match r with
    | none => some b
    | some a => if mostThreads occ b w < mostThreads occ a w then some b else some a) none)

/-- Packs `k` groups of width w in ascending gidx (R105). -/
def packGroups (n : LaneNeed) (w : Nat) : (k : Nat) → List LaneUse → Option (List Nat)
  | 0, _ => some []
  | k + 1, occ =>
    match bestBase occ n w with
    | none => none
    | some b => (packGroups n w k (addGroup occ n b w)).map (fun r => b :: r)

/-- Takes the groups of a team that comes back at the bases that it had (R120, R221). -/
def repack (n : LaneNeed) (w : Nat) : List Nat → List LaneUse → Bool
  | [], _ => true
  | b :: r, occ => groupFits occ n b w && repack n w r (addGroup occ n b w)

/-- The teams that hold resources of a core. -/
def State.coreTeams (s : State) (core : Nat) : List (TeamId × Team) := s.teams.filter (fun p => decide (p.1.core = core))

/-- The groups of a team in ascending gidx. -/
def State.groupsOf (s : State) (id : TeamId) : List (GroupId × Group) :=
  (List.range 32).filterMap (fun k => (s.group? (groupOf id k)).map (fun g => (groupOf id k, g)))

/-- What the teams of a core hold of its lanes. The lane slots of a group are free once it has ended, its registers and lane slices once its
team has (R103, R110). -/
def State.occupied (s : State) (teams : List (TeamId × Team)) : List LaneUse :=
  teams.foldl (fun occ p => (s.groupsOf p.1).foldl (fun occ g =>
      addGroup occ { slots := if g.2.ended then 0 else 1, regs := p.2.regs, slice := p.2.slice } g.2.slice g.2.width) occ)
    (List.replicate 16 { threads := 0, words := 0, bytes := 0 })

/-- The sum of a demand over teams. -/
def sumOver (teams : List (TeamId × Team)) (f : Team → Nat) : Nat := teams.foldl (fun n p => n + f p.2) 0

/-- A team of a launch fits beside other teams, the lanes aside (R103). -/
def Header.fitsBeside (h : Header) (teams : List (TeamId × Team)) : Bool :=
  decide (teams.length < 4) && decide (sumOver teams (fun t => t.coBytes) + h.shared ≤ 524288)
    && decide (sumOver teams (fun t => t.cistBytes) + h.cistern ≤ 262144)
    && decide (sumOver teams (fun t => t.conv.length) + h.gregs ≤ 8)
    && decide (sumOver teams (fun t => t.tiles.length) + h.tiles ≤ 256)

/-- What a thread of a launch needs of its lane. -/
def Header.laneNeed (h : Header) : LaneNeed := { slots := 1, regs := h.regs, slice := h.slice }

/-- The slice bases that a team of a launch takes beside other teams; a team that comes back keeps its own. None: it does not
fit (R103, R105). -/
def State.basesFor (s : State) (h : Header) (teams : List (TeamId × Team)) (kept : Option (List Nat)) : Option (List Nat) :=
  if !h.fitsBeside teams then none else
  match kept with
  | some bs => if repack h.laneNeed h.width bs (s.occupied teams) then some bs else none
  | none => packGroups h.laneNeed h.width h.teamg (s.occupied teams)

/-! ### The launch header (R99, R100) -/

/-- The header of 64 bytes; none where the launch is refused for its magic, a reserved field, or a field out of its range. -/
def parseHeader (b : List Byte) : Option Header :=
  let f := fun at' n => leNat ((b.drop at').take n)
  let h : Header :=
    { width := 8 * 2 ^ (f 4 1 % 4), teamg := f 5 1, clw := f 6 1 % 16, clh := f 6 1 / 16, regs := 32 * (f 7 1 % 16), slice := f 8 2
      shared := f 10 4, cistern := f 14 4, gregs := f 18 1, tiles := f 19 2, idem := decide (bits (f 21 1) 0 0 = 1)
      pair := decide (bits (f 21 1) 1 1 = 1), pin := decide (bits (f 21 1) 2 2 = 1), excl := decide (bits (f 21 1) 3 3 = 1)
      svcring := decide (bits (f 21 1) 4 4 = 1), budget := f 24 8, pincore := f 32 2 % 4096, sva := f 40 8 }
  let reserved := f 4 1 / 4 + f 7 1 / 16 + f 21 1 / 32 + f 22 2 + f 32 2 / 4096 + f 34 6 + f 48 16
  if f 0 4 = 0x4C414748 ∧ reserved = 0 ∧ 1 ≤ h.teamg ∧ h.teamg ≤ 32 ∧ 1 ≤ h.clw ∧ h.clw ≤ 8 ∧ 1 ≤ h.clh ∧ h.clh ≤ 8
      ∧ 32 ≤ h.regs ∧ h.regs ≤ 256 ∧ h.slice % 16 = 0 ∧ h.slice ≤ 2048 ∧ h.shared % 256 = 0 ∧ h.shared ≤ 524288
      ∧ h.cistern % 256 = 0 ∧ h.cistern ≤ 262144 ∧ h.gregs ≤ 8 ∧ h.tiles ≤ 256 ∧ h.sva % 4096 = 0 ∧ h.sva ≤ 2 ^ 30 - 2 ^ 18
  then some h else none

/-- The content of a header is accepted for a grid and an ASID (R100). -/
def Header.accepted (h : Header) (asid gx gy gz : Nat) : Bool :=
  decide (h.width * h.teamg ≤ 1024) && h.fitsBeside []
    && (packGroups h.laneNeed h.width h.teamg (List.replicate 16 { threads := 0, words := 0, bytes := 0 })).isSome
    && !(h.pair && decide (h.clw % 2 = 1))
    && (!h.pin || (decide (asid = 0) && decide (gx = 1 ∧ gy = 1 ∧ gz = 1) && decide (h.clw = 1 ∧ h.clh = 1)))
    && (h.pin || (!h.excl && !h.svcring))

/-- What the reading of a header gives. -/
inductive HeaderRead where
  | ok (bytes : List Byte) (peers : List (Nat × Nat))
  | missing (va : Nat)
  | refused
  | held
  deriving DecidableEq, Repr

/-- Reads a part of a header in the launch's ASID: on a page with R or X, with K = 1 for ASID 0 only (R100, R186). What a peer page holds is the
peer's answer (R95; Config.peerByte). -/
def State.headerPart (s : State) (asid va n : Nat) : HeaderRead :=
  if 2 ^ 48 ≤ va then .missing va else
  match s.leaf (.die 0) asid va with
  | none => .missing va
  | some (e, b) =>
    let pa := leafPa e b va
    if (bits e 2 2 = 0 ∧ bits e 4 4 = 0) ∨ (bits e 6 6 = 1 ∧ asid ≠ 0) then .refused
    else if bits e 13 13 = 1 then .ok ((List.range n).map (fun i => Config.peerByte s.stamp (pa + i))) [(pa - 0x80000000000, n)]
    else if s.held pa n then .held
    else if (s.poisoned pa n).isSome then .refused else .ok (Memory.read s.mem pa n) []

/-- Reads the header at an entry address (R100). -/
def State.headerAt (s : State) (asid va : Nat) : HeaderRead :=
  let n := min 64 (65536 - va % 65536)
  match s.headerPart asid va n with
  | .ok a p => if n = 64 then .ok a p else (match s.headerPart asid (va + n) (64 - n) with
      | .ok b q => .ok (a ++ b) (p ++ q)
      | x => x)
  | x => x

/-! ### Positions (R102, R104) -/

/-- A core that the map in force withdraws (R102). -/
def State.isWithdrawn (s : State) (core : Nat) : Bool := s.withdrawn.contains core

/-- The launch of a team has excl = 1, and the team has not given back the core. -/
def State.hasExcl (s : State) (teams : List (TeamId × Team)) : Bool :=
  teams.any (fun p => match AMap.get? s.launches p.2.launch with
    | some l => l.header.excl
    | none => false)

/-- The priority of a launch's queue. -/
def State.queuePrio (s : State) (q : Nat) : Nat := bits (s.reg32 (0x200000 + 32 * q)) 13 11

/-- The priority of a team's launch (R114). -/
def State.teamPrio (s : State) (t : Team) : Nat :=
  match AMap.get? s.launches t.launch with
  | some l => s.queuePrio l.queue
  | none => 0

/-- The teams of a core that count for a placement where non-pinned teams below a priority are taken as removed (R114). -/
def State.standing (s : State) (core : Nat) (below : Option Nat) : List (TeamId × Team) :=
  (s.coreTeams core).filter (fun p => match below with
    | none => true
    | some k => p.2.pinned || decide (k ≤ s.teamPrio p.2))

/-- The slice bases of a team of a launch on a core, where the core is usable and the team fits (R102, R103, R105). -/
def State.coreFits (s : State) (h : Header) (core : Nat) (kept : Option (List Nat)) (below : Option Nat) : Option (List Nat) :=
  let teams := s.standing core below
  if (s.isWithdrawn core && !h.pin) || s.hasExcl teams || (h.excl && !teams.isEmpty) then none else s.basesFor h teams kept

/-- The cores of a rectangle, by core-in-cluster index (R104). -/
def rectCores (die x y clw clh : Nat) : List Nat :=
  (List.range clh).flatMap (fun j => (List.range clw).map (fun i => die * 256 + (y + j) * 16 + x + i))

/-- The bases for each core of a position, where every one fits. `kept` gives the bases of the teams that come back, by index; an
index without one has no team, and `whole` says whether its core has to fit all the same, as the scan of R104 asks of every core. -/
def State.positionFits (s : State) (h : Header) (cores : List Nat) (kept : Option (AMap Nat (List Nat))) (below : Option Nat)
    (busy : List Nat) (whole : Bool) : Option (AMap Nat (Nat × List Nat)) :=
  let free := fun (c : Nat) (w : Option (List Nat)) => if busy.contains c then none else s.coreFits h c w below
  ((List.range cores.length).foldr (fun k r =>
    match r with
    | none => none
    | some l =>
      let c := cores.getD k 0
      let want := match kept with
        | none => some none
        | some m => (AMap.get? m k).map some
      match want with
      | none => if whole then (free c none).map (fun _ => l) else some l
      | some w => (free c w).map (fun b => (k, c, b) :: l)) (some []))

/-- The first position of the scan of R104. `busy` cores are kept for another cluster (R116). -/
def State.scan (s : State) (h : Header) (kept : Option (AMap Nat (List Nat))) (below : Option Nat) (busy : List Nat) :
    Option (AMap Nat (Nat × List Nat)) :=
  (List.range 16).findSome? (fun die => (List.range (17 - h.clh)).findSome? (fun y => (List.range (17 - h.clw)).findSome? (fun x =>
    if h.pair ∧ x % 2 = 1 then none else s.positionFits h (rectCores die x y h.clw h.clh) kept below busy true)))

/-! ### Room for allocations -/

/-- Starts and lengths in ascending order of start. -/
def insertSpan (p : Nat × Nat) : List (Nat × Nat) → List (Nat × Nat)
  | [] => [p]
  | q :: r => if p.1 ≤ q.1 then p :: q :: r else q :: insertSpan p r

/-- The first gap of `n` bytes between spans below a limit. -/
def firstGap (n limit : Nat) : Nat → List (Nat × Nat) → Option Nat
  | at', [] => if at' + n ≤ limit then some at' else none
  | at', (a, k) :: r => if at' + n ≤ a then some at' else firstGap n limit (max at' (a + k)) r

/-- Moves `n` bytes of a scratchpad, with what the device holds of them by physical address: poison, accesses under way and what barriers
have counted. A page reaches them where they lay. -/
def State.moveBytes (s : State) (a0 n b0 : Nat) : State :=
  let shift := fun pa => if a0 ≤ pa ∧ pa < a0 + n then pa - a0 + b0 else pa
  let bytes := Memory.slice s.mem a0 n
  let s := ((s.pasteAt a0 n []).pasteAt b0 n bytes).movePlaces (fun e pa => if e = 0 then shift pa else pa)
  { s with poison := s.poison.map (fun k => shift (32 * k) / 32), counted := s.counted.map (fun p => (shift p.1, p.2)) }

/-- Moves the scratchpad allocation of a team to another base of its core. -/
def State.moveScratch (s : State) (id : TeamId) (t : Team) (b : Nat) : State :=
  (s.moveBytes (scratchPa id.core t.coBase) t.coBytes (scratchPa id.core b)).modTeam id (fun t => { t with coBase := b })

/-- Moves `n` bytes of a cistern. -/
def State.moveCist (s : State) (a n b : Nat) : State :=
  let bytes := Memory.slice s.cist a n
  { s with cist := Memory.paste (Memory.clear s.cist a n) b bytes }

/-- Moves the cistern allocation of a team to another base of its core. -/
def State.moveCistern (s : State) (id : TeamId) (t : Team) (b : Nat) : State :=
  (s.moveCist (id.core * 262144 + t.cistBase) t.cistBytes (id.core * 262144 + b)).modTeam id (fun t => { t with cistBase := b })

/-- The teams of a core by ascending base. -/
def byBase (f : Team → Nat) (teams : List (TeamId × Team)) : List (TeamId × Team) :=
  teams.foldl (fun l p => l.takeWhile (fun q => decide (f q.2 ≤ f p.2)) ++ p :: l.dropWhile (fun q => decide (f q.2 ≤ f p.2))) []

/-- Moves every scratchpad allocation of a core down, so that the free bytes are one range (DESIGN CHOICE: log entry 32). -/
def State.packScratch (s : State) (core : Nat) : State :=
  ((byBase (fun t => t.coBase) (s.coreTeams core)).foldl (fun r p => (r.1.moveScratch p.1 p.2 r.2, r.2 + p.2.coBytes)) (s, 0)).1

/-- Moves every cistern allocation of a core down (DESIGN CHOICE: log entry 32). -/
def State.packCistern (s : State) (core : Nat) : State :=
  ((byBase (fun t => t.cistBase) (s.coreTeams core)).foldl (fun r p => (r.1.moveCistern p.1 p.2 r.2, r.2 + p.2.cistBytes)) (s, 0)).1

/-- A base for `n` scratchpad bytes of a core: the first gap, after moving the other allocations together where there is none. -/
def State.scratchRoom (s : State) (core n : Nat) : State × Nat :=
  let spans := fun (s : State) => (s.coreTeams core).foldl (fun l p => insertSpan (p.2.coBase, p.2.coBytes) l) []
  match firstGap n 524288 0 (spans s) with
  | some b => (s, b)
  | none => let r := s.packScratch core; (r, (firstGap n 524288 0 (spans r)).getD 0)

/-- A base for `n` cistern bytes of a core. -/
def State.cisternRoom (s : State) (core n : Nat) : State × Nat :=
  let spans := fun (s : State) => (s.coreTeams core).foldl (fun l p => insertSpan (p.2.cistBase, p.2.cistBytes) l) []
  match firstGap n 262144 0 (spans s) with
  | some b => (s, b)
  | none => let r := s.packCistern core; (r, (firstGap n 262144 0 (spans r)).getD 0)

/-! ### Start of a team (R101, R103, R105, R108, R138) -/

/-- The lowest free teamid of a core. -/
def State.freeTeamId (s : State) (core : Nat) : Nat :=
  ((List.range 4).find? (fun k => (s.team? ⟨core, k⟩).isNone)).getD 0

/-- A group has ended, or is gone (R110). -/
def State.groupGone (s : State) (g : GroupId) : Bool :=
  match s.group? g with
  | some v => v.ended
  | none => true

/-- The lowest free thread slot of a lane: an exited thread keeps its slot until its group ends (R105, R110). -/
def State.freeThreadSlot (s : State) (core lane : Nat) : Nat :=
  ((List.range 16).find? (fun k => s.threads.all (fun p => !(p.1.core == core && p.2.lane == lane && p.2.slot == k) || s.groupGone p.1.group))).getD 0

/-- A newly placed group enters the active set if it has room, or joins the pending list (R108). -/
def State.enterGroup (s : State) (g : GroupId) : State :=
  s.modCore g.core (fun k => if k.active.length < 8 then { k with active := k.active ++ [g] } else { k with pending := k.pending ++ [g] })

/-- Starts one thread in the lowest free slot of its lane, its lane slice zero (R103, R105, R138). -/
def State.startThread (s : State) (id : ThreadId) (lane regs : Nat) (words : List Word) (pc : Addr) (kernel : Bool) (slice : Nat) : State :=
  let slot := s.freeThreadSlot id.core lane
  let s := s.pasteAt (laneBase id.core lane slot) slice []
  s.setThread id { Thread.start lane slot regs words pc kernel with view := View.upTo s.hist.length }

/-- Starts a group of a launch at a slice base (R105, R108). -/
def State.startGroup (s : State) (g : GroupId) (l : Launch) (b : Nat) : State :=
  let v : Group := { width := l.header.width, served := [], slice := b, ended := false, halted := false, catching := false, fault := none
                     parkedFor := 0, issues := 0, waited := 0, last := 0, prev := 0 }
  let pc : Addr := BitVec.ofNat 48 ((l.entry + 64) / 4 * 4)
  let s := { s with groups := AMap.set s.groups g v }
  let s := (List.range l.header.width).foldl (fun s i =>
    s.startThread (memberOf g i) (4 * b + i) l.header.regs l.words pc l.header.pin l.header.slice) s
  s.enterGroup g

/-- An empty barrier. -/
def Barrier.empty : Barrier := { n := none, reached := [], arrived := [] }

/-- A team as it starts (R103): its convergence registers, turnouts, sluice entries and barriers are empty. -/
def Team.start (l : Launch) (n cluster index coBase cistBase : Nat) : Team :=
  { launch := n, cluster := cluster, index := index, asid := l.asid, pinned := l.header.pin, groups := l.header.teamg, regs := l.header.regs
    coBase := coBase, coBytes := l.header.shared, cistBase := cistBase, cistBytes := l.header.cistern, slice := l.header.slice
    tiles := List.replicate l.header.tiles { valid := false, state := .empty, base := 0, bytes := 0, bar := 0 }
    conv := List.replicate l.header.gregs { declared := none, sigs := [], offered := none }
    resv := List.replicate 16 none, turnouts := List.replicate 16 { sender := none, receiver := none }
    bars := List.replicate 16 Barrier.empty, scoperep := 0, ncyc := 0, ended := false, action := none }

/-- Starts a team of a cluster on a core: its allocations read zero, and its groups start at their bases (R103, R105). -/
def State.startTeam (s : State) (l : Launch) (n cluster index core : Nat) (bases : List Nat) : State × TeamId :=
  let id : TeamId := ⟨core, s.freeTeamId core⟩
  let (s, co) := s.scratchRoom core l.header.shared
  let (s, ci) := s.cisternRoom core l.header.cistern
  let s := s.pasteAt (scratchPa core co) l.header.shared []
  let s := { s with cist := Memory.clear s.cist (core * 262144 + ci) l.header.cistern,
                    teams := AMap.set s.teams id (Team.start l n cluster index co ci) }
  ((bases.foldl (fun r b => (r.1.startGroup (groupOf id r.2) l b, r.2 + 1)) (s, 0)).1, id)

/-- Registers the service ring of a pinned launch for the die of its core (R111). -/
def State.registerRing (s : State) (h : Header) (core : Nat) : State :=
  if h.svcring then { s with service := { s.service with rings := AMap.set s.service.rings (dieOf core) (h.sva, 0, core) } } else s

/-- Starts a cluster at a position (R101, R104). -/
def State.startCluster (s : State) (n : Nat) (l : Launch) (clid : Nat) (pos : AMap Nat (Nat × List Nat)) : State :=
  let num := s.nextId
  let r := pos.foldl (fun (r : State × List TeamId) p =>
    let t := r.1.startTeam l n num p.1 p.2.1 p.2.2
    (t.1, r.2 ++ [t.2])) ({ s with nextId := num + 1 }, [])
  let c : Cluster := { launch := n, clid := clid, width := l.header.clw, height := l.header.clh, pair := l.header.pair, teams := r.2
                       bars := List.replicate 16 Barrier.empty, flushed := false }
  let s := { r.1 with clusters := AMap.set r.1.clusters num c }
  match pos with
  | (_, core, _) :: _ => s.registerRing l.header core
  | [] => s

end Sys2Proof.Machine
end

