-- ==== Sys2Proof/Machine/Removal.lean ====
section
/-! DEFINITION. Taking teams off their cores without ending them (R91, R117, R118): the names by which the rest of the device knows
their threads, their work in the engines, and their service batches. -/
namespace Sys2Proof.Machine

/-! ### Names -/

/-- The id of a team that is on no core: cores are numbered below 4,096. -/
def parkedId (cluster index : Nat) : TeamId := ⟨2 ^ 20 + cluster, index⟩

/-- A thread under a renaming of teams. -/
def moveThread (f : TeamId → TeamId) (t : ThreadId) : ThreadId := ⟨(f t.teamId).core, (f t.teamId).team, t.grp, t.mem⟩

/-- A group under a renaming of teams. -/
def moveGroup (f : TeamId → TeamId) (g : GroupId) : GroupId := ⟨(f g.teamId).core, (f g.teamId).team, g.grp⟩

/-- A barrier's name under a renaming of teams. -/
def moveBar (f : TeamId → TeamId) : BarName → BarName
  | .object t off => .object (f t) off
  | .tile t k => .tile (f t) k

/-- An access under a renaming of teams. -/
def moveAccess (f : TeamId → TeamId) : Access → Access
  | .barm b e => .barm (moveBar f b) e
  | a => a

/-- A wait under a renaming of teams. -/
def moveWait (f : TeamId → TeamId) : Wait → Wait
  | .bwait b p => .bwait (moveBar f b) p
  | w => w

/-- A log entry under a renaming of teams. -/
def moveEntry (f : TeamId → TeamId) (e : LogEntry) : LogEntry := { e with access := moveAccess f e.access }

/-- A thread's contents under a renaming of teams. -/
def Thread.renamed (f : TeamId → TeamId) (t : Thread) : Thread :=
  { t with log := t.log.map (moveEntry f), kept := t.kept.map (moveEntry f), wait := moveWait f t.wait }

/-- A barrier's contents under a renaming of teams. -/
def Barrier.renamed (f : TeamId → TeamId) (b : Barrier) : Barrier :=
  { b with reached := b.reached.map (fun r => (moveThread f r.1, r.2)), arrived := b.arrived.map (moveGroup f) }

/-- A convergence register under a renaming of teams. -/
def ConvReg.renamed (f : TeamId → TeamId) (c : ConvReg) : ConvReg :=
  { c with sigs := c.sigs.map (fun x => { x with thread := moveThread f x.thread }) }

/-- A team's contents under a renaming of teams. -/
def Team.renamed (f : TeamId → TeamId) (t : Team) : Team :=
  { t with bars := t.bars.map (Barrier.renamed f), conv := t.conv.map (ConvReg.renamed f) }

/-- A copy request under a renaming of teams. -/
def CopyReq.renamed (f : TeamId → TeamId) (c : CopyReq) : CopyReq := { c with thread := moveThread f c.thread }

/-- An operation of the matrix engine under a renaming of teams. -/
def MatrixOp.renamed (f : TeamId → TeamId) (o : MatrixOp) : MatrixOp := { o with team := f o.team, signers := o.signers.map (moveThread f) }

/-- A dataflow entry under a renaming of teams. -/
def FlowEntry.renamed (f : TeamId → TeamId) (e : FlowEntry) : FlowEntry :=
  { e with
    team := f e.team
    cmd := match e.cmd with
      | .copy c => .copy (c.renamed f)
      | .chain c => .chain { c with thread := moveThread f c.thread }
      | .matrix o => .matrix (o.renamed f) }

/-- A saved team's contents under a renaming of teams. -/
def SavedTeam.renamed (f : TeamId → TeamId) (v : SavedTeam) : SavedTeam :=
  { v with
    team := v.team.renamed f
    groups := v.groups.map (fun p => (moveGroup f p.1, p.2))
    active := v.active.map (fun p => (moveGroup f p.1, p.2))
    pending := v.pending.map (fun p => (moveGroup f p.1, p.2))
    threads := v.threads.map (fun p => (moveThread f p.1, p.2.renamed f))
    lanes := v.lanes.map (fun p => (moveThread f p.1, p.2))
    flow := v.flow.map (FlowEntry.renamed f)
    matrix := v.matrix.map (MatrixOp.renamed f)
    copies := v.copies.map (CopyReq.renamed f)
    batches := v.batches.map (fun b => { b with thread := moveThread f b.thread }) }

/-- The work of a core's engines under a renaming of teams. -/
def Core.renamed (f : TeamId → TeamId) (k : Core) : Core :=
  { k with
    batches := k.batches.map (fun b => { b with thread := moveThread f b.thread })
    copies := k.copies.map (CopyReq.renamed f)
    chains := k.chains.map (fun c => { c with thread := moveThread f c.thread })
    flow := k.flow.map (FlowEntry.renamed f)
    matrix := k.matrix.map (MatrixOp.renamed f) }

/-- Everything outside a team that names its threads, under a renaming: accepted stores, messages, flushes, service batches and the
barriers of its cluster. -/
def State.renameOutside (s : State) (f : TeamId → TeamId) : State :=
  let place : TeamId → TeamId → TeamId := fun t home => if f t = t ∨ 4096 ≤ (f t).core then home else f t
  let store : BufStore → BufStore := fun b => { b with thread := moveThread f b.thread }
  let track : Tracked → Tracked := fun t => { t with thread := moveThread f t.thread, excused := t.excused.map (moveThread f) }
  let msg : Message → Message := fun m => { m with thread := moveThread f m.thread, home := place m.thread.teamId m.home }
  let fl : Flush → Flush := fun x => { x with users := x.users.map (fun u => (moveThread f u.1, u.2)) }
  let bat : ServiceBatch → ServiceBatch := fun b => { b with group := moveGroup f b.group, home := place b.group.teamId b.home }
  let clu : Nat × Cluster → Nat × Cluster := fun p => (p.1, { p.2 with teams := p.2.teams.map f, bars := p.2.bars.map (Barrier.renamed f) })
  { s with buffer := s.buffer.map store, net := { s.net with messages := s.net.messages.map msg, flushes := s.net.flushes.map fl, tracked := s.net.tracked.map track },
           service := { s.service with batches := s.service.batches.map bat }, clusters := s.clusters.map clu }

/-- A renaming of some teams. -/
def renameBy (l : AMap TeamId TeamId) (t : TeamId) : TeamId := AMap.getD l t t

/-! ### Work in the engines -/

/-- The tags under which the engines hold a team's owned ranges (R181). -/
def Core.tagsOf (k : Core) (id : TeamId) : List Nat :=
  (k.copies.filter (fun c => decide (c.thread.teamId = id))).map (fun c => c.tag)
    ++ (k.chains.filter (fun c => decide (c.thread.teamId = id))).map (fun c => c.tag)
    ++ (k.matrix.filter (fun o => decide (o.team = id))).map (fun o => o.paired.getD 0)
    ++ (k.flow.filter (fun e => decide (e.team = id))).map (fun e => match e.cmd with
      | .copy c => c.tag
      | .chain c => c.tag
      | .matrix _ => 0)

/-- A core without any work of a team in its engines. -/
def Core.withoutWork (k : Core) (id : TeamId) : Core :=
  let tags := k.tagsOf id
  { k with
    batches := k.batches.filter (fun b => decide (b.thread.teamId ≠ id))
    copies := k.copies.filter (fun c => decide (c.thread.teamId ≠ id))
    chains := k.chains.filter (fun c => decide (c.thread.teamId ≠ id))
    flow := k.flow.filter (fun e => decide (e.team ≠ id))
    matrix := k.matrix.filter (fun o => decide (o.team ≠ id))
    ranges := k.ranges.filter (fun r => !tags.contains r.tag) }

/-- Every piece that a copy has left waits in a service batch (R383). -/
def State.copyWaits (s : State) (core : Nat) (c : CopyReq) : Bool := c.pieces.all (fun i => s.engineWaits (.piece core c.tag i))

/-- Every element that a chain has left waits in a service batch (R383). -/
def State.chainWaits (s : State) (core : Nat) (c : Chain) : Bool := c.pending.all (fun i => s.engineWaits (.element core c.tag i))

/-- A dataflow entry runs, and its operation does not wait in a service batch. -/
def State.flowWorks (s : State) (core : Nat) (flush : Bool) (e : FlowEntry) : Bool :=
  e.running && !(flush && ((s.core core).copies.any (fun c => e.runs c.tag && s.copyWaits core c)
    || (s.core core).chains.any (fun c => e.runs c.tag && s.chainWaits core c)))

/-- An engine of the team's core works on something that has started (R117, R118); an `ssx` stops by row SSX_STOP. A `flush` does not wait
for work that is held by service batches alone (R383). -/
def State.working (s : State) (id : TeamId) (flush : Bool) : Bool :=
  let k := s.core id.core
  k.copies.any (fun c => decide (c.thread.teamId = id) && c.started && !(flush && s.copyWaits id.core c))
    || k.chains.any (fun c => decide (c.thread.teamId = id) && !(flush && s.chainWaits id.core c))
    || k.matrix.any (fun o => decide (o.team = id) && o.started) || s.buffer.any (fun b => decide (b.thread.teamId = id))
    || k.flow.any (fun e => decide (e.team = id) && s.flowWorks id.core flush e)

/-! ### Service batches -/

/-- A batch of which nothing of a team is left: unposted ones go, posted ones keep their slot until they are answered (R113). -/
def State.dropCalls (s : State) (id : TeamId) (p : ServiceBatch → Bool) : State :=
  let left := s.service.batches.filter (fun b => !(decide (b.group.teamId = id) && p b && b.slot.isNone))
  let clear : ServiceBatch → ServiceBatch := fun b => if b.group.teamId = id ∧ p b then { b with calls := [], engine := .none } else b
  { s with service := { s.service with batches := left.map clear } }

/-! ### Discarding -/

/-- The groups of a team leave the sets of their core (R108). -/
def State.leaveSets (s : State) (id : TeamId) : State :=
  (s.groupsOf id).foldl (fun s p => s.leaveCore p.1) s

/-- Messages of some teams that a service batch holds end with the teams (R383). -/
def State.dropHeldMessages (s : State) (ids : List TeamId) : State :=
  let held : Message → Bool := fun m => ids.contains m.thread.teamId && s.engineWaits (.message m.number)
  let nums := (s.net.messages.filter held).map (fun m => m.number)
  { s with net := { s.net with messages := s.net.messages.filter (fun m => !nums.contains m.number),
                               window := s.net.window.filter (fun w => !nums.contains w.msg) } }

/-- Discards teams with their registers, allocations, unposted calls and work in the engines. Stores that the memory pipeline has
accepted are kept where they go to memory that stays, and what is under way to other ranks goes on; both name a team that is on
no core (R91, R117). -/
def State.discardTeams (s : State) (ids : List TeamId) : State :=
  let s := ids.foldl (fun s id =>
    let local' := fun (p : Place × Nat) => match p.1 with
      | .mem _ _ e => decide (e = 0)
      | _ => false
    let s := { s with buffer := s.buffer.filter (fun b => !(decide (b.thread.teamId = id) && b.parts.any local')),
                      cores := s.cores.map (fun (p : Nat × Core) => (p.1, p.2.withoutWork id)) }
    ((s.leaveSets id).dropCalls id (fun _ => true)).modTeam id (fun t => { t with ended := true })) (s.dropHeldMessages ids)
  let dead := parkedId s.nextId 0
  let s := ({ s with nextId := s.nextId + 1 } : State).renameOutside (fun t => if ids.contains t then dead else t)
  { s with teams := s.teams.filter (fun p => !ids.contains p.1), groups := s.groups.filter (fun p => !ids.contains p.1.teamId),
           threads := s.threads.filter (fun p => !ids.contains p.1.teamId) }

/-! ### Freeing what an ended team held (R110) -/

/-- No engine and no accepted store works for a team any more. -/
def State.quiet (s : State) (id : TeamId) : Bool :=
  s.cores.all (fun (p : Nat × Core) => p.2.batches.all (fun b => decide (b.thread.teamId ≠ id)) && p.2.copies.all (fun c => decide (c.thread.teamId ≠ id))
      && p.2.chains.all (fun c => decide (c.thread.teamId ≠ id)) && p.2.matrix.all (fun o => decide (o.team ≠ id))
      && p.2.flow.all (fun e => decide (e.team ≠ id)))
    && s.buffer.all (fun b => decide (b.thread.teamId ≠ id))

/-- A team gives its resources back (R110). What still works for it does so under the name of a team that is on no core, and with bytes of
its own (DEDUCED: log entry 26). -/
def State.parkTeam (s : State) (id : TeamId) : State :=
  match s.team? id with
  | none => s
  | some t =>
    let dead := parkedId s.nextId 0
    let f := renameBy [(id, dead)]
    let s := (s.moveBytes (scratchPa id.core t.coBase) t.coBytes (scratchPa dead.core t.coBase)).moveCist (id.core * 262144 + t.cistBase)
      t.cistBytes (dead.core * 262144 + t.cistBase)
    let s := ({ s with nextId := s.nextId + 1, cores := s.cores.map (fun (p : Nat × Core) => (p.1, p.2.renamed f)) } : State).renameOutside f
    { s with teams := AMap.set (AMap.erase s.teams id) dead (t.renamed f), groups := s.groups.filter (fun p => decide (p.1.teamId ≠ id)),
             threads := s.threads.filter (fun p => decide (p.1.teamId ≠ id)) }

/-- Forgets a team that is on no core, with its bytes. -/
def State.forgetTeam (s : State) (id : TeamId) (t : Team) : State :=
  let s := s.pasteAt (scratchPa id.core t.coBase) t.coBytes []
  { s with teams := AMap.erase s.teams id, cist := Memory.clear s.cist (id.core * 262144 + t.cistBase) t.cistBytes }

/-- Ended teams give back their resources (R110), and those for which nothing works any more are forgotten, with the clusters that have
none left. -/
def State.sweep (s : State) : State :=
  let s := (s.teams.filter (fun p => p.2.ended && decide (p.1.core < 4096))).foldl (fun s p => s.parkTeam p.1) s
  let s := (s.teams.filter (fun p => p.2.ended && decide (4096 ≤ p.1.core) && s.quiet p.1)).foldl (fun s p => s.forgetTeam p.1 p.2) s
  { s with clusters := s.clusters.filter (fun p => s.teams.any (fun q => decide (q.2.cluster = p.1)) || s.saved.any (fun v => decide (v.number = p.1))) }

/-! ### What a launch has on the device -/

/-- The resident teams of a launch. -/
def State.launchTeams (s : State) (n : Nat) : List TeamId := (s.teams.filter (fun p => decide (p.2.launch = n))).map (fun p => p.1)

/-- The clusters of a launch. -/
def State.launchClusters (s : State) (n : Nat) : List Nat := (s.clusters.filter (fun p => decide (p.2.launch = n))).map (fun p => p.1)

/-- Discards a launch with its clusters, saved or resident (R91). -/
def State.discardLaunch (s : State) (n : Nat) : State :=
  let cs := s.launchClusters n
  let s := s.discardTeams (s.launchTeams n)
  { s with launches := AMap.erase s.launches n, clusters := s.clusters.filter (fun p => !cs.contains p.1),
           saved := s.saved.filter (fun v => !cs.contains v.number) }

end Sys2Proof.Machine
end

