-- ==== Sys2Proof/Machine/Queues.lean ====
section
/-! DEFINITION. Work queues (R84 to R93): enabling, doorbells, fetching, the commands, their completions, recovery, and `spawn`
(R350). Opcode-table rows QUEUE_ENABLE to NOP_COMMAND, LAUNCH_COMPLETE, COMPLETION_WRITE, and HOST_PORT_TIMEOUT. -/
namespace Sys2Proof.Machine

/-! ### Configuration (R84) -/

/-- Word `k` of a queue's configuration. -/
def State.queueCfg (s : State) (q k : Nat) : Nat := s.reg32 (0x200000 + 32 * q + 4 * k)
/-- asid. -/
def State.queueAsid (s : State) (q : Nat) : Nat := bits (s.queueCfg q 2) 31 16
/-- weight; 0 is treated as 1. -/
def State.queueWeight (s : State) (q : Nat) : Nat := max 1 (bits (s.queueCfg q 2) 15 8)
/-- The entries of the command ring. -/
def State.sqSize (s : State) (q : Nat) : Nat := 2 ^ bits (s.queueCfg q 2) 3 0
/-- The entries of the completion ring. -/
def State.cqSize (s : State) (q : Nat) : Nat := 2 ^ bits (s.queueCfg q 2) 7 4
/-- sqdev. -/
def State.sqDev (s : State) (q : Nat) : Bool := decide (bits (s.queueCfg q 0) 14 14 = 1)
/-- cqdev. -/
def State.cqDev (s : State) (q : Nat) : Bool := decide (bits (s.queueCfg q 0) 15 15 = 1)
/-- conc. -/
def State.queueConc (s : State) (q : Nat) : Bool := decide (bits (s.queueCfg q 0) 10 10 = 1)

/-- Where host memory of a bus address lies in `mem`: in the bus part of the physical addresses (R159), or, beyond its end, at an
address that no page reaches. -/
def hostPa (bus : Nat) : Nat := if bus < 0xF80000000000 then 0x80000000000 + bus else 2 ^ 70 + bus

/-- Where an entry of a ring lies. The low 12 bits of its base count as they were written (R84; DESIGN CHOICE: log entry 108). -/
def ringPa (dev : Bool) (base at' : Nat) : Nat := if dev then base + at' else hostPa (base + at')

/-- The configuration passes the checks of an enable: ring sizes 4 to 15, reserved fields zero (R84). -/
def State.queueCfgOk (s : State) (q word0 : Nat) : Bool :=
  let w := s.queueCfg q 2
  decide (4 ≤ bits w 3 0) && decide (4 ≤ bits w 7 4) && decide (bits word0 9 1 = 0) && decide (bits word0 31 16 = 0)
    && decide (s.queueCfg q 1 = 0) && decide (s.queueCfg q 3 = 0)

/-- Stores word 0 of a queue's configuration. -/
def State.setQueueWord (s : State) (q v : Nat) : State := { s with mgmt := Memory.writeLE s.mgmt (0x200000 + 32 * q) 4 v }

/-- A write of word 0 of a queue's configuration with en = 1, by a master: en from 0 to 1 (R84). Where en is 1 already, the write is one of
R90. -/
def State.enableQueue (s : State) (master queue v : Nat) : State :=
  if bits v 0 0 = 0 then s
  else if s.queueEn queue then s.writeWord (0x200000 + 32 * queue) v
  else if s.queueCfgOk queue v then
    (s.setQueueWord queue v).setQueue queue { s.queue queue with mode := .running, owner := master }
  else (s.setQueueWord queue (v - v % 2)).setQueue queue { s.queue queue with mode := .error, errstat := 1 }

/-- QUEUE_ENABLE (R84). -/
def execQueueEnable (master queue : Nat) (value : Word) (s : State) : Host.Outcome State Fault Refusal :=
  .next (s.byOwner master (fun s => s.enableQueue master queue value.toNat))

/-- Resets a queue (R91): its launches are discarded, and the state block is cleared but for gen, rejspawn and owner. -/
def State.resetQueue (s : State) (q : Nat) : State :=
  let ls := (s.launches.filter (fun p => decide (p.2.queue = q))).map (fun p => p.1)
  let s := ls.foldl (fun s n => s.discardLaunch n) s
  let s := s.dropCalls ⟨q, 0xFF⟩ (fun b => b.kind == 2)
  let v := s.queue q
  (s.setQueueWord q (s.queueCfg q 0 - s.queueCfg q 0 % 2)).setQueue q
    { Queue.atReset with owner := v.owner, gen := v.gen + 1, rejspawn := v.rejspawn, skip := v.skip }

/-- en of a queue written to 0 resets the queue; the other fields of the write are discarded (R84). Over en = 0 the word is stored, and the
queue is not reset (DESIGN CHOICE: log entry 94). -/
def State.disableQueue (s : State) (queue v : Nat) : State :=
  if bits v 0 0 = 1 then s
  else if s.queueEn queue then s.resetQueue queue else s.writeWord (0x200000 + 32 * queue) v

/-- QUEUE_DISABLE (R84). -/
def execQueueDisable (master queue : Nat) (value : Word) (s : State) : Host.Outcome State Fault Refusal :=
  .next (s.byOwner master (fun s => s.disableQueue queue value.toNat))

/-! ### Doorbells (R85) -/

/-- BAR2 and BAR4 respond from stage 0x5 on (R31). -/
def State.barsOpen (s : State) : Bool := s.boot.powered && (s.boot.ready || decide (s.boot.stage = 5))

/-- COMMAND_DOORBELL (R85). -/
def execCommandDoorbell (queue : Nat) (tail : Word) (s : State) : Host.Outcome State Fault Refusal :=
  .next (if !s.barsOpen then s.send .unsupported
    else if (s.queue queue).mode = .running then s.setQueue queue { s.queue queue with sqtail := tail.toNat % s.sqSize queue } else s)

/-- COMPLETION_DOORBELL (R85). -/
def execCompletionDoorbell (queue : Nat) (head : Word) (s : State) : Host.Outcome State Fault Refusal :=
  .next (if !s.barsOpen then s.send .unsupported
    else if (s.queue queue).mode = .running then s.setQueue queue { s.queue queue with cqhead := head.toNat % s.cqSize queue } else s)

/-- A request to BAR2 of `size` bytes that is none of those rows: a doorbell, which is WO, reads as zero (R11, R85), and an unimplemented
offset of a queue page is Unsupported Request (R78). So is a read of the spawn window, which takes stores alone (R92). -/
def State.bar2Request (s : State) (off size : Nat) (write : Bool) : State :=
  let bell := off % 4096 = 0x40 ∨ off % 4096 = 0x48
  if write ∧ s.barsOpen ∧ (off % 4096 < 64 ∨ bell) then s
  else if !write ∧ s.barsOpen ∧ bell then s.send (.hostData (List.replicate size 0))
  else s.send .unsupported

/-! ### Recovery (R91) -/

/-- The outcome of a qctl operation. -/
def State.setQres (s : State) (n : BitVec 2) : State := { s with qres := n }

/-- QUEUE_RESET: qctl op 0 (R91). -/
def execQueueReset (master queue : Nat) (s : State) : Host.Outcome State Fault Refusal :=
  .next (s.byOwner master (fun s => (s.resetQueue queue).setQres 2))

/-- QUEUE_ADOPT: qctl op 1 (R91). -/
def execQueueAdopt (master queue : Nat) (gen : Word) (s : State) : Host.Outcome State Fault Refusal :=
  .next (s.byOwner master (fun s =>
    let v := s.queue queue
    if (v.mode = .orphaned ∨ v.mode = .running) ∧ v.gen = gen then
      (s.setQueue queue { v with mode := .running, owner := s.own.id }).setQres 1
    else (s.resetQueue queue).setQres 2))

/-- END_REATTACH: qctl op 2 (R91). -/
def execEndReattach (master : Nat) (s : State) : Host.Outcome State Fault Refusal :=
  .next (s.byOwner master (fun s =>
    (((s.queues.filter (fun p => decide (p.2.mode = .orphaned))).foldl (fun s p => s.resetQueue p.1) s).setQres 2)))

/-! ### Commands (R86) -/

/-- A field of a command. -/
def cmdField (b : List Byte) (at' n : Nat) : Nat := leNat ((b.drop at').take n)
/-- seq. -/
def cmdSeq (b : List Byte) : Word := BitVec.ofNat 32 (cmdField b 0 4)
/-- opcode. -/
def cmdOp (b : List Byte) : Nat := cmdField b 4 1
/-- The fence flag. -/
def cmdFence (b : List Byte) : Bool := decide (bits (cmdField b 5 1) 0 0 = 1)

/-- A reserved bit of flags is nonzero (R86); what the reserved bytes [7:6] hold is ignored in a command of a ring (R10). -/
def cmdReserved (b : List Byte) : Bool := decide (2 ≤ cmdField b 5 1)

/-- The command is malformed: status 0x0001 (R86). -/
def State.cmdBad (s : State) (b : List Byte) : Bool :=
  cmdReserved b || match cmdOp b with
    | 1 => decide (cmdField b 62 2 ≠ 0) || decide (cmdField b 56 2 = 0) || decide (cmdField b 58 2 = 0) || decide (cmdField b 60 2 = 0)
    | 2 => decide (cmdField b 10 6 ≠ 0) || decide (cmdField b 24 40 ≠ 0) || !s.ctrOn (cmdField b 8 2)
    | 3 => decide (cmdField b 10 6 ≠ 0) || decide (cmdField b 24 40 ≠ 0) || !s.ctrOn (cmdField b 8 2)
    | 4 => decide (4 ≤ cmdField b 28 1) || decide (cmdField b 29 35 ≠ 0) || decide (cmdField b 24 4 = 0)
    | 5 => decide (cmdField b 8 56 ≠ 0)
    | _ => true

/-! ### Completion (R87 to R89) -/

/-- Moves lastcomp over the commands that have completed; at most 32 (R89). -/
def Queue.advance : Nat → Queue → Queue
  | 0, q => q
  | k + 1, q => if q.donemap.getLsbD 0 then Queue.advance k { q with lastcomp := q.lastcomp + 1, donemap := q.donemap >>> 1 } else q

/-- A command has completed: the state block shows it, and its completion waits to be written (R88, R89). -/
def Queue.finish (q : Queue) (seq : Word) (status result : Nat) : Queue :=
  Queue.advance 32 { q with cmds := q.cmds.filter (fun c => decide (c.seq ≠ seq)), waiting := q.waiting ++ [(seq, status, result)]
                            donemap := q.donemap ||| (1#32 <<< (seq - q.lastcomp - 1).toNat) }

/-- Completes a command of a queue. -/
def State.finish (s : State) (q : Nat) (seq : Word) (status result : Nat) : State := s.setQueue q ((s.queue q).finish seq status result)

/-- Sets where a command stands. -/
def State.setCmd (s : State) (q : Nat) (seq : Word) (st : CmdState) : State :=
  let v := s.queue q
  let f : Cmd → Cmd := fun c => if c.seq = seq then { c with state := st } else c
  s.setQueue q { v with cmds := v.cmds.map f }

/-- The completion of a sequence error has been written: the queue enters the error state; an orphaned one stays orphaned and fetches no
more (R87, R90). -/
def Queue.stoppedBy (v : Queue) (status : Nat) : Queue :=
  if status = 2 then { v with errstat := 2, fetching := false, mode := if v.mode = .running then .error else v.mode } else v

/-- COMPLETION_WRITE: the oldest waiting completion is written, once the ring has room (R88); one that an orphaned queue drops is
counted as written (R90). The base is used as `ringPa` uses it (log entry 108). -/
def execCompletionWrite (queue : Nat) (s : State) : Host.Outcome State Fault Refusal :=
  let v := s.queue queue
  match v.waiting with
  | [] => .next s
  | (seq, status, result) :: rest =>
    let size := s.cqSize queue
    let drop := decide (v.mode = .orphaned) && !s.cqDev queue
    let tail := (v.cqtail + 1) % size
    let pa := ringPa (s.cqDev queue) (s.reg64 (0x200018 + 32 * queue)) (16 * v.cqtail)
    if !drop && (decide (tail = v.cqhead) || s.held pa 16) then .next s else
    let bytes := natBytes 4 seq.toNat ++ natBytes 2 status ++ natBytes 2 (b2n v.phase * 32768) ++ natBytes 8 result
    let s := if drop then s else s.store pa bytes
    .next (s.setQueue queue { v.stoppedBy status with waiting := rest, cqtail := tail, phase := if tail = 0 then !v.phase else v.phase })

/-! ### Fetching (R87, R90) -/

/-- The completion of a sequence error waits to be written (R87). -/
def Queue.refusing (v : Queue) : Bool := v.waiting.any (fun w => decide (w.2.1 = 2))

/-- The queue may fetch: it runs, or is orphaned with its ring on the device; no sequence error stops it; the completion ring has room; an
ordered queue has no command left, and a concurrent one keeps to 32 (R87, R88, R90). -/
def State.mayFetch (s : State) (q : Nat) : Bool :=
  let v := s.queue q
  !s.unitStopped .queues && (decide (v.mode = .running) || (decide (v.mode = .orphaned) && s.sqDev q && v.fetching))
    && !v.refusing && decide (v.sqhead ≠ v.sqtail)
    && (decide ((v.cqtail + 1) % s.cqSize q ≠ v.cqhead) || (decide (v.mode = .orphaned) && !s.cqDev q))
    && (if s.queueConc q then decide (v.cmds.length < 32) && decide (v.nextexp - v.lastcomp - 1 ≠ 32) else v.cmds.isEmpty)

/-- COMMAND_FETCH: the command at sqhead is fetched; one with another seq gets its completion, with which the queue stops (R87).
The base is used as `ringPa` uses it (log entry 108). -/
def execCommandFetch (queue : Nat) (s : State) : Host.Outcome State Fault Refusal :=
  if !s.mayFetch queue then .next s else
  let v := s.queue queue
  let pa := ringPa (s.sqDev queue) (s.reg64 (0x200010 + 32 * queue)) (64 * v.sqhead)
  if s.held pa 64 then .next s else
  let b := Memory.read s.mem pa 64
  if cmdSeq b ≠ v.nextexp then
    .next (s.setQueue queue { v with waiting := v.waiting ++ [(cmdSeq b, 2, 0)] })
  else
    let c : Cmd := { seq := v.nextexp, bytes := b, spawn := none, number := 0, state := .fetched }
    .next (s.setQueue queue { v with sqhead := (v.sqhead + 1) % s.sqSize queue, nextexp := v.nextexp + 1, cmds := v.cmds ++ [c] })

/-- A spawn record is accepted (R92). -/
def State.acceptsSpawn (s : State) (q : Nat) (b : List Byte) : Bool :=
  let v := s.queue q
  decide (v.mode = .running) && decide (v.sqhead = v.sqtail) && decide (cmdSeq b = v.nextexp) && decide (cmdOp b = 1) && !cmdReserved b
    && decide (cmdField b 6 2 = 0) && decide (cmdField b 62 2 = 0) && decide (cmdField b 14 2 = s.queueAsid q)

/-- Takes a spawn record as a fetched command, or counts its rejection (R92). -/
def State.offer (s : State) (q : Nat) (b : List Byte) (ok : Bool) (k : Option Bool) : State :=
  let v := s.queue q
  if ok && s.acceptsSpawn q b then
    s.setQueue q { v with nextexp := v.nextexp + 1, cmds := v.cmds ++ [({ seq := v.nextexp, bytes := b, spawn := k, number := 0, state := .fetched } : Cmd)] }
  else s.setQueue q { v with rejspawn := v.rejspawn + 1 }

/-- SPAWN_WINDOW_STORE: `whole` says that it arrives as one write of 64 bytes at offset 0 with every byte enabled (R92). While the queues have
stopped for a cut it waits (DESIGN CHOICE: log entry 88). -/
def execSpawnWindowStore (queue : Nat) (whole : Bool) (record : List Byte) (s : State) : Host.Outcome State Fault Refusal :=
  .next (if !s.barsOpen then s.send .unsupported
    else if s.unitStopped .queues then s else s.offer queue record (whole && decide (record.length = 64)) none)

/-! ### Starting commands (R86, R87) -/

/-- A fetched command can start (R87): in its order, with at most 32 in flight, and within donemap (R89). -/
def State.canStart (s : State) (q : Nat) (c : Cmd) : Bool :=
  let v := s.queue q
  let first := decide (v.cmds.head? = some c)
  !s.unitStopped .queues && decide (c.state = .fetched) && (first || (s.queueConc q && !cmdFence c.bytes))
    && decide (v.inflight < 32) && decide ((c.seq - v.lastcomp - 1).toNat < 32)

/-- A command of a queue. -/
def State.cmd? (s : State) (q : Nat) (seq : Word) : Option Cmd := (s.queue q).cmds.find? (fun c => c.seq == seq)

/-- Starts a command with an opcode of those in `ops`: a malformed one completes with status 0x0001 (R86). -/
def startCmd (q : Nat) (seq : Word) (ops : Nat → Bool) (f : List Byte → State → State) (s : State) : Host.Outcome State Fault Refusal :=
  .next (match s.cmd? q seq with
  | none => s
  | some c =>
    if !s.canStart q c || !ops (cmdOp c.bytes) then s
    else if s.cmdBad c.bytes then s.finish q seq 1 0 else f c.bytes s)

/-- WAIT: it starts, and waits for its counter (R86). -/
def execWait (queue : Nat) (seq : Word) (s : State) : Host.Outcome State Fault Refusal :=
  startCmd queue seq (fun o => o == 2) (fun _ s => s.setCmd queue seq .running) s

/-- WAIT_COMPLETE: the counter is at or above the target (R86). -/
def execWaitComplete (queue : Nat) (seq : Word) (s : State) : Host.Outcome State Fault Refusal :=
  .next (match s.cmd? queue seq with
  | none => s
  | some c =>
    if c.state = .running ∧ cmdOp c.bytes = 2 ∧ cmdField c.bytes 16 8 ≤ s.ctrValue (cmdField c.bytes 8 2) then s.finish queue seq 0 0 else s)

/-- SIGNAL: it adds once to its counter (R86). -/
def execSignal (queue : Nat) (seq : Word) (s : State) : Host.Outcome State Fault Refusal :=
  startCmd queue seq (fun o => o == 3) (fun b s => (s.ctrAdd .device (cmdField b 8 2) (cmdField b 16 8)).finish queue seq 0 0) s

/-- NOP_COMMAND; a command with an opcode outside 0x01 to 0x05 is started by this row too, and is malformed (R86). -/
def execNopCommand (queue : Nat) (seq : Word) (s : State) : Host.Outcome State Fault Refusal :=
  startCmd queue seq (fun o => o == 0 || decide (5 ≤ o)) (fun _ s => s.finish queue seq 0 0) s

/-! ### COPY (R86) -/

/-- COPY: it starts; its bytes move with its completion. -/
def execCopy (queue : Nat) (seq : Word) (s : State) : Host.Outcome State Fault Refusal :=
  startCmd queue seq (fun o => o == 4) (fun _ s => s.setCmd queue seq .running) s

/-- A byte of a side can be reached: no reserved physical address (R86, R159). -/
def copyByteOk (dev : Bool) (a : Nat) : Bool := !dev || decide (physPart a ≠ .reserved)

/-- Where a byte of a side lies in `mem`. -/
def copyPa (dev : Bool) (a : Nat) : Nat := if dev then a else hostPa a

/-- The sides of a COPY: source, destination, length, and which are device addresses. -/
structure CopySides where
  src    : Nat
  dst    : Nat
  len    : Nat
  srcDev : Bool
  dstDev : Bool
  deriving DecidableEq, Repr

/-- The sides of a command. -/
def copySides (b : List Byte) : CopySides :=
  { src := cmdField b 8 8, dst := cmdField b 16 8, len := cmdField b 24 4
    srcDev := decide (bits (cmdField b 28 1) 0 0 = 1), dstDev := decide (bits (cmdField b 28 1) 1 1 = 1) }

/-- A poisoned sector meets a range (R26). -/
def State.poisonIn (s : State) (pa n : Nat) : Bool := s.poison.any (fun k => decide (k * 32 < pa + n) && decide (pa < k * 32 + 32))

/-- A device range touches a reserved address: the parts of R159 without a hole are its parts up to the chip scratchpad, the core
scratchpads, and the bus addresses. -/
def devRangeOk (dev : Bool) (a n : Nat) : Bool :=
  !dev || decide (a + n ≤ 0x70040000000) || (decide (0x70100000000 ≤ a) && decide (a + n ≤ 0x70180000000))
    || (decide (0x80000000000 ≤ a) && decide (a + n ≤ 0x1000000000000))

/-- Byte `k` of a failed COPY can be written: both sides reach it and its source is not poisoned. -/
def State.copyByte (s : State) (c : CopySides) (k : Nat) : Bool :=
  copyByteOk c.srcDev (c.src + k) && copyByteOk c.dstDev (c.dst + k) && !s.poisonIn (copyPa c.srcDev (c.src + k)) 1

/-- Writes some bytes of a failed COPY. -/
def State.copySome (s : State) (c : CopySides) (ks : List Nat) : State :=
  (ks.filter (fun k => decide (k < c.len) && s.copyByte c k)).foldl (fun r k =>
    r.store (copyPa c.dstDev (c.dst + k)) [Memory.get s.mem (copyPa c.srcDev (c.src + k))]) s

/-- COPY_COMPLETE: the bytes of a COPY are written, and it completes; status 0x0006 where a byte of either range cannot be read or
written. `failed` is Unsupported Request or Completer Abort on a host address, and `written` the bytes that a failed COPY writes
(R86). -/
def execCopyComplete (queue : Nat) (seq : Word) (failed : Bool) (written : List Nat) (s : State) : Host.Outcome State Fault Refusal :=
  .next (match s.cmd? queue seq with
  | none => s
  | some cmd =>
    let c := copySides cmd.bytes
    if cmd.state ≠ .running ∨ cmdOp cmd.bytes ≠ 4 then s
    else if s.held (copyPa c.srcDev c.src) c.len || s.held (copyPa c.dstDev c.dst) c.len then s
    else if (failed && !(c.srcDev && c.dstDev)) || !devRangeOk c.srcDev c.src c.len || !devRangeOk c.dstDev c.dst c.len
        || s.poisonIn (copyPa c.srcDev c.src) c.len then
      (s.copySome c written).finish queue seq 6 0
    else (s.store (copyPa c.dstDev c.dst) (Memory.read s.mem (copyPa c.srcDev c.src) c.len)).finish queue seq 0 0)

/-- HOST_PORT_TIMEOUT: no completion within 2^26 cycles of the host-port agent. A COPY with a host side fails, any subset of its
bytes written (R86; Config.subset); a load of a peer page gets remote-access-failure (R95). -/
def execHostPortTimeout (request : HostRequest) (s : State) : Host.Outcome State Fault Refusal :=
  .next (match request with
  | .copy queue seq =>
    (match s.cmd? queue seq with
    | none => s
    | some cmd =>
      let c := copySides cmd.bytes
      if cmd.state ≠ .running ∨ cmdOp cmd.bytes ≠ 4 ∨ (c.srcDev ∧ c.dstDev) then s
      else (({ s with stamp := s.stamp + 1 } : State).copySome c ((List.range c.len).filter (Config.subset s.stamp))).finish queue seq 6 0)
  | .peerLoad id entry =>
    (match (s.thread? id).bind (fun t => t.log.find? (fun e => e.index == entry)) with
    | none => s
    | some e =>
      match e.access, e.state with
      | .load _ a _ _ _ _, .sent ps =>
        if ps.any (fun p => p.2.2.isNone && (match p.1 with
          | .peer _ => true
          | _ => false)) then s.failEntry id e a else s
      | _, _ => s))

/-! ### LAUNCH (R86, R93, R99 to R101) -/

/-- The join address of a LAUNCH. -/
def cmdJoin (b : List Byte) : Nat := cmdField b 48 8

/-- What the increment of a join word finds (R93). -/
inductive JoinStop where
  | add (pa : Nat)
  | none
  | count
  | missing
  | held
  deriving DecidableEq, Repr

/-- Where the join word of a completed LAUNCH lies (R90, R93). A status of 0x0001 joins nothing. A host address that is not 8-byte aligned is
counted like a spawn's (DESIGN CHOICE: log entry 95). -/
def State.joinAt (s : State) (q : Nat) (c : Cmd) (status : Nat) : JoinStop :=
  let a := cmdJoin c.bytes
  if a = 0 ∨ status = 1 ∨ status = 2 then .none else
  match c.spawn with
  | none =>
    if (s.queue q).mode = .orphaned then .none
    else if a % 8 ≠ 0 then .count else if s.held (hostPa a) 8 then .held else .add (hostPa a)
  | some kernel =>
    if a % 8 ≠ 0 ∨ 2 ^ 63 ≤ a then .count else if 2 ^ 48 ≤ a then .missing else
    match s.leaf (.die 0) (cmdField c.bytes 14 2) a with
    | none => .missing
    | some (e, b) =>
      let pa := leafPa e b a
      if bits e 3 3 = 0 ∨ bits e 5 5 = 0 ∨ bits e 13 13 = 1 ∨ (bits e 6 6 = 1 ∧ !kernel) ∨ s.poisonIn pa 8 then .count
      else if (s.queue q).mode = .orphaned ∧ physPart pa = .bus then .none
      else if s.held pa 8 then .held else .add pa

/-- A LAUNCH completes: its join word is incremented, and its completion follows (R93). Where the increment has to wait, so does the
completion. -/
def State.completeLaunch (s : State) (q : Nat) (c : Cmd) (status result : Nat) : State :=
  match s.joinAt q c status with
  | .none => s.finish q c.seq status result
  | .count => (s.count 0x10A8).finish q c.seq status result
  | .add pa => (s.storeFrom { Origin.device with rmw := true } pa (natBytes 8 ((s.read pa 8 + 1) % 2 ^ 64))).finish q c.seq status result
  | .held => s.setCmd q c.seq (.finished status result)
  | .missing => (s.setCmd q c.seq (.finished status result)).engineBatch ⟨q, 0xFF, 5⟩ 0 (cmdField c.bytes 14 2)
      (BitVec.ofNat 64 (cmdJoin c.bytes)) 2 (.join q c.seq)

/-- A denied join word is left as it is, and counted (R93, R383). -/
def State.denyJoin (s : State) (q : Nat) (seq : Word) : State :=
  match s.cmd? q seq with
  | some c => match c.state with
    | .finished status result => (s.count 0x10A8).finish q seq status result
    | _ => s
  | none => s

/-- The launch that a command has started. -/
def State.launchOfCmd (s : State) (q : Nat) (seq : Word) : Option (Nat × Launch) :=
  s.launches.find? (fun p => decide (p.2.queue = q) && decide (p.2.seq = seq))

/-- Launches stand in the order in which their commands started (R101). -/
def insertLaunch (n : Nat) (l : Launch) (m : AMap Nat Launch) : AMap Nat Launch :=
  m.takeWhile (fun p => decide (p.1 < n)) ++ (n, l) :: m.dropWhile (fun p => decide (p.1 < n))

/-- A LAUNCH takes the number of its launch as it starts (R101). -/
def State.numberCmd (s : State) (q : Nat) (seq : Word) : State :=
  let v := s.queue q
  let f : Cmd → Cmd := fun c => if c.seq = seq then { c with number := s.nextId } else c
  ({ s with nextId := s.nextId + 1 } : State).setQueue q { v with cmds := v.cmds.map f }

/-- A LAUNCH whose header has been read becomes a ready launch, or is refused with status 0x0004 (R100, R101). -/
def State.startLaunch (s : State) (q : Nat) (c : Cmd) (header : List Byte) : State :=
  let b := c.bytes
  let gx := cmdField b 56 2
  let gy := cmdField b 58 2
  let gz := cmdField b 60 2
  match parseHeader header with
  | none => s.completeLaunch q c 4 0
  | some h =>
    if !h.accepted (cmdField b 14 2) gx gy gz then s.completeLaunch q c 4 0 else
    let l : Launch := { queue := q, seq := c.seq, asid := cmdField b 14 2, entry := cmdField b 8 6, header := h
                        words := (List.range 8).map (fun i => BitVec.ofNat 32 (cmdField b (16 + 4 * i) 4))
                        gx := gx, gy := gy, gz := gz, next := 0, returned := [], ended := 0, faulted := 0 }
    ({ s with launches := insertLaunch c.number l s.launches } : State).setCmd q c.seq .running

/-- A LAUNCH reads its header (R100). -/
def State.readHeader (s : State) (q : Nat) (c : Cmd) : State :=
  match s.headerAt (cmdField c.bytes 14 2) (cmdField c.bytes 8 6) with
  | .ok h [] => s.startLaunch q c h
  | .ok h ps => (ps.foldl (fun (r : State) p => r.send (.peerRead p.1 p.2)) { s with stamp := s.stamp + 1 }).startLaunch q c h
  | .refused => s.finish q c.seq 1 0
  | .held => s.setCmd q c.seq .running
  | .missing va => (s.setCmd q c.seq .running).engineBatch ⟨q, 0xFF, 5⟩ 0 (cmdField c.bytes 14 2) (BitVec.ofNat 64 va) 0 (.header q c.seq)

/-- LAUNCH: the checks of the command, the ASID, the header and its content, in this order (R86, R100). A LAUNCH whose header could
not be read yet goes on with this row. -/
def execLaunch (queue : Nat) (seq : Word) (s : State) : Host.Outcome State Fault Refusal :=
  .next (match s.cmd? queue seq with
  | none => s
  | some c =>
    if cmdOp c.bytes ≠ 1 then s
    else if s.canStart queue c then
      (if s.cmdBad c.bytes then s.finish queue seq 1 0
      else if cmdField c.bytes 14 2 ≠ s.queueAsid queue then s.completeLaunch queue c 3 0
      else (s.numberCmd queue seq).readHeader queue { c with number := s.nextId })
    else if c.state = .running ∧ (s.launchOfCmd queue seq).isNone ∧ !s.engineWaits (.header queue seq) ∧ !s.unitStopped .queues then
      s.readHeader queue c
    else s)

/-- Every accepted store of a launch's threads is performed, non-temporal ones aside (R88, R93). -/
def State.launchStored (s : State) (n : Nat) : Bool :=
  s.buffer.all (fun b => b.access.nonTemporal || (match s.team? b.thread.teamId with
    | some t => decide (t.launch ≠ n)
    | none => true))

/-- LAUNCH_COMPLETE: every cluster of the launch has ended (R87, R110); status 0x0005 with the number of groups ended by a double
trap. A LAUNCH whose join word had to wait goes on with this row. -/
def execLaunchComplete (queue : Nat) (seq : Word) (s : State) : Host.Outcome State Fault Refusal :=
  .next (match s.cmd? queue seq with
  | none => s
  | some c =>
    match c.state with
    | .fetched => s
    | .finished status result => if s.engineWaits (.join queue seq) then s else s.completeLaunch queue c status result
    | .running =>
      match s.launchOfCmd queue seq with
      | none => s
      | some (n, l) =>
        if l.ended = l.gx * l.gy * l.gz ∧ s.launchStored n then
          ({ s with launches := AMap.erase s.launches n } : State).completeLaunch queue c (if l.faulted = 0 then 0 else 5) l.faulted
        else s)

/-! ### spawn (R92, R350) -/

/-- A `spawn` is performed: the record is read, and the queue takes or rejects it; 0 or 1 is deferred (R350). -/
def State.startSpawn (s : State) (id : ThreadId) (e : LogEntry) (off q dst : Nat) : State :=
  if s.unitStopped .queues then s else
  let b := Memory.read s.mem (s.coPa id.teamId off) 64
  let ok := s.acceptsSpawn q b && decide (s.asidOf id.teamId = s.queueAsid q)
  (s.offer q b ok (some e.kernel)).setEntry id e (.returned [(dst, if ok then 0 else 1)])

/-- R350 -/
def bodySpawn (d a : BitVec 7) : Issue Unit := do
  let k ← block a 2 2
  let off ← regOf k
  let q ← regOf (k + 1)
  let c ← get
  flagIf (decide (off.toNat % 64 ≠ 0)) .misaligned (off.setWidth 64)
  flagIf (!c.s.inRange c.id .co off.toNat 64) .permission (off.setWidth 64)
  let r ← dstDeferred d 1 1
  access (.spawn off.toNat (bits q.toNat 13 0) r)
/-- R350 -/
def execSpawn (w : BitVec 1) (d a : BitVec 7) (st : State) : Host.Outcome State Fault Refusal :=
  plain (Enc.spawn w d a) .nothing (bodySpawn d a) st

end Sys2Proof.Machine
end

