-- ==== Sys2Proof/Machine/Aperture.lean ====
section
/-! DEFINITION. What the host and drives do with device memory: the direct aperture (R94), the transform windows (R96 to R98), host
AtomicOps (R207) and coherent accesses (R205). Opcode-table rows DIRECT_APERTURE_ACCESS to HOST_COHERENT_ACCESS. -/
namespace Sys2Proof.Machine

/-- A read or write of device memory by the host or a drive: a read is answered with the coherent bytes, and poisoned ones are
reported (R26, R94, R205). -/
def State.hostAccess (s : State) (pa n : Nat) (data : Option (List Byte)) : State :=
  match data with
  | some b => (s.storeFrom (hostOrigin false) pa b).useLines [(.mem 0 pa 1, b.length)]
  | none => if s.poisonIn pa n then s.send .hostPoison else (s.send (.hostData (Memory.read s.mem pa n))).useLines [(.mem 0 pa 1, n)]

/-! ### The direct aperture (R78, R94) -/

/-- The device memory behind a BAR4 offset below 64 GiB; there is none behind an entry whose base lies outside HBM4 (R94; DESIGN CHOICE:
log entry 96). -/
def State.aperturePa (s : State) (off : Nat) : Option Nat :=
  let e := s.reg64 (0x12000 + 8 * (off / 2 ^ 28))
  let pa := bits e 47 28 * 2 ^ 28 + off % 2 ^ 28
  if bits e 63 63 = 1 ∧ physPart pa = .hbm then some pa else none

/-! ### Transform windows (R96 to R98) -/

/-- The descriptor of a window as a number of 512 bits. -/
def State.windowDesc (s : State) (w : Nat) : Nat := Memory.readLE s.mgmt (0x10000 + 64 * w) 64

/-- The conditions that refuse an enable (R96). -/
def windowBad (d : Nat) : Bool :=
  decide (bits d 206 192 ≠ 0) || decide (bits d 159 112 ≠ 0) || decide (bits d 91 88 ≠ 0) || decide (bits d 80 77 ≠ 0)
    || decide (bits d 68 3 ≠ 0) || decide (4 < bits d 95 92) || decide (bits d 71 70 = 3) || decide (bits d 83 82 = 3)
    || (decide (bits d 81 81 = 1) && !fmtLegal (BitVec.ofNat 32 (bits d 191 160)))

/-- A write of word 0 of a window's descriptor with en = 1 (R96). With en at 1 already it changes nothing (log entry 36). -/
def State.enableWindow (s : State) (window v : Nat) : State :=
  let off := 0x10000 + 64 * window
  if bits (s.reg32 off) 0 0 = 1 ∨ bits v 0 0 = 0 then s
  else
    let kept := v / 8 * 8
    let d := s.windowDesc window / 2 ^ 32 * 2 ^ 32 + kept
    { s with mgmt := Memory.writeLE s.mgmt off 4 (kept + if windowBad d then 4 else 1) }

/-- TRANSFORM_WINDOW_ENABLE (R96). -/
def execTransformWindowEnable (master window : Nat) (value : Word) (s : State) : Host.Outcome State Fault Refusal :=
  .next (s.byOwner master (fun s => s.enableWindow window value.toNat))

/-- A window's blocks. -/
def State.window (s : State) (w : Nat) : Window := AMap.getD s.windows w { held := [], counts := [] }

/-- A write at or above the windows' first BAR4 offset: bytes of one block arrive; of a disabled window or beyond its last block they are
discarded and counted, and one that would open a seventeenth block waits (R96, R97). -/
def State.windowWrite (s : State) (off : Nat) (data : List Byte) : State :=
  let w := (off - 2 ^ 36) / 2 ^ 28
  let b := off % 2 ^ 28 / 4096
  let d := s.windowDesc w
  let v := s.window w
  if !s.barsOpen || decide (off < 2 ^ 36) || decide (0x1400000000 ≤ off) then s.send .unsupported
  else if bits d 0 0 = 0 ∨ bits d 111 96 < b then s.count 0x1080
  else if (AMap.get? v.held b).isNone ∧ 16 ≤ v.held.length then s
  else
    let held := (List.range data.length).foldl (fun (m : AMap Nat Byte) i => AMap.set m (off % 4096 + i) (data.getD i 0)) (AMap.getD v.held b [])
    { s with windows := AMap.set s.windows w { v with held := AMap.set v.held b held } }

/-- TRANSFORM_WINDOW_WRITE (R96, R97). -/
def execTransformWindowWrite (off : Nat) (data : List Byte) (s : State) : Host.Outcome State Fault Refusal := .next (s.windowWrite off data)

/-- DIRECT_APERTURE_ACCESS (R94): a request to an invalid entry, or to no part of the aperture, is Unsupported Request (R78), and so is a read
of a transform window's input (DESIGN CHOICE: log entry 97), which takes writes (R96). Bytes that an engine owns, or that move, are waited for
(R25, R182). -/
def execDirectApertureAccess (off size : Nat) (data : Option (List Byte)) (s : State) : Host.Outcome State Fault Refusal :=
  .next (if 2 ^ 36 ≤ off then (match data with
      | some b => s.windowWrite off b
      | none => s.send .unsupported)
    else if !s.barsOpen then s.send .unsupported
    else match s.aperturePa off with
    | none => s.send .unsupported
    | some pa => if s.held pa (match data with
        | some b => b.length
        | none => size) then s else s.hostAccess pa size data)

/-- What the stages of R97 give: the bytes with whether an element overflowed under TRAP, or a failed status. -/
inductive BlockResult where
  | out (d : List Byte) (trapped : Bool)
  | fail (st : Nat)
  deriving DecidableEq, Repr

/-- The header word and the decompression. -/
def blockExpand (kind : Nat) (d : List Byte) : Except Nat (List Byte) :=
  if kind = 0 then .ok d else
  let n := leNat (d.take 2)
  if leNat ((d.drop 2).take 2) ≠ 0 ∨ 4092 < n then .error 2 else
  let body := (d.drop 4).take n
  match (if kind = 1 then lz4 body else inflate body) with
  | some x => .ok x
  | none => .error 3

/-- Converts elements one by one from a generator; TRAP takes the SAT result and is reported. -/
def blockConvert (f : Fmt) (mode ovf : Nat) : Word → List Val → List Nat × Bool
  | _, [] => ([], false)
  | g, v :: r =>
    let g' := if mode = 5 then nextGen g else g
    let rest := blockConvert f mode ovf g' r
    match convertDown f mode (drawBits g') ovf v with
    | some c => (c :: rest.1, rest.2)
    | none => ((convertDown f mode (drawBits g') 0 v).getD 0 :: rest.1, true)

/-- One byte for each element, or two elements in a byte with the even one low (R97); an odd last element leaves the high half zero (DESIGN
CHOICE: log entry 98). -/
def packElements (f : Fmt) (e : List Nat) : List Byte :=
  if 4 < f.W then e.map (BitVec.ofNat 8)
  else (List.range ((e.length + 1) / 2)).map (fun i => BitVec.ofNat 8 (e.getD (2 * i) 0 + 16 * e.getD (2 * i + 1) 0))

/-- The conversion of a block's bytes. -/
def blockCvt (d b : Nat) (bytes : List Byte) : BlockResult :=
  if bits d 81 81 = 0 then .out bytes false else
  let es := if bits d 83 82 = 0 then 4 else 2
  if bytes.length % es ≠ 0 then .fail 6 else
  let src := if bits d 83 82 = 0 then binary32 else if bits d 83 82 = 1 then bfloat16 else binary16
  let mode := if bits d 85 84 = 1 then 1 else if bits d 85 84 = 2 then 5 else 0
  let f := Fmt.ofWord (BitVec.ofNat 32 (bits d 191 160))
  let vals := (List.range (bytes.length / es)).map (fun i => val (leNat ((bytes.drop (es * i)).take es)) src)
  let r := blockConvert f mode (bits d 87 86) (genOf (BitVec.ofNat 32 (bits d 255 224) ^^^ BitVec.ofNat 32 b)) vals
  .out (packElements f r.1) r.2

/-- The stages of R97 up to the output slot. -/
def State.blockStages (s : State) (d b : Nat) (input : List Byte) : BlockResult :=
  let key := Memory.read s.mgmt (0x11000 + 64 * bits d 76 72) 64
  let x := if bits d 69 69 = 1 then xtsDecrypt key ((bits d 383 256 + b) % 2 ^ 128) input else input
  match blockExpand (bits d 71 70) x with
  | .error st => .fail st
  | .ok y =>
    match blockCvt d b y with
    | .fail st => .fail st
    | .out z t => if 4096 * 2 ^ bits d 95 92 < z.length then .fail 4 else .out z t

/-- A failed block has written any bytes of its output slot (R97; Config.subset, Config.workByte). -/
def State.blockMaybe (s : State) (pa n : Nat) : State :=
  (List.range n).foldl (fun (r : State) k => if Config.subset s.stamp k ∧ physPart (pa + k) = .hbm
    then r.store (pa + k) [Config.workByte s.stamp k] else r) { s with stamp := s.stamp + 1 }

/-- The completion entry, and the increment of cen after it (R97, R98). An entry that does not lie in HBM4 is not written (DESIGN CHOICE:
log entry 99). The low bits of ctab count as they were written (R96; DESIGN CHOICE: log entry 110). -/
def State.blockReport (s : State) (w b d st len : Nat) : State :=
  let v := s.window w
  let n := (AMap.getD v.counts b 0 + 1) % 2 ^ 32
  let s := { s with windows := AMap.set s.windows w { held := AMap.erase v.held b, counts := AMap.set v.counts b n } }
  let at' := bits d 511 448 + 8 * b
  let s := if physPart at' = .hbm ∧ physPart (at' + 7) = .hbm then s.write at' 8 (n * 2 ^ 32 + st * 2 ^ 24 + if st = 0 then len else 0) else s
  if bits d 207 207 = 1 then s.ctrAdd { Origin.device with rmw := true } (bits d 223 208) 1 else s

/-- TRANSFORM_BLOCK_PROCESS: a fully written block is processed and reported (R97, R98). `poisoned` says that the block met poison on
its way. Where bytes that it writes, or may write, are held, it waits (R25, R182, R207). The low bits of dbase count as they were written (R96;
DESIGN CHOICE: log entry 110). -/
def execTransformBlockProcess (window block : Nat) (poisoned : Bool) (s : State) : Host.Outcome State Fault Refusal :=
  let d := s.windowDesc window
  let slot := 4096 * 2 ^ bits d 95 92
  let pa := bits d 447 384 + block * slot
  match AMap.get? (s.window window).held block with
  | none => .next s
  | some m =>
    if m.length < 4096 ∨ s.held (bits d 511 448 + 8 * block) 8 = true then .next s else
    .next (match s.blockStages d block ((List.range 4096).map (fun i => AMap.getD m i 0)) with
    | .fail st => if s.held pa slot then s else (s.blockMaybe pa slot).blockReport window block d st 0
    | .out z t =>
      if s.held pa z.length then s
      else if poisoned ∨ s.poisonIn pa z.length ∨ physPart pa ≠ .hbm ∨ physPart (pa + z.length - 1) ≠ .hbm then
        (if s.held pa slot then s else (s.blockMaybe pa slot).blockReport window block d 7 0)
      else (s.store pa z).blockReport window block d (if t then 5 else 0) z.length)

/-! ### Host atomics and coherent accesses (R205, R207) -/

/-- The new value of a host AtomicOp. -/
def hostAtomicNew (op : HostAtomic) (w old value compare : Nat) : Nat :=
  match op with
  | .fetchAdd => (old + value) % 256 ^ w
  | .swap => value % 256 ^ w
  | .cas => if old = compare % 256 ^ w then value % 256 ^ w else old

/-- HOST_ATOMICOP (R39, R207): on HBM4, 4 or 8 bytes, 16 for a CAS; a misaligned one is Completer Abort. -/
def execHostAtomicop (pa width : Nat) (op : HostAtomic) (value compare : Nat) (s : State) : Host.Outcome State Fault Refusal :=
  .next (if !s.barsOpen || decide (physPart pa ≠ .hbm) || (decide (width = 16) && decide (op ≠ .cas)) then s.send .unsupported
    else if pa % width ≠ 0 then s.send .completerAbort
    else if s.held pa width then s
    else if s.poisonIn pa width then s.send .hostPoison
    else
      let old := s.read pa width
      (s.storeFrom (hostOrigin true) pa (natBytes width (hostAtomicNew op width old value compare))).send (.hostData (natBytes width old)))

/-- What the host reaches coherently: the CXL.mem window on HBM4, whose base and size the owner has set in units of 256 MiB, and its own
memory (R40, R205). -/
def State.hostReaches (s : State) (pa n : Nat) : Bool :=
  let lo := s.reg64 0x200 * 2 ^ 28
  (decide (lo ≤ pa) && decide (pa + n ≤ lo + s.reg64 0x208 * 2 ^ 28) && decide (pa + n ≤ 0x10000000000))
    || (decide (physPart pa = .bus) && decide (physPart (pa + n - 1) = .bus)) || decide (2 ^ 70 ≤ pa)

/-- The 64-byte lines of a range. -/
def linesOf (pa n : Nat) : List Nat := (List.range ((pa + n - 1) / 64 + 1 - pa / 64)).map (fun i => pa / 64 + i)

/-- A host CPU's atomic, of any operation and width: its read takes the lines of its bytes exclusively, and its write gives them up; between
the two every access of the device to them waits (R207). -/
def State.hostExclusive (s : State) (pa n : Nat) (data : Option (List Byte)) : State :=
  let ls := linesOf pa n
  match data with
  | none => if s.poisonIn pa n then s.send .hostPoison
    else { s.hostAccess pa n none with hostLines := s.hostLines ++ ls.filter (fun l => !s.hostLines.contains l) }
  | some b => if ls.all (fun l => s.hostLines.contains l) then { s.storeFrom (hostOrigin true) pa b with hostLines := s.hostLines.filter (fun l => !ls.contains l) }
    else s

/-- Whether a coherent access of the host waits: for bytes that an engine owns, that move, or whose line a host CPU holds for an atomic (R25,
R182, R190, R207). The write of such an atomic, which holds its lines already, waits for a move alone. -/
def State.hostWaits (s : State) (pa n : Nat) (access : HostAccess) : Bool :=
  if access.atomic && access.data.isSome && (linesOf pa n).all (fun l => s.hostLines.contains l) then s.moving pa n else s.held pa n

/-- HOST_COHERENT_ACCESS (R205): from stage 0x5 on for device memory (R31). -/
def execHostCoherentAccess (pa size : Nat) (access : HostAccess) (s : State) : Host.Outcome State Fault Refusal :=
  let n := match access.data with
    | some b => b.length
    | none => size
  .next (if !s.barsOpen || !s.hostReaches pa n || s.hostWaits pa n access then s
    else if access.atomic then s.hostExclusive pa n access.data else s.hostAccess pa n access.data)

end Sys2Proof.Machine
end

