-- ==== Sys2Proof/Machine/Keccak.lean ====
section
/-! DEFINITION. SHAKE256 and SHA3-512, which R33 and R34 name (PRESUMED: FIPS 202; log entry 8). -/
namespace Sys2Proof.Machine

/-- The lanes of the Keccak state: lane (x, y) at index x + 5 y. -/
abbrev Lanes := List (BitVec 64)

/-- A lane, its coordinates taken modulo 5. -/
def laneAt (a : Lanes) (x y : Nat) : BitVec 64 := a.getD (x % 5 + 5 * (y % 5)) 0

/-- Lanes from a function of their coordinates. -/
def lanesOf (f : Nat → Nat → BitVec 64) : Lanes := (List.range 25).map (fun i => f (i % 5) (i / 5))

/-- The rotation of each lane in step ρ. -/
def rhoOffsets : List Nat := [0, 1, 62, 28, 27, 36, 44, 6, 55, 20, 3, 10, 43, 25, 39, 41, 45, 15, 21, 8, 18, 2, 61, 56, 14]

/-- The constants of step ι, one for each round. -/
def roundConstants : List (BitVec 64) :=
  [0x0000000000000001, 0x0000000000008082, 0x800000000000808A, 0x8000000080008000, 0x000000000000808B, 0x0000000080000001,
   0x8000000080008081, 0x8000000000008009, 0x000000000000008A, 0x0000000000000088, 0x0000000080008009, 0x000000008000000A]
  ++ [0x000000008000808B, 0x800000000000008B, 0x8000000000008089, 0x8000000000008003, 0x8000000000008002, 0x8000000000000080,
      0x000000000000800A, 0x800000008000000A, 0x8000000080008081, 0x8000000000008080, 0x0000000080000001, 0x8000000080008008]

/-- Step θ. -/
def keccakTheta (a : Lanes) : Lanes :=
  let c := fun x => laneAt a x 0 ^^^ laneAt a x 1 ^^^ laneAt a x 2 ^^^ laneAt a x 3 ^^^ laneAt a x 4
  let d := (List.range 5).map (fun x => c (x + 4) ^^^ (c (x + 1)).rotateLeft 1)
  lanesOf (fun x y => laneAt a x y ^^^ d.getD x 0)

/-- Steps ρ and π. -/
def keccakRhoPi (a : Lanes) : Lanes :=
  lanesOf (fun x y => (laneAt a (x + 3 * y) x).rotateLeft (rhoOffsets.getD ((x + 3 * y) % 5 + 5 * x) 0))

/-- Step χ. -/
def keccakChi (a : Lanes) : Lanes := lanesOf (fun x y => laneAt a x y ^^^ (~~~laneAt a (x + 1) y &&& laneAt a (x + 2) y))

/-- One round with its constant. -/
def keccakRound (a : Lanes) (rc : BitVec 64) : Lanes :=
  match keccakChi (keccakRhoPi (keccakTheta a)) with
  | [] => []
  | l :: r => (l ^^^ rc) :: r

/-- The permutation of 24 rounds. -/
def keccakF (a : Lanes) : Lanes := roundConstants.foldl keccakRound a

/-- The lanes of the bytes of a block. -/
def blockLanes (b : List Byte) : Lanes := (List.range 25).map (fun i => BitVec.ofNat 64 (leNat ((b.drop (8 * i)).take 8)))

/-- Absorbs a padded message, block by block; `n` blocks of `rate` bytes. -/
def keccakAbsorb (rate : Nat) : (n : Nat) → List Byte → Lanes → Lanes
  | 0, _, a => a
  | n + 1, b, a => keccakAbsorb rate n (b.drop rate) (keccakF (List.zipWith (· ^^^ ·) a (blockLanes (b.take rate))))

/-- Squeezes `n` blocks. -/
def keccakSqueeze (rate : Nat) : (n : Nat) → Lanes → List Byte
  | 0, _ => []
  | n + 1, a => (a.flatMap (fun l => natBytes 8 l.toNat)).take rate ++ keccakSqueeze rate n (keccakF a)

/-- A message padded to whole blocks: a suffix byte, zeros, and the last bit set. -/
def keccakPad (rate : Nat) (suffix : Byte) (m : List Byte) : List Byte :=
  let k := rate - m.length % rate
  m ++ (if k = 1 then [suffix ||| 0x80] else suffix :: List.replicate (k - 2) 0 ++ [0x80])

/-- The sponge with a rate, a suffix and an output length, in bytes. -/
def sponge (rate : Nat) (suffix : Byte) (m : List Byte) (len : Nat) : List Byte :=
  let b := keccakPad rate suffix m
  (keccakSqueeze rate (len / rate + 1) (keccakAbsorb rate (b.length / rate) b (List.replicate 25 0))).take len

/-- SHAKE256 with an output of `len` bytes. -/
def shake256 (m : List Byte) (len : Nat) : List Byte := sponge 136 0x1F m len

/-- SHA3-512. -/
def sha3_512 (m : List Byte) : List Byte := sponge 72 0x06 m 64

end Sys2Proof.Machine
end

