-- ==== Sys2Proof/Machine/Ed448.lean ====
section
/-! DEFINITION. Ed448 and Ed448ph, which R33 and R34 name (PRESUMED: RFC 8032; log entry 8). -/
namespace Sys2Proof.Machine

/-! ### The field -/

/-- The prime of the field. -/
def edP : Nat := 2 ^ 448 - 2 ^ 224 - 1

/-- The order of the base point. -/
def edL : Nat := 2 ^ 446 - 13818066809895115352007386748515426880336692474882178609894547503885

/-- The curve constant d = -39081. -/
def edD : Nat := edP - 39081

/-- A difference in the field. -/
def edSub (a b : Nat) : Nat := (a + (edP - b % edP)) % edP

/-- b^e in the field; the exponent has at most `fuel` bits. -/
def edPow (b : Nat) : (fuel e : Nat) → Nat
  | 0, _ => 1
  | fuel + 1, e =>
    let h := edPow b fuel (e / 2)
    if e % 2 = 1 then h * h % edP * b % edP else h * h % edP

/-! ### Points, in projective coordinates -/

/-- A point X/Z, Y/Z. -/
structure EdPoint where
  x : Nat
  y : Nat
  z : Nat
  deriving DecidableEq, Repr

/-- The neutral point. -/
def EdPoint.zero : EdPoint := ⟨0, 1, 1⟩

/-- The base point. -/
def EdPoint.base : EdPoint :=
  ⟨0x4F1970C66BED0DED221D15A622BF36DA9E146570470F1767EA6DE324A3D3A46412AE1AF72AB66511433B80E18B00938E2626A82BC70CC05E,
   0x693F46716EB6BC248876203756C9C7624BEA73736CA3984087789C1E05A0C2D73AD3FF1CE67C39C4FDBD132C4ED7C8AD9808795BF230FA14, 1⟩

/-- The sum of two points. -/
def EdPoint.add (p q : EdPoint) : EdPoint :=
  let a := p.z * q.z % edP
  let b := a * a % edP
  let c := p.x * q.x % edP
  let d := p.y * q.y % edP
  let e := edD * (c * d % edP) % edP
  let f := edSub b e
  let g := (b + e) % edP
  let h := (p.x + p.y) * (q.x + q.y) % edP
  ⟨a * f % edP * edSub h (c + d) % edP, a * g % edP * edSub d c % edP, f * g % edP⟩

/-- A multiple of a point; the factor has at most `fuel` bits. -/
def EdPoint.times (p : EdPoint) : (fuel k : Nat) → EdPoint
  | 0, _ => .zero
  | fuel + 1, k =>
    let h := p.times fuel (k / 2)
    if k % 2 = 1 then (h.add h).add p else h.add h

/-- Two points are equal. -/
def EdPoint.same (p q : EdPoint) : Bool :=
  decide (p.x * q.z % edP = q.x * p.z % edP) && decide (p.y * q.z % edP = q.y * p.z % edP)

/-- A point as 57 bytes: y, and the lowest bit of x in the highest bit. -/
def EdPoint.encode (p : EdPoint) : List Byte :=
  let i := edPow p.z 448 (edP - 2)
  natBytes 57 (p.y * i % edP + p.x * i % edP % 2 * 2 ^ 455)

/-- The point of 57 bytes, if they encode one. -/
def EdPoint.decode (b : List Byte) : Option EdPoint :=
  let n := leNat b
  let y := n % 2 ^ 455
  if b.length ≠ 57 ∨ edP ≤ y then none else
  let u := edSub (y * y % edP) 1
  let v := edSub (edD * (y * y % edP)) 1
  let w := u * u % edP * u % edP * v % edP
  let x := w * edPow (w * (u * u % edP) % edP * (v * v % edP)) 448 ((edP - 3) / 4) % edP
  if v * (x * x % edP) % edP ≠ u ∨ (x = 0 ∧ n / 2 ^ 455 = 1) then none
  else some ⟨if x % 2 = n / 2 ^ 455 then x else edP - x, y, 1⟩

/-! ### Signatures -/

/-- The prefix dom4 with an empty context; `ph` for the prehashed form. -/
def edDom (ph : Bool) : List Byte := [0x53, 0x69, 0x67, 0x45, 0x64, 0x34, 0x34, 0x38, if ph then 1 else 0, 0]

/-- The message as it is signed: prehashed to 64 bytes, or as it is. -/
def edMessage (ph : Bool) (m : List Byte) : List Byte := if ph then shake256 m 64 else m

/-- The secret scalar and the prefix of a secret key of 57 bytes. -/
def edSecret (key : List Byte) : Nat × List Byte :=
  let h := shake256 key 114
  let n := leNat (h.take 56)
  (n % 2 ^ 447 / 4 * 4 + 2 ^ 447, h.drop 57)

/-- The public key of a secret key. -/
def ed448Public (key : List Byte) : List Byte := (EdPoint.base.times 448 (edSecret key).1).encode

/-- The signature of a message by a secret key. -/
def ed448Sign (ph : Bool) (key message : List Byte) : List Byte :=
  let m := edMessage ph message
  let s := edSecret key
  let r := leNat (shake256 (edDom ph ++ s.2 ++ m) 114) % edL
  let rb := (EdPoint.base.times 448 r).encode
  let k := leNat (shake256 (edDom ph ++ rb ++ ed448Public key ++ m) 114) % edL
  rb ++ natBytes 57 ((r + k * s.1) % edL)

/-- A signature of a message verifies under a public key; the equation is taken with the cofactor. -/
def ed448Verify (ph : Bool) (key message signature : List Byte) : Bool :=
  match EdPoint.decode key, EdPoint.decode (signature.take 57) with
  | some a, some r =>
    let s := leNat (signature.drop 57)
    let k := leNat (shake256 (edDom ph ++ signature.take 57 ++ key ++ edMessage ph message) 114) % edL
    decide (signature.length = 114) && decide (s < edL)
      && (EdPoint.base.times 450 (4 * s)).same ((r.times 3 4).add (a.times 450 (4 * k)))
  | _, _ => false

end Sys2Proof.Machine
end

