-- ==== Sys2Proof/Machine/Boot.lean ====
section
/-! DEFINITION. Start from reset, firmware authentication, identity, the recovery mailbox, power, and memory errors (R5, R26, R28 to
R35): opcode-table rows FUNDAMENTAL_RESET to CORE_FREQUENCY_CHANGE, PATROL_SCRUB, and MAILBOX_ERASE to
MAILBOX_COMMAND_DONE. -/
namespace Sys2Proof.Machine

/-! ### Firmware images (R33, R35) -/

/-- The bytes of a slot. -/
def slotBytes : Nat := 67108864

/-- Bytes of a flash slot; they are held complemented (State.flash). -/
def Flash.read (f : Flash) (slot a n : Nat) : List Byte := (Memory.read (f.slots.getD slot []) a n).map (fun b => ~~~b)

/-- A field of the manifest. -/
def Flash.field (f : Flash) (slot a n : Nat) : Nat := leNat (f.read slot a n)

/-- The checks of R33 on the image of a slot, in order: the fail code, 0 for none. -/
def Flash.check (f : Flash) (slot : Nat) : Nat :=
  let len := f.field slot 12 4
  if f.field slot 0 4 ≠ 0x4B4D4657 then 0x01
  else if f.field slot 251 5 ≠ 0 then 0x08
  else if len % 4096 ≠ 0 ∨ slotBytes < 256 + len + 114 then 0x07
  else if shake256 f.rootKey 64 ≠ f.rootDigest then 0x06
  else if !ed448Verify true f.rootKey (f.read slot 16 57) (f.read slot 73 114) then 0x05
  else if shake256 (f.read slot 256 len) 64 ≠ f.read slot 187 64 then 0x02
  else if f.field slot 8 4 < f.minSecver then 0x04
  else if !ed448Verify true (f.read slot 16 57) (f.read slot 0 251) (f.read slot (256 + len) 114) then 0x03
  else 0

/-! ### Power and reset (R5, R28, R31) -/

/-- Everything lost or reset, with what is not the device's: the flash and fuses, and the model's own agenda, record and counter
(R5, R31). Host memory, which is none of its stores, reads as zero again too (DESIGN CHOICE: log entry 90). -/
def State.restart (s : State) (powered : Bool) : State :=
  { State.reset with agenda := s.agenda, cur := s.cur, stamp := s.stamp, out := s.out, flash := s.flash
                     boot := { State.reset.boot with powered := powered } }

/-- FUNDAMENTAL_RESET: stage 0x0, every store in its reset state (R5, R31). -/
def execFundamentalReset (s : State) : Host.Outcome State Fault Refusal := .next (s.restart true)

/-- POWER_REMOVAL: the device retains nothing (R5). -/
def execPowerRemoval (s : State) : Host.Outcome State Fault Refusal := .next (s.restart false)

/-- THERMAL_SHUTDOWN: as power removal, and the host sees the link go down (R28). -/
def execThermalShutdown (s : State) : Host.Outcome State Fault Refusal :=
  .next (if s.boot.powered then (s.restart false).send .linkDown else s)

/-- HOST_LINK_UP: the PCI Express link, which trains from stage 0x0 on, is up (R31). -/
def execHostLinkUp (s : State) : Host.Outcome State Fault Refusal :=
  .next (if s.boot.powered then { s with boot := { s.boot with linkUp := true } } else s)

/-- A boot stage begins, with a fail code where the one before failed (R31, R32). -/
def State.stageTo (s : State) (stage : BitVec 4) (fail : Nat) : State :=
  { s with boot := { s.boot with stage := stage, fail := if fail = 0 then s.boot.fail else BitVec.ofNat 8 fail } }

/-- An image of a slot is accepted: the slot, and the digest of its manifest as the measurement (R32, R34). -/
def State.acceptImage (s : State) (slot : Nat) : State :=
  { s with boot := { s.boot with slot := BitVec.ofNat 4 slot, measure := shake256 (s.flash.read slot 0 256) 64 } }

/-- HBM4 and LPDDR read as zero after stage 0x4 (R31). -/
def State.zeroMemory (s : State) : State :=
  { s with mem := Memory.clear s.mem 0 0x70000000000, poison := s.poison.filter (fun k => decide (0x70000000000 ≤ k * 32)) }

/-- A fail code of stage 0x4 (R32). -/
def trainCode (c : Byte) : Bool := (decide (0x10 ≤ c.toNat) && decide (c.toNat ≤ 0x1F)) || decide (c.toNat = 0x20)

/-- BOOT_STAGE_ADVANCE: the work of the stage is done and the next stage begins (R31 to R34). Stage 0x4 can fail with a code of
its own. -/
def execBootStageAdvance (trainFail : Option Byte) (s : State) : Host.Outcome State Fault Refusal :=
  .next (if !s.boot.powered then s else
    match s.boot.stage.toNat, trainFail with
    | 0, none => s.stageTo 1 0
    | 1, none => s.stageTo 2 0
    | 2, none => if s.flash.check 0 = 0 then (s.acceptImage 0).stageTo 4 0 else s.stageTo 3 (s.flash.check 0)
    | 3, none => if s.flash.check 1 = 0 then (s.acceptImage 1).stageTo 4 0 else s.stageTo 0xF (s.flash.check 1)
    | 4, none => s.zeroMemory.stageTo 5 0
    | 4, some c => if trainCode c then s.stageTo 0xF c.toNat else s
    | 5, none => let r := s.stageTo 6 0
                 { r with boot := { r.boot with ready := true } }
    | _, _ => s)

/-- The algorithms the device offers: EdDSA Ed448, and SHA3-512 as base hash and as measurement hash (R34; PRESUMED: bits 11, 5 and 6 of
SPDM 1.3, log entry 8). -/
def spdmOffered : SpdmAlgorithms := { asym := 2 ^ 11, baseHash := 2 ^ 5, measurementHash := 2 ^ 6 }

/-- The device's answer to an SPDM request, by the request code in its second byte (R34; PRESUMED: log entry 8). A measurement response
carries the digest of the accepted manifest unhashed, and is signed with the identity key over a SHA3-512 hash of the transcript. -/
def State.spdmAnswer (s : State) (req : List Byte) : SpdmAnswer :=
  if req.getD 1 0 = 0xE3 then .algorithms spdmOffered
  else if req.getD 1 0 = 0xE0 then
    .measurement s.boot.measure
      (ed448Sign false (Config.identityKey s.flash.dieIds s.flash.helper) (sha3_512 (Config.spdmTranscript s.boot.measure req)))
  else .other (Config.spdmAnswer req)

/-- SPDM_REQUEST: answered from the first configuration access on (R31, R34). -/
def execSpdmRequest (req : List Byte) (s : State) : Host.Outcome State Fault Refusal :=
  .next (if s.boot.linkUp then s.send (.spdm (s.spdmAnswer req)) else s)

/-- CORE_FREQUENCY_CHANGE: 1.2 GHz to 3.6 GHz in steps of 100 MHz (R28, R29); no value changes (R30). -/
def execCoreFrequencyChange (core steps : Nat) (s : State) : Host.Outcome State Fault Refusal :=
  .next (if 12 ≤ steps ∧ steps ≤ 36 then s.modCore core (fun k => { k with freq := steps }) else s)

/-! ### Memory errors (R26) -/

/-- A physical address that R26 protects. -/
def isProtected (pa : Nat) : Bool :=
  match physPart pa with
  | .hbm => true
  | .second => true
  | .chip => true
  | _ => false

/-- PATROL_SCRUB: a 32-byte sector is found clean, corrected and counted, or poisoned and counted (R26, R80). The same event stands for
errors that accesses find. -/
def execPatrolScrub (granule : Nat) (found : ScrubResult) (s : State) : Host.Outcome State Fault Refusal :=
  .next (if !isProtected (granule * 32) then s else
    match found with
    | .clean => s
    | .correctable => s.count 0x1000
    | .uncorrectable => if granule ∈ s.poison then s else ({ s with poison := granule :: s.poison } : State).count 0x1008)

/-! ### The recovery mailbox (R35) -/

/-- A command of a master: refused with result 0x01, discarded while another runs, or accepted with what it does. -/
def mailCommand (master : Nat) (f : State → State) (s : State) : Host.Outcome State Fault Refusal :=
  .next (if !s.masterReaches master then s else if !s.served 0x800 then s.send .unsupported
    else if s.mailbox.busy then s
    else if !s.mailMaster master then { s with mailbox := { s.mailbox with result := 1 } }
    else f s)

/-- The command runs, and will finish with a code: a result, or for a verify the fail code. -/
def State.mailRun (s : State) (op : MailOp) (code : Nat) : State :=
  { s with mailbox := { s.mailbox with busy := true, done := false, running := some (op, code) } }

/-- MAILBOX_ERASE (R35): erased flash lists nothing. -/
def execMailboxErase (master slot : Nat) (s : State) : Host.Outcome State Fault Refusal :=
  mailCommand master (fun s =>
    ({ s with flash := { s.flash with slots := s.flash.slots.set slot [], written := s.flash.written.filter (fun w => decide (w.1 ≠ slot)) } } :
      State).mailRun .erase 0) s

/-- MAILBOX_WRITE (R35): a bad offset gives 0x02, a chunk already written 0x03. -/
def execMailboxWrite (master slot : Nat) (s : State) : Host.Outcome State Fault Refusal :=
  mailCommand master (fun s =>
    let off := s.mailbox.rmoff.toNat
    if slotBytes ≤ off ∨ off % 1024 ≠ 0 then s.mailRun .write 2
    else if s.flash.written.contains (slot, off / 1024) then s.mailRun .write 3
    else
      let bytes := (Memory.read s.mailbox.rmbuf 0 1024).map (fun b => ~~~b)
      let slots := s.flash.slots.set slot (Memory.write (s.flash.slots.getD slot []) off bytes)
      ({ s with flash := { s.flash with slots := slots, written := s.flash.written ++ [(slot, off / 1024)] } } : State).mailRun .write 0) s

/-- MAILBOX_VERIFY (R33, R35). -/
def execMailboxVerify (master slot : Nat) (s : State) : Host.Outcome State Fault Refusal :=
  mailCommand master (fun s => s.mailRun .verify (s.flash.check slot)) s

/-- MAILBOX_RESTART: in stage 0xF only, boot runs again from stage 0x1 (R35). -/
def execMailboxRestart (master : Nat) (s : State) : Host.Outcome State Fault Refusal :=
  mailCommand master (fun s =>
    if s.boot.stage ≠ 0xF then { s with mailbox := { s.mailbox with result := 1 } }
    else ({ s with boot := { s.boot with slot := 0xF } } : State).stageTo 1 0 |>.mailRun .restart 0) s

/-- MAILBOX_COMMAND_DONE: busy clears, and done is set with the result; a flash error is one of an erase or a write that found no other
fault, and a verify also writes vfail (R35). -/
def execMailboxCommandDone (flashError : Bool) (s : State) : Host.Outcome State Fault Refusal :=
  .next (match s.mailbox.running with
    | none => s
    | some (op, code) =>
      let m := { s.mailbox with busy := false, done := true, running := none }
      match op with
      | .verify => { s with mailbox := { m with vfail := BitVec.ofNat 8 code, result := if code = 0 then 0 else 4 } }
      | .restart => { s with mailbox := { m with result := 0 } }
      | _ => { s with mailbox := { m with result := if code = 0 ∧ flashError = true then 3 else BitVec.ofNat 8 code } })

end Sys2Proof.Machine
end

