-- ==== Sys2Proof/Machine/Integer.lean ====
section
/-! DEFINITION. Integer instructions, majors 0x01 to 0x0B (R269 to R274). -/
namespace Sys2Proof.Machine

/-! ### Shapes -/

/-- Two 32-bit sources, one 32-bit destination; b may be an OPI immediate (R266). -/
def rrr (f : Word → Word → Word) (d a b : RegField) : Issue Unit := do
  let x ← src a
  let y ← srcB b
  let l ← dst d
  wr l (f x y)

/-- One 32-bit source, one 32-bit destination. -/
def rr (f : Word → Word) (d a : RegField) : Issue Unit := do
  let x ← src a
  let l ← dst d
  wr l (f x)

/-- Two 32-bit sources and the old destination or the ADD addend; `add` says whether the form takes one (R253, R266). -/
def rrre (f : Word → Word → Word → Word) (d a b : RegField) : Issue Unit := do
  let x ← src a
  let y ← srcB b
  let c ← get
  match c.hs.add with
  | some fe =>
    let e ← src fe
    let l ← dst d
    wr l (f x y e)
  | none =>
    let l ← dst d
    let e ← rdDst l
    wr l (f x y e)

/-- A 32-bit source and a signed immediate of 11 bits (R249, R274). -/
def rri (f : Word → Word → Word) (d a : RegField) (i : BitVec 11) : Issue Unit := do
  let x ← src a
  let c ← get
  let l ← dst d
  wr l (f x (BitVec.ofInt 32 (c.hs.immS i.toNat 11)))

/-- A 32-bit source and an unsigned immediate of `k` bits (R249, R274). -/
def rrn (f : Word → Word → Word) (k : Nat) (d a : RegField) (i : Nat) : Issue Unit := do
  let x ← src a
  let c ← get
  let l ← dst d
  wr l (f x (BitVec.ofNat 32 (c.hs.immU i k)))

/-- An amount of the 0x09 family is unsigned and unbounded, so 32 or more is kept apart from its low bits (R245, R274). -/
def shiftAmount (n : Nat) : Word := if 32 ≤ n then 32 else BitVec.ofNat 32 n

/-- A 32-bit source and the amount of the 0x09 family (R274). -/
def rrs (f : Word → Word → Word) (d a : RegField) (n : BitVec 9) : Issue Unit := do
  let x ← src a
  let c ← get
  let l ← dst d
  wr l (f x (shiftAmount (c.hs.immU n.toNat 9)))

/-! ### Results (R269 to R271) -/

/-- The high half of the signed product. -/
def mulhS (a b : Word) : Word := BitVec.ofInt 32 (a.toInt * b.toInt / 2 ^ 32)
/-- The high half of the unsigned product. -/
def mulhU (a b : Word) : Word := BitVec.ofNat 32 (a.toNat * b.toNat / 2 ^ 32)
/-- The lesser, signed. -/
def minS (a b : Word) : Word := if a.toInt ≤ b.toInt then a else b
/-- The greater, signed. -/
def maxS (a b : Word) : Word := if b.toInt ≤ a.toInt then a else b
/-- The lesser, unsigned. -/
def minU (a b : Word) : Word := if a.toNat ≤ b.toNat then a else b
/-- The greater, unsigned. -/
def maxU (a b : Word) : Word := if b.toNat ≤ a.toNat then a else b
/-- a and not b. -/
def andNot (a b : Word) : Word := a &&& ~~~b
/-- Shift left; 0 for an amount of 32 or more (R245). -/
def shlW (a b : Word) : Word := if 32 ≤ b.toNat then 0 else a <<< b.toNat
/-- Shift right; 0 for an amount of 32 or more (R245). -/
def shrW (a b : Word) : Word := if 32 ≤ b.toNat then 0 else a >>> b.toNat
/-- Arithmetic shift right; the sign for an amount of 32 or more (R245). -/
def sarW (a b : Word) : Word := if 32 ≤ b.toNat then (if a.msb then -1 else 0) else a.sshiftRight b.toNat
/-- Rotation left by b mod 32. -/
def rotW (a b : Word) : Word := a.rotateLeft (b.toNat % 32)
/-- The low half of a·b + e. -/
def madW (a b e : Word) : Word := a * b + e
/-- The number of one bits. -/
def popcount (a : Word) : Nat := ((List.range 32).filter (fun i => a.getLsbD i)).length
/-- The number of leading zero bits; 32 for 0. -/
def clzW (a : Word) : Word := BitVec.ofNat 32 (((List.range 32).find? (fun i => a.getLsbD (31 - i))).getD 32)
/-- The number of trailing zero bits; 32 for 0. -/
def ctzW (a : Word) : Word := BitVec.ofNat 32 (((List.range 32).find? (fun i => a.getLsbD i)).getD 32)
/-- The number of one bits, as a word. -/
def popcW (a : Word) : Word := BitVec.ofNat 32 (popcount a)
/-- Bit i moves to bit 31 − i. -/
def brevW (a : Word) : Word := a.reverse
/-- The position of a field (R271). -/
def fieldPos (b : Word) : Nat := (b.extractLsb' 0 8).toNat
/-- The length of a field, at most 32 (R271). -/
def fieldLen (b : Word) : Nat := min (b.extractLsb' 8 8).toNat 32
/-- Signed field extract; bits above 31 read as the sign (R271). -/
def bfxS (a b : Word) : Word :=
  if fieldLen b = 0 then 0
  else BitVec.ofInt 32 (sextN (truncI (a.toInt / 2 ^ fieldPos b) (fieldLen b)) (fieldLen b))
/-- Unsigned field extract (R271). -/
def bfxU (a b : Word) : Word := BitVec.ofNat 32 (a.toNat / 2 ^ fieldPos b % 2 ^ fieldLen b)
/-- Field insert (R271). -/
def bfiW (a b e : Word) : Word :=
  let m : Word := BitVec.ofNat 32 ((2 ^ fieldLen b - 1) * 2 ^ fieldPos b)
  (e &&& ~~~m) ||| (BitVec.ofNat 32 (a.toNat * 2 ^ fieldPos b) &&& m)
/-- The absolute difference, unsigned. -/
def absdW (a b : Word) : Word := if a.toNat ≤ b.toNat then b - a else a - b
/-- Sign extension of a byte. -/
def sext8W (a : Word) : Word := (a.extractLsb' 0 8).signExtend 32
/-- Sign extension of a half. -/
def sext16W (a : Word) : Word := (a.extractLsb' 0 16).signExtend 32
/-- Zero extension of a byte. -/
def zext8W (a : Word) : Word := (a.extractLsb' 0 8).setWidth 32
/-- Zero extension of a half. -/
def zext16W (a : Word) : Word := (a.extractLsb' 0 16).setWidth 32
/-- The whole signed product. -/
def mulwS (a b : Word) : Dword := a.signExtend 64 * b.signExtend 64
/-- The whole unsigned product. -/
def mulwU (a b : Word) : Dword := a.setWidth 64 * b.setWidth 64

/-- Two 32-bit sources, a pair destination. -/
def rrrP (f : Word → Word → Dword) (d a b : RegField) : Issue Unit := do
  let x ← src a
  let y ← srcB b
  let l ← dstP d
  wrp l (f x y)

/-- A compare that writes a condition bit (R272). -/
def compare (f : Word → Word → Bool) (c : BitVec 3) (a b : RegField) : Issue Unit := do
  let x ← src a
  let y ← src b
  setCond c (f x y)

/-- A compare with a signed immediate (R272). -/
def compareI (f : Word → Word → Bool) (c : BitVec 3) (a : RegField) (i : BitVec 11) : Issue Unit := do
  let x ← src a
  let h ← get
  setCond c (f x (BitVec.ofInt 32 (h.hs.immS i.toNat 11)))

/-- A choice between two sources by a condition bit (R273). -/
def choose (s : BitVec 1) (c : BitVec 3) (d a b : RegField) : Issue Unit := do
  let x ← src a
  let y ← src b
  let l ← dst d
  let h ← get
  wr l (if h.th.cond c = decide (s = 1) then x else y)

/-- R269 -/
def bodyAdd (d : BitVec 7) (a : BitVec 7) (b : BitVec 7) : Issue Unit := rrr (· + ·) d a b
/-- R269 -/
def execAdd (w : BitVec 1) (d : BitVec 7) (a : BitVec 7) (b : BitVec 7) (st : State) : Host.Outcome State Fault Refusal := plain (Enc.add w d a b) .opiOnly (bodyAdd d a b) st

/-- R269 -/
def bodySub (d : BitVec 7) (a : BitVec 7) (b : BitVec 7) : Issue Unit := rrr (· - ·) d a b
/-- R269 -/
def execSub (w : BitVec 1) (d : BitVec 7) (a : BitVec 7) (b : BitVec 7) (st : State) : Host.Outcome State Fault Refusal := plain (Enc.sub w d a b) .opiOnly (bodySub d a b) st

/-- R269 -/
def bodyMul (d : BitVec 7) (a : BitVec 7) (b : BitVec 7) : Issue Unit := rrr (· * ·) d a b
/-- R269 -/
def execMul (w : BitVec 1) (d : BitVec 7) (a : BitVec 7) (b : BitVec 7) (st : State) : Host.Outcome State Fault Refusal := plain (Enc.mul w d a b) .opiOnly (bodyMul d a b) st

/-- R269 -/
def bodyMulhI (d : BitVec 7) (a : BitVec 7) (b : BitVec 7) : Issue Unit := rrr mulhS d a b
/-- R269 -/
def execMulhI (w : BitVec 1) (d : BitVec 7) (a : BitVec 7) (b : BitVec 7) (st : State) : Host.Outcome State Fault Refusal := plain (Enc.mulhI w d a b) .opiOnly (bodyMulhI d a b) st

/-- R269 -/
def bodyMulhN (d : BitVec 7) (a : BitVec 7) (b : BitVec 7) : Issue Unit := rrr mulhU d a b
/-- R269 -/
def execMulhN (w : BitVec 1) (d : BitVec 7) (a : BitVec 7) (b : BitVec 7) (st : State) : Host.Outcome State Fault Refusal := plain (Enc.mulhN w d a b) .opiOnly (bodyMulhN d a b) st

/-- R269 -/
def bodyMinI (d : BitVec 7) (a : BitVec 7) (b : BitVec 7) : Issue Unit := rrr minS d a b
/-- R269 -/
def execMinI (w : BitVec 1) (d : BitVec 7) (a : BitVec 7) (b : BitVec 7) (st : State) : Host.Outcome State Fault Refusal := plain (Enc.minI w d a b) .opiOnly (bodyMinI d a b) st

/-- R269 -/
def bodyMaxI (d : BitVec 7) (a : BitVec 7) (b : BitVec 7) : Issue Unit := rrr maxS d a b
/-- R269 -/
def execMaxI (w : BitVec 1) (d : BitVec 7) (a : BitVec 7) (b : BitVec 7) (st : State) : Host.Outcome State Fault Refusal := plain (Enc.maxI w d a b) .opiOnly (bodyMaxI d a b) st

/-- R269 -/
def bodyMinN (d : BitVec 7) (a : BitVec 7) (b : BitVec 7) : Issue Unit := rrr minU d a b
/-- R269 -/
def execMinN (w : BitVec 1) (d : BitVec 7) (a : BitVec 7) (b : BitVec 7) (st : State) : Host.Outcome State Fault Refusal := plain (Enc.minN w d a b) .opiOnly (bodyMinN d a b) st

/-- R269 -/
def bodyMaxN (d : BitVec 7) (a : BitVec 7) (b : BitVec 7) : Issue Unit := rrr maxU d a b
/-- R269 -/
def execMaxN (w : BitVec 1) (d : BitVec 7) (a : BitVec 7) (b : BitVec 7) (st : State) : Host.Outcome State Fault Refusal := plain (Enc.maxN w d a b) .opiOnly (bodyMaxN d a b) st

/-- R269 -/
def bodyAnd (d : BitVec 7) (a : BitVec 7) (b : BitVec 7) : Issue Unit := rrr (· &&& ·) d a b
/-- R269 -/
def execAnd (w : BitVec 1) (d : BitVec 7) (a : BitVec 7) (b : BitVec 7) (st : State) : Host.Outcome State Fault Refusal := plain (Enc.and w d a b) .opiOnly (bodyAnd d a b) st

/-- R269 -/
def bodyOr (d : BitVec 7) (a : BitVec 7) (b : BitVec 7) : Issue Unit := rrr (· ||| ·) d a b
/-- R269 -/
def execOr (w : BitVec 1) (d : BitVec 7) (a : BitVec 7) (b : BitVec 7) (st : State) : Host.Outcome State Fault Refusal := plain (Enc.or w d a b) .opiOnly (bodyOr d a b) st

/-- R269 -/
def bodyXor (d : BitVec 7) (a : BitVec 7) (b : BitVec 7) : Issue Unit := rrr (· ^^^ ·) d a b
/-- R269 -/
def execXor (w : BitVec 1) (d : BitVec 7) (a : BitVec 7) (b : BitVec 7) (st : State) : Host.Outcome State Fault Refusal := plain (Enc.xor w d a b) .opiOnly (bodyXor d a b) st

/-- R269 -/
def bodyAndn (d : BitVec 7) (a : BitVec 7) (b : BitVec 7) : Issue Unit := rrr andNot d a b
/-- R269 -/
def execAndn (w : BitVec 1) (d : BitVec 7) (a : BitVec 7) (b : BitVec 7) (st : State) : Host.Outcome State Fault Refusal := plain (Enc.andn w d a b) .opiOnly (bodyAndn d a b) st

/-- R269 -/
def bodyShl (d : BitVec 7) (a : BitVec 7) (b : BitVec 7) : Issue Unit := rrr shlW d a b
/-- R269 -/
def execShl (w : BitVec 1) (d : BitVec 7) (a : BitVec 7) (b : BitVec 7) (st : State) : Host.Outcome State Fault Refusal := plain (Enc.shl w d a b) .opiOnly (bodyShl d a b) st

/-- R269 -/
def bodyShr (d : BitVec 7) (a : BitVec 7) (b : BitVec 7) : Issue Unit := rrr shrW d a b
/-- R269 -/
def execShr (w : BitVec 1) (d : BitVec 7) (a : BitVec 7) (b : BitVec 7) (st : State) : Host.Outcome State Fault Refusal := plain (Enc.shr w d a b) .opiOnly (bodyShr d a b) st

/-- R269 -/
def bodySar (d : BitVec 7) (a : BitVec 7) (b : BitVec 7) : Issue Unit := rrr sarW d a b
/-- R269 -/
def execSar (w : BitVec 1) (d : BitVec 7) (a : BitVec 7) (b : BitVec 7) (st : State) : Host.Outcome State Fault Refusal := plain (Enc.sar w d a b) .opiOnly (bodySar d a b) st

/-- R270 -/
def bodyRot (d : BitVec 7) (a : BitVec 7) (b : BitVec 7) : Issue Unit := rrr rotW d a b
/-- R270 -/
def execRot (w : BitVec 1) (d : BitVec 7) (a : BitVec 7) (b : BitVec 7) (st : State) : Host.Outcome State Fault Refusal := plain (Enc.rot w d a b) .opiOnly (bodyRot d a b) st

/-- R270 -/
def bodyMad (d : BitVec 7) (a : BitVec 7) (b : BitVec 7) : Issue Unit := rrre madW d a b
/-- R270 -/
def execMad (w : BitVec 1) (d : BitVec 7) (a : BitVec 7) (b : BitVec 7) (st : State) : Host.Outcome State Fault Refusal := plain (Enc.mad w d a b) { Accepts.opiOnly with add := true } (bodyMad d a b) st

/-- R270 -/
def bodyClz (d : BitVec 7) (a : BitVec 7) : Issue Unit := rr clzW d a
/-- R270 -/
def execClz (w : BitVec 1) (d : BitVec 7) (a : BitVec 7) (st : State) : Host.Outcome State Fault Refusal := plain (Enc.clz w d a) .nothing (bodyClz d a) st

/-- R270 -/
def bodyCtz (d : BitVec 7) (a : BitVec 7) : Issue Unit := rr ctzW d a
/-- R270 -/
def execCtz (w : BitVec 1) (d : BitVec 7) (a : BitVec 7) (st : State) : Host.Outcome State Fault Refusal := plain (Enc.ctz w d a) .nothing (bodyCtz d a) st

/-- R270 -/
def bodyPopc (d : BitVec 7) (a : BitVec 7) : Issue Unit := rr popcW d a
/-- R270 -/
def execPopc (w : BitVec 1) (d : BitVec 7) (a : BitVec 7) (st : State) : Host.Outcome State Fault Refusal := plain (Enc.popc w d a) .nothing (bodyPopc d a) st

/-- R270 -/
def bodyBrev (d : BitVec 7) (a : BitVec 7) : Issue Unit := rr brevW d a
/-- R270 -/
def execBrev (w : BitVec 1) (d : BitVec 7) (a : BitVec 7) (st : State) : Host.Outcome State Fault Refusal := plain (Enc.brev w d a) .nothing (bodyBrev d a) st

/-- R271 -/
def bodyBfxI (d : BitVec 7) (a : BitVec 7) (b : BitVec 7) : Issue Unit := rrr bfxS d a b
/-- R271 -/
def execBfxI (w : BitVec 1) (d : BitVec 7) (a : BitVec 7) (b : BitVec 7) (st : State) : Host.Outcome State Fault Refusal := plain (Enc.bfxI w d a b) .opiOnly (bodyBfxI d a b) st

/-- R271 -/
def bodyBfxN (d : BitVec 7) (a : BitVec 7) (b : BitVec 7) : Issue Unit := rrr bfxU d a b
/-- R271 -/
def execBfxN (w : BitVec 1) (d : BitVec 7) (a : BitVec 7) (b : BitVec 7) (st : State) : Host.Outcome State Fault Refusal := plain (Enc.bfxN w d a b) .opiOnly (bodyBfxN d a b) st

/-- R271 -/
def bodyBfi (d : BitVec 7) (a : BitVec 7) (b : BitVec 7) : Issue Unit := rrre bfiW d a b
/-- R271 -/
def execBfi (w : BitVec 1) (d : BitVec 7) (a : BitVec 7) (b : BitVec 7) (st : State) : Host.Outcome State Fault Refusal := plain (Enc.bfi w d a b) .opiOnly (bodyBfi d a b) st

/-- R270 -/
def bodyAbsd (d : BitVec 7) (a : BitVec 7) (b : BitVec 7) : Issue Unit := rrr absdW d a b
/-- R270 -/
def execAbsd (w : BitVec 1) (d : BitVec 7) (a : BitVec 7) (b : BitVec 7) (st : State) : Host.Outcome State Fault Refusal := plain (Enc.absd w d a b) .opiOnly (bodyAbsd d a b) st

/-- R270 -/
def bodySext8 (d : BitVec 7) (a : BitVec 7) : Issue Unit := rr sext8W d a
/-- R270 -/
def execSext8 (w : BitVec 1) (d : BitVec 7) (a : BitVec 7) (st : State) : Host.Outcome State Fault Refusal := plain (Enc.sext8 w d a) .nothing (bodySext8 d a) st

/-- R270 -/
def bodySext16 (d : BitVec 7) (a : BitVec 7) : Issue Unit := rr sext16W d a
/-- R270 -/
def execSext16 (w : BitVec 1) (d : BitVec 7) (a : BitVec 7) (st : State) : Host.Outcome State Fault Refusal := plain (Enc.sext16 w d a) .nothing (bodySext16 d a) st

/-- R270 -/
def bodyZext8 (d : BitVec 7) (a : BitVec 7) : Issue Unit := rr zext8W d a
/-- R270 -/
def execZext8 (w : BitVec 1) (d : BitVec 7) (a : BitVec 7) (st : State) : Host.Outcome State Fault Refusal := plain (Enc.zext8 w d a) .nothing (bodyZext8 d a) st

/-- R270 -/
def bodyZext16 (d : BitVec 7) (a : BitVec 7) : Issue Unit := rr zext16W d a
/-- R270 -/
def execZext16 (w : BitVec 1) (d : BitVec 7) (a : BitVec 7) (st : State) : Host.Outcome State Fault Refusal := plain (Enc.zext16 w d a) .nothing (bodyZext16 d a) st

/-- R270 -/
def bodyMulwI (d : BitVec 7) (a : BitVec 7) (b : BitVec 7) : Issue Unit := rrrP mulwS d a b
/-- R270 -/
def execMulwI (w : BitVec 1) (d : BitVec 7) (a : BitVec 7) (b : BitVec 7) (st : State) : Host.Outcome State Fault Refusal := plain (Enc.mulwI w d a b) .opiOnly (bodyMulwI d a b) st

/-- R270 -/
def bodyMulwN (d : BitVec 7) (a : BitVec 7) (b : BitVec 7) : Issue Unit := rrrP mulwU d a b
/-- R270 -/
def execMulwN (w : BitVec 1) (d : BitVec 7) (a : BitVec 7) (b : BitVec 7) (st : State) : Host.Outcome State Fault Refusal := plain (Enc.mulwN w d a b) .opiOnly (bodyMulwN d a b) st

/-- R272 -/
def bodyCmp (k : BitVec 4) (c : BitVec 3) (a : BitVec 7) (b : BitVec 7) : Issue Unit := compare (intCond k) c a b
/-- R272 -/
def execCmp (w : BitVec 1) (k : BitVec 4) (c : BitVec 3) (a : BitVec 7) (b : BitVec 7) (st : State) : Host.Outcome State Fault Refusal := plain (Enc.cmp w k c a b) .nothing (bodyCmp k c a b) st

/-- R273 -/
def bodySel (s : BitVec 1) (c : BitVec 3) (d : BitVec 7) (a : BitVec 7) (b : BitVec 7) : Issue Unit := choose s c d a b
/-- R273 -/
def execSel (w : BitVec 1) (s : BitVec 1) (c : BitVec 3) (d : BitVec 7) (a : BitVec 7) (b : BitVec 7) (st : State) : Host.Outcome State Fault Refusal := plain (Enc.sel w s c d a b) .nothing (bodySel s c d a b) st

/-- R274 -/
def bodyAddi (d : BitVec 7) (a : BitVec 7) (i : BitVec 11) : Issue Unit := rri (· + ·) d a i
/-- R274 -/
def execAddi (w : BitVec 1) (d : BitVec 7) (a : BitVec 7) (i : BitVec 11) (st : State) : Host.Outcome State Fault Refusal := plain (Enc.addi w d a i) .immOnly (bodyAddi d a i) st

/-- R274 -/
def bodyAndi (d : BitVec 7) (a : BitVec 7) (i : BitVec 11) : Issue Unit := rrn (· &&& ·) 11 d a i.toNat
/-- R274 -/
def execAndi (w : BitVec 1) (d : BitVec 7) (a : BitVec 7) (i : BitVec 11) (st : State) : Host.Outcome State Fault Refusal := plain (Enc.andi w d a i) .immOnly (bodyAndi d a i) st

/-- R274 -/
def bodyOri (d : BitVec 7) (a : BitVec 7) (i : BitVec 11) : Issue Unit := rrn (· ||| ·) 11 d a i.toNat
/-- R274 -/
def execOri (w : BitVec 1) (d : BitVec 7) (a : BitVec 7) (i : BitVec 11) (st : State) : Host.Outcome State Fault Refusal := plain (Enc.ori w d a i) .immOnly (bodyOri d a i) st

/-- R274 -/
def bodyXori (d : BitVec 7) (a : BitVec 7) (i : BitVec 11) : Issue Unit := rrn (· ^^^ ·) 11 d a i.toNat
/-- R274 -/
def execXori (w : BitVec 1) (d : BitVec 7) (a : BitVec 7) (i : BitVec 11) (st : State) : Host.Outcome State Fault Refusal := plain (Enc.xori w d a i) .immOnly (bodyXori d a i) st

/-- R274 -/
def bodyShli (d : BitVec 7) (a : BitVec 7) (n : BitVec 9) : Issue Unit := rrs shlW d a n
/-- R274 -/
def execShli (w : BitVec 1) (d : BitVec 7) (a : BitVec 7) (n : BitVec 9) (st : State) : Host.Outcome State Fault Refusal := plain (Enc.shli w d a n) .immOnly (bodyShli d a n) st

/-- R274 -/
def bodyShri (d : BitVec 7) (a : BitVec 7) (n : BitVec 9) : Issue Unit := rrs shrW d a n
/-- R274 -/
def execShri (w : BitVec 1) (d : BitVec 7) (a : BitVec 7) (n : BitVec 9) (st : State) : Host.Outcome State Fault Refusal := plain (Enc.shri w d a n) .immOnly (bodyShri d a n) st

/-- R274 -/
def bodySari (d : BitVec 7) (a : BitVec 7) (n : BitVec 9) : Issue Unit := rrs sarW d a n
/-- R274 -/
def execSari (w : BitVec 1) (d : BitVec 7) (a : BitVec 7) (n : BitVec 9) (st : State) : Host.Outcome State Fault Refusal := plain (Enc.sari w d a n) .immOnly (bodySari d a n) st

/-- R274 -/
def bodyRoti (d : BitVec 7) (a : BitVec 7) (n : BitVec 9) : Issue Unit := rrn rotW 9 d a n.toNat
/-- R274 -/
def execRoti (w : BitVec 1) (d : BitVec 7) (a : BitVec 7) (n : BitVec 9) (st : State) : Host.Outcome State Fault Refusal := plain (Enc.roti w d a n) .immOnly (bodyRoti d a n) st

/-- R272 -/
def bodyCmpi (k : BitVec 4) (c : BitVec 3) (a : BitVec 7) (i : BitVec 11) : Issue Unit := compareI (intCond k) c a i
/-- R272 -/
def execCmpi (w : BitVec 1) (k : BitVec 4) (c : BitVec 3) (a : BitVec 7) (i : BitVec 11) (st : State) : Host.Outcome State Fault Refusal := plain (Enc.cmpi w k c a i) .immOnly (bodyCmpi k c a i) st

/-- R274 -/
def bodyMuli (d : BitVec 7) (a : BitVec 7) (i : BitVec 11) : Issue Unit := rri (· * ·) d a i
/-- R274 -/
def execMuli (w : BitVec 1) (d : BitVec 7) (a : BitVec 7) (i : BitVec 11) (st : State) : Host.Outcome State Fault Refusal := plain (Enc.muli w d a i) .immOnly (bodyMuli d a i) st

end Sys2Proof.Machine
end

