-- ==== Sys2Proof/Machine/Moves.lean ====
section
/-! DEFINITION. Moves and state registers, majors 0x18 and 0x19 (R287 to R291). -/
namespace Sys2Proof.Machine

/-- `movi` (R287). -/
def moveImm (d : RegField) (i : BitVec 18) : Issue Unit := do
  let c ← get
  let l ← dst d
  wr l (BitVec.ofInt 32 (c.hs.immS i.toNat 18))

/-- `movc` reads c0 to c7, c7 as 1 (R288). -/
def condRead (d : RegField) : Issue Unit := do
  let l ← dst d
  let c ← get
  wr l (c.th.c.setWidth 32 ||| 0x80)

/-- `movc` writes c0 to c6 (R288). -/
def condWrite (a : RegField) : Issue Unit := do
  let x ← src a
  modTh (fun t => { t with c := x.extractLsb' 0 7 })

/-- `xget`: the value from before the instruction's own steps (R289). -/
def indexGet (d : RegField) (x : BitVec 3) : Issue Unit := do
  let c ← get
  let l ← dst d
  wr l (c.th.x.getD x.toNat 0 &&& 0x3FFFFFFF)

/-- `xset` (R289). -/
def indexSet (x : BitVec 3) (b : RegField) : Issue Unit := do
  let y ← srcB b
  modTh (fun t => { t with x := t.x.set x.toNat (y &&& 0x3FFFFFFF) })

/-- An index register with its index moved by a signed byte, modulo 256 (R289). -/
def adjustIndex (w : Word) (y : Word) : Word :=
  (w &&& ~~~(0x00FF0000 : Word)) ||| ((w.extractLsb' 16 8 + y.extractLsb' 0 8).setWidth 32 <<< 16)

/-- `xadj` (R289). -/
def indexAdjust (x : BitVec 3) (b : RegField) : Issue Unit := do
  let y ← srcB b
  modTh (fun t => { t with x := t.x.set x.toNat (adjustIndex (t.x.getD x.toNat 0) y) })

/-- `fget` (R290). -/
def formatGet (d : RegField) (f : BitVec 3) : Issue Unit := do
  let c ← get
  let l ← dst d
  wr l (c.th.f.getD f.toNat 0)

/-- `fset`: the checks of R230, or illegal-format with the offered value (R290). -/
def formatSet (f : BitVec 3) (b : RegField) : Issue Unit := do
  let y ← srcB b
  flagIf (!fmtLegal y) .illegalFormat (y.setWidth 64)
  modTh (fun t => { t with f := t.f.set f.toNat y })

/-- `mget` (R291). -/
def maskGet (d : RegField) (g : BitVec 3) : Issue Unit := do
  let c ← get
  let l ← dstP d
  wrp l (c.s.maskReg c.id c.th g)

/-- `mset`: a pair, or the immediate sign-extended to 64 bits (R291). -/
def maskSet (g : BitVec 3) (b : RegField) : Issue Unit := do
  let c ← get
  let m ← match c.hs.opi with
    | some p => do
      if b ≠ 0 then flagWord .illegalInstruction
      pure (BitVec.ofInt 64 (c.hs.immS p.toNat 22))
    | none => srcP b
  modTh (fun t => t.setMask g (c.s.gwidth c.id.group) m)

/-- R287 -/
def bodyMov (d : BitVec 7) (a : BitVec 7) : Issue Unit := rr id d a
/-- R287 -/
def execMov (w : BitVec 1) (d : BitVec 7) (a : BitVec 7) (st : State) : Host.Outcome State Fault Refusal := plain (Enc.mov w d a) .nothing (bodyMov d a) st

/-- R287 -/
def bodyMovi (d : BitVec 7) (i : BitVec 18) : Issue Unit := moveImm d i
/-- R287 -/
def execMovi (w : BitVec 1) (d : BitVec 7) (i : BitVec 18) (st : State) : Host.Outcome State Fault Refusal := plain (Enc.movi w d i) .immOnly (bodyMovi d i) st

/-- R288 -/
def bodyMovcRead (d : BitVec 7) : Issue Unit := condRead d
/-- R288 -/
def execMovcRead (w : BitVec 1) (d : BitVec 7) (st : State) : Host.Outcome State Fault Refusal := plain (Enc.movcRead w d) .nothing (bodyMovcRead d) st

/-- R288 -/
def bodyMovcWrite (a : BitVec 7) : Issue Unit := condWrite a
/-- R288 -/
def execMovcWrite (w : BitVec 1) (a : BitVec 7) (st : State) : Host.Outcome State Fault Refusal := plain (Enc.movcWrite w a) .nothing (bodyMovcWrite a) st

/-- R289 -/
def bodyXget (d : BitVec 7) (x : BitVec 3) : Issue Unit := indexGet d x
/-- R289 -/
def execXget (w : BitVec 1) (d : BitVec 7) (x : BitVec 3) (st : State) : Host.Outcome State Fault Refusal := plain (Enc.xget w d x) .nothing (bodyXget d x) st

/-- R289 -/
def bodyXset (x : BitVec 3) (b : BitVec 7) : Issue Unit := indexSet x b
/-- R289 -/
def execXset (w : BitVec 1) (x : BitVec 3) (b : BitVec 7) (st : State) : Host.Outcome State Fault Refusal := plain (Enc.xset w x b) .opiOnly (bodyXset x b) st

/-- R289 -/
def bodyXadj (x : BitVec 3) (b : BitVec 7) : Issue Unit := indexAdjust x b
/-- R289 -/
def execXadj (w : BitVec 1) (x : BitVec 3) (b : BitVec 7) (st : State) : Host.Outcome State Fault Refusal := plain (Enc.xadj w x b) .opiOnly (bodyXadj x b) st

/-- R290 -/
def bodyFget (d : BitVec 7) (f : BitVec 3) : Issue Unit := formatGet d f
/-- R290 -/
def execFget (w : BitVec 1) (d : BitVec 7) (f : BitVec 3) (st : State) : Host.Outcome State Fault Refusal := plain (Enc.fget w d f) .nothing (bodyFget d f) st

/-- R230, R290 -/
def bodyFset (f : BitVec 3) (b : BitVec 7) : Issue Unit := formatSet f b
/-- R230, R290 -/
def execFset (w : BitVec 1) (f : BitVec 3) (b : BitVec 7) (st : State) : Host.Outcome State Fault Refusal := plain (Enc.fset w f b) .opiOnly (bodyFset f b) st

/-- R291 -/
def bodyMget (d : BitVec 7) (g : BitVec 3) : Issue Unit := maskGet d g
/-- R291 -/
def execMget (w : BitVec 1) (d : BitVec 7) (g : BitVec 3) (st : State) : Host.Outcome State Fault Refusal := plain (Enc.mget w d g) .nothing (bodyMget d g) st

/-- R145, R291 -/
def bodyMset (g : BitVec 3) (b : BitVec 7) : Issue Unit := maskSet g b
/-- R145, R291 -/
def execMset (w : BitVec 1) (g : BitVec 3) (b : BitVec 7) (st : State) : Host.Outcome State Fault Refusal := plain (Enc.mset w g b) .opiOnly (bodyMset g b) st

end Sys2Proof.Machine
end

