-- ==== Sys2Proof/Machine/Packed.lean ====
section
/-! DEFINITION. Packed integer instructions, majors 0x0C and 0x0D (R275, R276). -/
namespace Sys2Proof.Machine

/-- Element j of `w` bits. -/
def elemOf (x : Word) (w j : Nat) : Nat := bits x.toNat (w * j + w - 1) (w * j)

/-- Clamps an exact result. -/
def clampI (lo hi x : Int) : Int := max lo (min hi x)

/-- Joins the elements of a result, each modulo 2^w. -/
def joinElems (w n : Nat) (f : Nat → Int) : Word :=
  BitVec.ofNat 32 ((List.range n).foldl (fun acc j => acc + truncI (f j) w * 2 ^ (w * j)) 0)

/-- The b operand by element: under an OPI hint every shift takes the whole immediate and every other form its low
bits (R275). -/
def packedB (opi shift : Bool) (y : Word) (w j : Nat) : Nat :=
  if opi then (if shift then y.toNat else elemOf y w 0) else elemOf y w j

/-- An element-wise form (R275). -/
def packed (w : Nat) (shift : Bool) (f : Nat → Nat → Int) (d a b : RegField) : Issue Unit := do
  let x ← src a
  let y ← srcB b
  let c ← get
  let l ← dst d
  wr l (joinElems w (32 / w) (fun j => f (elemOf x w j) (packedB c.hs.opi.isSome shift y w j)))

/-- The signed dot product of the elements. -/
def dotElems (w : Nat) (opi : Bool) (x y : Word) : Int :=
  (List.range (32 / w)).foldl (fun acc j => acc + sextN (elemOf x w j) w * sextN (packedB opi false y w j) w) 0

/-- The dot product added to the old destination or the ADD addend (R276). -/
def packedDot (w : Nat) (d a b : RegField) : Issue Unit := do
  let x ← src a
  let y ← srcB b
  let c ← get
  let s := BitVec.ofInt 32 (dotElems w c.hs.opi.isSome x y)
  match c.hs.add with
  | some fe =>
    let e ← src fe
    let l ← dst d
    wr l (e + s)
  | none =>
    let l ← dst d
    let e ← rdDst l
    wr l (e + s)

/-- R275 -/
def bodyPadd8 (d : BitVec 7) (a : BitVec 7) (b : BitVec 7) : Issue Unit := packed 8 false (fun x y => (x : Int) + y) d a b
/-- R275 -/
def execPadd8 (w : BitVec 1) (d : BitVec 7) (a : BitVec 7) (b : BitVec 7) (st : State) : Host.Outcome State Fault Refusal := plain (Enc.padd8 w d a b) .opiOnly (bodyPadd8 d a b) st

/-- R275 -/
def bodyPsub8 (d : BitVec 7) (a : BitVec 7) (b : BitVec 7) : Issue Unit := packed 8 false (fun x y => (x : Int) - y) d a b
/-- R275 -/
def execPsub8 (w : BitVec 1) (d : BitVec 7) (a : BitVec 7) (b : BitVec 7) (st : State) : Host.Outcome State Fault Refusal := plain (Enc.psub8 w d a b) .opiOnly (bodyPsub8 d a b) st

/-- R275 -/
def bodyPaddsI8 (d : BitVec 7) (a : BitVec 7) (b : BitVec 7) : Issue Unit := packed 8 false (fun x y => clampI (-(2 ^ 7)) (2 ^ 7 - 1) (sextN x 8 + sextN y 8)) d a b
/-- R275 -/
def execPaddsI8 (w : BitVec 1) (d : BitVec 7) (a : BitVec 7) (b : BitVec 7) (st : State) : Host.Outcome State Fault Refusal := plain (Enc.paddsI8 w d a b) .opiOnly (bodyPaddsI8 d a b) st

/-- R275 -/
def bodyPaddsN8 (d : BitVec 7) (a : BitVec 7) (b : BitVec 7) : Issue Unit := packed 8 false (fun x y => clampI 0 (2 ^ 8 - 1) ((x : Int) + y)) d a b
/-- R275 -/
def execPaddsN8 (w : BitVec 1) (d : BitVec 7) (a : BitVec 7) (b : BitVec 7) (st : State) : Host.Outcome State Fault Refusal := plain (Enc.paddsN8 w d a b) .opiOnly (bodyPaddsN8 d a b) st

/-- R275 -/
def bodyPsubsI8 (d : BitVec 7) (a : BitVec 7) (b : BitVec 7) : Issue Unit := packed 8 false (fun x y => clampI (-(2 ^ 7)) (2 ^ 7 - 1) (sextN x 8 - sextN y 8)) d a b
/-- R275 -/
def execPsubsI8 (w : BitVec 1) (d : BitVec 7) (a : BitVec 7) (b : BitVec 7) (st : State) : Host.Outcome State Fault Refusal := plain (Enc.psubsI8 w d a b) .opiOnly (bodyPsubsI8 d a b) st

/-- R275 -/
def bodyPsubsN8 (d : BitVec 7) (a : BitVec 7) (b : BitVec 7) : Issue Unit := packed 8 false (fun x y => clampI 0 (2 ^ 8 - 1) ((x : Int) - y)) d a b
/-- R275 -/
def execPsubsN8 (w : BitVec 1) (d : BitVec 7) (a : BitVec 7) (b : BitVec 7) (st : State) : Host.Outcome State Fault Refusal := plain (Enc.psubsN8 w d a b) .opiOnly (bodyPsubsN8 d a b) st

/-- R275 -/
def bodyPminI8 (d : BitVec 7) (a : BitVec 7) (b : BitVec 7) : Issue Unit := packed 8 false (fun x y => min (sextN x 8) (sextN y 8)) d a b
/-- R275 -/
def execPminI8 (w : BitVec 1) (d : BitVec 7) (a : BitVec 7) (b : BitVec 7) (st : State) : Host.Outcome State Fault Refusal := plain (Enc.pminI8 w d a b) .opiOnly (bodyPminI8 d a b) st

/-- R275 -/
def bodyPmaxI8 (d : BitVec 7) (a : BitVec 7) (b : BitVec 7) : Issue Unit := packed 8 false (fun x y => max (sextN x 8) (sextN y 8)) d a b
/-- R275 -/
def execPmaxI8 (w : BitVec 1) (d : BitVec 7) (a : BitVec 7) (b : BitVec 7) (st : State) : Host.Outcome State Fault Refusal := plain (Enc.pmaxI8 w d a b) .opiOnly (bodyPmaxI8 d a b) st

/-- R275 -/
def bodyPminN8 (d : BitVec 7) (a : BitVec 7) (b : BitVec 7) : Issue Unit := packed 8 false (fun x y => ((min x y : Nat) : Int)) d a b
/-- R275 -/
def execPminN8 (w : BitVec 1) (d : BitVec 7) (a : BitVec 7) (b : BitVec 7) (st : State) : Host.Outcome State Fault Refusal := plain (Enc.pminN8 w d a b) .opiOnly (bodyPminN8 d a b) st

/-- R275 -/
def bodyPmaxN8 (d : BitVec 7) (a : BitVec 7) (b : BitVec 7) : Issue Unit := packed 8 false (fun x y => ((max x y : Nat) : Int)) d a b
/-- R275 -/
def execPmaxN8 (w : BitVec 1) (d : BitVec 7) (a : BitVec 7) (b : BitVec 7) (st : State) : Host.Outcome State Fault Refusal := plain (Enc.pmaxN8 w d a b) .opiOnly (bodyPmaxN8 d a b) st

/-- R275 -/
def bodyPabsd8 (d : BitVec 7) (a : BitVec 7) (b : BitVec 7) : Issue Unit := packed 8 false (fun x y => (((x : Int) - y).natAbs : Int)) d a b
/-- R275 -/
def execPabsd8 (w : BitVec 1) (d : BitVec 7) (a : BitVec 7) (b : BitVec 7) (st : State) : Host.Outcome State Fault Refusal := plain (Enc.pabsd8 w d a b) .opiOnly (bodyPabsd8 d a b) st

/-- R245, R275 -/
def bodyPshl8 (d : BitVec 7) (a : BitVec 7) (b : BitVec 7) : Issue Unit := packed 8 true (fun x y => if 8 ≤ y then 0 else ((x * 2 ^ y : Nat) : Int)) d a b
/-- R245, R275 -/
def execPshl8 (w : BitVec 1) (d : BitVec 7) (a : BitVec 7) (b : BitVec 7) (st : State) : Host.Outcome State Fault Refusal := plain (Enc.pshl8 w d a b) .opiOnly (bodyPshl8 d a b) st

/-- R245, R275 -/
def bodyPshr8 (d : BitVec 7) (a : BitVec 7) (b : BitVec 7) : Issue Unit := packed 8 true (fun x y => if 8 ≤ y then 0 else ((x / 2 ^ y : Nat) : Int)) d a b
/-- R245, R275 -/
def execPshr8 (w : BitVec 1) (d : BitVec 7) (a : BitVec 7) (b : BitVec 7) (st : State) : Host.Outcome State Fault Refusal := plain (Enc.pshr8 w d a b) .opiOnly (bodyPshr8 d a b) st

/-- R245, R275 -/
def bodyPsar8 (d : BitVec 7) (a : BitVec 7) (b : BitVec 7) : Issue Unit := packed 8 true (fun x y => sextN x 8 / 2 ^ min y 8) d a b
/-- R245, R275 -/
def execPsar8 (w : BitVec 1) (d : BitVec 7) (a : BitVec 7) (b : BitVec 7) (st : State) : Host.Outcome State Fault Refusal := plain (Enc.psar8 w d a b) .opiOnly (bodyPsar8 d a b) st

/-- R275 -/
def bodyPavgN8 (d : BitVec 7) (a : BitVec 7) (b : BitVec 7) : Issue Unit := packed 8 false (fun x y => (((x + y + 1) / 2 : Nat) : Int)) d a b
/-- R275 -/
def execPavgN8 (w : BitVec 1) (d : BitVec 7) (a : BitVec 7) (b : BitVec 7) (st : State) : Host.Outcome State Fault Refusal := plain (Enc.pavgN8 w d a b) .opiOnly (bodyPavgN8 d a b) st

/-- R276 -/
def bodyPdot8 (d : BitVec 7) (a : BitVec 7) (b : BitVec 7) : Issue Unit := packedDot 8 d a b
/-- R276 -/
def execPdot8 (w : BitVec 1) (d : BitVec 7) (a : BitVec 7) (b : BitVec 7) (st : State) : Host.Outcome State Fault Refusal := plain (Enc.pdot8 w d a b) { Accepts.opiOnly with add := true } (bodyPdot8 d a b) st

/-- R275 -/
def bodyPadd16 (d : BitVec 7) (a : BitVec 7) (b : BitVec 7) : Issue Unit := packed 16 false (fun x y => (x : Int) + y) d a b
/-- R275 -/
def execPadd16 (w : BitVec 1) (d : BitVec 7) (a : BitVec 7) (b : BitVec 7) (st : State) : Host.Outcome State Fault Refusal := plain (Enc.padd16 w d a b) .opiOnly (bodyPadd16 d a b) st

/-- R275 -/
def bodyPsub16 (d : BitVec 7) (a : BitVec 7) (b : BitVec 7) : Issue Unit := packed 16 false (fun x y => (x : Int) - y) d a b
/-- R275 -/
def execPsub16 (w : BitVec 1) (d : BitVec 7) (a : BitVec 7) (b : BitVec 7) (st : State) : Host.Outcome State Fault Refusal := plain (Enc.psub16 w d a b) .opiOnly (bodyPsub16 d a b) st

/-- R275 -/
def bodyPaddsI16 (d : BitVec 7) (a : BitVec 7) (b : BitVec 7) : Issue Unit := packed 16 false (fun x y => clampI (-(2 ^ 15)) (2 ^ 15 - 1) (sextN x 16 + sextN y 16)) d a b
/-- R275 -/
def execPaddsI16 (w : BitVec 1) (d : BitVec 7) (a : BitVec 7) (b : BitVec 7) (st : State) : Host.Outcome State Fault Refusal := plain (Enc.paddsI16 w d a b) .opiOnly (bodyPaddsI16 d a b) st

/-- R275 -/
def bodyPaddsN16 (d : BitVec 7) (a : BitVec 7) (b : BitVec 7) : Issue Unit := packed 16 false (fun x y => clampI 0 (2 ^ 16 - 1) ((x : Int) + y)) d a b
/-- R275 -/
def execPaddsN16 (w : BitVec 1) (d : BitVec 7) (a : BitVec 7) (b : BitVec 7) (st : State) : Host.Outcome State Fault Refusal := plain (Enc.paddsN16 w d a b) .opiOnly (bodyPaddsN16 d a b) st

/-- R275 -/
def bodyPsubsI16 (d : BitVec 7) (a : BitVec 7) (b : BitVec 7) : Issue Unit := packed 16 false (fun x y => clampI (-(2 ^ 15)) (2 ^ 15 - 1) (sextN x 16 - sextN y 16)) d a b
/-- R275 -/
def execPsubsI16 (w : BitVec 1) (d : BitVec 7) (a : BitVec 7) (b : BitVec 7) (st : State) : Host.Outcome State Fault Refusal := plain (Enc.psubsI16 w d a b) .opiOnly (bodyPsubsI16 d a b) st

/-- R275 -/
def bodyPsubsN16 (d : BitVec 7) (a : BitVec 7) (b : BitVec 7) : Issue Unit := packed 16 false (fun x y => clampI 0 (2 ^ 16 - 1) ((x : Int) - y)) d a b
/-- R275 -/
def execPsubsN16 (w : BitVec 1) (d : BitVec 7) (a : BitVec 7) (b : BitVec 7) (st : State) : Host.Outcome State Fault Refusal := plain (Enc.psubsN16 w d a b) .opiOnly (bodyPsubsN16 d a b) st

/-- R275 -/
def bodyPminI16 (d : BitVec 7) (a : BitVec 7) (b : BitVec 7) : Issue Unit := packed 16 false (fun x y => min (sextN x 16) (sextN y 16)) d a b
/-- R275 -/
def execPminI16 (w : BitVec 1) (d : BitVec 7) (a : BitVec 7) (b : BitVec 7) (st : State) : Host.Outcome State Fault Refusal := plain (Enc.pminI16 w d a b) .opiOnly (bodyPminI16 d a b) st

/-- R275 -/
def bodyPmaxI16 (d : BitVec 7) (a : BitVec 7) (b : BitVec 7) : Issue Unit := packed 16 false (fun x y => max (sextN x 16) (sextN y 16)) d a b
/-- R275 -/
def execPmaxI16 (w : BitVec 1) (d : BitVec 7) (a : BitVec 7) (b : BitVec 7) (st : State) : Host.Outcome State Fault Refusal := plain (Enc.pmaxI16 w d a b) .opiOnly (bodyPmaxI16 d a b) st

/-- R275 -/
def bodyPminN16 (d : BitVec 7) (a : BitVec 7) (b : BitVec 7) : Issue Unit := packed 16 false (fun x y => ((min x y : Nat) : Int)) d a b
/-- R275 -/
def execPminN16 (w : BitVec 1) (d : BitVec 7) (a : BitVec 7) (b : BitVec 7) (st : State) : Host.Outcome State Fault Refusal := plain (Enc.pminN16 w d a b) .opiOnly (bodyPminN16 d a b) st

/-- R275 -/
def bodyPmaxN16 (d : BitVec 7) (a : BitVec 7) (b : BitVec 7) : Issue Unit := packed 16 false (fun x y => ((max x y : Nat) : Int)) d a b
/-- R275 -/
def execPmaxN16 (w : BitVec 1) (d : BitVec 7) (a : BitVec 7) (b : BitVec 7) (st : State) : Host.Outcome State Fault Refusal := plain (Enc.pmaxN16 w d a b) .opiOnly (bodyPmaxN16 d a b) st

/-- R275 -/
def bodyPabsd16 (d : BitVec 7) (a : BitVec 7) (b : BitVec 7) : Issue Unit := packed 16 false (fun x y => (((x : Int) - y).natAbs : Int)) d a b
/-- R275 -/
def execPabsd16 (w : BitVec 1) (d : BitVec 7) (a : BitVec 7) (b : BitVec 7) (st : State) : Host.Outcome State Fault Refusal := plain (Enc.pabsd16 w d a b) .opiOnly (bodyPabsd16 d a b) st

/-- R245, R275 -/
def bodyPshl16 (d : BitVec 7) (a : BitVec 7) (b : BitVec 7) : Issue Unit := packed 16 true (fun x y => if 16 ≤ y then 0 else ((x * 2 ^ y : Nat) : Int)) d a b
/-- R245, R275 -/
def execPshl16 (w : BitVec 1) (d : BitVec 7) (a : BitVec 7) (b : BitVec 7) (st : State) : Host.Outcome State Fault Refusal := plain (Enc.pshl16 w d a b) .opiOnly (bodyPshl16 d a b) st

/-- R245, R275 -/
def bodyPshr16 (d : BitVec 7) (a : BitVec 7) (b : BitVec 7) : Issue Unit := packed 16 true (fun x y => if 16 ≤ y then 0 else ((x / 2 ^ y : Nat) : Int)) d a b
/-- R245, R275 -/
def execPshr16 (w : BitVec 1) (d : BitVec 7) (a : BitVec 7) (b : BitVec 7) (st : State) : Host.Outcome State Fault Refusal := plain (Enc.pshr16 w d a b) .opiOnly (bodyPshr16 d a b) st

/-- R245, R275 -/
def bodyPsar16 (d : BitVec 7) (a : BitVec 7) (b : BitVec 7) : Issue Unit := packed 16 true (fun x y => sextN x 16 / 2 ^ min y 16) d a b
/-- R245, R275 -/
def execPsar16 (w : BitVec 1) (d : BitVec 7) (a : BitVec 7) (b : BitVec 7) (st : State) : Host.Outcome State Fault Refusal := plain (Enc.psar16 w d a b) .opiOnly (bodyPsar16 d a b) st

/-- R275 -/
def bodyPavgN16 (d : BitVec 7) (a : BitVec 7) (b : BitVec 7) : Issue Unit := packed 16 false (fun x y => (((x + y + 1) / 2 : Nat) : Int)) d a b
/-- R275 -/
def execPavgN16 (w : BitVec 1) (d : BitVec 7) (a : BitVec 7) (b : BitVec 7) (st : State) : Host.Outcome State Fault Refusal := plain (Enc.pavgN16 w d a b) .opiOnly (bodyPavgN16 d a b) st

/-- R276 -/
def bodyPdot16 (d : BitVec 7) (a : BitVec 7) (b : BitVec 7) : Issue Unit := packedDot 16 d a b
/-- R276 -/
def execPdot16 (w : BitVec 1) (d : BitVec 7) (a : BitVec 7) (b : BitVec 7) (st : State) : Host.Outcome State Fault Refusal := plain (Enc.pdot16 w d a b) { Accepts.opiOnly with add := true } (bodyPdot16 d a b) st

end Sys2Proof.Machine
end

