-- ==== Sys2Proof/Machine/Pair.lean ====
section
/-! DEFINITION. 64-bit pair instructions, major 0x0E (R277). -/
namespace Sys2Proof.Machine

/-- Two pairs, a pair destination. -/
def pairPair (f : Dword → Dword → Dword) (d a b : RegField) : Issue Unit := do
  let x ← srcP a
  let y ← srcP b
  let l ← dstP d
  wrp l (f x y)

/-- A pair and a word, a pair destination. -/
def pairWord (f : Dword → Word → Dword) (d a b : RegField) : Issue Unit := do
  let x ← srcP a
  let y ← src b
  let l ← dstP d
  wrp l (f x y)

/-- Shift left (R245). -/
def shlP (a : Dword) (n : Word) : Dword := if 64 ≤ n.toNat then 0 else a <<< n.toNat
/-- Shift right (R245). -/
def shrP (a : Dword) (n : Word) : Dword := if 64 ≤ n.toNat then 0 else a >>> n.toNat
/-- Arithmetic shift right by at most 63 (R277). -/
def sarP (a : Dword) (n : Word) : Dword := a.sshiftRight (min n.toNat 63)

/-- R277 -/
def bodyAddD (d : BitVec 7) (a : BitVec 7) (b : BitVec 7) : Issue Unit := pairPair (· + ·) d a b
/-- R277 -/
def execAddD (w : BitVec 1) (d : BitVec 7) (a : BitVec 7) (b : BitVec 7) (st : State) : Host.Outcome State Fault Refusal := plain (Enc.addD w d a b) .nothing (bodyAddD d a b) st

/-- R277 -/
def bodySubD (d : BitVec 7) (a : BitVec 7) (b : BitVec 7) : Issue Unit := pairPair (· - ·) d a b
/-- R277 -/
def execSubD (w : BitVec 1) (d : BitVec 7) (a : BitVec 7) (b : BitVec 7) (st : State) : Host.Outcome State Fault Refusal := plain (Enc.subD w d a b) .nothing (bodySubD d a b) st

/-- R277 -/
def bodyAndD (d : BitVec 7) (a : BitVec 7) (b : BitVec 7) : Issue Unit := pairPair (· &&& ·) d a b
/-- R277 -/
def execAndD (w : BitVec 1) (d : BitVec 7) (a : BitVec 7) (b : BitVec 7) (st : State) : Host.Outcome State Fault Refusal := plain (Enc.andD w d a b) .nothing (bodyAndD d a b) st

/-- R277 -/
def bodyOrD (d : BitVec 7) (a : BitVec 7) (b : BitVec 7) : Issue Unit := pairPair (· ||| ·) d a b
/-- R277 -/
def execOrD (w : BitVec 1) (d : BitVec 7) (a : BitVec 7) (b : BitVec 7) (st : State) : Host.Outcome State Fault Refusal := plain (Enc.orD w d a b) .nothing (bodyOrD d a b) st

/-- R277 -/
def bodyXorD (d : BitVec 7) (a : BitVec 7) (b : BitVec 7) : Issue Unit := pairPair (· ^^^ ·) d a b
/-- R277 -/
def execXorD (w : BitVec 1) (d : BitVec 7) (a : BitVec 7) (b : BitVec 7) (st : State) : Host.Outcome State Fault Refusal := plain (Enc.xorD w d a b) .nothing (bodyXorD d a b) st

/-- R277 -/
def bodyShlD (d : BitVec 7) (a : BitVec 7) (b : BitVec 7) : Issue Unit := pairWord shlP d a b
/-- R277 -/
def execShlD (w : BitVec 1) (d : BitVec 7) (a : BitVec 7) (b : BitVec 7) (st : State) : Host.Outcome State Fault Refusal := plain (Enc.shlD w d a b) .nothing (bodyShlD d a b) st

/-- R277 -/
def bodyShrD (d : BitVec 7) (a : BitVec 7) (b : BitVec 7) : Issue Unit := pairWord shrP d a b
/-- R277 -/
def execShrD (w : BitVec 1) (d : BitVec 7) (a : BitVec 7) (b : BitVec 7) (st : State) : Host.Outcome State Fault Refusal := plain (Enc.shrD w d a b) .nothing (bodyShrD d a b) st

/-- R277 -/
def bodySarD (d : BitVec 7) (a : BitVec 7) (b : BitVec 7) : Issue Unit := pairWord sarP d a b
/-- R277 -/
def execSarD (w : BitVec 1) (d : BitVec 7) (a : BitVec 7) (b : BitVec 7) (st : State) : Host.Outcome State Fault Refusal := plain (Enc.sarD w d a b) .nothing (bodySarD d a b) st

/-- R277 -/
def bodyAddxI (d : BitVec 7) (a : BitVec 7) (b : BitVec 7) : Issue Unit := pairWord (fun x n => x + n.signExtend 64) d a b
/-- R277 -/
def execAddxI (w : BitVec 1) (d : BitVec 7) (a : BitVec 7) (b : BitVec 7) (st : State) : Host.Outcome State Fault Refusal := plain (Enc.addxI w d a b) .nothing (bodyAddxI d a b) st

/-- R277 -/
def bodyAddxN (d : BitVec 7) (a : BitVec 7) (b : BitVec 7) : Issue Unit := pairWord (fun x n => x + n.setWidth 64) d a b
/-- R277 -/
def execAddxN (w : BitVec 1) (d : BitVec 7) (a : BitVec 7) (b : BitVec 7) (st : State) : Host.Outcome State Fault Refusal := plain (Enc.addxN w d a b) .nothing (bodyAddxN d a b) st

end Sys2Proof.Machine
end

