-- ==== Sys2Proof/Machine/Special.lean ====
section
/-! DEFINITION. Special functions, major 0x13 (R246, R281): each function to 512 binary places, rounded once (log entry 11). -/
namespace Sys2Proof.Machine

/-! ### Fixed-point numbers: an integer x stands for x / 2^512 -/

/-- One in fixed point. -/
def fxOne : Nat := 2 ^ 512

/-- A fixed-point number as a value. -/
def fxVal (x : Int) : Val := .num (decide (x < 0)) x.natAbs (-512) false

/-- m · 2^e in fixed point, its lower places cut off. -/
def fxOf (m : Nat) (e : Int) : Nat :=
  if -512 ≤ e then m * 2 ^ (e + 512).toNat else m / 2 ^ (-512 - e).toNat

/-- The sum of x^k / k! from a term on: `term` is x^k / k! for k = `k`. -/
def expSeries (x : Nat) : Nat → Nat → Nat → Nat
  | 0, _, _ => 0
  | n + 1, k, term => term + expSeries x n (k + 1) (term * x / fxOne / (k + 1))

/-- e^x for 0 ≤ x below 32. -/
def fxExp (x : Nat) : Nat := expSeries x 400 0 fxOne

/-- The alternating sum of x^(k + 2i) / (k + 2i)! from a term on. -/
def altSeries (x2 : Nat) : Nat → Nat → Int → Int
  | 0, _, _ => 0
  | n + 1, k, term => term - altSeries x2 n (k + 2) (term * x2 / fxOne / ((k + 1) * (k + 2) : Nat))

/-- sin x for 0 ≤ x < 2. -/
def fxSin (x : Nat) : Int := altSeries (x * x / fxOne) 100 1 x
/-- cos x for 0 ≤ x < 2. -/
def fxCos (x : Nat) : Int := altSeries (x * x / fxOne) 100 0 fxOne

/-- The sum of z^(2i + 1) / (2i + 1), from a power on. -/
def atanhSeries (z2 : Nat) : Nat → Nat → Nat → Nat
  | 0, _, _ => 0
  | n + 1, k, pow => pow / k + atanhSeries z2 n (k + 2) (pow * z2 / fxOne)

/-- ln of num / den for 1 ≤ num / den ≤ 2: twice artanh of (num − den) / (num + den). -/
def fxLn (num den : Nat) : Nat :=
  let z := (num - den) * fxOne / (num + den)
  2 * atanhSeries (z * z / fxOne) 200 1 z

/-- ln 2. -/
def fxLn2 : Nat := fxLn 2 1

/-- The sum of (−1)^i / ((2i + 1) · q^(2i + 1)) from a power 1 / q^(2i + 1) on. -/
def atanInv (q2 : Nat) : Nat → Nat → Nat → Int
  | 0, _, _ => 0
  | n + 1, k, pow => ((pow / k : Nat) : Int) - atanInv q2 n (k + 2) (pow / q2)

/-- pi with 1,024 binary places, by Machin's formula; 4 · (4 · arctan (1/5) − arctan (1/239)). -/
def piWide : Nat := (4 * (4 * atanInv 25 500 1 (2 ^ 1040 / 5) - atanInv 57121 200 1 (2 ^ 1040 / 239))).toNat / 2 ^ 16

/-- The quadrant of m · 2^e, and the rest in fixed point, 0 ≤ rest < pi/2: exact argument reduction for 2^e · m below
2^128. -/
def reduce (m : Nat) (e : Int) : Nat × Nat :=
  let x := if -1024 ≤ e then m * 2 ^ (e + 1024).toNat else 0
  (x * 2 / piWide % 4, x * 2 % piWide / 2 / 2 ^ 512)

/-! ### The functions (R246) -/

/-- 2^x. -/
def exp2Val : Val → Val
  | .nan => .nan
  | .inf n => if n then .num false 0 0 false else .inf false
  | .num n m e _ =>
    if m = 0 then .num false 1 0 false
    else if 11 ≤ (Nat.log2 m : Int) + e then (if n then .num false 1 (-4096) false else .inf false)
    else
      let x : Int := if n then -(fxOf m e) else fxOf m e
      let k := x / fxOne
      let f := (x % fxOne).toNat
      if f = 0 then .num false 1 k false else .num false (fxExp (f * fxLn2 / fxOne)) (k - 512) false

/-- log2 x. -/
def log2Val : Val → Val
  | .nan => .nan
  | .inf n => if n then .nan else .inf false
  | .num n m e _ =>
    if m = 0 then .inf true else if n then .nan else
    let k := Nat.log2 m
    fxVal (((k : Int) + e) * fxOne + (fxLn m (2 ^ k) * fxOne / fxLn2 : Nat))

/-- sin x. -/
def sinVal : Val → Val
  | .nan => .nan
  | .inf _ => .nan
  | .num n m e _ =>
    if m = 0 then .num n 0 0 false else
    if (Nat.log2 m : Int) + e < -100 then .num n m e false else
    let r := reduce m e
    let v := match r.1 with
      | 0 => fxSin r.2
      | 1 => fxCos r.2
      | 2 => -fxSin r.2
      | _ => -fxCos r.2
    fxVal (if n then -v else v)

/-- cos x. -/
def cosVal : Val → Val
  | .nan => .nan
  | .inf _ => .nan
  | .num _ m e _ =>
    if m = 0 then .num false 1 0 false else
    let r := reduce m e
    fxVal (match r.1 with
      | 0 => fxCos r.2
      | 1 => -fxSin r.2
      | 2 => -fxCos r.2
      | _ => fxSin r.2)

/-- tanh x; ±1 from 9.1 on. -/
def tanhVal : Val → Val
  | .nan => .nan
  | .inf n => .num n 1 0 false
  | .num n m e _ =>
    if m = 0 then .num n 0 0 false
    else if (Nat.log2 m : Int) + e < -100 then .num n m e false
    else if 91 * fxOne ≤ 10 * fxOf m e then .num n 1 0 false
    else
      let t := fxExp (2 * fxOf m e)
      let v : Int := ((t - fxOne) * fxOne / (t + fxOne) : Nat)
      fxVal (if n then -v else v)

/-- A special function of FP32, rounded RNE (R246). -/
def special (f : Val → Val) (d a : RegField) : Issue Unit :=
  rr (fun x => BitVec.ofNat 32 (roundVal binary32 0 0 (f (val x.toNat binary32)))) d a

/-- `fsqrt` rounds in the instruction's mode, with one draw under the stochastic one (R281). -/
def root (d a : RegField) : Issue Unit := do
  let x ← src a
  let l ← dst d
  let m ← modeOf
  let r ← draw m
  wr l (BitVec.ofNat 32 (roundVal binary32 m r (val x.toNat binary32).sqrt))

/-- The one-hot class of `fclass` (R281). -/
def classMask (x : Word) : Word :=
  let neg := x.msb
  let e := x.extractLsb' 23 8
  let m := x.extractLsb' 0 23
  let k : Nat :=
    if e = 255 then (if m = 0 then (if neg then 0 else 7) else if x.getLsbD 22 then 9 else 8)
    else if e = 0 then (if m = 0 then (if neg then 3 else 4) else if neg then 2 else 5)
    else if neg then 1 else 6
  1#32 <<< k

/-- R246, R281 -/
def bodyFrcp (d : BitVec 7) (a : BitVec 7) : Issue Unit := special (fun v => v.rcp) d a
/-- R246, R281 -/
def execFrcp (w : BitVec 1) (d : BitVec 7) (a : BitVec 7) (st : State) : Host.Outcome State Fault Refusal := plain (Enc.frcp w d a) .nothing (bodyFrcp d a) st

/-- R246, R281 -/
def bodyFrsq (d : BitVec 7) (a : BitVec 7) : Issue Unit := special (fun v => v.rsq) d a
/-- R246, R281 -/
def execFrsq (w : BitVec 1) (d : BitVec 7) (a : BitVec 7) (st : State) : Host.Outcome State Fault Refusal := plain (Enc.frsq w d a) .nothing (bodyFrsq d a) st

/-- R246, R281 -/
def bodyFexp2 (d : BitVec 7) (a : BitVec 7) : Issue Unit := special exp2Val d a
/-- R246, R281 -/
def execFexp2 (w : BitVec 1) (d : BitVec 7) (a : BitVec 7) (st : State) : Host.Outcome State Fault Refusal := plain (Enc.fexp2 w d a) .nothing (bodyFexp2 d a) st

/-- R246, R281 -/
def bodyFlog2 (d : BitVec 7) (a : BitVec 7) : Issue Unit := special log2Val d a
/-- R246, R281 -/
def execFlog2 (w : BitVec 1) (d : BitVec 7) (a : BitVec 7) (st : State) : Host.Outcome State Fault Refusal := plain (Enc.flog2 w d a) .nothing (bodyFlog2 d a) st

/-- R246, R281 -/
def bodyFsin (d : BitVec 7) (a : BitVec 7) : Issue Unit := special sinVal d a
/-- R246, R281 -/
def execFsin (w : BitVec 1) (d : BitVec 7) (a : BitVec 7) (st : State) : Host.Outcome State Fault Refusal := plain (Enc.fsin w d a) .nothing (bodyFsin d a) st

/-- R246, R281 -/
def bodyFcos (d : BitVec 7) (a : BitVec 7) : Issue Unit := special cosVal d a
/-- R246, R281 -/
def execFcos (w : BitVec 1) (d : BitVec 7) (a : BitVec 7) (st : State) : Host.Outcome State Fault Refusal := plain (Enc.fcos w d a) .nothing (bodyFcos d a) st

/-- R246, R281 -/
def bodyFtanh (d : BitVec 7) (a : BitVec 7) : Issue Unit := special tanhVal d a
/-- R246, R281 -/
def execFtanh (w : BitVec 1) (d : BitVec 7) (a : BitVec 7) (st : State) : Host.Outcome State Fault Refusal := plain (Enc.ftanh w d a) .nothing (bodyFtanh d a) st

/-- R246, R281 -/
def bodyFsqrt (d : BitVec 7) (a : BitVec 7) : Issue Unit := root d a
/-- R246, R281 -/
def execFsqrt (w : BitVec 1) (d : BitVec 7) (a : BitVec 7) (st : State) : Host.Outcome State Fault Refusal := plain (Enc.fsqrt w d a) .rndOnly (bodyFsqrt d a) st

/-- R281 -/
def bodyFclass (d : BitVec 7) (a : BitVec 7) : Issue Unit := rr classMask d a
/-- R281 -/
def execFclass (w : BitVec 1) (d : BitVec 7) (a : BitVec 7) (st : State) : Host.Outcome State Fault Refusal := plain (Enc.fclass w d a) .nothing (bodyFclass d a) st

end Sys2Proof.Machine
end

