-- ==== Sys2Proof/Machine/Xiss.lean ====
section
/-! DEFINITION. `xiss` (R303): the words it permits and their effect in place of it. -/
namespace Sys2Proof.Machine

/-- The description of an instruction that `xiss` permits: majors 0x01 to 0x18, `ld.ln`, `st.ln` and `nop` (R303). -/
def permittedBody : Instr → Option (Issue Unit)
  | .add _ d a b => some (bodyAdd d a b)
  | .sub _ d a b => some (bodySub d a b)
  | .mul _ d a b => some (bodyMul d a b)
  | .mulhI _ d a b => some (bodyMulhI d a b)
  | .mulhN _ d a b => some (bodyMulhN d a b)
  | .minI _ d a b => some (bodyMinI d a b)
  | .maxI _ d a b => some (bodyMaxI d a b)
  | .minN _ d a b => some (bodyMinN d a b)
  | .maxN _ d a b => some (bodyMaxN d a b)
  | .and _ d a b => some (bodyAnd d a b)
  | .or _ d a b => some (bodyOr d a b)
  | .xor _ d a b => some (bodyXor d a b)
  | .andn _ d a b => some (bodyAndn d a b)
  | .shl _ d a b => some (bodyShl d a b)
  | .shr _ d a b => some (bodyShr d a b)
  | .sar _ d a b => some (bodySar d a b)
  | .rot _ d a b => some (bodyRot d a b)
  | .mad _ d a b => some (bodyMad d a b)
  | .clz _ d a => some (bodyClz d a)
  | .ctz _ d a => some (bodyCtz d a)
  | .popc _ d a => some (bodyPopc d a)
  | .brev _ d a => some (bodyBrev d a)
  | .bfxI _ d a b => some (bodyBfxI d a b)
  | .bfxN _ d a b => some (bodyBfxN d a b)
  | .bfi _ d a b => some (bodyBfi d a b)
  | .absd _ d a b => some (bodyAbsd d a b)
  | .sext8 _ d a => some (bodySext8 d a)
  | .sext16 _ d a => some (bodySext16 d a)
  | .zext8 _ d a => some (bodyZext8 d a)
  | .zext16 _ d a => some (bodyZext16 d a)
  | .mulwI _ d a b => some (bodyMulwI d a b)
  | .mulwN _ d a b => some (bodyMulwN d a b)
  | .cmp _ k c a b => some (bodyCmp k c a b)
  | .sel _ s c d a b => some (bodySel s c d a b)
  | .addi _ d a i => some (bodyAddi d a i)
  | .andi _ d a i => some (bodyAndi d a i)
  | .ori _ d a i => some (bodyOri d a i)
  | .xori _ d a i => some (bodyXori d a i)
  | .shli _ d a n => some (bodyShli d a n)
  | .shri _ d a n => some (bodyShri d a n)
  | .sari _ d a n => some (bodySari d a n)
  | .roti _ d a n => some (bodyRoti d a n)
  | .cmpi _ k c a i => some (bodyCmpi k c a i)
  | .muli _ d a i => some (bodyMuli d a i)
  | .padd8 _ d a b => some (bodyPadd8 d a b)
  | .psub8 _ d a b => some (bodyPsub8 d a b)
  | .paddsI8 _ d a b => some (bodyPaddsI8 d a b)
  | .paddsN8 _ d a b => some (bodyPaddsN8 d a b)
  | .psubsI8 _ d a b => some (bodyPsubsI8 d a b)
  | .psubsN8 _ d a b => some (bodyPsubsN8 d a b)
  | .pminI8 _ d a b => some (bodyPminI8 d a b)
  | .pmaxI8 _ d a b => some (bodyPmaxI8 d a b)
  | .pminN8 _ d a b => some (bodyPminN8 d a b)
  | .pmaxN8 _ d a b => some (bodyPmaxN8 d a b)
  | .pabsd8 _ d a b => some (bodyPabsd8 d a b)
  | .pshl8 _ d a b => some (bodyPshl8 d a b)
  | .pshr8 _ d a b => some (bodyPshr8 d a b)
  | .psar8 _ d a b => some (bodyPsar8 d a b)
  | .pavgN8 _ d a b => some (bodyPavgN8 d a b)
  | .pdot8 _ d a b => some (bodyPdot8 d a b)
  | .padd16 _ d a b => some (bodyPadd16 d a b)
  | .psub16 _ d a b => some (bodyPsub16 d a b)
  | .paddsI16 _ d a b => some (bodyPaddsI16 d a b)
  | .paddsN16 _ d a b => some (bodyPaddsN16 d a b)
  | .psubsI16 _ d a b => some (bodyPsubsI16 d a b)
  | .psubsN16 _ d a b => some (bodyPsubsN16 d a b)
  | .pminI16 _ d a b => some (bodyPminI16 d a b)
  | .pmaxI16 _ d a b => some (bodyPmaxI16 d a b)
  | .pminN16 _ d a b => some (bodyPminN16 d a b)
  | .pmaxN16 _ d a b => some (bodyPmaxN16 d a b)
  | .pabsd16 _ d a b => some (bodyPabsd16 d a b)
  | .pshl16 _ d a b => some (bodyPshl16 d a b)
  | .pshr16 _ d a b => some (bodyPshr16 d a b)
  | .psar16 _ d a b => some (bodyPsar16 d a b)
  | .pavgN16 _ d a b => some (bodyPavgN16 d a b)
  | .pdot16 _ d a b => some (bodyPdot16 d a b)
  | .addD _ d a b => some (bodyAddD d a b)
  | .subD _ d a b => some (bodySubD d a b)
  | .shlD _ d a b => some (bodyShlD d a b)
  | .shrD _ d a b => some (bodyShrD d a b)
  | .sarD _ d a b => some (bodySarD d a b)
  | .addxI _ d a b => some (bodyAddxI d a b)
  | .addxN _ d a b => some (bodyAddxN d a b)
  | .andD _ d a b => some (bodyAndD d a b)
  | .orD _ d a b => some (bodyOrD d a b)
  | .xorD _ d a b => some (bodyXorD d a b)
  | .fadd _ d a b => some (bodyFadd d a b)
  | .fsub _ d a b => some (bodyFsub d a b)
  | .fmul _ d a b => some (bodyFmul d a b)
  | .ffma _ d a b => some (bodyFfma d a b)
  | .fnma _ d a b => some (bodyFnma d a b)
  | .fmin _ d a b => some (bodyFmin d a b)
  | .fmax _ d a b => some (bodyFmax d a b)
  | .fabs _ d a => some (bodyFabs d a)
  | .fneg _ d a => some (bodyFneg d a)
  | .fsgnj _ d a b => some (bodyFsgnj d a b)
  | .faddF64 _ d a b => some (bodyFaddF64 d a b)
  | .fsubF64 _ d a b => some (bodyFsubF64 d a b)
  | .fmulF64 _ d a b => some (bodyFmulF64 d a b)
  | .ffmaF64 _ d a b => some (bodyFfmaF64 d a b)
  | .fnmaF64 _ d a b => some (bodyFnmaF64 d a b)
  | .fminF64 _ d a b => some (bodyFminF64 d a b)
  | .fmaxF64 _ d a b => some (bodyFmaxF64 d a b)
  | .fabsF64 _ d a => some (bodyFabsF64 d a)
  | .fnegF64 _ d a => some (bodyFnegF64 d a)
  | .fsgnjF64 _ d a b => some (bodyFsgnjF64 d a b)
  | .faddPk _ t d a b => some (bodyFaddPk t d a b)
  | .fsubPk _ t d a b => some (bodyFsubPk t d a b)
  | .fmulPk _ t d a b => some (bodyFmulPk t d a b)
  | .ffmaPk _ t d a b => some (bodyFfmaPk t d a b)
  | .fnmaPk _ t d a b => some (bodyFnmaPk t d a b)
  | .fminPk _ t d a b => some (bodyFminPk t d a b)
  | .fmaxPk _ t d a b => some (bodyFmaxPk t d a b)
  | .fnegPk _ t d a => some (bodyFnegPk t d a)
  | .frcp _ d a => some (bodyFrcp d a)
  | .frsq _ d a => some (bodyFrsq d a)
  | .fsqrt _ d a => some (bodyFsqrt d a)
  | .fexp2 _ d a => some (bodyFexp2 d a)
  | .flog2 _ d a => some (bodyFlog2 d a)
  | .fsin _ d a => some (bodyFsin d a)
  | .fcos _ d a => some (bodyFcos d a)
  | .ftanh _ d a => some (bodyFtanh d a)
  | .fclass _ d a => some (bodyFclass d a)
  | .fcmp _ k c a b => some (bodyFcmp k c a b)
  | .fcmpF64 _ k c a b => some (bodyFcmpF64 k c a b)
  | .cvtF32I32 _ d a => some (bodyCvtF32I32 d a)
  | .cvtF32N32 _ d a => some (bodyCvtF32N32 d a)
  | .cvtI32F32 _ d a => some (bodyCvtI32F32 d a)
  | .cvtN32F32 _ d a => some (bodyCvtN32F32 d a)
  | .cvtF64F32 _ d a => some (bodyCvtF64F32 d a)
  | .cvtF32F64 _ d a => some (bodyCvtF32F64 d a)
  | .cvtF64I32 _ d a => some (bodyCvtF64I32 d a)
  | .cvtF64N32 _ d a => some (bodyCvtF64N32 d a)
  | .cvtI32F64 _ d a => some (bodyCvtI32F64 d a)
  | .cvtN32F64 _ d a => some (bodyCvtN32F64 d a)
  | .cvtF32Bf16 _ d a => some (bodyCvtF32Bf16 d a)
  | .cvtF32F16 _ d a => some (bodyCvtF32F16 d a)
  | .cvtBf16F32 _ d a => some (bodyCvtBf16F32 d a)
  | .cvtF16F32 _ d a => some (bodyCvtF16F32 d a)
  | .cvtdn _ o r d a f j => some (bodyCvtdn o r d a f j)
  | .cvtup _ d a f j => some (bodyCvtup d a f j)
  | .mov _ d a => some (bodyMov d a)
  | .movcRead _ d => some (bodyMovcRead d)
  | .movcWrite _ a => some (bodyMovcWrite a)
  | .xget _ d x => some (bodyXget d x)
  | .xset _ x b => some (bodyXset x b)
  | .xadj _ x b => some (bodyXadj x b)
  | .fget _ d f => some (bodyFget d f)
  | .fset _ f b => some (bodyFset f b)
  | .mget _ d g => some (bodyMget d g)
  | .mset _ g b => some (bodyMset g b)
  | .ldLn _ o d a f => some (bodyLdLn o d a f)
  | .stLn _ o d a f => some (bodyStLn o d a f)
  | .nop _ => some bodyNop
  | _ => none

/-- The register fields of an instruction of majors 0x01 to 0x18 and of `nop` (R179). -/
def permittedFields : Instr → Option (List RegField)
  | .add _ d a b => some [d, a, b]
  | .sub _ d a b => some [d, a, b]
  | .mul _ d a b => some [d, a, b]
  | .mulhI _ d a b => some [d, a, b]
  | .mulhN _ d a b => some [d, a, b]
  | .minI _ d a b => some [d, a, b]
  | .maxI _ d a b => some [d, a, b]
  | .minN _ d a b => some [d, a, b]
  | .maxN _ d a b => some [d, a, b]
  | .and _ d a b => some [d, a, b]
  | .or _ d a b => some [d, a, b]
  | .xor _ d a b => some [d, a, b]
  | .andn _ d a b => some [d, a, b]
  | .shl _ d a b => some [d, a, b]
  | .shr _ d a b => some [d, a, b]
  | .sar _ d a b => some [d, a, b]
  | .rot _ d a b => some [d, a, b]
  | .mad _ d a b => some [d, a, b]
  | .clz _ d a => some [d, a]
  | .ctz _ d a => some [d, a]
  | .popc _ d a => some [d, a]
  | .brev _ d a => some [d, a]
  | .bfxI _ d a b => some [d, a, b]
  | .bfxN _ d a b => some [d, a, b]
  | .bfi _ d a b => some [d, a, b]
  | .absd _ d a b => some [d, a, b]
  | .sext8 _ d a => some [d, a]
  | .sext16 _ d a => some [d, a]
  | .zext8 _ d a => some [d, a]
  | .zext16 _ d a => some [d, a]
  | .mulwI _ d a b => some [d, a, b]
  | .mulwN _ d a b => some [d, a, b]
  | .cmp _ _ _ a b => some [a, b]
  | .sel _ _ _ d a b => some [d, a, b]
  | .addi _ d a _ => some [d, a]
  | .andi _ d a _ => some [d, a]
  | .ori _ d a _ => some [d, a]
  | .xori _ d a _ => some [d, a]
  | .shli _ d a _ => some [d, a]
  | .shri _ d a _ => some [d, a]
  | .sari _ d a _ => some [d, a]
  | .roti _ d a _ => some [d, a]
  | .cmpi _ _ _ a _ => some [a]
  | .muli _ d a _ => some [d, a]
  | .padd8 _ d a b => some [d, a, b]
  | .psub8 _ d a b => some [d, a, b]
  | .paddsI8 _ d a b => some [d, a, b]
  | .paddsN8 _ d a b => some [d, a, b]
  | .psubsI8 _ d a b => some [d, a, b]
  | .psubsN8 _ d a b => some [d, a, b]
  | .pminI8 _ d a b => some [d, a, b]
  | .pmaxI8 _ d a b => some [d, a, b]
  | .pminN8 _ d a b => some [d, a, b]
  | .pmaxN8 _ d a b => some [d, a, b]
  | .pabsd8 _ d a b => some [d, a, b]
  | .pshl8 _ d a b => some [d, a, b]
  | .pshr8 _ d a b => some [d, a, b]
  | .psar8 _ d a b => some [d, a, b]
  | .pavgN8 _ d a b => some [d, a, b]
  | .pdot8 _ d a b => some [d, a, b]
  | .padd16 _ d a b => some [d, a, b]
  | .psub16 _ d a b => some [d, a, b]
  | .paddsI16 _ d a b => some [d, a, b]
  | .paddsN16 _ d a b => some [d, a, b]
  | .psubsI16 _ d a b => some [d, a, b]
  | .psubsN16 _ d a b => some [d, a, b]
  | .pminI16 _ d a b => some [d, a, b]
  | .pmaxI16 _ d a b => some [d, a, b]
  | .pminN16 _ d a b => some [d, a, b]
  | .pmaxN16 _ d a b => some [d, a, b]
  | .pabsd16 _ d a b => some [d, a, b]
  | .pshl16 _ d a b => some [d, a, b]
  | .pshr16 _ d a b => some [d, a, b]
  | .psar16 _ d a b => some [d, a, b]
  | .pavgN16 _ d a b => some [d, a, b]
  | .pdot16 _ d a b => some [d, a, b]
  | .addD _ d a b => some [d, a, b]
  | .subD _ d a b => some [d, a, b]
  | .shlD _ d a b => some [d, a, b]
  | .shrD _ d a b => some [d, a, b]
  | .sarD _ d a b => some [d, a, b]
  | .addxI _ d a b => some [d, a, b]
  | .addxN _ d a b => some [d, a, b]
  | .andD _ d a b => some [d, a, b]
  | .orD _ d a b => some [d, a, b]
  | .xorD _ d a b => some [d, a, b]
  | .fadd _ d a b => some [d, a, b]
  | .fsub _ d a b => some [d, a, b]
  | .fmul _ d a b => some [d, a, b]
  | .ffma _ d a b => some [d, a, b]
  | .fnma _ d a b => some [d, a, b]
  | .fmin _ d a b => some [d, a, b]
  | .fmax _ d a b => some [d, a, b]
  | .fabs _ d a => some [d, a]
  | .fneg _ d a => some [d, a]
  | .fsgnj _ d a b => some [d, a, b]
  | .faddF64 _ d a b => some [d, a, b]
  | .fsubF64 _ d a b => some [d, a, b]
  | .fmulF64 _ d a b => some [d, a, b]
  | .ffmaF64 _ d a b => some [d, a, b]
  | .fnmaF64 _ d a b => some [d, a, b]
  | .fminF64 _ d a b => some [d, a, b]
  | .fmaxF64 _ d a b => some [d, a, b]
  | .fabsF64 _ d a => some [d, a]
  | .fnegF64 _ d a => some [d, a]
  | .fsgnjF64 _ d a b => some [d, a, b]
  | .faddPk _ _ d a b => some [d, a, b]
  | .fsubPk _ _ d a b => some [d, a, b]
  | .fmulPk _ _ d a b => some [d, a, b]
  | .ffmaPk _ _ d a b => some [d, a, b]
  | .fnmaPk _ _ d a b => some [d, a, b]
  | .fminPk _ _ d a b => some [d, a, b]
  | .fmaxPk _ _ d a b => some [d, a, b]
  | .fnegPk _ _ d a => some [d, a]
  | .frcp _ d a => some [d, a]
  | .frsq _ d a => some [d, a]
  | .fsqrt _ d a => some [d, a]
  | .fexp2 _ d a => some [d, a]
  | .flog2 _ d a => some [d, a]
  | .fsin _ d a => some [d, a]
  | .fcos _ d a => some [d, a]
  | .ftanh _ d a => some [d, a]
  | .fclass _ d a => some [d, a]
  | .fcmp _ _ _ a b => some [a, b]
  | .fcmpF64 _ _ _ a b => some [a, b]
  | .cvtF32I32 _ d a => some [d, a]
  | .cvtF32N32 _ d a => some [d, a]
  | .cvtI32F32 _ d a => some [d, a]
  | .cvtN32F32 _ d a => some [d, a]
  | .cvtF64F32 _ d a => some [d, a]
  | .cvtF32F64 _ d a => some [d, a]
  | .cvtF64I32 _ d a => some [d, a]
  | .cvtF64N32 _ d a => some [d, a]
  | .cvtI32F64 _ d a => some [d, a]
  | .cvtN32F64 _ d a => some [d, a]
  | .cvtF32Bf16 _ d a => some [d, a]
  | .cvtF32F16 _ d a => some [d, a]
  | .cvtBf16F32 _ d a => some [d, a]
  | .cvtF16F32 _ d a => some [d, a]
  | .cvtdn _ _ _ d a _ _ => some [d, a]
  | .cvtup _ d a _ _ => some [d, a]
  | .mov _ d a => some [d, a]
  | .movcRead _ d => some [d]
  | .movcWrite _ a => some [a]
  | .xget _ d _ => some [d]
  | .xset _ _ b => some [b]
  | .xadj _ _ b => some [b]
  | .fget _ d _ => some [d]
  | .fset _ _ b => some [b]
  | .mget _ d _ => some [d]
  | .mset _ _ b => some [b]
  | .nop _ => some []
  | _ => none

/-- The instruction of a word of the majors that `xiss` permits. -/
def decodePermitted (u : Word) : Option Instr :=
  match (u.extractLsb' 25 6).toNat with
  | 0x01 => decodeMajor01 u
  | 0x02 => decodeMajor02 u
  | 0x03 => decodeMajor03 u
  | 0x04 => decodeMajor04 u
  | 0x05 => decodeMajor05 u
  | 0x06 => decodeMajor06 u
  | 0x07 => decodeMajor07 u
  | 0x08 => decodeMajor08 u
  | 0x09 => decodeMajor09 u
  | 0x0A => decodeMajor0A u
  | 0x0B => decodeMajor0B u
  | 0x0C => decodeMajor0C u
  | 0x0D => decodeMajor0D u
  | 0x0E => decodeMajor0E u
  | 0x10 => decodeMajor10 u
  | 0x11 => decodeMajor11 u
  | 0x12 => decodeMajor12 u
  | 0x13 => decodeMajor13 u
  | 0x14 => decodeMajor14 u
  | 0x15 => decodeMajor15 u
  | 0x16 => decodeMajor16 u
  | 0x17 => decodeMajor17 u
  | 0x18 => decodeMajor18 u
  | 0x1F => decodeMajor1F u
  | 0x20 => decodeMajor20 u
  | 0x21 => decodeMajor21 u
  | _ => none

/-- The description of a permitted word: W = 0 and an assigned encoding (R259, R303). -/
def permittedWord (u : Word) : Option (Issue Unit) :=
  if u.msb then none else
  match decodePermitted u with
  | none => none
  | some i => if i.wf then permittedBody i else none

/-- A word is executed in place of the `xiss` with no hint; one that raises illegal-instruction executes nothing
(R303). -/
def runWord (u : Word) (b : Issue Unit) : Issue Bool := fun c =>
  let r := (b { c with word := u, hs := HintSet.empty, flag := none, unknown := false }).2
  match r.flag with
  | some (.illegalInstruction, _) => (false, c)
  | _ => (true, r)

/-- An illegal word, read through a field: the thread goes on to the next instruction and takes illegal-xiss-word there, after its accesses
have committed (R155, R303). -/
def illegalXiss (a : BitVec 7) (u : Word) : Issue Unit := do
  let c ← get
  if c.th.log ≠ [] then holdFor (.xiss u c.th.x (if 112 ≤ a.toNat ∧ a.toNat < 116 then some (a.toNat - 112) else none))
  modify (fun c => { c with late := some (.illegalXissWord, u.setWidth 64) })

/-- R303 -/
def bodyXiss (a : BitVec 7) : Issue Unit := do
  let u ← src a
  let c ← get
  if c.flag.isNone && !c.stall && !c.starve then
    match permittedWord u with
    | none => illegalXiss a u
    | some b => do
      let ok ← runWord u b
      if !ok then illegalXiss a u

/-- R303 -/
def execXiss (w : BitVec 1) (a : BitVec 7) (st : State) : Host.Outcome State Fault Refusal :=
  plain (Enc.xiss w a) .nothing (bodyXiss a) st

end Sys2Proof.Machine
end

