-- ==== Sys2Proof/Machine/Flume.lean ====
section
/-! DEFINITION. The flume and the dataflow table (R177 to R179, R332, R333): `chain` and `task`, with opcode-table rows
FLUME_ELEMENT and DATAFLOW_DISPATCH. -/
namespace Sys2Proof.Machine

/-! ### The descriptor (R178) -/

/-- Bytes of a descriptor as a number. -/
def descField (d : List Byte) (at' n : Nat) : Nat := leNat ((d.drop at').take n)
/-- The source address. -/
def descSrc (d : List Byte) : Nat := descField d 0 8
/-- The destination address. -/
def descDst (d : List Byte) : Nat := descField d 8 8
/-- The number of elements. -/
def descCount (d : List Byte) : Nat := descField d 16 4
/-- The offset of the barrier object. -/
def descBar (d : List Byte) : Nat := 8 * descField d 20 2
/-- The source space. -/
def descSsp (d : List Byte) : Nat := bits (descField d 23 1) 1 0
/-- The destination space. -/
def descDsp (d : List Byte) : Nat := bits (descField d 23 1) 3 2
/-- The operation words. -/
def descOps (d : List Byte) : List Word := (List.range (descField d 22 1)).map (fun j => BitVec.ofNat 32 (descField d (64 + 4 * j) 4))
/-- The constants of registers v8 to v15. -/
def descConsts (d : List Byte) : List Word := (List.range 8).map (fun j => BitVec.ofNat 32 (descField d (32 + 4 * j) 4))
/-- A chain with a local `.gl` destination owns its range (R181). -/
def descOwns (d : List Byte) : Bool := decide (descDsp d = 3) && decide (descDst d < 2 ^ 63)

/-! ### Operation words (R179) -/

/-- A word is one that the flume permits: from the set of `xiss` without lane-slice accesses, its register fields below
16, no overflow policy TRAP (R179). -/
def flumeWordOk (u : Word) : Bool :=
  !u.msb && (match decodePermitted u with
    | none => false
    | some i => i.wf && (match permittedFields i with
      | none => false
      | some fs => fs.all (fun f => decide (f.toNat < 16))) && (match i with
        | .cvtdn _ o _ _ _ _ _ => decide (o ≠ 3)
        | _ => true))

/-- The registers of element i before its first word: rounding code 110 means RNE, and the generator is seeded by the
thread's srseed ^ i (R179). The formats are those of the issuing thread at issue (PRESUMED: log entry 29). -/
def flumeThread (c : Chain) (i : Nat) (v : Word) : Thread :=
  let seed : Word := c.seed ^^^ BitVec.ofNat 32 i
  { Thread.start 0 0 16 (v :: List.replicate 7 0 ++ descConsts c.desc) 0 false with
    f := c.fmts, gen := if seed = 0 then 0x9E3779B9 else seed }

/-- The words that a flume checks on made-up data: an `fset`, whose value decides whether its check fails, is left out (R179). -/
def checkedWords (ws : List Word) : List Word := ws.filter (fun u => match decodePermitted u with
  | some (.fset _ _ _) => false
  | _ => true)

/-- A chain has a word that checks a format that its data give: no element of it is written before all have passed (R179). -/
def Chain.gated (c : Chain) : Bool := decide (checkedWords (descOps c.desc) ≠ descOps c.desc)

/-- Runs words on a working thread; none where one raises a cause. -/
def flumeWords : List Word → Ctx → Option Ctx
  | [], c => some c
  | u :: r, c =>
    match permittedWord u with
    | none => none
    | some b =>
      let d := (b { c with word := u, hs := HintSet.empty }).2
      if d.flag.isSome || d.stall || d.starve then none else flumeWords r d

/-- The value that the words give an element (R179). -/
def flumeValue (c : Chain) (i : Nat) (v : Word) : Option Word :=
  (flumeWords (descOps c.desc) (Ctx.start State.reset c.thread (flumeThread c i v) 0 .nothing)).map (fun d => d.th.reg 0)

/-- The checks of R178 and R179 that stop a chain at its issue; a word whose operands never fit is found on element 0 with a zero. -/
def chainOk (c : Chain) : Bool :=
  let d := c.desc
  decide (1 ≤ descField d 22 1) && decide (descField d 22 1 ≤ 8) && decide (1 ≤ descCount d) && decide (descSrc d % 4 = 0)
    && decide (descDst d % 4 = 0) && (descOps d).all flumeWordOk
    && (flumeWords (checkedWords (descOps d)) (Ctx.start State.reset c.thread (flumeThread c 0 0) 0 .nothing)).isSome

/-- The barrier of a chain, where it exists. -/
def State.chainBars (s : State) (c : Chain) : List BarName :=
  let b := BarName.object c.thread.teamId (descBar c.desc)
  if s.barExists b then [b] else []

/-- The chain that a thread's descriptor describes. -/
def Ctx.chainAt (c : Ctx) (off : Nat) : Chain :=
  let desc := Memory.read c.s.mem (c.s.coPa c.id.teamId off) 128
  { thread := c.id, stamp := c.s.stamp, asid := c.s.asidOf c.id.teamId, kernel := c.th.kernel, seed := c.th.srseed, fmts := c.th.f
    desc := desc, pending := List.range (descCount desc), tag := c.s.nextId, view := c.th.sofar }

/-- The range of a chain (R181): freed element by element. -/
def chainRange (c : Chain) : List Range :=
  if descOwns c.desc then
    [{ tag := c.tag, asid := c.asid, left := c.pending.map (fun i => (descDst c.desc + 4 * i, 4)), unit := 1 }] else []

/-- The issue of a chain: a failed check is reported on the barrier (R179, R333). -/
def startChain (off : Nat) (place : Chain → State → State) : Issue Unit := do
  let c ← get
  let ch := c.chainAt off
  if !c.s.doneBefore c.id c.s.stamp then waitPerformed
  else if !chainOk ch then modDev (fun s => s.arriveAll (s.chainBars ch) (4 * descCount ch.desc) true .none)
  else if !c.s.canOwn c.id.core (chainRange ch) then stallNow
  else modDev (fun s => place ch (({ s with nextId := ch.tag + 1, stamp := s.stamp + 1 } : State).modCore c.id.core
    (fun k => { k with ranges := k.ranges ++ chainRange ch })))

/-- R333 -/
def bodyChain (a : BitVec 7) : Issue Unit := do
  let off ← coOffset a 128 128
  let c ← get
  startChain off (fun ch s => s.modCore c.id.core (fun k => { k with chains := k.chains ++ [ch] }))
/-- R333 -/
def execChain (w : BitVec 1) (a : BitVec 7) (st : State) : Host.Outcome State Fault Refusal :=
  issue (Enc.chain w a) true .nothing (bodyChain a) id st

/-! ### Elements (R179) -/

/-- An element is over: 4 bytes arrive, its grain is freed, and the chain goes with its last element (R177, R179). -/
def State.elementDone (s : State) (core : Nat) (c : Chain) (i : Nat) (err : Bool) : State :=
  let left := c.pending.filter (fun j => decide (j ≠ i))
  let into := memRanges (s.engineParts c.thread c.kernel (descDsp c.desc) (descDst c.desc + 4 * i) 4 .store)
  let s := s.arriveAll (s.chainBars c) 4 err (c.view.join (s.countedView c.thread.teamId into))
  (s.modCore core (fun k =>
    let k := k.releasePiece c.tag (descDst c.desc + 4 * i) 4
    if left = [] then { k with chains := k.chains.filter (fun x => decide (x.tag ≠ c.tag)), flow := k.flow.filter (fun e => !e.runs c.tag) }
    else { k with chains := k.chains.map (fun x => if x.tag = c.tag then { x with pending := left } else x) })).convEverywhere

/-- An element fails; the failure of a self-rank check is counted (R65, R179). -/
def State.elementFail (s : State) (core : Nat) (c : Chain) (i code : Nat) : State := (s.countCode code).elementDone core c i true

/-- A failed remote source of an element is also the thread's (R26, R44, R65). -/
def State.elementUnanswered (s : State) (core : Nat) (c : Chain) (i : Nat) : State :=
  (s.pend c.thread .remoteAccessFailure (BitVec.ofNat 64 (descSrc c.desc + 4 * i))).elementDone core c i true

/-- The value of an element goes to its destination. -/
def State.elementWrite (s : State) (core : Nat) (c : Chain) (i : Nat) (x : Word) : State :=
  let va := descDst c.desc + 4 * i
  let ps := s.engineParts c.thread c.kernel (descDsp c.desc) va 4 .store
  match s.partStop (core, 1) false 0 ps with
  | .missing va => s.engineBatch ⟨core, c.thread.team, 1⟩ (dieOf core) c.asid va 1 (.element core c.tag i)
  | .wait => s
  | .fail code => s.elementFail core c i code
  | .poison _ => s
  | .go =>
    if s.podBlocked c.stamp ps || !s.podFlows ps then s else
    let a : Dword := BitVec.ofNat 64 va
    let b : BufStore := { thread := c.thread, stamp := c.stamp, issue := c.stamp, kernel := c.kernel, access := .store .gl a 4 .plain .dev x.toNat
                          parts := ps, done := [] }
    (s.storeParts (s.engineOrigin c.thread.teamId (descOwns c.desc)) b a (natBytes 4 x.toNat) 0 ps).elementDone core c i false

/-- A format check has failed before any element was written: the chain stops, and what it has left arrives with err (R179). -/
def State.stopChain (s : State) (core : Nat) (c : Chain) : State :=
  ((s.arriveAll (s.chainBars c) (4 * c.pending.length) true c.view).modCore core (fun k =>
    { k.releaseAll c.tag with chains := k.chains.filter (fun x => decide (x.tag ≠ c.tag)), flow := k.flow.filter (fun e => !e.runs c.tag) })).convEverywhere

/-- The value read for an element: its words run on it, and the result is written, or waits until every element has passed its format checks
(R179). -/
def State.elementValue (s : State) (core : Nat) (c : Chain) (i : Nat) (v : Word) : State :=
  match flumeValue c i v with
  | none => s.stopChain core c
  | some x =>
    if !c.gated then s.elementWrite core c i x
    else s.modCore core (fun k => { k with chains := k.chains.map (fun d => if d.tag = c.tag then { d with ready := AMap.set d.ready i x } else d) })

/-- The value of an element that waits, once every element that is left has passed. -/
def Chain.released (c : Chain) (i : Nat) : Option Word :=
  if c.pending.all (fun j => (AMap.get? c.ready j).isSome) then AMap.get? c.ready i else none

/-- An element address of a scratchpad space lies in it (R157). -/
def State.elementInSpace (s : State) (c : Chain) (sp a : Nat) : Bool :=
  decide (sp = 3) || (decide (a < 2 ^ 32) && s.inRange c.thread (rqSpace sp) a 4)

/-- FLUME_ELEMENT: one element of a chain is read, computed and written, or fails; where a format check depends on the data, every element is
read and computed before one is written (R26, R65, R179, R383). -/
def execFlumeElement (core chain element : Nat) (remote : Remote) (s : State) : Host.Outcome State Fault Refusal :=
  match (s.core core).chains.find? (fun c => c.tag == chain) with
  | none => .next s
  | some c =>
    if !c.pending.contains element || s.engineWaits (.element core chain element) || s.unitStopped (.flume core) then .next s else
    match AMap.get? c.ready element, c.released element with
    | some _, some x => .next (s.elementWrite core c element x)
    | some _, none => .next s
    | none, _ =>
    let a := descSrc c.desc + 4 * element
    if !s.elementInSpace c (descSsp c.desc) a || !s.elementInSpace c (descDsp c.desc) (descDst c.desc + 4 * element) then
      .next (s.elementDone core c element true)
    else
      let ps := s.engineParts c.thread c.kernel (descSsp c.desc) a 4 .load
      let near := fun ps => s.engineRead c.thread.teamId c.view c.tag element (memRanges ps)
      match s.partStop (core, 1) true 0 ps with
      | .missing va => .next (s.engineBatch ⟨core, c.thread.team, 1⟩ (dieOf core) c.asid va 0 (.element core c.tag element))
      | .wait => .next s
      | .fail code => .next (s.elementFail core c element code)
      | .poison i => .next ((s.pend c.thread .uncorrectableMemory (spaceVa (descSsp c.desc) (a + i))).elementDone core c element true)
      | .go =>
        if isFar ps then
          .next (if !s.podFlows ps then s else let s := s.numberReads (if remote = .none then [] else ps); match remote with
            | .data b => if b.length = farBytes ps then s.elementValue core c element (BitVec.ofNat 32 (leNat (mergeParts ps (near ps) b))) else s
            | .failed => s.elementUnanswered core c element
            | .none => s)
        else .next (s.elementValue core c element (BitVec.ofNat 32 (leNat (near ps))))

/-! ### task (R332) -/

/-- A present tile of a quad exists and is defined. -/
def quadTile (t : Nat) : Issue Unit := do
  tileExists (BitVec.ofNat 8 t)
  tileDefined (BitVec.ofNat 8 t)

/-- Places an entry in the dataflow table (R177, R332). -/
def State.placeFlow (s : State) (id : TeamId) (cmd : FlowCmd) (tiles : TaskTiles) : State :=
  let e : FlowEntry := { team := id, cmd := cmd, tiles := tiles, running := false }
  s.modCore id.core (fun k => { k with flow := k.flow ++ [e] })

/-- A `task` of kind 0: the request is read at issue, and owns its range where it passes its check (R181, R332). -/
def taskCopy (off : Nat) (tiles : TaskTiles) : Issue Unit := do
  let c ← get
  let id := c.id.teamId
  let r := c.s.read (c.s.coPa id off) 32
  if !c.s.doneBefore c.id c.s.stamp then waitPerformed
  else do
    flagWordIf (rqTileDst r && decide (tiles.out ≠ some (rqTile r))) .reservedOperand
    let tag := c.s.nextId
    let req : CopyReq := { thread := c.id, stamp := c.s.stamp, asid := c.s.asidOf id, kernel := c.th.kernel, raw := r, started := true
                           cuts := c.s.rqPieces r, pieces := List.range (c.s.rqPieces r).length, drained := false, tag := tag, view := c.th.sofar }
    let mine := if c.s.rqOk id r then req.ranges else []
    if !c.s.canOwn id.core mine then stallNow
    else
      modDev (fun s => (({ s with nextId := tag + 1, stamp := s.stamp + 1 } : State).modCore id.core
        (fun k => { k with ranges := k.ranges ++ mine })).placeFlow id (.copy req) tiles)

/-- A `task` of kind 2: the thread signs the word; `mldb` takes its tile as an input, `mst` as the output (R332). -/
def taskWord (w : Word) (tiles : TaskTiles) : Issue Unit :=
  match (if w.extractLsb' 25 6 = 0x2F then decodeMajor2F w else none) with
  | some (.mma 0 g s o l u) => do
    let k ← block s 2 2
    let a ← regOf k
    let b ← regOf (k + 1)
    let v ← src o
    sign g (.mma v l.toNat (decide (u = 1))) a b (some tiles)
  | some (.mldb 0 g o) => do
    let v ← src o
    quadTile (v.extractLsb' 0 8).toNat
    sign g (.mldb v) 0 0 (some { tiles with inputs := tiles.inputs ++ [(v.extractLsb' 0 8).toNat] })
  | some (.mzero 0 g c) => sign g (.mzero c.toNat) 0 0 (some tiles)
  | some (.mst 0 g o) => do
    let v ← src o
    quadTile (v.extractLsb' 4 8).toNat
    sign g (.mst v) 0 0 (some { tiles with out := some (v.extractLsb' 4 8).toNat })
  | _ => flagWord .reservedOperand

/-- R332 -/
def bodyTask (a : BitVec 7) : Issue Unit := do
  let n ← block a 4 4
  let c ← get
  let v := fun i => c.th.reg (n + i)
  let kind := (v 0).extractLsb' 0 2
  flagWordIf (decide ((v 0).extractLsb' 2 30 ≠ 0) || decide (kind = 3) || decide ((v 3).extractLsb' 13 19 ≠ 0)) .reservedOperand
  let ins := ((List.range 4).filter (fun j => (v 3).getLsbD (9 + j))).map (fun j => bits (v 2).toNat (8 * j + 7) (8 * j))
  let out := if (v 3).getLsbD 8 then some ((v 3).extractLsb' 0 8).toNat else none
  ins.forM quadTile
  match out with
  | some t => quadTile t
  | none => pure ()
  let tiles : TaskTiles := { inputs := ins, out := out }
  let off := (v 1).toNat
  let room := decide ((c.s.core c.id.core).flow.length < tableSize)
  if kind = 2 then taskWord (v 1) tiles
  else do
    let size := if kind = 0 then 32 else 128
    flagIf (decide (off % size ≠ 0)) .misaligned ((v 1).setWidth 64)
    flagIf (!c.s.inRange c.id .co off size) .permission ((v 1).setWidth 64)
    if !room then stallNow
    else if kind = 0 then taskCopy off tiles
    else startChain off (fun ch s => s.placeFlow c.id.teamId (.chain ch) tiles)
/-- R332 -/
def execTask (w : BitVec 1) (a : BitVec 7) (st : State) : Host.Outcome State Fault Refusal :=
  issue (Enc.task w a) true .nothing (bodyTask a) id st

/-! ### Dispatch (R177) -/

/-- The tiles that an entry fills: its output, and what a multicast copy fills on other cores. -/
def State.flowFills (s : State) (e : FlowEntry) : List (TeamId × Nat) :=
  let own := match e.tiles.out with
    | some t => [(e.team, t)]
    | none => []
  match e.cmd with
  | .copy c => (own ++ (s.rqFills e.team c.raw).map (fun t => (t, rqTile c.raw))).eraseDups
  | _ => own

/-- The engine of an entry takes new work (R122). -/
def State.flowUnit (s : State) (core : Nat) (e : FlowEntry) : Bool :=
  match e.cmd with
  | .copy _ => !s.unitStopped (.headgate core)
  | .chain _ => !s.unitStopped (.flume core)
  | .matrix _ => !s.unitStopped (.matrix core)

/-- An entry can be dispatched (R168, R177). -/
def State.flowReady (s : State) (core : Nat) (e : FlowEntry) : Bool :=
  !e.running && s.flowUnit core e && e.tiles.inputs.all (fun t => s.tileIs e.team t .ready)
    && (s.flowFills e).all (fun p => s.tileIs p.1 p.2 .empty)
    && (match e.cmd with
      | .copy c => s.rqSourceReady e.team c.raw
      | _ => true)

/-- The operation of a `task` as it issues: with the reservations that are in force then (R332, R334, R340, R354). -/
def State.issuedNow (s : State) (m : MatrixOp) : MatrixOp :=
  let f := s.matrixOp m.team [] m.op none
  { m with resvA := f.resvA, resvB := f.resvB }

/-- An operation still passes the checks of its description as it issues from the table (R136, R183; DEDUCED: log entry 104). -/
def State.stillFits (s : State) (m : MatrixOp) : Bool :=
  match s.team? m.team with
  | some t => t.opOk (s.pairLaunch m.team) m.ssb m.op m.words.length
  | none => false

/-- What happens before an operation of the table: what its issuer had seen and done, and what its input tiles count (R199). -/
def State.flowView (s : State) (e : FlowEntry) (v : View) : View := v.join (s.tilesView e.team e.tiles.inputs)

/-- Runs an entry that passes its checks: its tiles are filled, and its engine has it (R168, R177). -/
def State.flowRun (s : State) (core i : Nat) (e : FlowEntry) : State :=
  let s := (s.flowFills e).foldl (fun s p => s.fillTile p.1 p.2) s
  let mark := fun (cmd : FlowCmd) (k : Core) => { k with flow := k.flow.set i { e with cmd := cmd, running := true } }
  match e.cmd with
  | .copy c => (s.drainTile e.team c.raw).modCore core (fun k => { mark (.copy c) k with copies := k.copies ++ [c] })
  | .chain c => s.modCore core (fun k => { mark (.chain c) k with chains := k.chains ++ [c] })
  | .matrix m => s.modCore core (fun k => mark (.matrix { m with number := k.issued }) (k.enqueue m))

/-- Hands an entry to its engine. A copy that fails its check reports it and frees the entry (R174, R177), and so does a matrix operation whose
reservations no longer fit. -/
def State.flowStart (s : State) (core i : Nat) (e : FlowEntry) : State :=
  let drop := fun (k : Core) => { k with flow := k.flow.eraseIdx i }
  match e.cmd with
  | .matrix m =>
    let u := s.modTeam e.team (fun t => t.signaturesGone (8 + m.stamp))
    if s.stillFits m then u.flowRun core i { e with cmd := .matrix { s.issuedNow m with view := s.flowView e m.view } }
    else (u.pendOp m).modCore core drop
  | .copy c =>
    if s.rqOk e.team c.raw then s.flowRun core i { e with cmd := .copy { c with view := s.flowView e (s.rqView c) } }
    else ((s.arriveAll (s.rqBars e.team c.raw) (rqLen c.raw) true .none).count 0x1088).modCore core (fun k => drop (k.releaseAll c.tag))
  | .chain c => s.flowRun core i { e with cmd := .chain { c with view := s.flowView e c.view } }

/-- DATAFLOW_DISPATCH: the oldest entry that can be dispatched is (R177). -/
def execDataflowDispatch (core : Nat) (s : State) : Host.Outcome State Fault Refusal :=
  let flow := (s.core core).flow
  match (List.range flow.length).findSome? (fun i => match flow[i]? with
      | some e => if s.flowReady core e then some (i, e) else none
      | none => none) with
  | none => .next s
  | some (i, e) => .next (s.flowStart core i e)

end Sys2Proof.Machine
end

