-- ==== Sys2Proof/Machine/Handles.lean ====
section
/-! DEFINITION. The pages that the tables map (R184), the priorities that residency handles give them (R165), and which lines L2 may
evict (R166). -/
namespace Sys2Proof.Machine

/-! ### The pages of an address space -/

/-- The numbers of the 8-byte words of a table of `n` that have a listed byte; the others read zero, an invalid entry. -/
def State.wordsIn (s : State) (a n : Nat) : List Nat :=
  ((s.mem.filter (fun c => decide (a ≤ c.1) && decide (c.1 < a + 8 * n))).map (fun c => (c.1 - a) / 8)).eraseDups

/-- What a table maps: first page, whether a block of 8,192, and the leaf. -/
structure Mapped where
  page  : Nat
  block : Bool
  entry : Nat
  deriving DecidableEq, Repr

/-- The pages below one level-2 entry (R184). -/
def State.mappedBelow (s : State) (asid page e2 : Nat) : List Mapped :=
  match s.walk asid (page * 65536) with
  | some (e, true) => [{ page := page, block := true, entry := e }]
  | _ =>
    if !pointerOk e2 then [] else
    (s.wordsIn (bits e2 47 16 * 65536) 8192).filterMap (fun i =>
      match s.walk asid ((page + i) * 65536) with
      | some (e, false) => some { page := page + i, block := false, entry := e }
      | _ => none)

/-- Every page that the tables of an address space map (R184). -/
def State.mapped (s : State) (asid : Nat) : List Mapped :=
  let root := s.read (bits (s.reg64 0x280030) 47 0 + 8 * asid) 8
  if bits root 0 0 = 0 ∨ bits root 8 1 ≠ 0 ∨ bits root 63 48 ≠ 0 then [] else
  (s.wordsIn (bits root 47 9 * 512) 64).flatMap (fun i =>
    let e1 := s.read (bits root 47 9 * 512 + 8 * i) 8
    if !pointerOk e1 then [] else
    (s.wordsIn (bits e1 47 16 * 65536) 8192).flatMap (fun j =>
      s.mappedBelow asid (i * 2 ^ 26 + j * 8192) (s.read (bits e1 47 16 * 65536 + 8 * j) 8)))

/-- The address spaces whose entry of the ASID table is not zero. -/
def State.asids (s : State) : List Nat := s.wordsIn (bits (s.reg64 0x280030) 47 0) 65536

/-- The number of pages that a leaf maps. -/
def Mapped.count (m : Mapped) : Nat := if m.block then 8192 else 1

/-- The physical address of what a leaf maps. -/
def Mapped.pa (m : Mapped) : Nat := leafPa m.entry m.block (m.page * 65536)

/-! ### Handles (R165) -/

/-- A handle covers a page. -/
def Handle.covers (h : Handle) (asid page : Nat) : Bool :=
  decide (h.asid = asid) && decide (h.base / 65536 ≤ page) && decide (page < h.base / 65536 + h.pages)

/-- The priority of a page: the highest of the handles that cover it, none where no handle does (R165). -/
def State.pageHandle (s : State) (asid page : Nat) : Option Nat :=
  s.handles.foldl (fun m p => if p.2.covers asid page then some (max (m.getD 0) p.2.prio) else m) none

/-- The handle has a page in a leaf. -/
def Handle.touches (h : Handle) (m : Mapped) : Bool :=
  decide (h.base / 65536 < m.page + m.count) && decide (m.page < h.base / 65536 + h.pages)

/-! ### L2 eviction (R166) -/

/-- The handles that name a line of L2 (R166). -/
def State.lineHandles (s : State) (line : Nat) : List Handle :=
  (s.handles.map (fun p => p.2)).filter (fun h => (s.mapped h.asid).any (fun m =>
    let page := m.page + (line * 512 - m.pa) / 65536
    decide (m.pa ≤ line * 512) && decide (line * 512 < m.pa + m.count * 65536) && h.covers h.asid page))

/-- How late a line was used last: its place among the lines in the order of their last use. -/
def State.lastUse (s : State) (line : Nat) : Nat := s.recent.idxOf line

/-- How late a handle was used last: the last use of any of its lines. -/
def State.handleUse (s : State) (h : Handle) : Nat :=
  s.recent.foldl (fun m l => if (s.lineHandles l).contains h then max m (s.lastUse l + 1) else m) 0

/-- The highest priority of some handles, none where there is none. -/
def topPrio (hs : List Handle) : Option Nat := hs.foldl (fun m h => some (max (m.getD 0) h.prio)) none

/-- A line that is left does not come before one of a handle in L2's order: it is of other handles, of a higher priority, or of the same one
and used no less recently (R166). -/
def State.evictsAfter (s : State) (line l : Nat) : Bool :=
  let mine := s.lineHandles line
  let hs := s.lineHandles l
  hs.all (fun h => !mine.contains h) && (match topPrio mine, topPrio hs with
    | some p, some q => decide (p < q) || (decide (p = q) && mine.any (fun h => hs.any (fun k => decide (s.handleUse h ≤ s.handleUse k))))
    | _, _ => false)

/-- L2 may evict a line together with others: those of no handle in the order of their last use; one of a handle only below priority 15, once no
line of no handle is left, with every line of that handle, and before no handle of lower priority or of the same one and used less recently
(R166; DEDUCED: log entry 84). The lines that are left are those with a record. -/
def State.mayEvict (s : State) (ls : List Nat) (line : Nat) : Bool :=
  let left := (s.scopeRec.map (fun p => p.1)).filter (fun l => !ls.contains l)
  match topPrio (s.lineHandles line) with
  | none => left.all (fun l => !(s.lineHandles l).isEmpty || decide (s.lastUse line ≤ s.lastUse l))
  | some p => decide (p < 15) && left.all (s.evictsAfter line)

/-- Every handle in L2 has priority 15: an access may proceed without allocating (R166). -/
def State.allPinned (s : State) : Bool :=
  s.handles.any (fun p => p.2.prio == 15) && s.scopeRec.all (fun p => (s.lineHandles p.1).any (fun h => h.prio == 15))

/-- After an access that has allocated no line: those that L2 did not hold keep no record (R164, R166). -/
def State.unallocated (s : State) (before : State) : State :=
  { s with scopeRec := s.scopeRec.filter (fun p => before.scopeRec.any (fun q => q.1 == p.1)) }

/-- L2 evicts lines, and the scopes recorded on them go (R164, R166). -/
def State.evictLines (s : State) (ls : List Nat) : State :=
  if ls.all (s.mayEvict ls) then { s with scopeRec := s.scopeRec.filter (fun p => !ls.contains p.1) } else s

end Sys2Proof.Machine
end

