-- ==== Sys2Proof/Machine/System.lean ====
section
/-! DEFINITION. System instructions, major 0x32 without `spawn` (R348 to R353), with opcode-table rows TLBINV_COMPLETE,
PARK_EXPIRE and WFE_TIMEOUT. -/
namespace Sys2Proof.Machine

/-! ### svc (R348) -/

/-- R348: the thread posts its six argument words and parks. Its hints are used up by the call. -/
def bodySvc (a : BitVec 7) (n : BitVec 13) : Issue Unit := do
  let h ← get
  let number := h.hs.immU n.toNat 13
  if 2 ^ 16 ≤ number then flagWord .illegalInstruction
  let m ← block a 2 6
  let c ← get
  let call : Call := { member := c.id.mem, number := number, args := (List.range 6).map (fun i => c.th.reg (m + i)), addr := 0
                       access := 0, dst := m }
  modDev (fun s => s.joinBatch c.id.group 0 call)
  modTh (fun t => { t with hints := [] })
  parkAt .call
/-- R348 -/
def execSvc (w : BitVec 1) (a : BitVec 7) (n : BitVec 13) (st : State) : Host.Outcome State Fault Refusal :=
  issue (Enc.svc w a n) true .immOnly (bodySvc a n) id st

/-! ### trap and tret (R216, R349) -/

/-- The cause of a code (R213). -/
def Cause.ofCode : Nat → Option Cause
  | 0x01 => some .illegalInstruction | 0x02 => some .reservedOperand | 0x03 => some .indexBound | 0x04 => some .misaligned
  | 0x05 => some .straddle | 0x06 => some .translation | 0x07 => some .permission | 0x08 => some .illegalMatrix
  | 0x09 => some .illegalFormat | 0x0A => some .conversionOverflow | 0x0B => some .illegalXissWord
  | 0x0C => some .convergenceDeadlock | 0x0D => some .pairTimeout | 0x0E => some .scopeMismatch | 0x0F => some .illegalTret
  | 0x10 => some .badStatus | 0x11 => some .breakpoint | 0x12 => some .serviceCall | 0x13 => some .undefinedTile
  | 0x14 => some .uncorrectableMemory | 0x15 => some .remoteAccessFailure | 0x16 => some .doubleTrap | _ => none

/-- A cause that `trap` cannot raise (R349). -/
def Cause.untrappable (c : Cause) : Bool := decide (c = .translation) || decide (c = .serviceCall) || decide (c = .doubleTrap)

/-- The tval of a `trap` (R349). -/
def Cause.trapValue (c : Cause) (word v : Word) : Dword :=
  match c with
  | .illegalInstruction => word.setWidth 64
  | .reservedOperand => word.setWidth 64
  | .illegalMatrix => word.setWidth 64
  | .convergenceDeadlock => 0
  | .illegalTret => 0
  | _ => v.setWidth 64

/-- R349 -/
def bodyTrap (c : BitVec 8) (a : BitVec 7) : Issue Unit := do
  let v ← src a
  let h ← get
  match Cause.ofCode c.toNat with
  | none => flagWord .illegalInstruction
  | some k => if k.untrappable then flagWord .illegalInstruction else flag k (k.trapValue h.word v)
/-- R349 -/
def execTrap (w : BitVec 1) (c : BitVec 8) (a : BitVec 7) (st : State) : Host.Outcome State Fault Refusal :=
  plain (Enc.trap w c a) .nothing (bodyTrap c a) st

/-- A thread that has returned from a trap waits for the accesses issued again before it reaches the instruction at its pc (R156). -/
def Thread.awaitReissued (t : Thread) : Thread := if t.wait = .run ∧ t.log ≠ [] then { t with wait := .reissue } else t

/-- R216: illegal-tret with H = 0; bad-status re-enters the handler; otherwise the thread returns. -/
def bodyTret : Issue Unit := do
  let c ← get
  if !c.th.handling then flag .illegalTret 0
  else if c.th.badStatus then do
    modTh Thread.trapReturn
    modTh (fun t => { t with wait := .run })
    parkAt .run
  else do
    modTh Thread.trapReturn
    let r ← get
    goto r.th.pc
/-- R216 -/
def execTret (w : BitVec 1) (st : State) : Host.Outcome State Fault Refusal :=
  issue (Enc.tret w) true .nothing bodyTret (fun s => s.modThread st.cur Thread.awaitReissued) st

/-! ### cacheop (R351) -/

/-- The issue of a `cacheop`: its pair and its length. -/
def bodyCacheop (op : Nat) (a b : BitVec 7) : Issue Unit := do
  let k ← block a 2 2
  let va ← pairOf k
  let n ← src b
  access (.cacheop op va n.toNat)
/-- R351 -/
def execCacheopClean (w : BitVec 1) (a b : BitVec 7) (st : State) : Host.Outcome State Fault Refusal :=
  plain (Enc.cacheopClean w a b) .nothing (bodyCacheop 0 a b) st
/-- R351 -/
def execCacheopEv1 (w : BitVec 1) (a b : BitVec 7) (st : State) : Host.Outcome State Fault Refusal :=
  plain (Enc.cacheopEv1 w a b) .nothing (bodyCacheop 1 a b) st
/-- R351 -/
def execCacheopEv2 (w : BitVec 1) (a b : BitVec 7) (st : State) : Host.Outcome State Fault Refusal :=
  plain (Enc.cacheopEv2 w a b) .nothing (bodyCacheop 2 a b) st
/-- R351 -/
def execCacheopPod (w : BitVec 1) (a b : BitVec 7) (st : State) : Host.Outcome State Fault Refusal :=
  plain (Enc.cacheopPod w a b) .nothing (bodyCacheop 3 a b) st

/-- The physical pieces of the present pages of a range; pages without a translation are skipped (R347, R351). `fuel`
pages. -/
def State.presentPieces (s : State) (w : Walker) (asid : Nat) : (fuel va n : Nat) → List (Nat × Nat)
  | 0, _, _ => []
  | fuel + 1, va, n =>
    if n = 0 ∨ 2 ^ 48 ≤ va then [] else
    let k := min n (65536 - va % 65536)
    (match s.leaf w asid va with
      | some (e, b) => [(leafPa e b va, k)]
      | none => []) ++ s.presentPieces w asid fuel (va + k) (n - k)

/-- Lines leave L2 with their scope records (R164). -/
def State.dropLines (s : State) (ps : List (Nat × Nat)) : State :=
  { s with scopeRec := s.scopeRec.filter (fun r => !ps.any (fun p => rangesMeet (r.1 * 512) 512 p.1 p.2)) }

/-- The pod pieces of a global range: member, region, offset, length (R61, R66). `fuel` stripes. -/
def State.podPieces (s : State) (asid : Nat) : (fuel rank region off n : Nat) → List (Nat × Nat × Nat × Nat)
  | 0, _, _, _, _ => []
  | fuel + 1, rank, region, off, n =>
    if n = 0 then [] else
    let k := min n (s.toBoundary region off)
    let (r2, g2, o2) := gNext rank region off k
    (match s.globalPart asid rank region off with
      | some (_, toff, .pod m) => [(m, region, toff, k)]
      | _ => []) ++ s.podPieces asid fuel r2 g2 o2 (n - k)

/-- `cacheop` is performed (R351): write-backs change nothing that is modelled; evicted lines lose their scope records;
op 11 drops the overlapping entries of the core's pod read buffer. -/
def State.startCacheop (s : State) (id : ThreadId) (e : LogEntry) (op : Nat) (a : Dword) (n : Nat) : State :=
  let s := match op with
    | 2 => if a.msb then s else s.dropLines (s.presentPieces (.core id.core) (s.asidOf id.teamId) (n / 65536 + 2) a.toNat n)
    | 3 =>
      if a.msb then
        (s.podPieces (s.asidOf id.teamId) (n / 4096 + 2) (gRank a.toNat) (gRegion a.toNat) (gOffset a.toNat) n).foldl
          (fun (s : State) (p : Nat × Nat × Nat × Nat) => s.dropPodLines id.core p.1 p.2.1 p.2.2.1 p.2.2.2) s
      else s
    | _ => s
  s.setEntry id e (.returned [])

/-! ### tlbinv (R352) -/

/-- R352 -/
def bodyTlbinv (a b : BitVec 7) : Issue Unit := do
  let k ← block a 2 2
  let va ← pairOf k
  let lost ← isLost
  let sel ← src b
  let c ← get
  checkedWith lost (flagIf (!c.th.kernel) .permission va)
  parkAt (.tlbinv va sel)
/-- R352 -/
def execTlbinv (w : BitVec 1) (a b : BitVec 7) (st : State) : Host.Outcome State Fault Refusal :=
  issue (Enc.tlbinv w a b) true .nothing (bodyTlbinv a b) id st

/-- The pages of a selection include one of the `n` from `page` on, of an ASID (R352). -/
def tlbNames (va : Dword) (sel : Word) (asid page n : Nat) : Bool :=
  (sel.getLsbD 29 || decide (asid = bits sel.toNat 15 0))
    && (sel.getLsbD 28 || (decide (page < va.toNat / 65536 + (bits sel.toNat 27 16 + 1)) && decide (va.toNat / 65536 < page + n)))

/-- A cached entry is named by a selection. -/
def TlbEntry.named (t : TlbEntry) (va : Dword) (sel : Word) : Bool :=
  if t.block then tlbNames va sel t.asid (t.page / 8192 * 8192) 8192 else tlbNames va sel t.asid t.page 1

/-- A cached pointer is named by a selection: it lies on the way to a named page. -/
def WalkEntry.named (t : WalkEntry) (va : Dword) (sel : Word) : Bool :=
  let n := if t.level = 1 then 2 ^ 26 else 2 ^ 13
  tlbNames va sel t.asid (t.index * n) n

/-- A load or store that is on its way to a PCI Express peer has been translated by a named page (R95, R352). -/
def State.peerNamed (s : State) (id : ThreadId) (va : Dword) (sel : Word) (a : Access) : Bool :=
  match a with
  | .load _ x _ _ _ _ => x.msb || tlbNames va sel (s.asidOf id.teamId) (x.toNat / 65536) 1
  | .store _ x _ _ _ _ => x.msb || tlbNames va sel (s.asidOf id.teamId) (x.toNat / 65536) 1
  | _ => false

/-- A store that has been translated but not performed uses a named page; one with a global address may use any ASID. -/
def State.usesNamed (s : State) (va : Dword) (sel : Word) (b : BufStore) : Bool :=
  let any' := match b.access with
    | .store .gl a _ _ _ _ => a.msb
    | _ => false
  b.parts.any (fun p => match p.1 with
    | .mem v _ e => decide (e ≠ 0) && (tlbNames va sel (s.asidOf b.thread.teamId) (v / 65536) 1
        || (any' && tlbNames va (sel ||| 0x20000000) 0 (v / 65536) 1))
    | .peer _ => s.peerNamed b.thread va sel b.access
    | _ => false)

/-- A load has been translated by a named page and waits for a PCI Express peer. -/
def State.peerAwaited (s : State) (va : Dword) (sel : Word) : Bool :=
  s.threads.any (fun p => p.2.log.any (fun e => match e.state with
    | .sent ps => s.peerNamed p.1 va sel e.access && ps.any (fun q => q.2.2.isNone && (match q.1 with
        | .peer _ => true
        | _ => false))
    | _ => false))

/-- An element of a stream has been translated by a named page and is not performed yet, or waits for a PCI Express peer. -/
def State.streamsNamed (s : State) (va : Dword) (sel : Word) : Bool :=
  s.threads.any (fun p => p.2.q.any (fun q => match q with
    | none => false
    | some q => q.appended.any (fun e => s.usesNamed va sel (e.asStore p.1 q))
        || (s.peerNamed p.1 va sel (.load q.space (q.elemAddr q.fetched) q.size .plain .dev 0) && q.arriving.any (fun r => r.2.2.isNone
          && (match r.1 with
            | .peer _ => true
            | _ => false)))))

/-- An access that a named entry has translated is not performed yet (R352). -/
def State.namedLeft (s : State) (va : Dword) (sel : Word) : Bool :=
  s.buffer.any (s.usesNamed va sel) || s.peerAwaited va sel || s.streamsNamed va sel

/-- TLBINV_COMPLETE: the named entries are dropped from every TLB and walk cache, and the `tlbinv` completes once every access translated
with one is performed (R187, R352). -/
def execTlbinvComplete (thread : ThreadId) (s : State) : Host.Outcome State Fault Refusal :=
  match s.thread? thread with
  | none => .next s
  | some t =>
    match t.wait with
    | .tlbinv va sel =>
      let s := { s with tlb := s.tlb.filter (fun e => !e.named va sel), walks := s.walks.filter (fun e => !e.named va sel) }
      .next (if s.namedLeft va sel then s else s.complete thread)
    | _ => .next s

/-! ### wfe and park (R299, R353) -/

/-- R353: a set latch is cleared; otherwise the thread waits, for a nonzero a at most that many of its team's cycles. -/
def bodyWfe (a : BitVec 7) : Issue Unit := do
  let n ← src a
  let c ← get
  if c.th.latch then modTh (fun t => { t with latch := false })
  else parkAt (.wfe (if n = 0 then none else some (c.s.ncyc c.id.teamId + n.toNat)))
/-- R353 -/
def execWfe (w : BitVec 1) (a : BitVec 7) (st : State) : Host.Outcome State Fault Refusal :=
  issue (Enc.wfe w a) true .nothing (bodyWfe a) id st

/-- WFE_TIMEOUT: the cycles of a `wfe` have passed without an event (R353). -/
def execWfeTimeout (thread : ThreadId) (s : State) : Host.Outcome State Fault Refusal :=
  match s.thread? thread with
  | none => .next s
  | some t =>
    match t.wait with
    | .wfe (some n) => .next (if n ≤ s.ncyc thread.teamId then s.complete thread else s)
    | _ => .next s

/-- PARK_EXPIRE: the cycles of a `park` have passed (R299). -/
def execParkExpire (thread : ThreadId) (s : State) : Host.Outcome State Fault Refusal :=
  match s.thread? thread with
  | none => .next s
  | some t =>
    match t.wait with
    | .park n => .next (if n ≤ s.ncyc thread.teamId then s.complete thread else s)
    | _ => .next s

end Sys2Proof.Machine
end

