-- ==== Sys2Proof/Machine/Residency.lean ====
section
/-! DEFINITION. Residency handles and moves between the memory tiers (R24, R25, R165, R166, R347), with opcode-table rows
TIER_MOVE_START, TIER_MOVE_COMPLETE and L2_HOME_MOVE. -/
namespace Sys2Proof.Machine

/-! ### The instructions (R347) -/

/-- R347 -/
def bodyRhset (d a : BitVec 7) : Issue Unit := do
  let n ← block a 4 4
  let k ← dstDeferred d 1 1
  let c ← get
  let v := fun i => c.th.reg (n + i)
  let base : Dword := v 1 ++ v 0
  flagWordIf (decide (base.toNat % 65536 ≠ 0) || decide (2 ^ 48 ≤ base.toNat) || decide (v 2 = 0)
    || decide ((v 3).extractLsb' 5 27 ≠ 0)) .reservedOperand
  access (.rhset base (v 2).toNat (bits (v 3).toNat 3 0) ((v 3).getLsbD 4) k)
/-- R347 -/
def execRhset (w : BitVec 1) (d a : BitVec 7) (st : State) : Host.Outcome State Fault Refusal :=
  plain (Enc.rhset w d a) .nothing (bodyRhset d a) st

/-- A handle number that names a handle of the thread's ASID (R347). -/
def checkHandle (h : Word) : Issue Unit := do
  let c ← get
  let ok := decide (h.toNat < 4096) && (match AMap.get? c.s.handles h.toNat with
    | some x => decide (x.asid = c.s.asidOf c.id.teamId)
    | none => false)
  flagIf (!ok) .permission (h.setWidth 64)

/-- R347 -/
def bodyRhpri (a b : BitVec 7) : Issue Unit := do
  let (h, lostH) ← alone (src a)
  let (v, lostV) ← alone (src b)
  checkedWith lostV (flagWordIf (decide (v.extractLsb' 5 27 ≠ 0)) .reservedOperand)
  checkedWith lostH (checkHandle h)
  access (.rhpri h.toNat v)
/-- R347 -/
def execRhpri (w : BitVec 1) (a b : BitVec 7) (st : State) : Host.Outcome State Fault Refusal :=
  plain (Enc.rhpri w a b) .nothing (bodyRhpri a b) st

/-- R347 -/
def bodyRhdem (a : BitVec 7) : Issue Unit := do
  let h ← src a
  checkHandle h
  access (.rhdem h.toNat)
/-- R347 -/
def execRhdem (w : BitVec 1) (a : BitVec 7) (st : State) : Host.Outcome State Fault Refusal :=
  plain (Enc.rhdem w a) .nothing (bodyRhdem a) st

/-- R347 -/
def bodyPref (a b : BitVec 7) : Issue Unit := do
  let k ← block a 2 2
  let va ← pairOf k
  let n ← src b
  access (.pref va n.toNat)
/-- R347 -/
def execPref (w : BitVec 1) (a b : BitVec 7) (st : State) : Host.Outcome State Fault Refusal :=
  plain (Enc.pref w a b) .nothing (bodyPref a b) st

/-! ### Their accesses -/

/-- The free handle numbers (R165). -/
def State.freeHandles (s : State) : List Nat := (List.range 4096).filter (fun k => (AMap.get? s.handles k).isNone)

/-- `rhset` takes a free handle, or defers 0xFFFF_FFFF (R347; Config.freeHandle). -/
def State.startRhset (s : State) (id : ThreadId) (e : LogEntry) (base : Dword) (pages prio : Nat) (second : Bool) (dst : Nat) :
    State :=
  let free := s.freeHandles
  match free[Config.freeHandle s.stamp % free.length]? with
  | none => s.setEntry id e (.returned [(dst, 0xFFFFFFFF)])
  | some k =>
    let h : Handle := { asid := s.asidOf id.teamId, base := base.toNat, pages := pages, prio := prio, second := second }
    ({ s with handles := AMap.set s.handles k h, stamp := s.stamp + 1 } : State).setEntry id e (.returned [(dst, BitVec.ofNat 32 k)])

/-- `rhpri` sets a priority, or frees the handle (R347). -/
def State.startRhpri (s : State) (id : ThreadId) (e : LogEntry) (k : Nat) (v : Word) : State :=
  let s := match AMap.get? s.handles k with
    | none => s
    | some h =>
      if h.asid ≠ s.asidOf id.teamId then s
      else if v.getLsbD 4 then { s with handles := AMap.erase s.handles k }
      else { s with handles := AMap.set s.handles k { h with prio := bits v.toNat 3 0 } }
  s.setEntry id e (.returned [])

/-- `rhdem` asks for the demotion of a handle's pages (R347). -/
def State.startRhdem (s : State) (id : ThreadId) (e : LogEntry) (k : Nat) : State :=
  let s := match AMap.get? s.handles k with
    | none => s
    | some h =>
      if h.asid ≠ s.asidOf id.teamId then s
      else
        let ask : MoveAsk := { asid := h.asid, page := h.base / 65536, pages := h.pages, demote := true }
        { s with asks := s.asks ++ [ask] }
  s.setEntry id e (.returned [])

/-- `pref` asks for the promotion of the pages of a range; an empty or global range names none (R347). -/
def State.startPref (s : State) (id : ThreadId) (e : LogEntry) (a : Dword) (n : Nat) : State :=
  let s := if n = 0 ∨ 2 ^ 48 ≤ a.toNat then s
    else
      let ask : MoveAsk := { asid := s.asidOf id.teamId, page := a.toNat / 65536
                             pages := (a.toNat + n - 1) / 65536 - a.toNat / 65536 + 1, demote := false }
      { s with asks := s.asks ++ [ask] }
  s.setEntry id e (.returned [])

/-! ### Moves (R24, R25) -/

/-- A leaf can be moved: its tier code is 01 for a demotion or 10 for a promotion, and it is not moving already (R24). `asked` tells an
`rhdem` or `pref` from the machinery, which never demotes priority 15 (R166); `pref` skips pages without R (R347). -/
def State.canMove (s : State) (asid : Nat) (demote asked : Bool) (m : Mapped) : Bool :=
  decide (bits m.entry 10 9 = if demote then 1 else 2) && !s.moving m.pa (m.count * 65536)
    && (demote || !asked || decide (bits m.entry 2 2 = 1))
    && (!demote || asked || (List.range m.count).all (fun i => decide (s.pageHandle asid (m.page + i) ≠ some 15)))

/-- The leaves of a range that a move takes: pages, and blocks that lie in the range whole (R24; DESIGN CHOICE: log entry 85). -/
def State.movable (s : State) (asid page pages : Nat) (demote asked : Bool) : List Mapped :=
  (s.mapped asid).filter (fun m => decide (page ≤ m.page) && decide (m.page + m.count ≤ page + pages) && s.canMove asid demote asked m)

/-- The leaves that lie in no handle and that the machinery can demote (R165). -/
def State.looseOf (s : State) (asid : Nat) : List Mapped :=
  (s.mapped asid).filter (fun m => s.canMove asid true false m && (List.range m.count).all (fun i => decide (s.pageHandle asid (m.page + i) = none)))

/-- A physical page number that a move can take: in the tier it goes to, aligned for a block, and no part of another move
(R24). That the machinery found it free is the row's own claim (log entry 30). -/
def State.frameOk (s : State) (f : Nat) (block demote : Bool) : Bool :=
  let n := if block then 8192 else 1
  decide (f % n = 0) && decide (physPart (f * 65536) = if demote then .second else .hbm)
    && s.moves.all (fun m => !rangesMeet f n m.dst (if m.block then 8192 else 1))

/-- Starts the moves of a list of leaves to a list of frames, every one or none (R24). -/
def State.startMoves (s : State) (asid : Nat) (demote : Bool) : List Mapped → List Nat → Option State
  | [], _ => some s
  | _ :: _, [] => none
  | p :: r, f :: fs =>
    let m : TierMove := { asid := asid, page := p.page, block := p.block, src := p.pa / 65536, dst := f, tier := if demote then 2 else 1 }
    if s.frameOk f p.block demote then ({ s with moves := s.moves ++ [m] } : State).startMoves asid demote r fs else none

/-- The machinery may demote a handle: it is not of priority 15, no page of no handle is left to demote, and no handle of a lower priority
(R165, R166). A page that another handle of a higher priority covers too moves with this one (DESIGN CHOICE: log entry 114). -/
def State.mayDemote (s : State) (h : Handle) : Bool :=
  decide (h.prio < 15) && s.asids.all (fun a => (s.looseOf a).isEmpty)
    && s.handles.all (fun p => decide (h.prio ≤ p.2.prio) || (s.movable p.2.asid (p.2.base / 65536) p.2.pages true false).isEmpty)

/-- The leaves that a move takes, with their address space and direction; none where the machinery may not move them (R24, R166, R347). -/
def State.moveList (s : State) (what : MoveRef) (demote : Bool) : Option (Nat × Bool × List Mapped) :=
  match what with
  | .asked => s.asks.head?.map (fun a => (a.asid, a.demote, s.movable a.asid a.page a.pages a.demote true))
  | .page asid page => if demote then ((s.looseOf asid).find? (fun m => m.page == page)).map (fun m => (asid, true, [m])) else none
  | .handle k => (AMap.get? s.handles k).bind (fun h =>
      if demote && !s.mayDemote h then none else some (h.asid, demote, s.movable h.asid (h.base / 65536) h.pages demote false))

/-- TIER_MOVE_START: the machinery moves a whole handle, a page of no handle, or the pages that the oldest `rhdem` or `pref` asks for
(R25, R165, R166, R347). -/
def execTierMoveStart (what : MoveRef) (demote : Bool) (dests : List Nat) (s : State) : Host.Outcome State Fault Refusal :=
  .next (match s.moveList what demote with
  | none => s
  | some (asid, down, ms) =>
    match s.startMoves asid down ms dests with
    | none => s
    | some t => if what = .asked then { t with asks := t.asks.drop 1 } else t)

/-- The physical address of the table entry that maps a page (R184). -/
def State.entryPa (s : State) (asid va : Nat) (block : Bool) : Nat :=
  let root := s.read (bits (s.reg64 0x280030) 47 0 + 8 * asid) 8
  let e1 := s.read (bits root 47 9 * 512 + 8 * bits va 47 42) 8
  let a2 := bits e1 47 16 * 65536 + 8 * bits va 41 29
  if block then a2 else bits (s.read a2 8) 47 16 * 65536 + 8 * bits va 28 16

/-- An entry with a new physical page and tier code (R24). -/
def retarget (e f tier : Nat) : Nat :=
  bits e 8 0 + tier * 2 ^ 9 + bits e 15 11 * 2 ^ 11 + (f % 2 ^ 32) * 2 ^ 16 + bits e 63 48 * 2 ^ 48

/-- A physical address after `n` bytes have moved. -/
def movedTo (src dst n pa : Nat) : Nat := if src ≤ pa ∧ pa < src + n then dst + (pa - src) else pa

/-- Copies a page with its poison, and points what holds its old address to the new one (R25). The lines at both places
leave L2 (R164), and no TLB keeps the old entry. -/
def State.movePage (s : State) (m : TierMove) (e : Nat) : State :=
  let n := m.size
  let src := m.src * 65536
  let dst := m.dst * 65536
  let poison := (s.poison.filter (fun k => !rangesMeet (k * 32) 32 dst n && !rangesMeet (k * 32) 32 src n))
    ++ (s.poison.filter (fun k => rangesMeet (k * 32) 32 src n)).map (fun k => movedTo src dst n (k * 32) / 32)
  let s := { (s.pasteAt dst n (Memory.slice s.mem src n)).movePlaces (fun _ pa => movedTo src dst n pa) with
    poison := poison,
    tlb := s.tlb.filter (fun (t : TlbEntry) => !t.maps m.asid (m.page * 65536)) }
  (s.dropLines [(src, n), (dst, n)]).write (s.entryPa m.asid (m.page * 65536) m.block) 8 (retarget e m.dst m.tier)

/-- TIER_MOVE_COMPLETE: the copy of a page is complete, its entry is rewritten, and the accesses it held go on (R25). -/
def execTierMoveComplete (asid page : Nat) (s : State) : Host.Outcome State Fault Refusal :=
  match s.moves.find? (fun m => m.asid == asid && m.page == page) with
  | none => .next s
  | some m =>
    let r := { s with moves := s.moves.filter (fun x => decide (x ≠ m)) }
    .next (match s.walk asid (page * 65536) with
      | some (e, b) => if b = m.block ∧ leafPa e b (page * 65536) = m.src * 65536 then r.movePage m e else r
      | none => r)

/-- L2_HOME_MOVE: the lines of a handle take a new home die, without an effect on any value (R29, R30). -/
def execL2HomeMove (handle die : Nat) (s : State) : Host.Outcome State Fault Refusal :=
  .next (if (AMap.get? s.handles handle).isSome ∧ die < 8 then { s with homes := AMap.set s.homes handle die } else s)

end Sys2Proof.Machine
end

