-- ==== Sys2Proof/Machine/Ssx.lean ====
section
/-! DEFINITION. The state-space sequencer (R341 to R346): the two forms of a chunk, `ssq`, and opcode-table rows
SSX_CHUNK_COMPLETE, SSX_STOP and SSQ_WAIT_RELEASE. -/
namespace Sys2Proof.Machine

/-! ### The arithmetic of a chunk (R343, R344) -/

/-- The inputs of a chunk as bytes, and its sizes. -/
structure ChunkIn where
  N : Nat
  P : Nat
  H : Nat
  q : Nat
  fmt : Fmt
  x : List Byte
  a : List Byte
  B : List Byte
  C : List Byte
  h : List Byte

/-- Element `i` of an array of `n`-byte elements. -/
def elemAt (b : List Byte) (n i : Nat) : Nat := leNat ((b.drop (n * i)).take n)

/-- fp of R343. -/
def fp32 (v : Val) : Nat := roundVal binary32 0 0 v
/-- The value of an FP32 encoding. -/
def v32 (c : Nat) : Val := val c binary32
/-- Positive zero. -/
def zeroVal : Val := .num false 0 0 false

namespace ChunkIn

/-- x[t0+τ][h][p]. -/
def xv (c : ChunkIn) (τ h p : Nat) : Val := val (elemAt c.x 2 ((τ * c.H + h) * c.P + p)) c.fmt
/-- a[t0+τ][h]. -/
def av (c : ChunkIn) (τ h : Nat) : Val := v32 (elemAt c.a 4 (τ * c.H + h))
/-- B[t0+τ][n]. -/
def bv (c : ChunkIn) (τ n : Nat) : Val := val (elemAt c.B 2 (τ * c.N + n)) c.fmt
/-- C[t0+τ][n]. -/
def cv (c : ChunkIn) (τ n : Nat) : Val := val (elemAt c.C 2 (τ * c.N + n)) c.fmt
/-- h[n][p] of head h, as an encoding. -/
def hv (c : ChunkIn) (h n p : Nat) : Nat := elemAt c.h 4 ((h * c.N + n) * c.P + p)
/-- in of R343. -/
def inFmt (c : ChunkIn) (v : Val) : Val := val (roundVal c.fmt 0 0 v) c.fmt

/-- The decays multiplied from step `r0` on, `k` of them, one after another. -/
def decay (c : ChunkIn) (h r0 k : Nat) : Nat := (List.range k).foldl (fun l r => fp32 ((v32 l).mul (c.av (r0 + r) h))) 0x3F800000
/-- L[τ][σ] for σ ≤ τ. -/
def lv (c : ChunkIn) (h τ σ : Nat) : Nat := c.decay h (σ + 1) (τ - σ)
/-- din[τ]. -/
def din (c : ChunkIn) (h τ : Nat) : Nat := c.decay h 0 (τ + 1)

/-- A sum in units of 16 over `n` terms: each unit exact, then one rounding. -/
def units (acc n : Nat) (term : Nat → Val) : Nat :=
  (List.range ((n + 15) / 16)).foldl (fun acc u =>
    let s := (List.range (min 16 (n - 16 * u))).foldl (fun s k => s.add 0 (term (16 * u + k))) zeroVal
    fp32 ((v32 acc).add 0 s)) acc

/-- CB[τ][σ]. -/
def cb (c : ChunkIn) (τ σ : Nat) : Nat := units 0 c.N (fun n => (c.cv τ n).mul (c.bv σ n))
/-- G[τ][σ]. -/
def g (c : ChunkIn) (h τ σ : Nat) : Val :=
  if σ ≤ τ then c.inFmt (v32 (fp32 ((v32 (c.cb τ σ)).mul (v32 (c.lv h τ σ))))) else zeroVal
/-- Hs[τ][p]. -/
def hs (c : ChunkIn) (h τ p : Nat) : Nat := units 0 c.N (fun n => (c.cv τ n).mul (v32 (c.hv h n p)))
/-- y[t0+τ][h][p] of the matrix form. -/
def yMatrix (c : ChunkIn) (h τ p : Nat) : Nat :=
  units (fp32 ((v32 (c.din h τ)).mul (v32 (c.hs h τ p)))) c.q (fun σ => (c.g h τ σ).mul (c.xv σ h p))
/-- Wt[σ][n]. -/
def wt (c : ChunkIn) (h σ n : Nat) : Val := c.inFmt (v32 (fp32 ((v32 (c.lv h (c.q - 1) σ)).mul (c.bv σ n))))
/-- The new state of the matrix form. -/
def stateMatrix (c : ChunkIn) (h n p : Nat) : Nat :=
  units (fp32 ((v32 (c.din h (c.q - 1))).mul (v32 (c.hv h n p)))) c.q (fun σ => (c.wt h σ n).mul (c.xv σ h p))

/-- h[n][p] of head h after the first `k` steps of the recurrent form. -/
def stateAfter (c : ChunkIn) (h n p : Nat) : Nat → Nat
  | 0 => c.hv h n p
  | k + 1 => fp32 (((c.av k h).mul (v32 (c.stateAfter h n p k))).add 0 ((c.bv k n).mul (c.xv k h p)))
/-- y of the recurrent form. -/
def yRecurrent (c : ChunkIn) (h τ p : Nat) : Nat :=
  (List.range c.N).foldl (fun acc n => fp32 (((c.cv τ n).mul (v32 (c.stateAfter h n p (τ + 1)))).add 0 (v32 acc))) 0

/-- The y bytes of the chunk. -/
def yBytes (c : ChunkIn) (matrix : Bool) : List Byte :=
  (List.range c.q).flatMap (fun τ => (List.range c.H).flatMap (fun h => (List.range c.P).flatMap (fun p =>
    natBytes 4 (if matrix then c.yMatrix h τ p else c.yRecurrent h τ p))))
/-- The new state's bytes. -/
def stateBytes (c : ChunkIn) (matrix : Bool) : List Byte :=
  (List.range c.H).flatMap (fun h => (List.range c.N).flatMap (fun n => (List.range c.P).flatMap (fun p =>
    natBytes 4 (if matrix then c.stateMatrix h n p else c.stateAfter h n p c.q))))

end ChunkIn

/-! ### A chunk on the device -/

/-- A chunk takes the matrix form (R342). -/
def ssbMatrixForm (b : List Byte) (c : Nat) : Bool :=
  let thr := if ssbField b 9 1 = 0 then 16 else ssbField b 9 1
  decide (ssbField b 10 1 = 1) || (decide (ssbField b 10 1 = 0) && decide (thr ≤ ssbSteps b c))

/-- The ranges that a chunk reads: x, a, B, C and the state slot (R341). -/
def ssbReads (b : List Byte) (c : Nat) : List (Nat × Nat) :=
  let t0 := c * ssbQ b
  let q := ssbSteps b c
  [(ssbPtr b 0 + 2 * t0 * ssbH b * ssbP b, 2 * q * ssbH b * ssbP b), (ssbPtr b 1 + 4 * t0 * ssbH b, 4 * q * ssbH b),
   (ssbPtr b 2 + 2 * t0 * ssbN b, 2 * q * ssbN b), (ssbPtr b 3 + 2 * t0 * ssbN b, 2 * q * ssbN b),
   (ssbPtr b (5 + c % 2), ssbSlotBytes b)]

/-- The ranges that a chunk writes: y, and the other slot (R341). -/
def ssbWrites (b : List Byte) (c : Nat) : List (Nat × Nat) := [ssbChunkY b c, (ssbPtr b (5 + (c + 1) % 2), ssbSlotBytes b)]

/-- Reaches several ranges: their pieces, or the first thing that stops them. -/
def State.reachAll (s : State) (o : MatrixOp) (core : Nat) (need : Need) : List (Nat × Nat) → Except Reach (List (List (Nat × Nat)))
  | [] => .ok []
  | (va, n) :: r =>
    match s.reachRange (.core core) o.asid o.kernel (some (core, 2)) need (pageFuel n) va n with
    | .ok ps => (s.reachAll o core need r).map (fun t => ps :: t)
    | x => .error x

/-- The inputs of a chunk, from the bytes that its ranges hold. -/
def chunkIn (b : List Byte) (c : Nat) (d : List (List Byte)) : ChunkIn :=
  { N := ssbN b, P := ssbP b, H := ssbH b, q := ssbSteps b c, fmt := if ssbField b 11 1 = 0 then bfloat16 else binary16
    x := d.getD 0 [], a := d.getD 1 [], B := d.getD 2 [], C := d.getD 3 [], h := d.getD 4 [] }

/-- The bytes that a chunk computes for y and for its destination slot. -/
def State.chunkOut (s : State) (o : MatrixOp) (c : Nat) (reads : List (List (Nat × Nat))) : List (List Byte) :=
  let i := chunkIn o.ssb c (reads.map s.piecesBytes)
  let m := ssbMatrixForm o.ssb c
  [i.yBytes m, i.stateBytes m]

/-- The SSB offset of an operation. -/
def SigOp.ssbOff : SigOp → Nat
  | .ssx off => off
  | _ => 0

/-- Changes the head of the engine's order. -/
def Core.modHead (k : Core) (f : MatrixOp → MatrixOp) : Core :=
  { k with matrix := match k.matrix with
      | [] => []
      | o :: r => f o :: r }

/-- Writes the status word of an SSB (R341): plain scratchpad bytes. -/
def State.ssbStatus (s : State) (o : MatrixOp) (v : Nat) : State := s.write (s.coPa o.team (o.op.ssbOff + 80)) 4 v

/-- The `ssx` at the head ends: busy reads 0, its ranges are freed, and it leaves the engine (R342, R345). -/
def State.ssxEnd (s : State) (core : Nat) (o : MatrixOp) (err : Bool) : State :=
  ((s.ssbStatus o (2 * b2n err)).modCore core (fun k => (k.releaseAll (o.paired.getD 0)).popHead)).convEverywhere

/-- The bytes of a list with a field replaced. -/
def putField (b : List Byte) (at' n v : Nat) : List Byte := b.take at' ++ natBytes n v ++ b.drop (at' + n)

/-- Records chunk c as done, in the sequencer's copy and in the scratchpad: hist, then done (R342). -/
def State.ssbRecord (s : State) (core : Nat) (o : MatrixOp) (c : Nat) : State :=
  let hist := ssbField o.ssb 76 4
  let bit := 2 ^ (c % 32)
  let hist' := if ssbMatrixForm o.ssb c then hist ||| bit else hist - (hist &&& bit)
  let ssb := putField (putField o.ssb 76 4 hist') 72 4 (c + 1)
  let s := (s.write (s.coPa o.team (o.op.ssbOff + 76)) 4 hist').write (s.coPa o.team (o.op.ssbOff + 72)) 4 (c + 1)
  s.modCore core (fun k => k.modHead (fun x => { x with ssb := ssb }))

/-- The workspace after a chunk holds open values (R341; Config.workByte). -/
def State.clobberWork (s : State) (o : MatrixOp) : State :=
  ({ s with stamp := s.stamp + 1 } : State).cistWrite o.team (ssbField o.ssb 12 4)
    ((List.range 131072).map (fun k => Config.workByte s.stamp k))

/-- Writes the results of a chunk (R342): outputs and state, the record, and the part of y that is now written leaves the
owned ranges (R181). -/
def State.chunkDone (s : State) (core : Nat) (o : MatrixOp) (c : Nat) (out : List (List Byte)) (ws : List (List (Nat × Nat))) : State :=
  let s := (ws.zip out).foldl (fun s p => s.piecesWrite (s.engineOrigin o.team true) p.1 p.2) s
  let y := ssbChunkY o.ssb c
  let s := ((s.clobberWork o).modCore core (fun k => k.releasePiece (o.paired.getD 0) y.1 y.2)).ssbRecord core o c
  if ssbC o.ssb ≤ c + 1 then s.ssxEnd core o false else s.convEverywhere

/-- SSX_CHUNK_COMPLETE: the running `ssx` writes its next chunk, or ends where an element access fails or no chunk is left;
poison is also its signers' (R26, R342 to R345, R383). Once a flush, a save or a cut stops the sequencer, the chunk in progress is abandoned
by SSX_STOP and not completed (R345). -/
def execSsxChunkComplete (core : Nat) (s : State) : Host.Outcome State Fault Refusal :=
  match s.matrixHead core with
  | none => .next s
  | some o =>
    match o.op, o.started with
    | .ssx _, true =>
      let c := ssbDone o.ssb
      if s.engineWaits (.ssx core) || s.cut.stopping || s.teamStops o.team then .next s else
      if ssbC o.ssb ≤ c then .next (s.ssxEnd core o false) else
      match s.reachAll o core .load (ssbReads o.ssb c), s.reachAll o core .store (ssbWrites o.ssb c) with
      | .ok rs, .ok ws => .next (s.chunkDone core o c (s.chunkOut o c rs) ws)
      | .error (.missing va), _ => .next (s.engineBatch ⟨core, o.team.team, 3⟩ (dieOf core) o.asid (BitVec.ofNat 64 va) 0 (.ssx core))
      | .error .held, _ => .next s
      | .error (.poison va), _ => .next ((o.signers.foldl (fun s t => s.pend t .uncorrectableMemory (BitVec.ofNat 64 va)) s).ssxEnd core o true)
      | .ok _, .error (.missing va) => .next (s.engineBatch ⟨core, o.team.team, 3⟩ (dieOf core) o.asid (BitVec.ofNat 64 va) 1 (.ssx core))
      | .ok _, .error .held => .next s
      | _, _ => .next (s.ssxEnd core o true)
    | _, _ => .next s

/-- The bytes that the chunk in progress would write, by virtual address. -/
def State.chunkBytes (s : State) (core : Nat) (o : MatrixOp) : List (Nat × Byte) :=
  let c := ssbDone o.ssb
  match s.reachAll o core .load (ssbReads o.ssb c) with
  | .ok rs => ((ssbWrites o.ssb c).zip (s.chunkOut o c rs)).flatMap (fun p =>
      (List.range p.2.length).map (fun i => (p.1.1 + i, p.2.getD i 0)))
  | _ => []

/-- Stores one byte at a virtual address of an operation, where it can be written. -/
def State.storeVirtual (s : State) (core : Nat) (o : MatrixOp) (va : Nat) (b : Byte) : State :=
  match s.translate (.core core) o.asid va .store o.kernel with
  | .ok pa _ => s.storeFrom (s.engineOrigin o.team true) pa [b]
  | _ => s

/-- The bytes that a stopped chunk has written, of those that it would write: whole elements of 4 bytes (R345, R382). -/
def wholeElements (all written : List (Nat × Byte)) : List (Nat × Byte) :=
  let ws := written.filter (fun w => all.contains w)
  ws.filter (fun w => (List.range 4).all (fun j => ws.any (fun v => v.1 == w.1 / 4 * 4 + j)))

/-- SSX_STOP: a flush, a save or a cut stops the sequencer: the chunk in progress is abandoned with some of its elements
written, `done`, `hist` and busy stay, and the ranges are freed (R118, R122, R345). -/
def execSsxStop (core : Nat) (written : List (Nat × Byte)) (s : State) : Host.Outcome State Fault Refusal :=
  match s.matrixHead core with
  | none => .next s
  | some o =>
    match o.op, o.started with
    | .ssx _, true =>
      if !(s.cut.stopping || s.teamStops o.team) then .next s else
      let s := (wholeElements (s.chunkBytes core o) written).foldl (fun s w => s.storeVirtual core o w.1 w.2) ((s.leaveBatch (.ssx core)).clobberWork o)
      .next (s.modCore core (fun k => (k.releaseAll (o.paired.getD 0)).modHead (fun x => { x with started := false, paired := none }))).convEverywhere
    | _, _ => .next s

/-! ### ssq (R346) -/

/-- What `ssq` defers: done[23:0], err in bit 30 and busy in bit 31. -/
def State.ssqValue (s : State) (id : TeamId) (off : Nat) : Word :=
  let st := s.read (s.coPa id (off + 80)) 4
  BitVec.ofNat 32 (bits (s.read (s.coPa id (off + 72)) 4) 23 0 + bits st 1 1 * 2 ^ 30 + bits st 0 0 * 2 ^ 31)

/-- An `ssq` with w = 0 reads the SSB. -/
def State.startSsq (s : State) (id : ThreadId) (e : LogEntry) (off dst : Nat) : State :=
  s.setEntry id e (.returned [(dst, s.ssqValue id.teamId off)])

/-- An `ssq` with w = 1 completes once busy reads 0: the value is deferred. -/
def State.ssqStep (s : State) (id : ThreadId) : State :=
  match s.thread? id with
  | none => s
  | some t =>
    match t.wait with
    | .ssq off dst =>
      let v := s.ssqValue id.teamId off
      if v.msb then s else
      let e : LogEntry := { index := freeIndex t.log, stamp := s.stamp, issue := s.stamp, fill := true, word := 0, hints := [], kernel := t.kernel, access := .ssq off dst
                            state := .returned [(dst, v)] }
      (({ s with stamp := s.stamp + 1 } : State).setThread id { t with log := t.log ++ [e] }).complete id
    | _ => s

/-- SSQ_WAIT_RELEASE (R346). -/
def execSsqWaitRelease (thread : ThreadId) (s : State) : Host.Outcome State Fault Refusal := .next (s.ssqStep thread)

/-- R346 -/
def bodySsq (d a : BitVec 7) (x : BitVec 1) : Issue Unit := do
  let off ← coOffset a 128 128
  let k ← dstDeferred d 1 1
  if x = 1 then parkAt (.ssq off k) else access (.ssq off k)
/-- R346 -/
def execSsq (w : BitVec 1) (d a : BitVec 7) (x : BitVec 1) (st : State) : Host.Outcome State Fault Refusal :=
  issue (Enc.ssq w d a x) (decide (x = 1)) .nothing (bodySsq d a x) (fun s => s.ssqStep st.cur) st

end Sys2Proof.Machine
end

