-- ==== Sys2Proof/Machine/Transport.lean ====
section
/-! DEFINITION. The Ethernet transport (R46 to R50, R71, R76, R77), reductions (R52 to R54, R74, R325), and what a target does with
what arrives (R49, R65, R70). Opcode-table rows PACKET_SEND to PATH_PROBE, REDUCTION_PACKET_ARRIVAL, REDUCTION_ABORT and
CONGESTION_THRESHOLD_ADJUST. -/
namespace Sys2Proof.Machine

/-! ### Paths (R47) -/

/-- A path at the start: clear (R47). -/
def PathState.start : PathState := { mode := .clear, acks := [], timeouts := 0, turns := 0 }

/-- A congestion entry at the start: its cursor stands before path 0 (R47, R76). -/
def Congestion.start : Congestion := { cursor := none, paths := List.replicate 64 PathState.start, mark := 0, trim := 0 }

/-- The key of a rank's congestion entry: its prefix and path set (R47, R58). -/
def State.congKey (s : State) (rank : Nat) : Dword × Nat :=
  match s.rankEntry rank with
  | some (e, _) => (BitVec.ofNat 64 (bits e 191 128), bits e 59 51)
  | none => (0, 0)

/-- A congestion entry. -/
def State.cong (s : State) (k : Dword × Nat) : Congestion := AMap.getD s.net.paths k Congestion.start

/-- Stores a congestion entry as the one used last; of 1,024 the least recently used goes (R76). -/
def State.setCong (s : State) (k : Dword × Nat) (c : Congestion) : State :=
  let rest := AMap.erase s.net.paths k
  { s with net := { s.net with paths := (if 1024 ≤ rest.length then rest.drop 1 else rest) ++ [(k, c)] } }

/-- A path's state. -/
def Congestion.path (c : Congestion) (p : Nat) : PathState := c.paths.getD p PathState.start

/-- Changes a path's state. -/
def Congestion.setPath (c : Congestion) (p : Nat) (v : PathState) : Congestion := { c with paths := c.paths.set p v }

/-- The path after one of a list, cyclically; the first, where there is none before. -/
def pathAfter (at' : Option Nat) (ps : List Nat) : Nat :=
  match at' with
  | none => ps.headD 0
  | some a => (ps.find? (fun p => decide (a < p))).getD (ps.headD 0)

/-- The next usable path: clear, one in four turns of a marked one, and a failed one where every path has failed (R47). -/
def usePath (ps : List Nat) : (fuel : Nat) → Option Nat → Congestion → Option (Nat × Congestion)
  | 0, _, _ => none
  | fuel + 1, at', c =>
    let p := pathAfter at' ps
    let v := c.path p
    match v.mode with
    | .clear => some (p, c)
    | .failed => if ps.all (fun q => decide ((c.path q).mode = .failed)) then some (p, c) else usePath ps fuel (some p) c
    | .marked =>
      let c' := c.setPath p { v with turns := v.turns + 1 }
      if v.turns % 4 = 0 then some (p, c') else usePath ps fuel (some p) c'

/-- The valid Ethernet paths of a rank (R59). -/
def State.glbPaths (s : State) (rank : Nat) : List Nat := s.validPaths (s.congKey rank).2 0

/-- Takes the path of a new packet to a rank: the cursor moves to it (R47). -/
def State.newPath (s : State) (rank : Nat) : Option (Nat × State) :=
  let k := s.congKey rank
  let ps := s.glbPaths rank
  if ps.isEmpty then none else
  (usePath ps (4 * 64 + 1) (s.cong k).cursor (s.cong k)).map (fun r => (r.1, s.setCong k { r.2 with cursor := some r.1 }))

/-- Takes the path of a packet sent again: the next usable one after that of its previous copy (R47). -/
def State.nextPath (s : State) (rank path : Nat) : Option (Nat × State) :=
  let k := s.congKey rank
  let ps := s.glbPaths rank
  if ps.isEmpty then none else
  (usePath ps (4 * 64 + 1) (some path) (s.cong k)).map (fun r => (r.1, s.setCong k r.2))

/-- Changes an Ethernet path of a rank. -/
def State.modPath (s : State) (rank path : Nat) (f : PathState → PathState) : State :=
  let k := s.congKey rank
  s.setCong k ((s.cong k).setPath path (f ((s.cong k).path path)))

/-- An acknowledgement on a path: 2 ECN marks among the last 8 mark it, none clears it (R47). -/
def PathState.acked (v : PathState) (ecn : Bool) : PathState :=
  let acks := (v.acks ++ [ecn]).drop (if 8 ≤ v.acks.length then 1 else 0)
  let n := (acks.filter (fun b => b)).length
  let v := { v with acks := acks, timeouts := 0 }
  match v.mode with
  | .clear => if 2 ≤ n then { v with mode := .marked, turns := 0 } else v
  | .marked => if n = 0 ∧ acks.length = 8 then { v with mode := .clear } else v
  | .failed => v

/-- A retransmission timeout on a path: the third in a row fails it (R47). -/
def PathState.timedOut (v : PathState) : PathState :=
  { v with timeouts := v.timeouts + 1, mode := if 3 ≤ v.timeouts + 1 then .failed else v.mode }

/-- PATH_PROBE: a probe of a failed path succeeds or not (R47). -/
def execPathProbe (pfx : Dword) (set path : Nat) (ok : Bool) (s : State) : Host.Outcome State Fault Refusal :=
  let c := s.cong (pfx, set)
  .next (if ok ∧ (c.path path).mode = .failed then s.setCong (pfx, set) (c.setPath path PathState.start) else s)

/-- CONGESTION_THRESHOLD_ADJUST: the loop of R29 sets the thresholds of a prefix and path set. -/
def execCongestionThresholdAdjust (pfx : Dword) (set mark trim : Nat) (s : State) : Host.Outcome State Fault Refusal :=
  .next (s.setCong (pfx, set) { s.cong (pfx, set) with mark := mark, trim := trim })

/-! ### Target checks (R65) -/

/-- The checks 0x01 to 0x06 of a range of this device, the job's identifier aside: its parts in memory, or the code of the first that
fails. A page of a PCI Express peer is no memory to place bytes in. -/
def State.targetParts (s : State) (region off n : Nat) (need : Need) (key : Word) (signalled : Bool) : Except Nat (List (Place × Nat)) :=
  let d := s.regionDesc region
  if !s.jobOn then .error 1
  else if bits d 128 128 = 0 then .error 2
  else if key ≠ BitVec.ofNat 32 (s.regionKey region) then .error 3
  else if signalled ∧ bits d 132 132 = 0 then .error 4
  else match s.regionParts region off n need with
    | .error c => .error c
    | .ok ps => if ps.any (fun p => match p.1 with
        | .mem _ _ _ => false
        | _ => true) then .error 6 else .ok ps

/-- A failed check is counted (R65, R80). -/
def State.countCheck (s : State) (code : Nat) : State := if code = 0 ∨ 8 < code then s else s.count (0x1010 + 8 * (code - 1))

/-- The counter check 0x07. -/
def State.counterOk (s : State) : Option Nat → Bool
  | none => true
  | some k => decide (k < 65536) && s.ctrOn k

/-- The address space of a region. -/
def State.regionAsid (s : State) (region : Nat) : Nat := bits (s.regionDesc region) 63 48

/-- An atomic of this device's memory for another agent: its old value (R316, R317). The scope record of its line stays as it is (DESIGN CHOICE:
log entry 105). -/
def State.atomicAt (s : State) (from' : Origin) (op : Nat) (wide : Bool) (value compare : Nat) (ps : List (Place × Nat)) : State × Nat :=
  let w := if wide then 8 else 4
  let old := leNat (s.partsRead ps)
  match AtomOp.ofCode op with
  | none => (s, old)
  | some o =>
    let v := if o = .cas then atomNew o w old compare value else atomNew o w old value 0
    (s.partsWrite from' ps (natBytes w v), old)

/-! ### Arriving packets (R49) -/

/-- What a target keeps of a source of which nothing has arrived: PSNs start at 0. -/
def Receiver.start : Receiver := { cum := 0xFFFFFFFF, seen := [], parts := [] }

/-- What the target keeps of a source. -/
def State.receiver (s : State) (source : Nat) : Receiver := AMap.getD s.net.receivers source Receiver.start

/-- Replaces what the target keeps of a source. -/
def State.setReceiver (s : State) (source : Nat) (r : Receiver) : State :=
  { s with net := { s.net with receivers := AMap.set s.net.receivers source r } }

/-- A PSN has been accepted; PSNs compare modulo 2^32. -/
def Receiver.accepted (r : Receiver) (psn : Word) : Bool := decide ((psn - r.cum) = 0) || (psn - r.cum).msb || r.seen.contains psn

/-- Moves the cumulative PSN over the accepted ones. -/
def Receiver.advance : Nat → Receiver → Receiver
  | 0, r => r
  | k + 1, r => if r.seen.contains (r.cum + 1) then Receiver.advance k { r with cum := r.cum + 1, seen := r.seen.filter (fun p => decide (p ≠ r.cum + 1)) } else r

/-- Accepts a PSN. -/
def Receiver.accept (r : Receiver) (psn : Word) : Receiver := Receiver.advance 513 { r with seen := r.seen ++ [psn] }

/-- The bitmap of the 64 PSNs after the cumulative one. -/
def Receiver.bitmap (r : Receiver) : Dword := maskOf ((List.range 64).filter (fun i => r.seen.contains (r.cum + 1 + BitVec.ofNat 32 i)))

/-- Sends the acknowledgement of a source (R49). -/
def State.sendAck (s : State) (source : Nat) : State := s.send (.ack source (s.receiver source).cum (s.receiver source).bitmap)

/-- Refuses a packet: it is counted, and a negative acknowledgement carries its code (R49, R65). -/
def State.refusePacket (s : State) (source : Nat) (psn : Word) (code : Nat) : State := (s.countCheck code).send (.nack source psn code)

/-- Accepts and acknowledges a packet. -/
def State.acceptPacket (s : State) (source : Nat) (psn : Word) : State := (s.setReceiver source ((s.receiver source).accept psn)).sendAck source

/-- The numbers of the writes from number `n` on. -/
def State.writesFrom (s : State) (n : Nat) : List Nat := (List.range (s.hist.length - n)).map (fun i => n + i)

/-- The bytes of a message's packet have been placed, by the writes from number `before` on; the last ones complete the message, and its counter
counts: it shows those bytes, and what its source's release knows (R70, R193, R204). -/
def State.placed (s : State) (p : Packet) (before n : Nat) (ctr : Option Nat) : State :=
  let r := s.receiver p.source
  let old := AMap.getD r.parts p.msg (0, [])
  let ws := old.2 ++ s.writesFrom before
  if p.msgLen ≤ old.1 + n then
    let s := s.setReceiver p.source { r with parts := AMap.erase r.parts p.msg }
    match ctr with
    | some k => s.ctrMessage (countOrigin (.glb p.source) ws (.ofWrites (p.release.getD []))) k p.msgLen
    | none => s
  else s.setReceiver p.source { r with parts := AMap.set r.parts p.msg (old.1 + n, ws) }

/-- A full packet that passes its checks is performed (R46, R49, R65, R77). -/
def State.takePacket (s : State) (p : Packet) : State :=
  match p.kind with
  | .write data signalled ctr =>
    (match s.targetParts p.region (p.offset + p.msgOff) data.length .store p.key signalled with
    | .error c => s.refusePacket p.source p.psn c
    | .ok ps =>
      if !s.counterOk ctr then s.refusePacket p.source p.psn 7
      else if ps.any s.partHeld then s
      else ((s.partsWrite (placedBy (.glb p.source) (if signalled then none else p.release)) ps data).placed p s.hist.length data.length ctr).acceptPacket
        p.source p.psn)
  | .read size =>
    (match s.targetParts p.region p.offset size .load p.key false with
    | .error c => s.refusePacket p.source p.psn c
    | .ok ps =>
      if ps.any s.partHeld then s
      else if (s.partsPoison ps 0).isSome then s.send (.nack p.source p.psn 0x100)
      else (s.acceptPacket p.source p.psn).send (.response p.source p.psn (s.partsRead ps)))
  | .atomic op wide value compare =>
    let w := if wide then 8 else 4
    (match s.targetParts p.region p.offset w .atomic p.key false with
    | .error c => s.refusePacket p.source p.psn c
    | .ok ps =>
      if ps.any s.partHeld then s
      else if (s.partsPoison ps 0).isSome then s.send (.nack p.source p.psn 0x100)
      else
        let r := s.atomicAt (placedAtomic (.glb p.source) p.release) op wide value compare ps
        (r.1.acceptPacket p.source p.psn).send (.response p.source p.psn (natBytes w r.2)))

/-- Something arrives over the links from a rank, on a given port or on any one of its kind: only where that is up. The receiver numbers it in
its class (R38, R51). -/
def State.hears (s : State) (rank : Nat) (port : Option Nat) (cls : Nat) (f : State → State) : State :=
  let eth := match s.pathOf rank with
    | some (.pod _) => false
    | _ => true
  match (match port with
    | some p => if s.portUp p then some p else none
    | none => (List.range 26).find? (fun p => (decide (18 ≤ p) == eth) && s.portUp p)) with
  | some p => f (s.numberFlit p cls)
  | none => s

/-- The class of a packet of R46: REQ, number 0, for the accesses of threads, and BULK, 3, for signalled writes (R36). -/
def packetClass : PacketKind → Nat
  | .write _ true _ => 3
  | _ => 0

/-- PACKET_ARRIVAL (R49): a PSN beyond the window is discarded and counted; then the cases of R49 in their order. A packet whose
bytes are held for now (R25, R182) waits. -/
def execPacketArrival (packet : Packet) (s : State) : Host.Outcome State Fault Refusal :=
  let r := s.receiver packet.source
  .next (s.hears packet.source (some (18 + packet.port)) (packetClass packet.kind) fun s => if r.accepted packet.psn then s.sendAck packet.source
    else if 512 < (packet.psn - r.cum).toNat then s.count 0x1058
    else if packet.trimmed then s.send (.resend packet.source packet.psn)
    else if !s.jobOn || decide (packet.job ≠ bits (s.reg32 0x40004) 23 0) then s.refusePacket packet.source packet.psn 1
    else s.takePacket packet)

/-! ### Reductions (R52 to R54, R74) -/

/-- The home's generation of a group (log entry 34). -/
def State.homeGen (s : State) (gid : Nat) : Byte :=
  let e := s.groupEntry gid
  match AMap.get? s.net.folds gid with
  | some f => if bits e 17 17 = 1 then f.gen else BitVec.ofNat 8 (bits e 25 18)
  | none => BitVec.ofNat 8 (bits e 25 18)

/-- The fold of a group in its present generation. -/
def State.folding (s : State) (gid : Nat) : Folding :=
  match AMap.get? s.net.folds gid with
  | some f => if f.gen = s.homeGen gid then f else { gen := s.homeGen gid, covered := [], held := f.held }
  | none => { gen := s.homeGen gid, covered := [], held := [] }

/-- Stores a fold. -/
def State.setFolding (s : State) (gid : Nat) (f : Folding) : State := { s with net := { s.net with folds := AMap.set s.net.folds gid f } }

/-- The accumulator of an element: 4 bytes of the destination region, on pages that take a store (R65, R74); none elsewhere. -/
def State.accParts (s : State) (e elem : Nat) : List (Place × Nat) :=
  let d := s.regionDesc (bits e 165 160)
  let ps := s.pageParts (.die 0) (bits d 63 48) (bits d 47 0 + bits e 231 192 + 4 * elem) 4 .store true
  if ps.any (fun p => match p.1 with
    | .mem _ _ _ => false
    | _ => true) then [] else ps

/-- One more contribution to an element, in position order (R53). -/
def foldStep (op first acc : Nat) (v : Word) : Nat :=
  if first = 0 then v.toNat else atomNew (if op = 0 then .fadd else .add) 4 acc v.toNat 0

/-- Folds one element of a packet, where it extends the fold or is a longer partial (R54). -/
def foldElement (e : Nat) (p : ReductionPacket) (r : State × Folding) (i : Nat) : State × Folding :=
  let elem := p.elem + i
  let k := AMap.getD r.2.covered elem 0
  let ps := r.1.accParts e elem
  let put := fun v last => (r.1.partsWrite (placedBy (.glb r.1.selfrank) none) ps (natBytes 4 v),
    { r.2 with covered := AMap.set r.2.covered elem (last + 1) })
  let v := p.data.getD i 0
  if p.first = p.last then (if p.first = k then put (foldStep (bits e 26 26) k (leNat (r.1.partsRead ps)) v) k else r)
  else if k ≤ p.last then put v.toNat p.last else r

/-- Folds what of a packet can be folded. -/
def foldPacket (e : Nat) (r : State × Folding) (p : ReductionPacket) : State × Folding := (List.range p.data.length).foldl (foldElement e p) r

/-- A packet has an element that is ahead of the fold. -/
def Folding.ahead (f : Folding) (p : ReductionPacket) : Bool :=
  (List.range p.data.length).any (fun i => decide (AMap.getD f.covered (p.elem + i) 0 < p.first))

/-- Folds the held packets of the generation again and again; the others stay. `fuel` passes. -/
def foldHeld (e : Nat) : (fuel : Nat) → State × Folding → State × Folding
  | 0, r => r
  | fuel + 1, r =>
    let now := r.2.held.filter (fun p => decide (p.gen = r.2.gen))
    let later := r.2.held.filter (fun p => decide (p.gen ≠ r.2.gen))
    let x := now.foldl (foldPacket e) r
    foldHeld e fuel (x.1, { x.2 with held := now.filter x.2.ahead ++ later })

/-- A round is over: every element is folded over all positions (R74). -/
def Folding.full (f : Folding) (e : Nat) : Bool :=
  (List.range (bits e 151 128)).all (fun i => decide (bits e 115 98 ≤ AMap.getD f.covered i 0))

/-- Takes the packets of a fold as far as they go; where the round is over, the counter counts, gen advances, and the packets held
for the new generation follow. `fuel` rounds. -/
def State.foldOn (s : State) (gid : Nat) : (fuel : Nat) → Folding → State
  | 0, f => s.setFolding gid f
  | fuel + 1, f =>
    let e := s.groupEntry gid
    let (s, f) := foldHeld e (f.held.length + 1) (s, f)
    if f.full e ∧ 0 < bits e 151 128 then
      let folds := s.writesIn (fun a => decide (a = .glb s.selfrank)) (memRanges ((List.range (bits e 151 128)).flatMap (s.accParts e)))
      let s := if bits e 248 248 = 1 then s.ctrMessage (countOrigin (.glb s.selfrank) folds .none) (bits e 247 232) (4 * bits e 151 128) else s
      let s := if bits e 17 17 = 1 then s else s.setGen gid (f.gen + 1)
      s.foldOn gid fuel { f with gen := f.gen + 1, covered := [] }
    else s.setFolding gid f

/-- The check of a reduction packet at its home: R65, then 0x08 (R74). 0 accepts it. Check 0x07 is not made: a packet names no counter, and a
home entry whose counter is disabled folds and counts nothing (DESIGN CHOICE: log entry 106). -/
def State.reductionCheck (s : State) (p : ReductionPacket) : Nat :=
  let e := s.groupEntry p.gid
  let d := s.regionDesc (bits e 165 160)
  let n := p.data.length
  if !s.jobOn ∨ p.job ≠ bits (s.reg32 0x40004) 23 0 then 1
  else if bits d 128 128 = 0 then 2
  else if p.key ≠ BitVec.ofNat 32 (s.regionKey (bits e 165 160)) then 3
  else if bits d 133 133 = 0 then 4
  else if bits d 103 64 < bits e 231 192 + 4 * (p.elem + n) then 5
  else if (List.range n).any (fun i => (s.accParts e (p.elem + i)).isEmpty) then 6
  else if bits e 16 16 = 0 ∨ bits e 15 0 ≠ p.gid ∨ bits e 115 98 ≤ p.last ∨ (p.first ≠ 0 ∧ p.first ≠ p.last) ∨ bits e 151 128 < p.elem + n then 8
  else 0

/-- An accepted reduction packet, by its generation (R74): folded or held, or discarded and counted. -/
def State.reduce (s : State) (p : ReductionPacket) : State :=
  let f := s.folding p.gid
  if p.gen = f.gen ∨ p.gen = f.gen + 1 then s.foldOn p.gid 3 { f with held := f.held ++ [p] } else s.count 0x1050

/-- The packet's elements, or those of a packet that waits for its fold, lie where a tier move or an engine holds them for now (R25,
R182). -/
def State.reductionHeld (s : State) (p : ReductionPacket) : Bool :=
  let e := s.groupEntry p.gid
  (p :: (s.folding p.gid).held).any (fun q => (List.range q.data.length).any (fun i => (s.accParts e (q.elem + i)).any s.partHeld))

/-- REDUCTION_PACKET_ARRIVAL (R49, R65, R74): a contribution whose PSN is accepted already is only acknowledged again; a partial is judged
by what it covers (R54). One whose destination is held for now waits (R25, R182). -/
def execReductionPacketArrival (packet : ReductionPacket) (s : State) : Host.Outcome State Fault Refusal :=
  let code := s.reductionCheck packet
  let r := s.receiver packet.source
  let known := r.accepted packet.psn
  .next (s.hears packet.source (some packet.port) 3 fun s => if known && decide (packet.first = packet.last) then s.sendAck packet.source
    else if !known && decide (512 < (packet.psn - r.cum).toNat) then s.count 0x1058
    else if code ≠ 0 then s.refusePacket packet.source packet.psn code
    else if s.reductionHeld packet then s
    else if known then (s.reduce packet).sendAck packet.source
    else (s.reduce packet).acceptPacket packet.source packet.psn)

/-- The rank of a position of a group (R73). -/
def positionRank (e p : Nat) : Nat := bits e 336 320 + p * (if bits e 353 337 = 0 then 1 else bits e 353 337)

/-- REDUCTION_ABORT: the home asks for every member position that it has not received, at the rank that holds it (R54, R73). -/
def execReductionAbort (gid : Nat) (s : State) : Host.Outcome State Fault Refusal :=
  let e := s.groupEntry gid
  let f := s.folding gid
  let missing := (List.range (bits e 115 98)).filter (fun p => (List.range (bits e 151 128)).any (fun i =>
    decide (AMap.getD f.covered i 0 ≤ p) && !f.held.any (fun h => decide (h.gen = f.gen) && decide (h.first ≤ p) && decide (p ≤ h.last)
      && decide (h.elem ≤ i) && decide (i < h.elem + h.data.length))))
  .next (if bits e 16 16 = 1 then s.send (.wanted gid (missing.map (fun p => (p, positionRank e p)))) else s)

/-! ### Messages at the source (R46, R50, R71) -/

/-- Changes a message. -/
def State.modMessage (s : State) (n : Nat) (f : Message → Message) : State :=
  { s with net := { s.net with messages := s.net.messages.map (fun m => if m.number = n then f m else m) } }

/-- Removes a message with its packets. -/
def State.dropMessage (s : State) (n : Nat) : State :=
  { s with net := { s.net with messages := s.net.messages.filter (fun m => decide (m.number ≠ n)),
                               window := s.net.window.filter (fun w => decide (w.msg ≠ n)) } }

/-- The log entry that a message serves. -/
def State.entryOf (s : State) (m : Message) (index : Nat) : Option LogEntry :=
  (s.thread? m.thread).bind (fun t => t.log.find? (fun e => e.index == index && e.stamp == m.stamp))

/-- The read stream that a message fetches a part of an element for. -/
def State.streamOf (s : State) (m : Message) (k : Nat) : Option Stream :=
  ((s.thread? m.thread).bind (fun t => t.stream k)).filter (fun q => decide (q.stamp = m.stamp) && !q.arriving.isEmpty)

/-- The piece that a message carries is over (R175). -/
def State.endPiece (s : State) (core request piece n : Nat) (err : Bool) : State :=
  match (s.core core).copies.find? (fun c => c.tag == request) with
  | some c => s.pieceDone core c piece n err
  | none => s

/-- A message fails (R50): remote-access-failure for its thread with the address of the message's first byte, or err on its piece. -/
def State.failMessage (s : State) (m : Message) : State :=
  let s := (s.dropMessage m.number).count 0x1068
  match m.body with
  | .wsig _ _ _ => s.pend m.thread .remoteAccessFailure m.gaddr
  | .contribution _ _ _ _ => s.pend m.thread .remoteAccessFailure m.gaddr
  | .store _ _ _ => s.pend m.thread .remoteAccessFailure m.gaddr
  | .element k _ => match s.streamOf m k with
    | some q => (s.pend m.thread .remoteAccessFailure m.gaddr).openElement m.thread k q
    | none => s
  | .piece core request piece _ => s.endPiece core request piece m.len true
  | .load entry _ => match s.entryOf m entry with
    | some e => s.failEntry m.thread e m.gaddr
    | none => s
  | .atomic entry => match s.entryOf m entry with
    | some e => s.failEntry m.thread e m.gaddr
    | none => s

/-- A message is complete at the target and the source has learnt of it (R71, R175, R325). -/
def State.endMessage (s : State) (m : Message) : State :=
  let s := s.dropMessage m.number
  match m.body with
  | .wsig _ _ l => s.ctrLocal m.placed l
  | .contribution _ _ _ l => s.ctrLocal m.placed l
  | .piece core request piece _ => s.endPiece core request piece m.len false
  | _ => s

/-- Bytes of a message's payload (R71, R175). -/
inductive Payload where
  | bytes (b : List Byte)
  | wait
  | missing (va : Nat)
  | fail
  deriving DecidableEq, Repr

/-- Reads `n` payload bytes from byte `off` on, as an engine reads: with the K of the thread at issue (R71, R175, R186). -/
def State.payload (s : State) (m : Message) (off n : Nat) : Payload :=
  let read := fun (src : Dword) =>
    match s.reachRange (.core m.home.core) m.asid m.kernel none .load (pageFuel n) (src.toNat + off) n with
    | .ok ps => .bytes (s.piecesBytes ps)
    | .missing va => .missing va
    | .held => .wait
    | _ => .fail
  match m.body with
  | .wsig src _ _ => read src
  | .contribution src _ _ _ => read src
  | .store d _ _ => .bytes ((d.drop off).take n)
  | .piece _ _ _ d => .bytes ((d.drop off).take n)
  | _ => .bytes []

/-- A payload byte without a translation goes to the service team (R383). -/
def State.payloadBatch (s : State) (m : Message) (va : Nat) : State :=
  s.engineBatch ⟨m.home.core, m.home.team, 4⟩ (dieOf m.home.core) m.asid (BitVec.ofNat 64 va) 0 (.message m.number)

/-- Whether a message is a signalled write, and its target counter. -/
def MsgBody.signal : MsgBody → Bool × Option Nat
  | .wsig _ c _ => (true, some c)
  | _ => (false, none)

/-- The kind of a message's packet. -/
def State.packetKind (s : State) (m : Message) (b : List Byte) : PacketKind :=
  match m.body with
  | .load _ _ => .read m.len
  | .element _ _ => .read m.len
  | .atomic entry =>
    (match s.entryOf m entry with
    | none => .read 0
    | some e =>
      match e.access with
      | .atom op _ wide _ _ _ rv sv => .atomic op.code wide (if op = .cas then sv else rv) rv
      | _ => .read 0)
  | x => .write b x.signal.1 x.signal.2

/-- A message is part of a release: a release store, an atomic, or a signalled write (R193). -/
def MsgBody.isRelease : MsgBody → Bool
  | .store _ _ rel => rel
  | .atomic _ => true
  | .wsig _ _ _ => true
  | _ => false

/-- The packet of a message from byte `off` on (R46, R66). -/
def State.packetOf (s : State) (m : Message) (psn : Word) (off : Nat) (b : List Byte) : Packet :=
  let g := gRegion m.gaddr.toNat
  { source := s.selfrank, psn := psn, job := bits (s.reg32 0x40004) 23 0, region := g
    offset := (s.unstripe (gRank m.gaddr.toNat) g (gOffset m.gaddr.toNat)).2, key := BitVec.ofNat 32 (s.regionKey g)
    msg := m.number, msgOff := off, msgLen := m.len, trimmed := false, kind := s.packetKind m b
    release := if m.body.isRelease then some [] else none }

/-- The 32-bit words of bytes. -/
def wordsOf (b : List Byte) : List Word := (List.range (b.length / 4)).map (fun i => BitVec.ofNat 32 (leNat ((b.drop (4 * i)).take 4)))

/-- The reduction packet of a contribution from byte `off` on (R52, R74). -/
def State.reductionOf (s : State) (gid : Nat) (gen : Byte) (psn : Word) (off : Nat) (b : List Byte) : ReductionPacket :=
  let e := s.groupEntry gid
  { source := s.selfrank, psn := psn, job := bits (s.reg32 0x40004) 23 0, key := BitVec.ofNat 32 (s.regionKey (bits e 165 160)), gid := gid, gen := gen, home := bits e 97 81
    op := bits e 26 26, first := bits e 80 64, last := bits e 80 64, elem := off / 4, data := wordsOf b }

/-- The Ethernet port, entropy and address of a path to a rank (R58, R59). -/
def State.ethRoute (s : State) (rank path : Nat) : Route :=
  match s.rankEntry rank with
  | some (e, i) =>
    let p := s.pathEntry (bits e 59 51) path
    .ethernet path (bits p 28 24) (BitVec.ofNat 16 p) (hostAddress e i)
  | none => .ethernet path 0 0 0

/-- The way of a message's packets: an Ethernet path, or for a contribution to a pod home the UALink port in its place. -/
def State.routeOf (s : State) (m : Message) (path : Nat) : Route :=
  match s.pathOf m.rank with
  | some (.pod k) => .ualink path k
  | _ => s.ethRoute m.rank path

/-- The fabric port of a route, in the numbering of R38. -/
def Route.port : Route → Nat
  | .ethernet _ p _ _ => 18 + p
  | .ualink p _ => p

/-- Puts bytes of a message on a path; where its port carries no traffic of the job, they are lost, and a timeout recovers them (R38, R45,
R50). -/
def State.emit (s : State) (m : Message) (psn : Word) (path off : Nat) (b : List Byte) : State :=
  let via := s.routeOf m path
  if !s.flows via.port then s else
  s.send (match m.body with
    | .contribution _ gid gen _ => .reduction m.rank via (s.reductionOf gid gen psn off b)
    | _ => .packet m.rank via (s.packetOf m psn off b))

/-- The next PSN to a rank, with a descriptor in the window (R46, R76). -/
def State.takePsn (s : State) (m : Message) (off path : Nat) : State × Word :=
  let psn := AMap.getD s.net.nextPsn m.rank 0
  let w : WinPacket := { rank := m.rank, psn := psn, msg := m.number, off := off, path := path, sends := 1, acked := false }
  ({ s with net := { s.net with nextPsn := AMap.set s.net.nextPsn m.rank (psn + 1), window := s.net.window ++ [w] } }, psn)

/-- The PSN under which the response to an increment request is matched: it is no packet, and takes none of the sequence of its rank (log
entry 18). -/
def podTicket (m : Message) : Word := 0x80000000#32 ||| BitVec.ofNat 32 m.number

/-- Keeps an increment request in the window until its response (R71). -/
def State.holdTicket (s : State) (m : Message) (path : Nat) : State :=
  let w : WinPacket := { rank := m.rank, psn := podTicket m, msg := m.number, off := m.len, path := path, sends := 1, acked := false }
  { s with net := { s.net with window := s.net.window ++ [w] } }

/-- There is room for one more packet to a rank (R76). -/
def State.windowRoom (s : State) (rank : Nat) : Bool :=
  decide ((s.net.window.filter (fun w => decide (w.rank = rank) && !w.acked)).length < 512) && decide (s.net.window.length < 65536 + 2 ^ 22)

/-- The path of a message's first copy of a packet: the next of its rank, or for a contribution to a pod home the port of its port set that
offset 0 picks (R42, R47; DESIGN CHOICE: log entry 89). -/
def State.firstPath (s : State) (m : Message) : Option (Nat × State) :=
  match s.pathOf m.rank with
  | some (.pod k) => some (s.podPort m.rank k 0, s)
  | _ => s.newPath m.rank

/-- The path of a packet sent again: the next usable one, or the same port to a pod home (R47, R48). -/
def State.againPath (s : State) (m : Message) (path : Nat) : Option (Nat × State) :=
  match s.pathOf m.rank with
  | some (.pod k) => some (s.podPort m.rank k 0, s)
  | _ => s.nextPath m.rank path

/-- Sends the next packet of a message as a packet of its own (R46, R47). -/
def State.sendGlb (s : State) (m : Message) : State :=
  let n := min 4096 (m.len - m.sent)
  match s.payload m m.sent n with
  | .wait => s
  | .missing va => s.payloadBatch m va
  | .fail => s.failMessage m
  | .bytes b =>
    match s.firstPath m with
    | none => s
    | some (path, s) =>
      let (s, psn) := s.takePsn m m.sent path
      (s.emit m psn path m.sent b).modMessage m.number (fun m => { m with sent := m.sent + n })

/-- A request to a pod member, its payload in class BULK (R42, R71). -/
def State.podBulk (s : State) (m : Message) (member off : Nat) (k : PodKind) : State :=
  let g := gRegion m.gaddr.toNat
  s.send (.podRequest member (s.podPort m.rank member off)
    { member := s.podMember, port := s.podPort m.rank member off, region := g, offset := off, key := BitVec.ofNat 32 (s.regionKey g)
      signalled := m.body.signal.1, kind := k, bulk := true, release := if m.body.isRelease then some [] else none })

/-- The next thing that a message on the pod path does (R71): its writes leave, block by block; then a flush; then the increment
request. -/
def State.sendPod (s : State) (m : Message) (member : Nat) : State :=
  let g := gRegion m.gaddr.toNat
  let base := (s.unstripe (gRank m.gaddr.toNat) g (gOffset m.gaddr.toNat)).2
  if m.acked = 0 ∧ m.sent < m.len then
    let off := base + m.sent
    let n := min (m.len - m.sent) (256 - off % 256)
    if !s.flows (s.podPort m.rank member off) then s else
    match s.payload m m.sent n with
    | .wait => s
    | .missing va => s.payloadBatch m va
    | .fail => s.failMessage m
    | .bytes b =>
      let s := s.podBulk m member off (.write b)
      let t : Tracked := { member := member, stamp := m.stamp, thread := m.thread, own := false, nt := false, covered := false }
      let s := { s with net := { s.net with tracked := s.net.tracked ++ [t] } }
      s.modMessage m.number (fun m => { m with sent := m.sent + n })
  else if m.acked = 0 then
    if s.net.flushes.any (fun f => f.member == member) then s
    else (s.startFlush m.rank member).modMessage m.number (fun m => { m with acked := 1 })
  else if m.acked = 2 then
    match m.body with
    | .wsig _ c _ =>
      if !s.flows (s.podPort m.rank member base) then s else
      let s := s.holdTicket m (s.podPort m.rank member base)
      (s.podBulk m member base (.count c m.len)).modMessage m.number (fun m => { m with acked := 3 })
    | _ => s.endMessage m
  else s

/-- The next bytes of a signalled write to this rank (R71): placed after the target's checks, the increment after the last. -/
def State.sendSelfWrite (s : State) (m : Message) (ctr : Nat) : State :=
  let g := gRegion m.gaddr.toNat
  let base := (s.unstripe (gRank m.gaddr.toNat) g (gOffset m.gaddr.toNat)).2
  let n := min 4096 (m.len - m.sent)
  match s.targetParts g (base + m.sent) n .store (BitVec.ofNat 32 (s.regionKey g)) true with
  | .error c => (s.countCheck c).failMessage m
  | .ok ps =>
    if !s.counterOk (some ctr) then (s.countCheck 7).failMessage m
    else if ps.any s.partHeld then s else
    match s.payload m m.sent n with
    | .wait => s
    | .missing va => s.payloadBatch m va
    | .fail => s.failMessage m
    | .bytes b =>
      let n0 := s.hist.length
      let s := s.partsWrite (placedBy .device none) ps b
      let m' := { m with sent := m.sent + n, placed := m.placed ++ s.writesFrom n0 }
      if m.len ≤ m.sent + n then (s.ctrMessage (countOrigin .device m'.placed m.view) ctr m.len).endMessage m'
      else s.modMessage m.number (fun _ => m')

/-- The next elements of a contribution to this rank's own fold (R325). -/
def State.sendSelfFold (s : State) (m : Message) (gid : Nat) (gen : Byte) : State :=
  let n := min 4096 (m.len - m.sent)
  match s.payload m m.sent n with
  | .wait => s
  | .missing va => s.payloadBatch m va
  | .fail => s.failMessage m
  | .bytes b =>
    let p := s.reductionOf gid gen 0 m.sent b
    let code := s.reductionCheck p
    if code ≠ 0 then (s.countCheck code).failMessage m
    else if s.reductionHeld p then s
    else
      let s := s.reduce p
      if m.len ≤ m.sent + n then s.endMessage m else s.modMessage m.number (fun m => { m with sent := m.sent + n })

/-- A message waits for a response of its own (R77). -/
def MsgBody.answered : MsgBody → Bool
  | .load _ _ => true
  | .element _ _ => true
  | .atomic _ => true
  | _ => false

/-- A stopping transport starts no new message, but goes on with one that it has begun (R122, R123), and the loads and atomics of threads that
are still on their way to a boundary leave (DEDUCED: log entry 57); once it has stopped nothing starts. -/
def State.mayGoOn (s : State) (m : Message) : Bool :=
  !(s.cut.stopping || s.cut.isStopped) || ((decide (0 < m.sent) || m.body.answered) && !s.cut.units.contains .transport)

/-- The first message to a rank that has something left to do before its packets are acknowledged. -/
def State.nextMessage (s : State) (rank : Nat) : Option Message :=
  s.net.messages.find? (fun m => decide (m.rank = rank) && s.mayGoOn m && !s.service.batches.any (fun b => decide (b.engine = .message m.number))
    && (decide (m.sent < m.len) || (m.pod && decide (m.acked ≠ 1) && decide (m.acked ≠ 3) && (match m.body with
      | .wsig _ _ _ => true
      | .piece _ _ _ _ => true
      | _ => false))))

/-- PACKET_SEND: the transport sends the next packet to a rank, on the path that R61 gives it (R46, R47, R71, R76, R77). -/
def execPacketSend (rank : Nat) (s : State) : Host.Outcome State Fault Refusal :=
  .next (if !s.jobOn then s else
    match s.nextMessage rank with
    | none => s
    | some m =>
      match s.pathOf rank, m.body with
      | some .dev, .wsig _ c _ => s.sendSelfWrite m c
      | some .dev, .contribution _ gid gen _ => s.sendSelfFold m gid gen
      | some (.pod k), .wsig _ _ _ => if s.windowRoom rank then s.sendPod m k else s
      | some (.pod k), .piece _ _ _ _ => s.sendPod m k
      | _, _ => if s.windowRoom rank then s.sendGlb m else s)

/-! ### Acknowledgements, retransmission and responses (R49, R50, R77) -/

/-- Everything of a message has been sent and acknowledged. -/
def State.messageAcked (s : State) (m : Message) : Bool :=
  decide (m.len ≤ m.sent) && s.net.window.all (fun w => decide (w.msg ≠ m.number)) && !m.body.answered
    && (!m.pod || decide (m.acked = 3) || (match m.body with
      | .contribution _ _ _ _ => true
      | _ => false))

/-- The window entry of an increment request (R71). -/
def State.isTicket (s : State) (w : WinPacket) : Bool := s.net.messages.any (fun m => decide (m.number = w.msg) && m.pod && decide (m.acked = 3))

/-- What a selective acknowledgement does; `ecn` names the PSNs whose acknowledgement carries a mark (R47, R49, R50). -/
def State.acknowledged (s : State) (rank : Nat) (cum : Word) (bitmap : Dword) (ecn : List Nat) : State :=
  let ticket := s.net.window.any (fun w => decide (w.rank = rank) && decide (w.psn = cum) && s.isTicket w)
  let covers := fun (w : WinPacket) => decide (w.rank = rank) && !w.acked && decide (s.isTicket w = ticket)
    && (decide (w.psn - cum = 0) || (!ticket && ((w.psn - cum).msb || bitmap.getLsbD ((w.psn - cum - 1).toNat))))
  let got := s.net.window.filter covers
  let waits := fun (w : WinPacket) => s.net.messages.any (fun m => decide (m.number = w.msg) && m.body.answered)
  let pod := fun (w : WinPacket) => s.net.messages.any (fun m => decide (m.number = w.msg) && m.pod)
  let s1 := got.foldl (fun s w => if pod w then s else s.modPath rank w.path (fun v => v.acked (ecn.contains w.psn.toNat))) s
  let keep : WinPacket → Option WinPacket := fun w => if covers w then (if waits w then some { w with acked := true } else none) else some w
  let s2 : State := { s1 with net := { s1.net with window := s1.net.window.filterMap keep } }
  let nums := got.map (fun w => w.msg)
  (s2.net.messages.filter (fun m => nums.contains m.number && s2.messageAcked m)).foldl (fun s m => s.endMessage m) s2

/-- ACK_RECEIVED: a selective acknowledgement (R47, R49, R50). The response to an increment request on the pod path acknowledges that request
alone (log entry 18). -/
def execAckReceived (rank : Nat) (cum : Word) (bitmap : Dword) (ecn : List Nat) (s : State) : Host.Outcome State Fault Refusal :=
  .next (s.hears rank none 5 (fun s => s.acknowledged rank cum bitmap ecn))

/-- The packet of a PSN to a rank that is in the window, with its message. -/
def State.inWindow (s : State) (rank : Nat) (psn : Word) : Option (WinPacket × Message) :=
  (s.net.window.find? (fun w => w.rank == rank && w.psn == psn)).bind (fun w =>
    (s.net.messages.find? (fun m => m.number == w.msg)).map (fun m => (w, m)))

/-- NACK_RECEIVED: the message fails (R50). -/
def execNackReceived (rank : Nat) (psn : Word) (code : Nat) (s : State) : Host.Outcome State Fault Refusal :=
  .next (s.hears rank none 5 fun s => match s.inWindow rank psn with
  | some (_, m) => if code = 0 then s else s.failMessage m
  | none => s)

/-- Sends a packet again, its payload read again, on the next usable path after that of its previous copy (R47, R50, R71). -/
def State.resendPacket (s : State) (w : WinPacket) (m : Message) : State :=
  match s.payload m w.off (min 4096 (m.len - w.off)) with
  | .wait => s
  | .missing va => s.payloadBatch m va
  | .fail => s.failMessage m
  | .bytes b =>
    match s.againPath m w.path with
    | none => s
    | some (path, s) =>
      let up : WinPacket → WinPacket := fun x => if x.rank = w.rank ∧ x.psn = w.psn then { x with path := path, sends := x.sends + 1 } else x
      ((({ s with net := { s.net with window := s.net.window.map up } } : State).emit m w.psn path w.off b).count 0x1060)

/-- A packet is sent again, or fails its message after 16 transmissions (R50). -/
def State.sendAgain (s : State) (w : WinPacket) (m : Message) : State := if 16 ≤ w.sends then s.failMessage m else s.resendPacket w m

/-- RESEND_REQUEST_RECEIVED: the named packet, where it is not acknowledged, is sent again (R50). -/
def execResendRequestReceived (rank : Nat) (psn : Word) (s : State) : Host.Outcome State Fault Refusal :=
  .next (s.hears rank none 5 fun s => match s.inWindow rank psn with
  | some (w, m) => if w.acked then s else s.sendAgain w m
  | none => s)

/-- RETRANSMISSION_TIMEOUT: a packet without acknowledgement, or without its response, is sent again, and fails its message after 16
transmissions (R47, R50, R77); an increment request on the pod path fails at once (R44). -/
def execRetransmissionTimeout (rank : Nat) (psn : Word) (s : State) : Host.Outcome State Fault Refusal :=
  .next (match s.inWindow rank psn with
  | some (w, m) =>
    if m.pod ∧ m.acked = 3 then (s.count 0x1070).failMessage m
    else (if m.pod then s else s.modPath rank w.path PathState.timedOut).sendAgain w m
  | none => s)

/-- Fills part `i` of a load. -/
def fillPart (i : Nat) (b : List Byte) (ps : List (Place × Nat × Option (List Byte))) : List (Place × Nat × Option (List Byte)) :=
  ps.mapIdx (fun k p => if k = i ∧ p.2.2.isNone ∧ b.length = p.2.1 then (p.1, p.2.1, some b) else p)

/-- ETHERNET_RESPONSE: the response to a load or an atomic is matched by its PSN and used once (R77). -/
def execEthernetResponse (rank : Nat) (psn : Word) (data : List Byte) (s : State) : Host.Outcome State Fault Refusal :=
  .next (s.hears rank none 1 fun s => match s.inWindow rank psn with
  | none => s
  | some (_, m) =>
    if data.length ≠ m.len then s else
    match m.body with
    | .load entry part =>
      let s := s.dropMessage m.number
      (match s.entryOf m entry with
      | some e =>
        (match e.access, e.state with
        | .load _ _ n _ _ dst, .sent ps => s.loadDone m.thread e dst n (fillPart part data ps)
        | _, _ => s)
      | none => s)
    | .element k part =>
      let s := s.dropMessage m.number
      (match s.streamOf m k with
      | some q => s.elementParts m.thread k q (fillPart part data q.arriving)
      | none => s)
    | .atomic entry =>
      let s := s.dropMessage m.number
      (match s.entryOf m entry with
      | some e =>
        (match e.access with
        | .atom _ a wide _ ret dst _ _ => s.answerAtom m.thread e a (if wide then 8 else 4) ret dst (.data data)
        | _ => s)
      | none => s)
    | _ => s)

end Sys2Proof.Machine
end

