-- ==== Sys2Proof/Machine/Returns.lean ====
section
/-! DEFINITION. Accesses are performed and return (R147, R152, R191), answers of the service team take effect (R113, R383), and table walks
fill the TLBs (R187). Opcode-table rows ACCESS_RETURN, SERVICE_ANSWER and TRANSLATION_WALK. -/
namespace Sys2Proof.Machine

/-! ### Accesses -/

/-- Starts an access of the operand log: it is performed at once, or its requests leave, or it is still held back. `rrecv` returns by
its transfer and `svc` by its answer. `back` says which versions of its bytes a load takes. -/
def State.startAccess (s : State) (id : ThreadId) (e : LogEntry) (back : List Nat) : State :=
  match e.access with
  | .load sp a n o c d => s.startLoad id e sp a n o c d back
  | .store sp a n _ _ _ => s.acceptStore id e sp a n
  | .atom op a w c r d rv sv => s.startAtom id e op a w c r d rv sv
  | .cadd k n c => s.startCadd id e k n c
  | .cpoll k d => s.startCpoll id e k d
  | .wsig a b n t l => s.startWsig id e a b n t l
  | .wred a g n l => s.startWred id e a g n l
  | .barm b v => s.startBarm id e b v
  | .rrecv _ _ _ => s
  | .mrd a r c d x => s.startMrd id e a r c d x
  | .ssq o d => s.startSsq id e o d
  | .rhset b p r t d => s.startRhset id e b p r t d
  | .rhpri k v => s.startRhpri id e k v
  | .rhdem k => s.startRhdem id e k
  | .pref a n => s.startPref id e a n
  | .spawn o q d => s.startSpawn id e o q d
  | .cacheop o a n => s.startCacheop id e o a n
  | .svc _ => s

/-- An access of the operand log that nothing holds back starts (R191). A release that waits for its thread's own stores on other devices
flushes the pod members that hold them (R188). -/
def State.entryStart (s : State) (id : ThreadId) (e : LogEntry) (back : List Nat) : State :=
  if !(match e.access with
      | .store _ _ _ _ _ _ => true
      | _ => false) && s.blocked id e.stamp e.kernel e.access then (if e.access.releases then s.pursueOwn id e.stamp else s)
  else if s.transportHolds (s.accessParts id e.kernel e.access) then s
  else s.startAccess id e back

/-- What ACCESS_RETURN does with an entry of the operand log. -/
def State.entryReturn (s : State) (id : ThreadId) (e : LogEntry) (r : Remote) (back : List Nat) : State :=
  match e.state with
  | .pending => s.entryStart id e back
  | .sent ps =>
    if !awaitsAnswer ps then s else
    (match e.access with
    | .load _ a n o c d => s.answerLoad id e a n (decide (o = .nt)) (o.acquiring (pathScope (ps.map (fun p => (p.1, p.2.1))) c)) d ps r
    | .atom _ a w _ ret d _ _ => s.answerAtom id e a (if w then 8 else 4) ret d r
    | _ => s)
  | _ => s

/-- Something comes for an entry of the operand log (R51). -/
def State.entryAnswered (s : State) (id : ThreadId) (e : LogEntry) (r : Remote) (back : List Nat) : State :=
  match e.state with
  | .sent ps => s.answered id ps r (.answer id e.index r) (fun s => s.entryReturn id e r back)
  | _ => s.entryReturn id e r back

/-- The entry of a thread's operand log at an index. -/
def State.entryAt (s : State) (id : ThreadId) (i : Nat) : Option LogEntry := (s.thread? id).bind (fun t => t.log.find? (fun e => e.index == i))

/-- Barriers and cross-lane instructions that waited for an access of a thread are looked at again (R307, R130). -/
def State.lookAgain (s : State) (id : ThreadId) : State := (s.barriers id.teamId).meet id.group

/-- A flit reaches its unit (R51). -/
def State.deliverFlit (s : State) : FlitBody → State
  | .answer id i r =>
    match s.entryAt id i with
    | some e => (s.entryReturn id e r []).lookAgain id
    | none => s
  | .element id k r =>
    match (s.thread? id).bind (fun t => t.stream k) with
    | some q => if q.write then s else s.fetchStep id k q r []
    | none => s
  | .raw _ => s

/-- The lines of an access that has been performed are used (R166). -/
def State.usedIf (s : State) (f : State → Bool) (ps : List (Place × Nat)) : State := if f s then s.useLines ps else s

/-- ACCESS_RETURN: an access of a thread is performed or answered, or an accepted store is performed; barriers and cross-lane
instructions that waited for it are looked at again (R147, R191, R307). The row's choice says which versions a load takes, or which bytes
of a store are performed now (R190; log entry 83). -/
def execAccessReturn (thread : ThreadId) (which : AccessRef) (remote : Remote) (choice : ReturnChoice) (s : State) :
    Host.Outcome State Fault Refusal :=
  let before : State := s.evictLines choice.evicted
  let s := before
  let s : State := match which with
    | .entry i =>
      (match s.entryAt thread i with
      | some e => (s.entryAnswered thread e remote choice.pick).usedIf (fun r => decide (r.entryAt thread i ≠ some e)) (s.accessParts thread e.kernel e.access)
      | none => s)
    | .buffered stamp =>
      (match s.buffer.find? (fun b => decide (b.thread = thread) && b.stamp == stamp) with
      | some b => if s.transportHolds b.parts then s else (s.performStore b choice.pick).usedIf (fun r => decide (r.buffer ≠ s.buffer)) b.parts
      | none => s)
  let s := if choice.bypass && before.allPinned then s.unallocated before else s
  .next (s.lookAgain thread)

/-! ### Answers of the service team (R113, R383) -/

/-- A denied engine access fails (R383). -/
def State.denyEngine (s : State) : EngineRef → State
  | .none => s
  | .stream _ _ => s
  | .piece core request piece =>
    (match (s.core core).copies.find? (fun c => c.tag == request) with
    | some c => let p := c.cuts[piece]?.getD (0, 0); s.pieceRefused core c piece p.1 p.2 0
    | none => s)
  | .element core chain element =>
    (match (s.core core).chains.find? (fun c => c.tag == chain) with
    | some c => s.elementDone core c element true
    | none => s)
  | .ssx core =>
    (match s.matrixHead core with
    | some o => s.ssxEnd core o true
    | none => s)
  | .message n =>
    (match s.net.messages.find? (fun m => m.number == n) with
    | some m => s.failMessage m
    | none => s)
  | .join q seq => s.denyJoin q seq
  | .header q seq => s.finish q seq 1 0

/-- A batch of threads that a debugger has halted (R224), and of which none is stepped (R225). -/
def State.batchHalted (s : State) (b : ServiceBatch) : Bool :=
  decide (b.kind < 2) && (match s.group? b.group with
    | some v => v.halted
    | none => false) && !b.calls.any (fun c => match s.thread? (b.thread c) with
    | some t => s.stepsNow (b.thread c) t
    | none => false)

/-- SERVICE_ANSWER: the gatherer reads an answered slot, its members resume or its engine's access is tried again or fails, and the
slot is free (R113, R383). During a cut its members stay stopped, and so do those of a halted group, unless one of them is stepped: the
members of a batch resume together (R122, R224, R225). -/
def execServiceAnswer (die slot : Nat) (s : State) : Host.Outcome State Fault Refusal :=
  match AMap.get? s.service.rings die with
  | none => .next s
  | some (ring, _, _) =>
    let pa := slotPa ring slot
    if 64 ≤ slot ∨ s.read (pa + 16) 4 ≠ 2 ∨ (s.cut.stopping || s.cut.isStopped) = true then .next s else
    match s.service.batches.find? (fun b => b.slot == some slot && b.die == die) with
    | none => .next s
    | some b =>
      if s.batchHalted b then .next s else
      let s : State := { s with service := { s.service with batches := s.service.batches.filter (fun x => !(x.slot == some slot && x.die == die)) } }
      let s := if b.kind = 2 then (if (s.answer pa 0).1 = 0 then s else s.denyEngine b.engine)
        else b.calls.foldl (fun s c => s.resumeMember b pa c) s
      .next (s.write (pa + 16) 4 0)

/-! ### Table walks (R187) -/

/-- A TLB takes a translation in the place of one that it holds of the page, and of its oldest one where it is full: an L1 TLB has 64
entries, an L2 TLB 16,384 (R187). -/
def State.fillTlb (s : State) (t : TlbEntry) : State :=
  let size := match t.holder with
    | .core _ => 64
    | .die _ => 16384
  let others := s.tlb.filter (fun u => decide (u.holder ≠ t.holder))
  let same := s.tlb.filter (fun u => decide (u.holder = t.holder) && !u.maps t.asid (t.page * 65536))
  { s with tlb := others ++ same.drop (same.length + 1 - size) ++ [t] }

/-- A die has evicted what its L2 TLB and its walk cache held of a page (R187). -/
def State.forgetPage (s : State) (die asid va : Nat) : State :=
  { s with tlb := s.tlb.filter (fun t => !(decide (t.holder = .die die) && t.maps asid va))
           walks := s.walks.filter (fun w => !(w.die == die && w.asid == asid && w.index == (if w.level = 1 then va / 2 ^ 42 else va / 2 ^ 29))) }

/-- The walk cache of a die takes the pointers of a page that it does not hold (R187). -/
def State.cachePointers (s : State) (die asid va : Nat) : State :=
  let add := fun (s : State) (level index : Nat) (e : Option Nat) =>
    match s.cachedPointer die asid level va, e with
    | none, some e => if pointerOk e then { s with walks := s.walks ++ [{ die := die, asid := asid, level := level, index := index, entry := e }] } else s
    | _, _ => s
  let s := add s 1 (va / 2 ^ 42) (s.entry1 asid va)
  add s 2 (va / 2 ^ 29) ((s.cachedPointer die asid 1 va).map (fun e1 => s.entry2 e1 va))

/-- TRANSLATION_WALK: a translation of a page that a die's L2 TLB holds, or that its walk now finds, is cached there, and in the L1 TLB of a
core of the die, if one is named, until it is evicted or a `tlbinv` or a tier move drops it (R187). `fresh` says that the die had evicted
what it held of the page. A missing page leaves nothing. -/
def execTranslationWalk (die asid : Nat) (w : WalkedPage) (s : State) : Host.Outcome State Fault Refusal :=
  let va := w.page * 65536
  .next (if 2 ^ 32 ≤ w.page ∨ w.l1.any (fun c => decide (dieOf c ≠ die)) = true then s else
    let s := if w.fresh then s.forgetPage die asid va else s
    match (s.cachedLeaf (.die die) asid va).orElse (fun _ => s.walkVia die asid va) with
    | none => s
    | some (e, b) =>
      let s := (s.cachePointers die asid va).fillTlb { holder := .die die, asid := asid, page := w.page, entry := e, block := b }
      match w.l1 with
      | some c => s.fillTlb { holder := .core c, asid := asid, page := w.page, entry := e, block := b }
      | none => s)

end Sys2Proof.Machine
end

