-- ==== Sys2Proof/Machine/Scheduler.lean ====
section
/-! DEFINITION. The scheduler: the withdrawal map (R102), dispatch decisions (R101 to R107), pre-emption with its save area (R114 to
R119), resuming (R120, R221), and the swaps of groups (R109). Opcode-table rows PMAP_WRITE to ISSUE_SWAP, and
SWAP_THRESHOLD_ADJUST. -/
namespace Sys2Proof.Machine

/-! ### The withdrawal map (R102) -/

/-- The coreids whose bit is set in a map of 512 bytes. -/
def mapMembers (b : List Byte) : List Nat := (List.range 4096).filter (fun c => ((b.getD (c / 8) 0).getLsbD (c % 8)))

/-- PMAP_WRITE: the map is copied when pmap is written in one 8-byte write (R102, R384). -/
def execPmapWrite (master : Nat) (value : Dword) (s : State) : Host.Outcome State Fault Refusal :=
  let v := value.toNat
  .next (s.byOwner master (fun s =>
    { s with mgmt := Memory.writeLE s.mgmt 0x280010 8 (bits v 63 63 * 2 ^ 63 + bits v 47 0)
             withdrawn := if bits v 63 63 = 1 then mapMembers (Memory.read s.mem (bits v 47 6 * 64) 512) else [] }))

/-! ### The next cluster of a queue (R101) -/

/-- What a decision can dispatch for a queue: a saved cluster, or one that was never dispatched or was returned by a flush. -/
inductive Ready where
  | saved (v : SavedCluster) (l : Launch)
  | fresh (n : Nat) (l : Launch) (clid : Nat)
  deriving DecidableEq, Repr

/-- The launch of a cluster. -/
def State.clusterLaunch (s : State) (number : Nat) : Option Launch :=
  (AMap.get? s.clusters number).bind (fun c => AMap.get? s.launches c.launch)

/-- A team of a cluster is to leave its core. -/
def State.leaving (s : State) (number : Nat) : Bool :=
  s.teams.any (fun p => decide (p.2.cluster = number) && !p.2.ended && p.2.action.isSome)

/-- A saved cluster of a queue that waits to resume: the one that was saved first (R101 does not say which; DESIGN CHOICE: log entry 111). -/
def State.nextSaved (s : State) (q : Nat) : Option Ready :=
  s.saved.findSome? (fun v =>
    match s.clusterLaunch v.number with
    | some l => if l.queue = q ∧ !s.leaving v.number then some (.saved v l) else none
    | none => none)

/-- The next cluster of a launch that was not dispatched. -/
def Launch.nextClid (l : Launch) : Option Nat :=
  match l.returned with
  | c :: _ => some c
  | [] => if l.next < l.gx * l.gy * l.gz then some l.next else none

/-- A LAUNCH of a queue that started before launch `n` and has not read its header yet: it is the older one with clusters left (R101;
DEDUCED: log entry 87). -/
def State.olderUnread (s : State) (q n : Nat) : Bool :=
  (s.queue q).cmds.any (fun c => decide (cmdOp c.bytes = 1) && decide (c.state = .running) && decide (c.number < n)
    && (AMap.get? s.launches c.number).isNone)

/-- The next cluster of a queue: a saved one first, then of its oldest started launch with clusters left (R101). -/
def State.nextOf (s : State) (q : Nat) : Option Ready :=
  match s.nextSaved q with
  | some r => some r
  | none => s.launches.findSome? (fun p =>
      if p.2.queue = q ∧ !s.olderUnread q p.1 then p.2.nextClid.map (fun c => .fresh p.1 p.2 c) else none)

/-- The queues with a ready cluster, in ascending number. -/
def State.readyQueues (s : State) : List Nat :=
  (s.launches.foldl (fun l p => insertOnce p.2.queue l) []).filter (fun q => (s.nextOf q).isSome)

/-- The header of a ready cluster. -/
def Ready.header : Ready → Header
  | .saved _ l => l.header
  | .fresh _ l _ => l.header

/-- The name of a ready cluster. -/
def Ready.ref : Ready → ClusterRef
  | .saved v _ => .saved v.number
  | .fresh n _ c => .fresh n c

/-- The cost of a ready cluster (R106). -/
def Ready.cost (r : Ready) : Nat := r.header.clw * r.header.clh

/-! ### Where it can be placed (R102, R104, R116, R120) -/

/-- The slice bases of a saved team. -/
def SavedTeam.bases (v : SavedTeam) : List Nat := v.groups.map (fun p => p.2.slice)

/-- The bases of a saved cluster by core-in-cluster index. -/
def SavedCluster.kept (v : SavedCluster) : AMap Nat (List Nat) := v.teams.map (fun t => (t.index, t.bases))

/-- The cores that a saved cluster left, by index. -/
def SavedCluster.cores (v : SavedCluster) (n : Nat) : List Nat :=
  (List.range n).map (fun k => ((v.teams.find? (fun t => t.index == k)).map (fun t => t.core)).getD 0)

/-- The position of a ready cluster, where non-pinned teams below a priority are taken as removed; `busy` cores are kept for another
cluster. A pinned cluster asks for its pincore alone, and a saved one that is not relocated for its old cores (R104, R114, R120; DESIGN CHOICE where
R114 would scan positions: log entry 112). -/
def State.positionFor (s : State) (r : Ready) (below : Option Nat) (busy : List Nat) : Option (AMap Nat (Nat × List Nat)) :=
  match r with
  | .saved v l =>
    if v.teams.any (fun t => s.isWithdrawn t.core) then s.scan l.header (some v.kept) below busy
    else s.positionFits l.header (v.cores (l.header.clw * l.header.clh)) (some v.kept) below busy false
  | .fresh _ l _ =>
    if l.header.pin then s.positionFits l.header [l.header.pincore] none below busy true else s.scan l.header none below busy

/-- Victims of a pre-emption are still leaving (R116). -/
def State.triggerActive (s : State) (t : Trigger) : Bool := t.victims.any (fun n => s.leaving n)

/-- The cores that victims of another cluster's pre-emption are leaving: only the triggering cluster is dispatched there (R116). -/
def State.busyFor (s : State) (r : Ready) : List Nat :=
  (s.triggers.filter (fun t => decide (t.cluster ≠ r.ref) && s.triggerActive t)).flatMap (fun t => t.cores)

/-- The position at which the next cluster of a queue can be placed now. -/
def State.placeOf (s : State) (q : Nat) : Option (AMap Nat (Nat × List Nat)) :=
  (s.nextOf q).bind (fun r => s.positionFor r none (s.busyFor r))

/-! ### Resuming (R120, R221) -/

/-- The team that a saved team becomes on a core: the id it had, if it is free there, or the lowest free one. -/
def State.resumeId (s : State) (v : SavedTeam) (core : Nat) : TeamId :=
  if core = v.core ∧ (s.team? ⟨core, v.teamid⟩).isNone then ⟨core, v.teamid⟩ else ⟨core, s.freeTeamId core⟩

/-- Gives back a saved thread its lane, a slot, and its lane slice. -/
def State.resumeThread (s : State) (id : ThreadId) (t : Thread) (slice : Nat) (bytes : Memory) : State :=
  let slot := s.freeThreadSlot id.core t.lane
  let s := s.pasteAt (laneBase id.core t.lane slot) slice bytes
  s.setThread id { t with slot := slot, view := View.upTo s.hist.length }

/-- Gives back the work of a saved team to the engines of its core (R118, R120). -/
def Core.resumeWork (k : Core) (v : SavedTeam) : Core :=
  let k := { k with flow := k.flow ++ v.flow, copies := k.copies ++ v.copies, batches := k.batches ++ v.batches, ranges := k.ranges ++ v.ranges }
  v.matrix.foldl (fun k o => k.enqueue o) k

/-- The groups with a saved position, by ascending position. -/
def byPlace (l : AMap GroupId Nat) : AMap GroupId Nat :=
  l.foldl (fun r p => r.takeWhile (fun q => decide (q.2 ≤ p.2)) ++ p :: r.dropWhile (fun q => decide (q.2 ≤ p.2))) []

/-- Puts an element at a position of a list, or at its end. -/
def insertAt (l : List GroupId) (n : Nat) (g : GroupId) : List GroupId := l.take n ++ g :: l.drop n

/-- The groups of a team take the positions that they had in the active set, as far as it has room, and in the pending list (R118, R120). -/
def State.restoreSets (s : State) (core : Nat) (v : SavedTeam) : State :=
  let s := (byPlace v.active).foldl (fun s p => s.modCore core (fun k =>
    if k.active.length < 8 then { k with active := insertAt k.active p.2 p.1 } else { k with pending := k.pending ++ [p.1] })) s
  let s := (byPlace v.pending).foldl (fun s p => s.modCore core (fun k => { k with pending := insertAt k.pending p.2 p.1 })) s
  s.fillActive core 8

/-- Puts a saved team back on a core, under the names that `f` gives (R120, R221). -/
def State.resumeTeam (s : State) (f : TeamId → TeamId) (id : TeamId) (v : SavedTeam) : State :=
  let v := v.renamed f
  let (s, co) := s.scratchRoom id.core v.team.coBytes
  let (s, ci) := s.cisternRoom id.core v.team.cistBytes
  let a := scratchPa id.core co
  let c := id.core * 262144 + ci
  let s := s.pasteAt a v.team.coBytes v.co
  let s := { s with cist := Memory.paste (Memory.clear s.cist c v.team.cistBytes) c v.cist,
                    teams := AMap.set s.teams id { v.team with coBase := co, cistBase := ci, action := none },
                    groups := s.groups ++ v.groups }
  let s := v.threads.foldl (fun s p => s.resumeThread p.1 p.2 v.team.slice (AMap.getD v.lanes p.1 [])) s
  let s := (v.groups.foldl (fun s p => s.entered p.1) s).restoreSets id.core v
  s.modCore id.core (fun k => k.resumeWork v)

/-- Resumes a saved cluster at a position: every team under its new name (R120). -/
def State.resumeCluster (s : State) (v : SavedCluster) (pos : AMap Nat (Nat × List Nat)) : State :=
  let s := { s with saved := s.saved.filter (fun x => decide (x.number ≠ v.number)) }
  let names := v.teams.map (fun t => (parkedId v.number t.index, s.resumeId t (match AMap.get? pos t.index with
    | some p => p.1
    | none => t.core)))
  let f := renameBy names
  v.teams.foldl (fun s t => s.resumeTeam f (f (parkedId v.number t.index)) t) (s.renameOutside f)

/-! ### Deciding (R106, R107) -/

/-- The deficit of a queue. -/
def State.deficit (s : State) (q : Nat) : Nat := (s.queue q).deficit

/-- The cursor of a priority; where it has not moved yet it stands at 0 (log entry 5). -/
def State.cursor (s : State) (p : Nat) : Nat := AMap.getD s.cursors p 0

/-- The next queue after q in a list, cyclically. -/
def nextAfter (q : Nat) (l : List Nat) : Nat := (l.find? (fun x => decide (q < x))).getD (l.headD 0)

/-- The loop of R106 over the queues of one priority: the queue that it dispatches, with the deficits and the cursor as it leaves
them. Every pass adds a weight of at least 1, and a cost is at most 64. -/
def roundRobin (cost weight : Nat → Nat) (qs : List Nat) : (fuel : Nat) → (defs : AMap Nat Nat) → (cur : Nat) → Option (Nat × AMap Nat Nat × Nat)
  | 0, _, _ => none
  | fuel + 1, defs, cur =>
    if qs.contains cur ∧ cost cur ≤ AMap.getD defs cur 0 then some (cur, AMap.set defs cur (AMap.getD defs cur 0 - cost cur), cur)
    else
      let n := nextAfter cur qs
      roundRobin cost weight qs fuel (AMap.set defs n (AMap.getD defs n 0 + weight n)) n

/-- The cost of a queue's next cluster. -/
def State.costOf (s : State) (q : Nat) : Nat := ((s.nextOf q).map Ready.cost).getD 1

/-- The queues of the highest priority in a list. -/
def State.topQueues (s : State) (l : List Nat) : Nat × List Nat :=
  let p := l.foldl (fun m q => max m (s.queuePrio q)) 0
  (p, l.filter (fun q => s.queuePrio q == p))

/-- What R106 would choose among some queues. -/
def State.choose (s : State) (l : List Nat) : Option (Nat × AMap Nat Nat × Nat × Nat) :=
  let (p, qs) := s.topQueues l
  if qs.isEmpty then none else
  (roundRobin s.costOf s.queueWeight qs (65 * (qs.length + 1)) (qs.map (fun q => (q, s.deficit q))) (s.cursor p)).map
    (fun r => (r.1, r.2.1, r.2.2, p))

/-- Stores deficits. -/
def State.setDeficits (s : State) (defs : AMap Nat Nat) : State :=
  defs.foldl (fun s d => s.setQueue d.1 { s.queue d.1 with deficit := d.2 }) s

/-- After a decision for q: its skip count and promotion are cleared, and the other ready queues are skipped once more; one that
reaches 64 is promoted (R107). -/
def State.countSkips (s : State) (q : Nat) (ready : List Nat) : State :=
  let s := (s.setQueue q { s.queue q with skip := 0 })
  let s := { s with promoted := s.promoted.filter (fun x => decide (x ≠ q)) }
  (ready.filter (fun x => decide (x ≠ q))).foldl (fun s x =>
    let k := (s.queue x).skip + 1
    let s := s.setQueue x { s.queue x with skip := k }
    if 64 ≤ k ∧ !s.promoted.contains x then { s with promoted := s.promoted ++ [x] } else s) s

/-- Dispatches the next cluster of a queue at a position. What it is the trigger of stays kept for it until the victims have left (R116). -/
def State.dispatch (s : State) (q : Nat) (pos : AMap Nat (Nat × List Nat)) (ready : List Nat) : State :=
  let r := s.nextOf q
  let s' := match r with
    | some (.saved v _) => s.resumeCluster v pos
    | some (.fresh n l clid) =>
      (s.startCluster n l clid pos).modLaunch n (fun l => if l.returned = [] then { l with next := l.next + 1 } else { l with returned := l.returned.drop 1 })
    | none => s
  s'.countSkips q ready

/-! ### Pre-emption (R114 to R116, R118, R119) -/

/-- The instructions that a team has retired (R115). -/
def State.teamRetired (s : State) (id : TeamId) : Nat :=
  (s.threads.filter (fun p => decide (p.1.teamId = id))).foldl (fun n p => n + p.2.nret.toNat) 0

/-- The progress of a team in percent (R115). -/
def State.progress (s : State) (id : TeamId) (budget : Nat) : Nat := if budget = 0 then 0 else min 100 (100 * s.teamRetired id / budget)

/-- The action for a team of a launch (R115). -/
def State.actionFor (s : State) (id : TeamId) (t : Team) (h : Header) : TeamAction :=
  if h.idem ∧ s.progress id h.budget < 25 then .flush
  else if 75 ≤ s.progress id h.budget then .drain t.ncyc else .save

/-- A saved thread's size (R118). -/
def Thread.contextBytes (t : Thread) (slice : Nat) : Nat :=
  4 * t.regs + 129 + 64 + 64 * (t.q.filter (fun q => q.isSome)).length + 48 * (t.kept.length + t.log.length) + slice

/-- The size of a team's context (R118). -/
def State.contextBytes (s : State) (id : TeamId) (t : Team) : Nat :=
  let threads := (s.threads.filter (fun p => decide (p.1.teamId = id) && p.2.live)).foldl (fun n p => n + p.2.contextBytes t.slice) 0
  let tasks := ((s.core id.core).flow.filter (fun e => decide (e.team = id))).length
  threads + t.coBytes + t.cistBytes + 32 * (t.resv.filter (fun r => r.isSome)).length + 64 * t.conv.length
    + 16 * (t.turnouts.length + t.tiles.length + tasks + 1 + (s.groupsOf id).length)

/-- The bytes that teams on their way to the save area will take. -/
def State.areaPromised (s : State) : Nat :=
  s.teams.foldl (fun n p => if p.2.action = some .save ∧ !p.2.ended then n + s.contextBytes p.1 p.2 else n) 0

/-- The actions for the teams of a victim: where they differ, a team that would be flushed is saved (R116). -/
def mixedActions (l : List (TeamId × TeamAction)) : List (TeamId × TeamAction) :=
  let kind : TeamAction → Nat := fun a => match a with
    | .flush => 0
    | .drain _ => 1
    | .save => 2
  if l.all (fun p => kind p.2 == ((l.head?).map (fun h => kind h.2)).getD 0) then l
  else l.map (fun p => if p.2 = .flush then (p.1, .save) else p)

/-- The teams of a cluster that have not ended. -/
def State.liveTeams (s : State) (number : Nat) : List (TeamId × Team) :=
  s.teams.filter (fun p => decide (p.2.cluster = number) && !p.2.ended)

/-- The actions for a victim cluster (R115, R116). -/
def State.victimActions (s : State) (number : Nat) : List (TeamId × TeamAction) :=
  match s.clusterLaunch number with
  | some l => mixedActions ((s.liveTeams number).map (fun p => (p.1, s.actionFor p.1 p.2 l.header)))
  | none => []

/-- Sets the actions of teams. -/
def State.setActions (s : State) (l : List (TeamId × TeamAction)) : State :=
  l.foldl (fun s p => s.modTeam p.1 (fun t => { t with action := some p.2 })) s

/-- The clusters that a pre-emption at some cores takes: those with a non-pinned team below the priority there that is not leaving
already (R114). -/
def State.victims (s : State) (cores : List Nat) (below : Nat) : List Nat :=
  (s.teams.filter (fun p => cores.contains p.1.core && !p.2.pinned && !p.2.ended && decide (s.teamPrio p.2 < below))).foldl
    (fun l p => if s.leaving p.2.cluster then l else insertOnce p.2.cluster l) []

/-- Pre-empts for a cluster, which counts as a priority; while victims of its own pre-emption are leaving, it waits (R114, R116). -/
def State.preemptFor (s : State) (r : Ready) (below : Nat) : State :=
  if s.triggers.any (fun t => decide (t.cluster = r.ref) && s.triggerActive t) then s else
  match s.positionFor r (some below) (s.busyFor r) with
  | none => s
  | some pos =>
    let cores := pos.map (fun p => p.2.1)
    let victims := s.victims cores below
    let acts := victims.flatMap (fun n => s.victimActions n)
    let saves := (acts.filter (fun p => decide (p.2 = .save))).foldl (fun n p => n + ((s.team? p.1).map (fun t => s.contextBytes p.1 t)).getD 0) 0
    if acts.any (fun p => decide (p.2 = .save)) && decide (s.ctxlen < s.areaUsed + s.areaPromised + saves) then s
    else
      let t : Trigger := { cluster := r.ref, cores := cores, victims := victims }
      { s.setActions acts with triggers := s.triggers ++ [t] }

/-- Pre-empts for the next cluster of a queue. -/
def State.preempt (s : State) (q below : Nat) : State :=
  match s.nextOf q with
  | some r => s.preemptFor r below
  | none => s

/-! ### Teams that leave (R117, R118) -/

/-- The engine's order stands still at its head: it cannot start, or it is an `ssx` of a team that is to stop. -/
def State.matrixStuck (s : State) (core : Nat) : Bool :=
  match s.matrixHead core with
  | none => true
  | some o =>
    !o.started && (!s.released o || match o.op with
      | .mmap _ _ _ => !s.waitingHalf (partnerCore core)
      | .mst w => !o.flow && (match s.tile? o.team (bits w.toNat 11 4) with
        | some x => decide (x.state ≠ .empty)
        | none => false)
      | .ssx _ => s.teamStops o.team
      | _ => false)

/-- A checked copy of the team could start (R168). -/
def State.copyCouldStart (s : State) (id : TeamId) : Bool :=
  (s.core id.core).copies.any (fun c => decide (c.thread.teamId = id) && !c.started
    && (s.rqFills id c.raw).all (fun t => s.tileIs t (rqTile c.raw) .empty) && s.rqSourceReady id c.raw)

/-- A team has stopped: every live thread is at a boundary, its stores and its write streams are performed, and its engine
operations have run to completion (R117, R118). -/
def State.teamStopped (s : State) (id : TeamId) (flush : Bool) : Bool :=
  s.threads.all (fun p => decide (p.1.teamId ≠ id) || (p.2.atBoundary && p.2.q.all (fun q => match q with
      | some q => q.appended.isEmpty
      | none => true)))
    && !s.working id flush && !s.copyCouldStart id
    && ((s.core id.core).matrix.all (fun o => decide (o.team ≠ id)) || s.matrixStuck id.core)

/-- Every team of a cluster that has not ended is to leave, and has stopped. -/
def State.clusterStopped (s : State) (number : Nat) : Bool :=
  (s.liveTeams number).all (fun p => s.teamStops p.1 && s.teamStopped p.1 (decide (p.2.action = some .flush)))

/-- A cluster of which a team was flushed, and none is left, returns to the front of its launch's undispatched clusters (R117). -/
def State.returnFlushed (s : State) (number : Nat) : State :=
  match AMap.get? s.clusters number with
  | none => s
  | some c =>
    if c.flushed ∧ (s.liveTeams number).isEmpty then
      let s := s.modLaunch c.launch (fun l => { l with returned := c.clid :: l.returned })
      { s with clusters := AMap.erase s.clusters number }
    else s

/-- TEAM_FLUSH: a flushed team is discarded (R117). -/
def execTeamFlush (team : TeamId) (s : State) : Host.Outcome State Fault Refusal :=
  .next (match s.team? team with
  | none => s
  | some t =>
    if t.ended ∨ t.action ≠ some .flush ∨ !s.clusterStopped t.cluster then s else
    let s := s.discardTeams [team]
    let s := match AMap.get? s.clusters t.cluster with
      | some c => { s with clusters := AMap.set s.clusters t.cluster { c with flushed := true } }
      | none => s
    s.returnFlushed t.cluster)

/-- A stream as it is saved: what its read FIFO holds is dropped, and read again (R221). -/
def Stream.unread (q : Stream) : Stream := if q.write then q else { q with fifo := [], fetched := q.next, arriving := [], shows := .none }

/-- A thread as it is saved (R151, R220, R221): one posted for a translation fault is withdrawn, its flagged entries marked for
re-issue. -/
def Thread.saved (t : Thread) : Thread :=
  let t := { t.rewound with q := t.q.map (Option.map Stream.unread) }
  match t.wait with
  | .service back => t.retryFault back
  | _ => t

/-- The positions of a team's groups in a set of its core (R118). -/
def placesOf (id : TeamId) (l : List GroupId) : AMap GroupId Nat := (l.mapIdx (fun i g => (g, i))).filter (fun p => decide (p.1.teamId = id))

/-- What is saved of a team (R118). -/
def State.savedTeam (s : State) (id : TeamId) (t : Team) : SavedTeam :=
  let k := s.core id.core
  let threads := s.threads.filter (fun p => decide (p.1.teamId = id))
  let mine := k.matrix.filter (fun o => decide (o.team = id))
  let halt : MatrixOp → MatrixOp := fun o => match o.op with
    | .ssx _ => { o with paired := none }
    | _ => o
  let tags := (k.tagsOf id).filter (fun n => mine.all (fun o => decide (o.paired ≠ some n)))
  { core := id.core, teamid := id.team, index := t.index, team := t, groups := s.groupsOf id
    active := placesOf id k.active, pending := placesOf id k.pending
    threads := threads.map (fun p => (p.1, p.2.saved))
    lanes := threads.map (fun p => (p.1, Memory.slice s.mem (laneBase id.core p.2.lane p.2.slot) t.slice))
    co := Memory.slice s.mem (scratchPa id.core t.coBase) t.coBytes, cist := Memory.slice s.cist (id.core * 262144 + t.cistBase) t.cistBytes
    flow := k.flow.filter (fun e => decide (e.team = id)), matrix := mine.map halt
    copies := k.copies.filter (fun c => decide (c.thread.teamId = id)), batches := k.batches.filter (fun b => decide (b.thread.teamId = id))
    ranges := k.ranges.filter (fun r => tags.contains r.tag), bytes := s.contextBytes id t }

/-- Adds a saved team to its cluster. -/
def addSaved (number : Nat) (t : SavedTeam) (l : List SavedCluster) : List SavedCluster :=
  if l.any (fun v => v.number == number) then l.map (fun v => if v.number = number then { v with teams := v.teams ++ [t] } else v)
  else l ++ [{ number := number, teams := [t] }]

/-- Closes the batches of a team that can be joined (R111): every member that could has stopped. -/
def State.closeCalls (s : State) (id : TeamId) : State :=
  let f : ServiceBatch → ServiceBatch := fun b => if b.group.teamId = id then { b with closed := true } else b
  { s with service := { s.service with batches := s.service.batches.map f } }

/-- The cut stops saving with the last team that leaves by save (R121). -/
def State.settleSaving (s : State) : State :=
  if s.cut.saving ∧ s.teams.all (fun p => p.2.ended || decide (p.2.action ≠ some .save)) then { s with cut := { s.cut with saving := false } } else s

/-- The requests for elements of a team's streams come to nothing: its threads fetch them again (R221). -/
def State.forgetElements (s : State) (id : TeamId) : State :=
  let gone : Message → Bool := fun m => decide (m.thread.teamId = id) && (match m.body with
    | .element _ _ => true
    | _ => false)
  { s with net := { s.net with messages := s.net.messages.filter (fun m => !gone m) } }

/-- TEAM_SAVE: the context of a saved team is written to the save area, and it leaves its core (R118 to R120, R220). -/
def execTeamSave (team : TeamId) (s : State) : Host.Outcome State Fault Refusal :=
  .next (match s.team? team with
  | none => s
  | some t =>
    if t.ended ∨ t.action ≠ some .save ∨ !s.clusterStopped t.cluster ∨ s.ctxlen < s.areaUsed + s.contextBytes team t then s else
    let f := renameBy [(team, parkedId t.cluster t.index)]
    let v := (s.savedTeam team t).renamed f
    let s := (((s.closeCalls team).dropCalls team (fun b => b.kind == 1)).leaveSets team).modCore team.core (fun k => k.withoutWork team)
    let s := (s.fillArea v.bytes).forgetElements team
    let s := { s with saved := addSaved t.cluster v s.saved, teams := AMap.erase s.teams team
                      groups := s.groups.filter (fun p => decide (p.1.teamId ≠ team)), threads := s.threads.filter (fun p => decide (p.1.teamId ≠ team)) }
    (s.renameOutside f).settleSaving)

/-- DRAIN_TIMEOUT: a draining team that has not ended within 2^22 cycles of its core is saved (R116). -/
def execDrainTimeout (team : TeamId) (s : State) : Host.Outcome State Fault Refusal :=
  .next (match s.team? team with
  | none => s
  | some t =>
    match t.action with
    | some (.drain since) => if !t.ended ∧ since + 2 ^ 22 ≤ t.ncyc then s.modTeam team (fun t => { t with action := some .save }) else s
    | _ => s)

/-! ### The decision -/

/-- Queues without a ready cluster have no deficit (R106). -/
def State.zeroDeficits (s : State) : State :=
  let ready := s.readyQueues
  { s with queues := s.queues.map (fun p => if ready.contains p.1 then p else (p.1, { p.2 with deficit := 0 })) }

/-- What precedes every decision: ended teams give back their resources, pre-emptions whose victims have left are over, and queues
without a ready cluster lose their deficit. -/
def State.beforeDecision (s : State) : State :=
  let s := (s.clusters.map (fun p => p.1)).foldl (fun s n => s.returnFlushed n) s
  let s := s.sweep
  ({ s with triggers := s.triggers.filter s.triggerActive } : State).zeroDeficits

/-- One decision: the promoted queues first, else the deficit round robin; the head of dispatch pre-empts where it cannot be placed
(R106, R107, R114). -/
def State.dispatchOne (s : State) : State :=
  let s := s.beforeDecision
  let ready := s.readyQueues
  match s.promoted.find? (fun q => ready.contains q) with
  | some q => match s.placeOf q with
    | some pos => s.dispatch q pos ready
    | none => s.preempt q 8
  | none =>
    let s := match s.choose ready with
      | some (h, _, _, _) => if (s.placeOf h).isNone then s.preempt h (s.queuePrio h) else s
      | none => s
    match s.choose (ready.filter (fun q => (s.placeOf q).isSome)) with
    | none => s
    | some (q, defs, cur, p) =>
      match s.placeOf q with
      | none => s
      | some pos => (({ s with cursors := AMap.set s.cursors p cur } : State).setDeficits defs).dispatch q pos ready

/-- DISPATCH_DECISION (R101, R104 to R107, R114 to R116, R120). -/
def execDispatchDecision (s : State) : Host.Outcome State Fault Refusal :=
  .next (if s.unitStopped .queues then s else s.dispatchOne.zeroDeficits)

/-! ### Swaps (R109) -/

/-- The active group with the greatest value, of those with one. -/
def State.mostActive (s : State) (core : Nat) (f : GroupId → Group → Option Nat) : Option GroupId :=
  ((s.core core).active.foldl (fun (r : Option (GroupId × Nat)) g =>
    match (s.group? g).bind (f g) with
    | none => r
    | some n => match r with
      | some (_, m) => if m < n then some (g, n) else r
      | none => some (g, n)) none).map (fun r => r.1)

/-- PARK_SWAP: the active group that has been parked longest, for at least T cycles, is exchanged for a ready pending one. -/
def execParkSwap (core : Nat) (s : State) : Host.Outcome State Fault Refusal :=
  .next (match s.mostActive core (fun g v => if (s.core core).swapT ≤ v.parkedFor ∧ !s.ready g then some v.parkedFor else none) with
    | some g => s.exchange g
    | none => s)

/-- A pending group that has waited ready while its core made 4,096 issues. -/
def State.longWaiting (s : State) (core : Nat) : Bool :=
  (s.core core).pending.any (fun g => s.ready g && (match s.group? g with
    | some v => decide (4096 ≤ v.waited)
    | none => false))

/-- ISSUE_SWAP: where a ready pending group has waited for 4,096 issues, the active group with the most issues is exchanged for the ready
pending one nearest the head. -/
def execIssueSwap (core : Nat) (s : State) : Host.Outcome State Fault Refusal :=
  .next (if !s.longWaiting core then s else
    match s.mostActive core (fun _ v => some v.issues) with
    | some g => s.exchange g
    | none => s)

/-- SWAP_THRESHOLD_ADJUST: the loop of R29 sets T between 16 and 4,096 cycles. -/
def execSwapThresholdAdjust (core cycles : Nat) (s : State) : Host.Outcome State Fault Refusal :=
  .next (if 16 ≤ cycles ∧ cycles ≤ 4096 then s.modCore core (fun k => { k with swapT := cycles }) else s)

end Sys2Proof.Machine
end

