-- ==== Sys2Proof/Machine/Cut.lean ====
section
/-! DEFINITION. The consistent cut (R51, R121 to R123): opcode-table rows CUT_STOP to STOPPED_UNIT_FLIT. -/
namespace Sys2Proof.Machine

/-- The engines of a core that hold work. -/
def coreUnits (c : Nat) (k : Core) : List CutUnit :=
  (if k.batches.isEmpty ∧ k.copies.isEmpty then [] else [.headgate c]) ++ (if k.chains.isEmpty then [] else [.flume c])
    ++ (if k.matrix.isEmpty then [] else [.matrix c])

/-- The units that have to stop (R122): the queues, the transport, every live thread, and the engines that hold work. -/
def State.cutUnits (s : State) : List CutUnit :=
  [.queues, .transport] ++ (s.threads.filter (fun p => p.2.live)).map (fun p => .thread p.1) ++ s.cores.flatMap (fun p => coreUnits p.1 p.2)

/-- A unit is at its boundary (R122). The model's packets, pieces and chunks are single steps; an `ssx` in progress stops by row
SSX_STOP. -/
def State.unitAtBoundary (s : State) : CutUnit → Bool
  | .queues => true
  | .transport => true
  | .thread t => match s.thread? t with
    | some v => v.live && v.atBoundary
    | none => false
  | .headgate _ => true
  | .flume _ => true
  | .matrix c => match s.matrixHead c with
    | some o => !o.started
    | none => true

/-- A stopped unit waits before its boundary's instruction (R151). -/
def State.rewindUnit (s : State) : CutUnit → State
  | .thread t => s.modThread t Thread.rewound
  | _ => s

/-- The live non-pinned teams of a cluster. -/
def State.savable (s : State) (number : Nat) : List (TeamId × Team) := (s.liveTeams number).filter (fun p => !p.2.pinned)

/-- The cut decides the save of some teams; those that a pre-emption is saving already stay its own. -/
def State.chooseSaves (s : State) (ts : List (TeamId × Team)) : State :=
  let own := (ts.filter (fun p => decide (p.2.action ≠ some .save))).map (fun p => p.1)
  { s.setActions (ts.map (fun p => (p.1, .save))) with cut := { s.cut with saving := true, chosen := s.cut.chosen ++ own } }

/-- Pre-empts every non-pinned team by save, cluster by cluster as far as the save area takes them (R114, R121). -/
def State.saveAll (s : State) : State :=
  let r := (s.clusters.map (fun p => p.1)).foldl (fun (r : State × Nat) n =>
    let ts := r.1.savable n
    let need := ts.foldl (fun k p => k + s.contextBytes p.1 p.2) 0
    if ts.isEmpty then r
    else if s.ctxlen < r.2 + need then ({ r.1 with cut := { r.1.cut with saveFail := true } }, r.2)
    else (r.1.chooseSaves ts, r.2 + need)) (s, s.areaUsed)
  r.1

/-- Once every unit has stopped, the device has; with save the contexts follow (R121, R122). -/
def State.settleCut (s : State) : State :=
  if s.cut.stopping ∧ s.cutUnits.all (fun u => s.cut.units.contains u) then
    let s := { s with cut := { s.cut with stopping := false, isStopped := true } }
    if s.cut.save then s.saveAll else s
  else s

/-- A stop request (R121). -/
def State.requestStop (s : State) (save : Bool) : State :=
  if s.cut.isStopped then (if save ∧ !s.cut.save then ({ s with cut := { s.cut with save := true, saveFail := false } } : State).saveAll else s)
  else if s.cut.stopping then { s with cut := { s.cut with save := s.cut.save || save } }
  else { s with cut := { s.cut with stopping := true, save := save, saveFail := false, chosen := [], units := [] } }

/-- CUT_STOP (R121, R122). -/
def execCutStop (master : Nat) (s : State) : Host.Outcome State Fault Refusal :=
  .next (s.byOwner master (fun s => s.requestStop false))

/-- CUT_STOP_SAVE (R121). -/
def execCutStopSave (master : Nat) (s : State) : Host.Outcome State Fault Refusal :=
  .next (s.byOwner master (fun s => s.requestStop true))

/-- Flits in ascending number. -/
def byNumber (l : List (Nat × Nat × Word × FlitBody)) : List (Nat × Nat × Word × FlitBody) :=
  l.foldl (fun r x => r.takeWhile (fun y => decide (y.2.2.1 ≤ x.2.2.1)) ++ x :: r.dropWhile (fun y => decide (y.2.2.1 ≤ x.2.2.1))) []

/-- CUT_RESUME: ignored while the device has not stopped. Every receiver hands its saved flits to their units in ascending number, before any
newer one, and every unit goes on; a team whose save the cut decided and that was not saved yet stays (R51, R121, R123). -/
def execCutResume (master : Nat) (s : State) : Host.Outcome State Fault Refusal :=
  .next (s.byOwner master (fun s =>
    if !s.cut.isStopped then s else
    let stay : TeamId × Team → TeamId × Team := fun p =>
      if p.2.action = some .save ∧ s.cut.chosen.contains p.1 = true then (p.1, { p.2 with action := none }) else p
    let l := byNumber s.cut.flits
    let c := { s.cut with save := false, isStopped := false, saving := false, chosen := [], units := [], flits := [], handed := s.cut.handed ++ l }
    let s := l.foldl (fun s f => s.deliverFlit f.2.2.2) { s with teams := s.teams.map stay, cut := c }
    s.groups.foldl (fun r p => (r.turnouts p.1.teamId).meet p.1) s))

/-- UNIT_STOP: a unit reaches its boundary after a stop request (R122). -/
def execUnitStop (unit : CutUnit) (s : State) : Host.Outcome State Fault Refusal :=
  .next (if s.cut.stopping && !s.cut.units.contains unit && s.unitAtBoundary unit then
    (({ s with cut := { s.cut with units := s.cut.units ++ [unit] } } : State).rewindUnit unit).settleCut
  else s)

/-- A unit to which a flit is bound has stopped (R51, R122). -/
def State.flitStopped (s : State) : FlitBody → Bool
  | .answer id _ _ => s.threadStopped id
  | .element id _ _ => s.threadStopped id
  | .raw _ => s.cut.stopping || s.cut.isStopped

/-- STOPPED_UNIT_FLIT: a receiver numbers a flit in its class. One for a stopped unit is saved, and any other reaches its unit at once
(R51). -/
def execStoppedUnitFlit (rx cls : Nat) (payload : FlitBody) (s : State) : Host.Outcome State Fault Refusal :=
  .next (if s.flitStopped payload then s.saveFlit rx cls payload else
    let n := AMap.getD s.cut.rxSeq (rx, cls) 0
    let s := s.numberFlit rx cls
    ({ s with cut := { s.cut with handed := s.cut.handed ++ [(rx, cls, n, payload)] } } : State).deliverFlit payload)

end Sys2Proof.Machine
end

