-- ==== Sys2Proof/Machine/Pod.lean ====
section
/-! DEFINITION. The pod as seen from this device: requests of other members arrive (R41 to R44, R65, R71), flushes end (R44, R201), and
requests of this device go unanswered (R44). Opcode-table rows POD_REQUEST_ARRIVAL, POD_FLUSH_COMPLETE, POD_REQUEST_TIMEOUT and
LINK_LEVEL_REPLAY. -/
namespace Sys2Proof.Machine

/-- The key of the failure kept for a source and a port (R65). -/
def podKey (q : PodRequest) : Nat := q.member * 64 + q.port

/-- A failed posted store is discarded and counted; its code waits for the next zero-length read of its source and port (R65). -/
def State.keepPodFail (s : State) (q : PodRequest) (code : Nat) : State :=
  let s := s.countCheck code
  match AMap.get? s.net.podFail (podKey q) with
  | some _ => s
  | none => { s with net := { s.net with podFail := AMap.set s.net.podFail (podKey q) code } }

/-- A failed read, atomic or increment returns an error response (R65). -/
def State.refusePod (s : State) (q : PodRequest) (code : Nat) : State := (s.countCheck code).send (.podResponse q.member code [])

/-- A zero-length read: the code kept for its source and port is returned and forgotten (R65). -/
def State.answerFlush (s : State) (q : PodRequest) : State :=
  if !s.jobOn then s.refusePod q 1 else
  let code := AMap.getD s.net.podFail (podKey q) 0
  ({ s with net := { s.net with podFail := AMap.erase s.net.podFail (podKey q) } } : State).send (.podResponse q.member code [])

/-- The writes of a pod member's signalled write: those that it has sent in class BULK to the range that its increment request names (R71,
R204). -/
def State.podCounted (s : State) (q : PodRequest) (n : Nat) : List Nat :=
  let d := s.regionDesc q.region
  let ps := (pageCuts (pageFuel n) (bits d 47 0 + q.offset) n).filterMap (fun c =>
    match s.translate (.die 0) (bits d 63 48) c.1 .store true with
    | .ok pa _ => some (pa, c.2)
    | _ => none)
  s.writesIn (fun a => decide (a = .pod q.member true)) ps

/-- A request of a pod member at its target (R65): the checks in their order, then its effect. One whose bytes are held for now (R25,
R182) waits. -/
def State.podArrive (s : State) (q : PodRequest) : State :=
  let held := fun (ps : List (Place × Nat)) => ps.any s.partHeld
  match q.kind with
  | .write b =>
    (match s.targetParts q.region q.offset b.length .store q.key q.signalled with
    | .error c => s.keepPodFail q c
    | .ok ps => if held ps then s else s.partsWrite (placedBy (.pod q.member q.bulk) q.release) ps b)
  | .read n =>
    (match s.targetParts q.region q.offset n .load q.key false with
    | .error c => s.refusePod q c
    | .ok ps =>
      if held ps then s
      else if (s.partsPoison ps 0).isSome then s.send (.podResponse q.member 0x100 [])
      else s.send (.podResponse q.member 0 (s.partsRead ps)))
  | .atomic op wide value compare ret =>
    (match s.targetParts q.region q.offset (if wide then 8 else 4) .atomic q.key false with
    | .error c => s.refusePod q c
    | .ok ps =>
      if held ps then s
      else if (s.partsPoison ps 0).isSome then s.send (.podResponse q.member 0x100 [])
      else
        let r := s.atomicAt (placedAtomic (.pod q.member q.bulk) q.release) op wide value compare ps
        r.1.send (.podResponse q.member 0 (if ret then natBytes (if wide then 8 else 4) r.2 else [])))
  | .count ctr n =>
    if !s.jobOn then s.refusePod q 1
    else if !s.counterOk (some ctr) then s.refusePod q 7
    else (s.ctrMessage (countOrigin (.pod q.member true) (s.podCounted q n) (.ofWrites (q.release.getD []))) ctr n).send (.podResponse q.member 0 [])
  | .flush _ => s.answerFlush q

/-- The class of a request of a pod member: BULK, number 3, or REQ, 0 (R36). -/
def podClass (q : PodRequest) : Nat := if q.bulk then 3 else 0

/-- POD_REQUEST_ARRIVAL (R65): on a port that is up, whose receiver numbers it (R38, R51). -/
def execPodRequestArrival (request : PodRequest) (s : State) : Host.Outcome State Fault Refusal :=
  .next (if s.portUp request.port then (s.numberFlit request.port (podClass request)).podArrive request else s)

/-- The release that a failed flush belongs to is not performed (R201). -/
def State.dropRelease (s : State) (id : ThreadId) (stamp : Nat) : State :=
  let s := { s with buffer := s.buffer.filter (fun b => !(decide (b.thread = id) && decide (b.stamp = stamp))) }
  match (s.thread? id).bind (fun t => t.log.find? (fun e => e.stamp == stamp)) with
  | some e => s.setEntry id e (.returned [])
  | none => s

/-- A user of a failed flush (R44, R201); stamp 0 is a `fence` or `pflush`, which completes all the same (R320). The address is that of
the peer's rank (log entry 35). -/
def State.failFlushUser (s : State) (peer : Nat) (u : ThreadId × Nat) : State :=
  let s := s.pend u.1 .remoteAccessFailure (BitVec.ofNat 64 (gAddr (s.rankOfMember peer) 0 0))
  if u.2 = 0 then s else s.dropRelease u.1 u.2

/-- What a flush leaves of a pod store that it covers: nothing where it succeeded, for the store is placed. One whose flush failed is not known
to be, and the threads that waited for it alone wait no longer (R44, R201, R320). -/
def Tracked.flushed (t : Tracked) (code : Nat) (users : List (ThreadId × Nat)) : Option Tracked :=
  if code = 0 then none
  else some { t with covered := false, excused := t.excused ++ (users.filter (fun u => decide (u.2 = 0))).map (fun u => u.1) }

/-- A flush to a member is over. -/
def State.endFlush (s : State) (peer code : Nat) (users : List (ThreadId × Nat)) : State :=
  let after := fun (t : Tracked) => if decide (t.member = peer) && t.covered then t.flushed code users else some t
  let fl := s.net.flushes.filter (fun g => decide (g.member ≠ peer))
  { s with net := { s.net with flushes := fl, tracked := s.net.tracked.filterMap after } }

/-- POD_FLUSH_COMPLETE: every response to a flush has returned, with the code of the first failure or 0; above 8, none came (R44). The
stores it covers are placed, or not known to be, and its users and messages go on. -/
def execPodFlushComplete (peer : Nat) (code : Nat) (s : State) : Host.Outcome State Fault Refusal :=
  match s.net.flushes.find? (fun f => f.member == peer) with
  | none => .next s
  | some f =>
    let s := if 8 < code then s.count 0x1070 else s
    let s := s.endFlush peer code f.users
    let ms := s.net.messages.filter (fun m => m.pod && decide (m.acked = 1) && decide (s.pathOf m.rank = some (.pod peer)))
    let s := ms.foldl (fun s m => if code = 0 then s.modMessage m.number (fun m => { m with acked := 2 }) else s.failMessage m) s
    .next (if code = 0 then s else f.users.foldl (fun s u => s.failFlushUser peer u) s)

/-- A part of an access in progress that a pod member has not answered. -/
def awaitsPod (ps : List (Place × Nat × Option (List Byte))) : Bool :=
  ps.any (fun p => p.2.2.isNone && (match p.1 with
    | .pod _ _ _ _ => true
    | _ => false))

/-- A pod request of an access that its port has not let go (R38). -/
def State.podStuck (s : State) (id : ThreadId) (e : LogEntry) : Bool :=
  decide (e.state = .pending) && !s.podFlows (s.accessParts id e.kernel e.access)

/-- A pod load or atomic of a thread goes unanswered (R44). -/
def State.entryLate (s : State) (id : ThreadId) (entry : Nat) : State :=
  match (s.thread? id).bind (fun t => t.log.find? (fun e => e.index == entry)) with
  | none => s
  | some e =>
    let late := s.podStuck id e || (match e.state with
      | .sent ps => awaitsPod ps
      | _ => false)
    match e.access with
    | .load _ a _ _ _ _ => if late then (s.count 0x1070).failEntry id e a else s
    | .atom _ a _ _ _ _ _ _ => if late then (s.count 0x1070).failEntry id e a else s
    | _ => s

/-- A pod read of an element of a stream goes unanswered (R44, R217). -/
def State.streamLate (s : State) (id : ThreadId) (k : Nat) : State :=
  match (s.thread? id).bind (fun t => t.stream k) with
  | some q => if awaitsPod q.arriving then (s.count 0x1070).failElement id k q else s
  | none => s

/-- A pod read of a piece of a copy goes unanswered (R44, R175). -/
def State.pieceLate (s : State) (core request piece : Nat) : State :=
  match (s.core core).copies.find? (fun c => c.tag == request) with
  | none => s
  | some c =>
    match c.cuts[piece]? with
    | none => s
    | some (off, n) =>
      if c.started && c.pieces.contains piece && !s.pieceSent core request piece && (s.pieceSource c off n).any (fun p => p.1.isPod)
      then (s.count 0x1070).pieceUnanswered core c piece off n else s

/-- A pod read of an element of a chain goes unanswered (R44, R179). -/
def State.elementLate (s : State) (core chain element : Nat) : State :=
  match (s.core core).chains.find? (fun c => c.tag == chain) with
  | none => s
  | some c =>
    let ps := s.engineParts c.thread c.kernel (descSsp c.desc) (descSrc c.desc + 4 * element) 4 .load
    if c.pending.contains element && (AMap.get? c.ready element).isNone && ps.any (fun p => p.1.isPod)
    then (s.count 0x1070).elementUnanswered core c element else s

/-- POD_REQUEST_TIMEOUT: a pod read or atomic has had no response for 2^26 cycles, and fails (R44). -/
def execPodRequestTimeout (thread : ThreadId) (entry : PodWait) (s : State) : Host.Outcome State Fault Refusal :=
  .next (match entry with
    | .entry i => s.entryLate thread i
    | .stream k => s.streamLate thread k
    | .piece c r i => s.pieceLate c r i
    | .element c h i => s.elementLate c h i)

/-- LINK_LEVEL_REPLAY: a port has found a damaged flit and replays; only the replay is counted (R41, R80). -/
def execLinkLevelReplay (port : Nat) (s : State) : Host.Outcome State Fault Refusal := .next (if port < 18 then s.count 0x1078 else s)

end Sys2Proof.Machine
end

