-- ==== Sys2Proof/Machine/Writes.lean ====
section
/-! DEFINITION. A plain write to the management block (R384): opcode-table row REGISTER_WRITE. -/
namespace Sys2Proof.Machine

/-- The port whose word lies at an offset (R38). -/
def portAt (off : Nat) : Option Nat :=
  if 0x300 ≤ off ∧ off < 0x348 then some ((off - 0x300) / 4) else if 0x380 ≤ off ∧ off < 0x3A0 then some (18 + (off - 0x380) / 4) else none

/-- A word whose write is a row of its own (R28, R38, R56, R62, R84, R96). -/
def rowWord (off : Nat) : Bool :=
  (portAt off).isSome || decide (off = 0x210 ∨ off = 0x40000 ∨ off = 0x40034)
    || (decide (0x10000 ≤ off ∧ off < 0x11000) && decide (off % 64 = 0)) || (decide (0x200000 ≤ off ∧ off < 0x280000) && decide (off % 32 = 0))

/-- What a write of such a word by the owner does: that of its row. -/
def State.writeRow (s : State) (master off v : Nat) : State :=
  match portAt off with
  | some p => if bits v 0 0 = 1 then s.enablePort p v else s.disablePort p v
  | none =>
    if off = 0x210 then s.capPower v
    else if off = 0x40000 then (if bits v 0 0 = 1 then s.enableJob else s.disableJob)
    else if off = 0x40034 then (if bits v 0 0 = 1 then { s with jinval := true } else s)
    else if off < 0x11000 then (if bits v 0 0 = 1 then s.enableWindow ((off - 0x10000) / 64) v else s.writeWord off v)
    else if bits v 0 0 = 1 then s.enableQueue master ((off - 0x200000) / 32) v
    else s.disableQueue ((off - 0x200000) / 32) v

/-- A write of 8 bytes: its plain words are stored, and then the others have their effects (R384; DESIGN CHOICE: log entry 115). -/
def State.writeWide (s : State) (master : Nat) (ws : List (Nat × Nat)) : State :=
  let s := (ws.filter (fun w => !rowWord w.1)).foldl (fun s w => s.writeWord w.1 w.2) s
  (ws.filter (fun w => rowWord w.1)).foldl (fun s w => s.writeRow master w.1 w.2) s

/-- REGISTER_WRITE: a write to a register without a row of its own, or one of 8 bytes that covers such a register (R384); a claim or qctl
write that R82 or R91 refuses is one of them. Before the block is served it is Unsupported Request (R31); in an area of the owner, one of
another master is counted in rejcnt (R79); a narrow, misaligned or split one, and one to an area that nothing writes, is discarded. -/
def execRegisterWrite (master off size : Nat) (value : Dword) (s : State) : Host.Outcome State Fault Refusal :=
  let ok := (decide (size = 4) || (decide (size = 8))) && decide (off % size = 0) && !(decide (size = 4) && wideOnly off)
  let ws := regWords off size value.toNat
  .next (if !s.masterReaches master then s
    else if !s.served off then s.send .unsupported
    else if 0x800 ≤ off ∧ off < 0x1000 then
      (if ok && s.mailMaster master then ws.foldl (fun s w => s.writeMail w.1 w.2) s else s)
    else if 0x140 ≤ off ∧ off < 0x180 then s.claimWord master off size value.toNat
    else if !ownerArea off then s
    else if off = 0x280000 ∧ size = 8 then
      s.byOwner master (fun s => if bits value.toNat 15 14 = 3 ∨ bits value.toNat 31 16 ≠ 0 then { s with qres := 3 } else s)
    else s.byOwner master (fun s => if !ok then s else if size = 8 then s.writeWide master ws else ws.foldl (fun s w => s.writeWord w.1 w.2) s))

end Sys2Proof.Machine
end

