-- ==== Sys2Proof/Machine/Dispatch.lean ====
section
/-! DEFINITION. The meaning of every row of the opcode table, one arm for each. -/
namespace Sys2Proof.Machine

/-- What a row does. -/
def exec (instr : Instr) (st : State) : Host.Outcome State Fault Refusal :=
  match instr with
  | .fundamentalReset => Sys2Proof.Machine.execFundamentalReset st
  | .bootStageAdvance trainFail => Sys2Proof.Machine.execBootStageAdvance trainFail st
  | .hostLinkUp => Sys2Proof.Machine.execHostLinkUp st
  | .powerRemoval => Sys2Proof.Machine.execPowerRemoval st
  | .thermalShutdown => Sys2Proof.Machine.execThermalShutdown st
  | .spdmRequest req => Sys2Proof.Machine.execSpdmRequest req st
  | .coreFrequencyChange core steps => Sys2Proof.Machine.execCoreFrequencyChange core steps st
  | .l2HomeMove handle die => Sys2Proof.Machine.execL2HomeMove handle die st
  | .powerCapWrite master value => Sys2Proof.Machine.execPowerCapWrite master value st
  | .patrolScrub granule found => Sys2Proof.Machine.execPatrolScrub granule found st
  | .tierMoveStart what demote dests => Sys2Proof.Machine.execTierMoveStart what demote dests st
  | .tierMoveComplete asid page => Sys2Proof.Machine.execTierMoveComplete asid page st
  | .registerWrite master off size value => Sys2Proof.Machine.execRegisterWrite master off size value st
  | .mailboxErase master slot => Sys2Proof.Machine.execMailboxErase master slot st
  | .mailboxWrite master slot => Sys2Proof.Machine.execMailboxWrite master slot st
  | .mailboxVerify master slot => Sys2Proof.Machine.execMailboxVerify master slot st
  | .mailboxRestart master => Sys2Proof.Machine.execMailboxRestart master st
  | .mailboxCommandDone flashError => Sys2Proof.Machine.execMailboxCommandDone flashError st
  | .portEnable master port value => Sys2Proof.Machine.execPortEnable master port value st
  | .portDisable master port value => Sys2Proof.Machine.execPortDisable master port value st
  | .portTrainingDone port up => Sys2Proof.Machine.execPortTrainingDone port up st
  | .portLinkLoss port => Sys2Proof.Machine.execPortLinkLoss port st
  | .claim master reg id seq => Sys2Proof.Machine.execClaim master reg id seq st
  | .requestHandover master reg id seq => Sys2Proof.Machine.execRequestHandover master reg id seq st
  | .acceptHandover master reg id seq => Sys2Proof.Machine.execAcceptHandover master reg id seq st
  | .release master reg id seq => Sys2Proof.Machine.execRelease master reg id seq st
  | .masterLinkDown master => Sys2Proof.Machine.execMasterLinkDown master st
  | .jobEnable master => Sys2Proof.Machine.execJobEnable master st
  | .jobDisable master => Sys2Proof.Machine.execJobDisable master st
  | .jinval master => Sys2Proof.Machine.execJinval master st
  | .jinvalComplete => Sys2Proof.Machine.execJinvalComplete st
  | .queueEnable master queue value => Sys2Proof.Machine.execQueueEnable master queue value st
  | .queueDisable master queue value => Sys2Proof.Machine.execQueueDisable master queue value st
  | .commandDoorbell queue tail => Sys2Proof.Machine.execCommandDoorbell queue tail st
  | .completionDoorbell queue head => Sys2Proof.Machine.execCompletionDoorbell queue head st
  | .spawnWindowStore queue whole record => Sys2Proof.Machine.execSpawnWindowStore queue whole record st
  | .queueReset master queue => Sys2Proof.Machine.execQueueReset master queue st
  | .queueAdopt master queue gen => Sys2Proof.Machine.execQueueAdopt master queue gen st
  | .endReattach master => Sys2Proof.Machine.execEndReattach master st
  | .commandFetch queue => Sys2Proof.Machine.execCommandFetch queue st
  | .launch queue seq => Sys2Proof.Machine.execLaunch queue seq st
  | .wait queue seq => Sys2Proof.Machine.execWait queue seq st
  | .waitComplete queue seq => Sys2Proof.Machine.execWaitComplete queue seq st
  | .signal queue seq => Sys2Proof.Machine.execSignal queue seq st
  | .copy queue seq => Sys2Proof.Machine.execCopy queue seq st
  | .copyComplete queue seq failed written => Sys2Proof.Machine.execCopyComplete queue seq failed written st
  | .nopCommand queue seq => Sys2Proof.Machine.execNopCommand queue seq st
  | .hostPortTimeout request => Sys2Proof.Machine.execHostPortTimeout request st
  | .launchComplete queue seq => Sys2Proof.Machine.execLaunchComplete queue seq st
  | .completionWrite queue => Sys2Proof.Machine.execCompletionWrite queue st
  | .pmapWrite master value => Sys2Proof.Machine.execPmapWrite master value st
  | .dispatchDecision => Sys2Proof.Machine.execDispatchDecision st
  | .teamFlush team => Sys2Proof.Machine.execTeamFlush team st
  | .teamSave team => Sys2Proof.Machine.execTeamSave team st
  | .drainTimeout team => Sys2Proof.Machine.execDrainTimeout team st
  | .parkSwap core => Sys2Proof.Machine.execParkSwap core st
  | .issueSwap core => Sys2Proof.Machine.execIssueSwap core st
  | .cutStop master => Sys2Proof.Machine.execCutStop master st
  | .cutStopSave master => Sys2Proof.Machine.execCutStopSave master st
  | .cutResume master => Sys2Proof.Machine.execCutResume master st
  | .unitStop unit => Sys2Proof.Machine.execUnitStop unit st
  | .stoppedUnitFlit rx cls payload => Sys2Proof.Machine.execStoppedUnitFlit rx cls payload st
  | .serviceBatchTimeout group kind => Sys2Proof.Machine.execServiceBatchTimeout group kind st
  | .serviceBatchPost index => Sys2Proof.Machine.execServiceBatchPost index st
  | .serviceAnswer die slot => Sys2Proof.Machine.execServiceAnswer die slot st
  | .translationWalk die asid walked => Sys2Proof.Machine.execTranslationWalk die asid walked st
  | .accessReturn thread which remote choice => Sys2Proof.Machine.execAccessReturn thread which remote choice st
  | .markerCommit thread => Sys2Proof.Machine.execMarkerCommit thread st
  | .asyncErrorArrival thread cause tval => Sys2Proof.Machine.execAsyncErrorArrival thread cause tval st
  | .groupFaultStop thread => Sys2Proof.Machine.execGroupFaultStop thread st
  | .pairTimeout team g => Sys2Proof.Machine.execPairTimeout team g st
  | .copyRequestCheck core => Sys2Proof.Machine.execCopyRequestCheck core st
  | .copyRequestDispatch core request => Sys2Proof.Machine.execCopyRequestDispatch core request st
  | .copyPieceComplete core request piece fault remote => Sys2Proof.Machine.execCopyPieceComplete core request piece fault remote st
  | .dataflowDispatch core => Sys2Proof.Machine.execDataflowDispatch core st
  | .flumeElement core chain element remote => Sys2Proof.Machine.execFlumeElement core chain element remote st
  | .matrixOpStart core => Sys2Proof.Machine.execMatrixOpStart core st
  | .matrixOpComplete core => Sys2Proof.Machine.execMatrixOpComplete core st
  | .ssxChunkComplete core => Sys2Proof.Machine.execSsxChunkComplete core st
  | .ssxStop core written => Sys2Proof.Machine.execSsxStop core written st
  | .streamElementFetch thread stream answer => Sys2Proof.Machine.execStreamElementFetch thread stream answer st
  | .tileWaitRelease thread => Sys2Proof.Machine.execTileWaitRelease thread st
  | .counterWaitRelease thread => Sys2Proof.Machine.execCounterWaitRelease thread st
  | .bwaitRelease thread => Sys2Proof.Machine.execBwaitRelease thread st
  | .fenceComplete thread => Sys2Proof.Machine.execFenceComplete thread st
  | .ssqWaitRelease thread => Sys2Proof.Machine.execSsqWaitRelease thread st
  | .tlbinvComplete thread => Sys2Proof.Machine.execTlbinvComplete thread st
  | .parkExpire thread => Sys2Proof.Machine.execParkExpire thread st
  | .wfeTimeout thread => Sys2Proof.Machine.execWfeTimeout thread st
  | .packetSend rank => Sys2Proof.Machine.execPacketSend rank st
  | .packetArrival packet => Sys2Proof.Machine.execPacketArrival packet st
  | .ackReceived rank cum bitmap ecn => Sys2Proof.Machine.execAckReceived rank cum bitmap ecn st
  | .nackReceived rank psn code => Sys2Proof.Machine.execNackReceived rank psn code st
  | .resendRequestReceived rank psn => Sys2Proof.Machine.execResendRequestReceived rank psn st
  | .retransmissionTimeout rank psn => Sys2Proof.Machine.execRetransmissionTimeout rank psn st
  | .ethernetResponse rank psn data => Sys2Proof.Machine.execEthernetResponse rank psn data st
  | .pathProbe pfx set path ok => Sys2Proof.Machine.execPathProbe pfx set path ok st
  | .podRequestArrival request => Sys2Proof.Machine.execPodRequestArrival request st
  | .podFlushComplete peer code => Sys2Proof.Machine.execPodFlushComplete peer code st
  | .podRequestTimeout thread entry => Sys2Proof.Machine.execPodRequestTimeout thread entry st
  | .reductionPacketArrival packet => Sys2Proof.Machine.execReductionPacketArrival packet st
  | .reductionAbort gid => Sys2Proof.Machine.execReductionAbort gid st
  | .directApertureAccess off size data => Sys2Proof.Machine.execDirectApertureAccess off size data st
  | .transformWindowEnable master window value => Sys2Proof.Machine.execTransformWindowEnable master window value st
  | .transformWindowWrite off data => Sys2Proof.Machine.execTransformWindowWrite off data st
  | .transformBlockProcess window block poisoned => Sys2Proof.Machine.execTransformBlockProcess window block poisoned st
  | .hostAtomicop pa width op value compare => Sys2Proof.Machine.execHostAtomicop pa width op value compare st
  | .hostCoherentAccess pa size access => Sys2Proof.Machine.execHostCoherentAccess pa size access st
  | .debugHalt cmd => Sys2Proof.Machine.execDebugHalt cmd st
  | .debugResume cmd => Sys2Proof.Machine.execDebugResume cmd st
  | .debugStep cmd => Sys2Proof.Machine.execDebugStep cmd st
  | .debugRead cmd sel => Sys2Proof.Machine.execDebugRead cmd sel st
  | .debugWrite cmd sel => Sys2Proof.Machine.execDebugWrite cmd sel st
  | .debugCatchOn cmd => Sys2Proof.Machine.execDebugCatchOn cmd st
  | .debugCatchOff cmd => Sys2Proof.Machine.execDebugCatchOff cmd st
  | .add w d a b => Sys2Proof.Machine.execAdd w d a b st
  | .sub w d a b => Sys2Proof.Machine.execSub w d a b st
  | .mul w d a b => Sys2Proof.Machine.execMul w d a b st
  | .mulhI w d a b => Sys2Proof.Machine.execMulhI w d a b st
  | .mulhN w d a b => Sys2Proof.Machine.execMulhN w d a b st
  | .minI w d a b => Sys2Proof.Machine.execMinI w d a b st
  | .maxI w d a b => Sys2Proof.Machine.execMaxI w d a b st
  | .minN w d a b => Sys2Proof.Machine.execMinN w d a b st
  | .maxN w d a b => Sys2Proof.Machine.execMaxN w d a b st
  | .and w d a b => Sys2Proof.Machine.execAnd w d a b st
  | .or w d a b => Sys2Proof.Machine.execOr w d a b st
  | .xor w d a b => Sys2Proof.Machine.execXor w d a b st
  | .andn w d a b => Sys2Proof.Machine.execAndn w d a b st
  | .shl w d a b => Sys2Proof.Machine.execShl w d a b st
  | .shr w d a b => Sys2Proof.Machine.execShr w d a b st
  | .sar w d a b => Sys2Proof.Machine.execSar w d a b st
  | .rot w d a b => Sys2Proof.Machine.execRot w d a b st
  | .mad w d a b => Sys2Proof.Machine.execMad w d a b st
  | .clz w d a => Sys2Proof.Machine.execClz w d a st
  | .ctz w d a => Sys2Proof.Machine.execCtz w d a st
  | .popc w d a => Sys2Proof.Machine.execPopc w d a st
  | .brev w d a => Sys2Proof.Machine.execBrev w d a st
  | .bfxI w d a b => Sys2Proof.Machine.execBfxI w d a b st
  | .bfxN w d a b => Sys2Proof.Machine.execBfxN w d a b st
  | .bfi w d a b => Sys2Proof.Machine.execBfi w d a b st
  | .absd w d a b => Sys2Proof.Machine.execAbsd w d a b st
  | .sext8 w d a => Sys2Proof.Machine.execSext8 w d a st
  | .sext16 w d a => Sys2Proof.Machine.execSext16 w d a st
  | .zext8 w d a => Sys2Proof.Machine.execZext8 w d a st
  | .zext16 w d a => Sys2Proof.Machine.execZext16 w d a st
  | .mulwI w d a b => Sys2Proof.Machine.execMulwI w d a b st
  | .mulwN w d a b => Sys2Proof.Machine.execMulwN w d a b st
  | .cmp w k c a b => Sys2Proof.Machine.execCmp w k c a b st
  | .sel w s c d a b => Sys2Proof.Machine.execSel w s c d a b st
  | .addi w d a i => Sys2Proof.Machine.execAddi w d a i st
  | .andi w d a i => Sys2Proof.Machine.execAndi w d a i st
  | .ori w d a i => Sys2Proof.Machine.execOri w d a i st
  | .xori w d a i => Sys2Proof.Machine.execXori w d a i st
  | .shli w d a n => Sys2Proof.Machine.execShli w d a n st
  | .shri w d a n => Sys2Proof.Machine.execShri w d a n st
  | .sari w d a n => Sys2Proof.Machine.execSari w d a n st
  | .roti w d a n => Sys2Proof.Machine.execRoti w d a n st
  | .cmpi w k c a i => Sys2Proof.Machine.execCmpi w k c a i st
  | .muli w d a i => Sys2Proof.Machine.execMuli w d a i st
  | .padd8 w d a b => Sys2Proof.Machine.execPadd8 w d a b st
  | .psub8 w d a b => Sys2Proof.Machine.execPsub8 w d a b st
  | .paddsI8 w d a b => Sys2Proof.Machine.execPaddsI8 w d a b st
  | .paddsN8 w d a b => Sys2Proof.Machine.execPaddsN8 w d a b st
  | .psubsI8 w d a b => Sys2Proof.Machine.execPsubsI8 w d a b st
  | .psubsN8 w d a b => Sys2Proof.Machine.execPsubsN8 w d a b st
  | .pminI8 w d a b => Sys2Proof.Machine.execPminI8 w d a b st
  | .pmaxI8 w d a b => Sys2Proof.Machine.execPmaxI8 w d a b st
  | .pminN8 w d a b => Sys2Proof.Machine.execPminN8 w d a b st
  | .pmaxN8 w d a b => Sys2Proof.Machine.execPmaxN8 w d a b st
  | .pabsd8 w d a b => Sys2Proof.Machine.execPabsd8 w d a b st
  | .pshl8 w d a b => Sys2Proof.Machine.execPshl8 w d a b st
  | .pshr8 w d a b => Sys2Proof.Machine.execPshr8 w d a b st
  | .psar8 w d a b => Sys2Proof.Machine.execPsar8 w d a b st
  | .pavgN8 w d a b => Sys2Proof.Machine.execPavgN8 w d a b st
  | .pdot8 w d a b => Sys2Proof.Machine.execPdot8 w d a b st
  | .padd16 w d a b => Sys2Proof.Machine.execPadd16 w d a b st
  | .psub16 w d a b => Sys2Proof.Machine.execPsub16 w d a b st
  | .paddsI16 w d a b => Sys2Proof.Machine.execPaddsI16 w d a b st
  | .paddsN16 w d a b => Sys2Proof.Machine.execPaddsN16 w d a b st
  | .psubsI16 w d a b => Sys2Proof.Machine.execPsubsI16 w d a b st
  | .psubsN16 w d a b => Sys2Proof.Machine.execPsubsN16 w d a b st
  | .pminI16 w d a b => Sys2Proof.Machine.execPminI16 w d a b st
  | .pmaxI16 w d a b => Sys2Proof.Machine.execPmaxI16 w d a b st
  | .pminN16 w d a b => Sys2Proof.Machine.execPminN16 w d a b st
  | .pmaxN16 w d a b => Sys2Proof.Machine.execPmaxN16 w d a b st
  | .pabsd16 w d a b => Sys2Proof.Machine.execPabsd16 w d a b st
  | .pshl16 w d a b => Sys2Proof.Machine.execPshl16 w d a b st
  | .pshr16 w d a b => Sys2Proof.Machine.execPshr16 w d a b st
  | .psar16 w d a b => Sys2Proof.Machine.execPsar16 w d a b st
  | .pavgN16 w d a b => Sys2Proof.Machine.execPavgN16 w d a b st
  | .pdot16 w d a b => Sys2Proof.Machine.execPdot16 w d a b st
  | .addD w d a b => Sys2Proof.Machine.execAddD w d a b st
  | .subD w d a b => Sys2Proof.Machine.execSubD w d a b st
  | .shlD w d a b => Sys2Proof.Machine.execShlD w d a b st
  | .shrD w d a b => Sys2Proof.Machine.execShrD w d a b st
  | .sarD w d a b => Sys2Proof.Machine.execSarD w d a b st
  | .addxI w d a b => Sys2Proof.Machine.execAddxI w d a b st
  | .addxN w d a b => Sys2Proof.Machine.execAddxN w d a b st
  | .andD w d a b => Sys2Proof.Machine.execAndD w d a b st
  | .orD w d a b => Sys2Proof.Machine.execOrD w d a b st
  | .xorD w d a b => Sys2Proof.Machine.execXorD w d a b st
  | .fadd w d a b => Sys2Proof.Machine.execFadd w d a b st
  | .fsub w d a b => Sys2Proof.Machine.execFsub w d a b st
  | .fmul w d a b => Sys2Proof.Machine.execFmul w d a b st
  | .ffma w d a b => Sys2Proof.Machine.execFfma w d a b st
  | .fnma w d a b => Sys2Proof.Machine.execFnma w d a b st
  | .fmin w d a b => Sys2Proof.Machine.execFmin w d a b st
  | .fmax w d a b => Sys2Proof.Machine.execFmax w d a b st
  | .fabs w d a => Sys2Proof.Machine.execFabs w d a st
  | .fneg w d a => Sys2Proof.Machine.execFneg w d a st
  | .fsgnj w d a b => Sys2Proof.Machine.execFsgnj w d a b st
  | .faddF64 w d a b => Sys2Proof.Machine.execFaddF64 w d a b st
  | .fsubF64 w d a b => Sys2Proof.Machine.execFsubF64 w d a b st
  | .fmulF64 w d a b => Sys2Proof.Machine.execFmulF64 w d a b st
  | .ffmaF64 w d a b => Sys2Proof.Machine.execFfmaF64 w d a b st
  | .fnmaF64 w d a b => Sys2Proof.Machine.execFnmaF64 w d a b st
  | .fminF64 w d a b => Sys2Proof.Machine.execFminF64 w d a b st
  | .fmaxF64 w d a b => Sys2Proof.Machine.execFmaxF64 w d a b st
  | .fabsF64 w d a => Sys2Proof.Machine.execFabsF64 w d a st
  | .fnegF64 w d a => Sys2Proof.Machine.execFnegF64 w d a st
  | .fsgnjF64 w d a b => Sys2Proof.Machine.execFsgnjF64 w d a b st
  | .faddPk w t d a b => Sys2Proof.Machine.execFaddPk w t d a b st
  | .fsubPk w t d a b => Sys2Proof.Machine.execFsubPk w t d a b st
  | .fmulPk w t d a b => Sys2Proof.Machine.execFmulPk w t d a b st
  | .ffmaPk w t d a b => Sys2Proof.Machine.execFfmaPk w t d a b st
  | .fnmaPk w t d a b => Sys2Proof.Machine.execFnmaPk w t d a b st
  | .fminPk w t d a b => Sys2Proof.Machine.execFminPk w t d a b st
  | .fmaxPk w t d a b => Sys2Proof.Machine.execFmaxPk w t d a b st
  | .fnegPk w t d a => Sys2Proof.Machine.execFnegPk w t d a st
  | .frcp w d a => Sys2Proof.Machine.execFrcp w d a st
  | .frsq w d a => Sys2Proof.Machine.execFrsq w d a st
  | .fsqrt w d a => Sys2Proof.Machine.execFsqrt w d a st
  | .fexp2 w d a => Sys2Proof.Machine.execFexp2 w d a st
  | .flog2 w d a => Sys2Proof.Machine.execFlog2 w d a st
  | .fsin w d a => Sys2Proof.Machine.execFsin w d a st
  | .fcos w d a => Sys2Proof.Machine.execFcos w d a st
  | .ftanh w d a => Sys2Proof.Machine.execFtanh w d a st
  | .fclass w d a => Sys2Proof.Machine.execFclass w d a st
  | .fcmp w k c a b => Sys2Proof.Machine.execFcmp w k c a b st
  | .fcmpF64 w k c a b => Sys2Proof.Machine.execFcmpF64 w k c a b st
  | .cvtF32I32 w d a => Sys2Proof.Machine.execCvtF32I32 w d a st
  | .cvtF32N32 w d a => Sys2Proof.Machine.execCvtF32N32 w d a st
  | .cvtI32F32 w d a => Sys2Proof.Machine.execCvtI32F32 w d a st
  | .cvtN32F32 w d a => Sys2Proof.Machine.execCvtN32F32 w d a st
  | .cvtF64F32 w d a => Sys2Proof.Machine.execCvtF64F32 w d a st
  | .cvtF32F64 w d a => Sys2Proof.Machine.execCvtF32F64 w d a st
  | .cvtF64I32 w d a => Sys2Proof.Machine.execCvtF64I32 w d a st
  | .cvtF64N32 w d a => Sys2Proof.Machine.execCvtF64N32 w d a st
  | .cvtI32F64 w d a => Sys2Proof.Machine.execCvtI32F64 w d a st
  | .cvtN32F64 w d a => Sys2Proof.Machine.execCvtN32F64 w d a st
  | .cvtF32Bf16 w d a => Sys2Proof.Machine.execCvtF32Bf16 w d a st
  | .cvtF32F16 w d a => Sys2Proof.Machine.execCvtF32F16 w d a st
  | .cvtBf16F32 w d a => Sys2Proof.Machine.execCvtBf16F32 w d a st
  | .cvtF16F32 w d a => Sys2Proof.Machine.execCvtF16F32 w d a st
  | .cvtdn w o r d a f j => Sys2Proof.Machine.execCvtdn w o r d a f j st
  | .cvtup w d a f j => Sys2Proof.Machine.execCvtup w d a f j st
  | .mov w d a => Sys2Proof.Machine.execMov w d a st
  | .movcRead w d => Sys2Proof.Machine.execMovcRead w d st
  | .movcWrite w a => Sys2Proof.Machine.execMovcWrite w a st
  | .xget w d x => Sys2Proof.Machine.execXget w d x st
  | .xset w x b => Sys2Proof.Machine.execXset w x b st
  | .xadj w x b => Sys2Proof.Machine.execXadj w x b st
  | .fget w d f => Sys2Proof.Machine.execFget w d f st
  | .fset w f b => Sys2Proof.Machine.execFset w f b st
  | .mget w d g => Sys2Proof.Machine.execMget w d g st
  | .mset w g b => Sys2Proof.Machine.execMset w g b st
  | .movi w d i => Sys2Proof.Machine.execMovi w d i st
  | .csrr w d n => Sys2Proof.Machine.execCsrr w d n st
  | .csrw w a n => Sys2Proof.Machine.execCsrw w a n st
  | .sdef w q a => Sys2Proof.Machine.execSdef w q a st
  | .sstop w q => Sys2Proof.Machine.execSstop w q st
  | .br w s c f => Sys2Proof.Machine.execBr w s c f st
  | .jmp w f => Sys2Proof.Machine.execJmp w f st
  | .call w d f => Sys2Proof.Machine.execCall w d f st
  | .brx w a => Sys2Proof.Machine.execBrx w a st
  | .callx w d a => Sys2Proof.Machine.execCallx w d a st
  | .ret w a => Sys2Proof.Machine.execRet w a st
  | .nop w => Sys2Proof.Machine.execNop w st
  | .exit w => Sys2Proof.Machine.execExit w st
  | .yield w => Sys2Proof.Machine.execYield w st
  | .park w n => Sys2Proof.Machine.execPark w n st
  | .brk w n => Sys2Proof.Machine.execBrk w n st
  | .bstr w q k s f => Sys2Proof.Machine.execBstr w q k s f st
  | .ldLn w o d a f => Sys2Proof.Machine.execLdLn w o d a f st
  | .stLn w o d a f => Sys2Proof.Machine.execStLn w o d a f st
  | .ldCo w o d a f => Sys2Proof.Machine.execLdCo w o d a f st
  | .stCo w o d a f => Sys2Proof.Machine.execStCo w o d a f st
  | .ldCl w o d a f => Sys2Proof.Machine.execLdCl w o d a f st
  | .stCl w o d a f => Sys2Proof.Machine.execStCl w o d a f st
  | .ldCh w o d a f => Sys2Proof.Machine.execLdCh w o d a f st
  | .stCh w o d a f => Sys2Proof.Machine.execStCh w o d a f st
  | .ldGl w o d a f => Sys2Proof.Machine.execLdGl w o d a f st
  | .stGl w o d a f => Sys2Proof.Machine.execStGl w o d a f st
  | .atomAdd w s z r d a => Sys2Proof.Machine.execAtomAdd w s z r d a st
  | .atomAnd w s z r d a => Sys2Proof.Machine.execAtomAnd w s z r d a st
  | .atomOr w s z r d a => Sys2Proof.Machine.execAtomOr w s z r d a st
  | .atomXor w s z r d a => Sys2Proof.Machine.execAtomXor w s z r d a st
  | .atomMinI w s z r d a => Sys2Proof.Machine.execAtomMinI w s z r d a st
  | .atomMaxI w s z r d a => Sys2Proof.Machine.execAtomMaxI w s z r d a st
  | .atomMinN w s z r d a => Sys2Proof.Machine.execAtomMinN w s z r d a st
  | .atomMaxN w s z r d a => Sys2Proof.Machine.execAtomMaxN w s z r d a st
  | .atomSwap w s z r d a => Sys2Proof.Machine.execAtomSwap w s z r d a st
  | .atomCas w s z r d a => Sys2Proof.Machine.execAtomCas w s z r d a st
  | .atomFadd w s z r d a => Sys2Proof.Machine.execAtomFadd w s z r d a st
  | .fence w => Sys2Proof.Machine.execFence w st
  | .drainNt w => Sys2Proof.Machine.execDrainNt w st
  | .pflush w a => Sys2Proof.Machine.execPflush w a st
  | .cwait w c n => Sys2Proof.Machine.execCwait w c n st
  | .cadd w c n => Sys2Proof.Machine.execCadd w c n st
  | .cpoll w d c => Sys2Proof.Machine.execCpoll w d c st
  | .wsig w a => Sys2Proof.Machine.execWsig w a st
  | .wred w a => Sys2Proof.Machine.execWred w a st
  | .pickK w m d a n => Sys2Proof.Machine.execPickK w m d a n st
  | .pickR w m d a k => Sys2Proof.Machine.execPickR w m d a k st
  | .pickXor w m d a n => Sys2Proof.Machine.execPickXor w m d a n st
  | .pickAdd w m d a n => Sys2Proof.Machine.execPickAdd w m d a n st
  | .pickSub w m d a n => Sys2Proof.Machine.execPickSub w m d a n st
  | .census w m r p => Sys2Proof.Machine.execCensus w m r p st
  | .kin w m r a z => Sys2Proof.Machine.execKin w m r a z st
  | .agreeAll w m x r c p => Sys2Proof.Machine.execAgreeAll w m x r c p st
  | .agreeAny w m x r c p => Sys2Proof.Machine.execAgreeAny w m x r c p st
  | .agreeSame w m x r c p => Sys2Proof.Machine.execAgreeSame w m x r c p st
  | .combAdd w m d a t => Sys2Proof.Machine.execCombAdd w m d a t st
  | .combMin w m d a t => Sys2Proof.Machine.execCombMin w m d a t st
  | .combMax w m d a t => Sys2Proof.Machine.execCombMax w m d a t st
  | .scanAdd w m d a t => Sys2Proof.Machine.execScanAdd w m d a t st
  | .fenceGrp w m => Sys2Proof.Machine.execFenceGrp w m st
  | .xiss w a => Sys2Proof.Machine.execXiss w a st
  | .rsend w s b n => Sys2Proof.Machine.execRsend w s b n st
  | .rrecv w s b n => Sys2Proof.Machine.execRrecv w s b n st
  | .bar w b n => Sys2Proof.Machine.execBar w b n st
  | .barCl w b => Sys2Proof.Machine.execBarCl w b st
  | .arrive w b n c => Sys2Proof.Machine.execArrive w b n c st
  | .gdef w g a => Sys2Proof.Machine.execGdef w g a st
  | .tdef w t i => Sys2Proof.Machine.execTdef w t i st
  | .tdefReg w t a => Sys2Proof.Machine.execTdefReg w t a st
  | .tfree w t => Sys2Proof.Machine.execTfree w t st
  | .tstate w t d => Sys2Proof.Machine.execTstate w t d st
  | .kick w a n => Sys2Proof.Machine.execKick w a n st
  | .barm w a b => Sys2Proof.Machine.execBarm w a b st
  | .barmT w t b => Sys2Proof.Machine.execBarmT w t b st
  | .bwait w a b => Sys2Proof.Machine.execBwait w a b st
  | .bwaitT w t b => Sys2Proof.Machine.execBwaitT w t b st
  | .task w a => Sys2Proof.Machine.execTask w a st
  | .chain w a => Sys2Proof.Machine.execChain w a st
  | .cres w k a => Sys2Proof.Machine.execCres w k a st
  | .crel w k => Sys2Proof.Machine.execCrel w k st
  | .mldb w g o => Sys2Proof.Machine.execMldb w g o st
  | .mma w g s o l u => Sys2Proof.Machine.execMma w g s o l u st
  | .mmap w g s o l u => Sys2Proof.Machine.execMmap w g s o l u st
  | .mzero w g c => Sys2Proof.Machine.execMzero w g c st
  | .mst w g o => Sys2Proof.Machine.execMst w g o st
  | .mrd w c d a => Sys2Proof.Machine.execMrd w c d a st
  | .ssx w g a => Sys2Proof.Machine.execSsx w g a st
  | .ssq w d a x => Sys2Proof.Machine.execSsq w d a x st
  | .rhset w d a => Sys2Proof.Machine.execRhset w d a st
  | .rhpri w a b => Sys2Proof.Machine.execRhpri w a b st
  | .rhdem w a => Sys2Proof.Machine.execRhdem w a st
  | .pref w a b => Sys2Proof.Machine.execPref w a b st
  | .svc w a n => Sys2Proof.Machine.execSvc w a n st
  | .trap w c a => Sys2Proof.Machine.execTrap w c a st
  | .tret w => Sys2Proof.Machine.execTret w st
  | .spawn w d a => Sys2Proof.Machine.execSpawn w d a st
  | .cacheopClean w a b => Sys2Proof.Machine.execCacheopClean w a b st
  | .cacheopEv1 w a b => Sys2Proof.Machine.execCacheopEv1 w a b st
  | .cacheopEv2 w a b => Sys2Proof.Machine.execCacheopEv2 w a b st
  | .cacheopPod w a b => Sys2Proof.Machine.execCacheopPod w a b st
  | .tlbinv w a b => Sys2Proof.Machine.execTlbinv w a b st
  | .wfe w a => Sys2Proof.Machine.execWfe w a st
  | .hintImm i => Sys2Proof.Machine.execHintImm i st
  | .hintOpi i => Sys2Proof.Machine.execHintOpi i st
  | .hintScope s => Sys2Proof.Machine.execHintScope s st
  | .hintRnd o p r => Sys2Proof.Machine.execHintRnd o p r st
  | .hintCache z b a => Sys2Proof.Machine.execHintCache z b a st
  | .hintAdd e => Sys2Proof.Machine.execHintAdd e st
  | .linkLevelReplay port => Sys2Proof.Machine.execLinkLevelReplay port st
  | .swapThresholdAdjust core cycles => Sys2Proof.Machine.execSwapThresholdAdjust core cycles st
  | .congestionThresholdAdjust pfx set mark trim => Sys2Proof.Machine.execCongestionThresholdAdjust pfx set mark trim st

end Sys2Proof.Machine
end

