-- ==== Sys2Proof/Machine/Fetch.lean ====
section
/-! DEFINITION. Fetching the word at a thread's pc (R186, R247), what ends the fetch, and placing a word where a fetch
finds it. -/
namespace Sys2Proof.Machine

/-- What fetching for a thread gives. -/
inductive FetchResult where
  | idle
  | word (w : Word)
  | missing
  | denied
  deriving DecidableEq, Repr

/-- Fetches the word at the pc of a thread that issues at its turn; a peer page cannot be fetched (R186, R314; DEDUCED: log
entry 27). -/
def State.fetch (s : State) (id : ThreadId) (t : Thread) : FetchResult :=
  if !s.mayIssue id t then .idle else
  match s.translate (.core id.core) (s.asidOf id.teamId) t.pc.toNat .fetch t.kernel with
  | .missing => .missing
  | .denied => .denied
  | .ok pa e =>
    if bits e 13 13 = 1 then .denied
    else if s.held pa 4 then .idle
    else .word (BitVec.ofNat 32 (s.read pa 4))

/-- A fetch without a translation: the thread's accesses commit first, then it is posted to the service team with access
3 (R111, R112, R155). -/
def State.fetchMissing (s : State) (id : ThreadId) (t : Thread) : State :=
  if t.log ≠ [] then s.setThread id { t with wait := .marker false false }
  else s.postFault id t (.service .run) (t.pc.setWidth 64) 3

/-- A fetch through a page that does not permit it: permission at the instruction, with its address (R186, R213). -/
def State.fetchDenied (s : State) (id : ThreadId) (t : Thread) : State :=
  if t.log ≠ [] then s.setThread id { t with wait := .fault .permission (t.pc.setWidth 64) }
  else (s.deliver id t).getD (s.trap id t 0x07 (t.pc.setWidth 64))

/-- A word that is no instruction raises illegal-instruction (R259). A hint word with W = 1 is named itself, not the hints before it
(R250). -/
def illegalWord (w : Word) (s : State) : Host.Outcome State Fault Refusal :=
  issue w false .nothing (flagWord .illegalInstruction) id
    (if w.extractLsb' 25 7 = 0x7E#7 then s.modThread s.cur (fun t => { t with hints := [] }) else s)

/-! ### The turn of a slice or a gang (R126 to R128) -/

/-- The members of a group on a slice of the core that issue at their turn. -/
def State.sliceReady (s : State) (g : GroupId) (slice : Nat) : List Nat :=
  (s.members g).filter (fun i => match s.thread? (memberOf g i) with
    | some t => decide (t.lane / 4 = slice) && s.mayIssue (memberOf g i) t
    | none => false)

/-- The pc of a member. -/
def State.pcOf (s : State) (g : GroupId) (i : Nat) : Addr :=
  match s.thread? (memberOf g i) with
  | some t => t.pc
  | none => 0

/-- The members served in the present round of their slice (R127). -/
def State.servedIn (s : State) (g : GroupId) : List Nat :=
  match s.group? g with
  | some v => v.served
  | none => []

/-- The members that a turn of a slice issues: all those at the pc of the lowest lane that is not yet served in the round; a new round
begins once every one is served (R127). -/
def State.sliceTurn (s : State) (g : GroupId) (slice : Nat) : List Nat :=
  let c := s.sliceReady g slice
  let u := c.filter (fun i => !(s.servedIn g).contains i)
  match (if u.isEmpty then c else u) with
  | [] => []
  | i :: _ => c.filter (fun j => decide (s.pcOf g j = s.pcOf g i))

/-- The members of a turn of a slice are served; where every one was, this begins a new round (R127). -/
def State.serve (s : State) (g : GroupId) (slice : Nat) (ms : List Nat) : State :=
  let old := s.servedIn g
  let fresh := (s.sliceReady g slice).all (fun i => old.contains i)
  let keep := if fresh then old.filter (fun i => match s.thread? (memberOf g i) with
    | some t => decide (t.lane / 4 ≠ slice)
    | none => false) else old
  s.modGroup g (fun v => { v with served := keep ++ ms })

/-- The members that a turn of slices issues, with those slices: the slices of one group whose turns are at one pc, that of the first,
form one gang (R126, R128). -/
def State.gangTurn (s : State) (g : GroupId) (slices : List Nat) : List (Nat × List Nat) :=
  let turns := (slices.map (fun k => (k, s.sliceTurn g k))).filter (fun p => !p.2.isEmpty)
  match turns with
  | [] => []
  | (_, l) :: _ => turns.filter (fun p => decide (s.pcOf g (p.2.headD 0) = s.pcOf g (l.headD 0)))

/-- The members of a gang in ascending number, which is ascending lane (R105, R308). -/
def gangMembers (turns : List (Nat × List Nat)) : List Nat := (List.range 64).filter (fun i => turns.any (fun p => p.2.contains i))

/-- The slice of a thread on its core. -/
def State.sliceOf (s : State) (id : ThreadId) : Nat :=
  match s.thread? id with
  | some t => t.lane / 4
  | none => 0

/-- A gang has its turn: it is served, and where one of its members has fetched a word the gang makes one issue (R108, R109, R127). -/
def State.beginTurn (s : State) (g : GroupId) (turns : List (Nat × List Nat)) (issues : Bool) : State :=
  let s := turns.foldl (fun r p => r.serve g p.1 p.2) s
  let s := s.tookTurn g
  if issues then { s.countIssue g with issue := s.stamp, stamp := s.stamp + 1 } else s

/-! ### Placing a word -/

/-- A group, team, cluster and thread on core 0 with 128 registers, at an address, in ASID 0 with K = 1: what a load of a
program from outside leaves (log entry 28). -/
def State.harness (s : State) (pc : Addr) : State :=
  let id : ThreadId := ⟨0, 0, 0, 0⟩
  let team : Team :=
    { launch := 0, cluster := 0, index := 0, asid := 0, pinned := true, groups := 1, regs := 128, coBase := 0, coBytes := 65536
      cistBase := 0, cistBytes := 65536, slice := 512, tiles := List.replicate 16 { valid := false, state := .empty, base := 0, bytes := 0, bar := 0 }
      conv := List.replicate 8 { declared := none, sigs := [], offered := none }, resv := List.replicate 16 none
      turnouts := List.replicate 16 { sender := none, receiver := none }
      bars := List.replicate 16 { n := none, reached := [], arrived := [] }, scoperep := 0, ncyc := 0, ended := false, action := none }
  let group : Group := { width := 8, served := [], slice := 0, ended := false, halted := false, catching := false, fault := none
                         parkedFor := 0, issues := 0, waited := 0, last := 0, prev := 0 }
  let cluster : Cluster := { launch := 0, clid := 0, width := 1, height := 1, pair := false, teams := [id.teamId]
                             bars := List.replicate 16 { n := none, reached := [], arrived := [] }, flushed := false }
  { s with
    cur := id
    teams := [(id.teamId, team)], groups := [(id.group, group)], clusters := [(0, cluster)]
    threads := [(id, Thread.start 0 0 128 [] pc true)]
    cores := [(0, { Core.idle with active := [id.group] })] }

/-- Tables that map the first 512 MiB of ASID 0 onto themselves with R, W, X and A, for an ASID table at 0 (R184, R185). -/
def State.flatTables (s : State) : State :=
  ((s.write 0 8 0x1001).write 0x1000 8 0x10001).write 0x10000 8 0x3F

/-- The thread whose turn is next. -/
def State.nextThread (s : State) : ThreadId :=
  match s.agenda with
  | .thread t :: _ => t
  | _ => s.cur

/-- Stores a word where the next turn fetches it; where no thread can fetch, a program is loaded first. -/
def State.placeWord (s : State) (w : Word) : State :=
  let s := match s.agenda with
    | [] => s
    | .thread _ :: _ => s
    | r => { s with agenda := .thread s.cur :: r }
  let id := s.nextThread
  let pa := match s.thread? id with
    | none => none
    | some t => match s.fetch id t, s.translate (.core id.core) (s.asidOf id.teamId) t.pc.toNat .fetch t.kernel with
      | .word _, .ok pa _ => some pa
      | _, _ => none
  match pa with
  | some pa => s.write pa 4 w.toNat
  | none =>
    let s := match s.agenda with
      | [] => s
      | _ :: r => { s with agenda := .thread ⟨0, 0, 0, 0⟩ :: r }
    (s.flatTables.harness 0x100000).write 0x100000 4 w.toNat

end Sys2Proof.Machine
end

