-- ==== Sys2Proof/Machine/Gang.lean ====
section
/-! DEFINITION. The turn of a gang: one fetch and one issue for all its threads (R126 to R128, R308). -/
namespace Sys2Proof.Machine

/-- What a fetch gives is decoded and executed by the thread `cur`. -/
noncomputable def issueFetched (t : Thread) (r : FetchResult) (s : State) : Host.Outcome State Fault Refusal :=
  match r with
  | .idle => .next s
  | .missing => .next (s.fetchMissing s.cur t)
  | .denied => .next (s.fetchDenied s.cur t)
  | .word w =>
    match decodeFetched w with
    | .instr i => exec i s
    | .badHint => hintWord .bad s
    | .illegal => illegalWord w s

/-- The part of a member in the turn of its gang: an instruction whose wait is over retires, and otherwise the fetched word is issued. -/
noncomputable def memberTurn (id : ThreadId) (r : FetchResult) (s : State) : Host.Outcome State Fault Refusal :=
  let s := { s with cur := id }
  match s.thread? id with
  | none => .next s
  | some t => if t.wait = .done then .next (s.release id t) else issueFetched t r s

/-- The parts of the members of a gang, one after the other (R308). -/
noncomputable def membersTurn : List (ThreadId × FetchResult) → State → Host.Outcome State Fault Refusal
  | [], s => .next s
  | (id, r) :: l, s =>
    match memberTurn id r s with
    | .next u => membersTurn l u
    | x => x

/-- What a member fetches. -/
def State.fetchFor (s : State) (id : ThreadId) : FetchResult :=
  match s.thread? id with
  | some t => if t.wait = .done then .idle else s.fetch id t
  | none => .idle

/-- A fetch that gives a word. -/
def FetchResult.isWord : FetchResult → Bool
  | .word _ => true
  | _ => false

/-- The turn of some slices of a group: their gang fetches, and each of its members issues (R126, R127). -/
noncomputable def gangStep (g : GroupId) (slices : List Nat) (s : State) : Host.Outcome State Fault Refusal :=
  let turns := s.gangTurn g slices
  if turns.isEmpty then .next s else
  let parts := (gangMembers turns).map (fun i => (memberOf g i, s.fetchFor (memberOf g i)))
  membersTurn parts (s.beginTurn g turns (parts.any (fun p => p.2.isWord)))

end Sys2Proof.Machine
end

