-- ==== Sys2Proof/Machine/Step.lean ====
section
/-! DEFINITION. One step of the device (log entry 1): the head of the agenda, or else the turn of thread `cur`. -/
namespace Sys2Proof.Machine

/-- One turn. A row of the table that is an instruction word happens only through a fetch. -/
noncomputable def takeTurn (t : Turn) (s : State) : Host.Outcome State Fault Refusal :=
  match t with
  | .thread id => gangStep id.group [s.sliceOf id] { s with cur := id }
  | .gang g slices => gangStep g slices s
  | .event i => if (encode? i).isSome || !i.wf then .next s else exec i s
  | .clock core cycles => .next (s.clock core cycles)

/-- One step, followed by what a debugger's step in progress does. -/
noncomputable def step (s : State) : Host.Outcome State Fault Refusal :=
  match (match s.agenda with
    | [] => takeTurn (.thread s.cur) s
    | t :: r => takeTurn t { s with agenda := r }) with
  | .next r => .next (if r.dbg.busy then r.debugSettle else r)
  | x => x

/-- The state in which the next step fetches and runs the word `w` (log entry 28). Every instruction has 32 bits. -/
def State.withFetchWord (s : State) (nbits w : Nat) : State := s.placeWord (BitVec.ofNat 32 (w % 2 ^ nbits))

end Sys2Proof.Machine
end

