-- ==== Sys2Proof/Machine/Package.lean ====
section
/-! DEFINITION. Where dies, cores, resources and the bytes of the two memory tiers lie in the package (R19, R20, R22, R23). -/
namespace Sys2Proof.Machine

/-! ### Dies and cores (R19) -/

/-- The column of a base die in the grid. -/
def baseColumn (b : Nat) : Nat := b % 4

/-- The row of a base die in the grid. -/
def baseRow (b : Nat) : Nat := b / 4

/-- The base die that a compute die is bonded to, and that an HBM4 stack attaches to. -/
def baseOf (n : Nat) : Nat := n / 2

/-- The compute dies bonded to a base die. -/
def computeDies (b : Nat) : List Nat := [2 * b, 2 * b + 1]

/-- The HBM4 stacks attached to a base die. -/
def stacksOf (b : Nat) : List Nat := [2 * b, 2 * b + 1]

/-- The base dies that a die-to-die link joins to a base die: those beside it in its row, and the other of its column. -/
def linkedDies (b : Nat) : List Nat :=
  (List.range 8).filter (fun c => (baseRow c == baseRow b && (baseColumn c == baseColumn b + 1 || baseColumn b == baseColumn c + 1))
    || (baseColumn c == baseColumn b && baseRow c != baseRow b))

/-- The number of the core at a place of a compute die's mesh. -/
def coreAt (die row column : Nat) : Nat := die * 256 + row * 16 + column

/-- The mesh row of a core. -/
def meshRow (core : Nat) : Nat := core / 16 % 16

/-- The mesh column of a core. -/
def meshColumn (core : Nat) : Nat := core % 16

/-! ### Resources (R20) -/

/-- What a base die carries; store sizes in MiB. -/
structure BaseResources where
  l2        : Nat
  chip      : Nat
  hbmStacks : Nat
  packages  : Nat
  ualink    : Nat
  ethernet  : Nat
  pcie      : Nat
  deriving DecidableEq, Repr

/-- The resources of a base die. -/
def resourcesOf (b : Nat) : BaseResources :=
  { l2 := 256, chip := 128, hbmStacks := 2, packages := 6, ualink := if b = 0 ∨ b = 7 then 3 else 2, ethernet := 1, pcie := if b = 0 then 1 else 0 }

/-! ### The interleave of HBM4 (R22) -/

/-- A place in HBM4: a stack, a pseudo-channel in it, a 256-byte granule in that, and a byte of the granule. -/
structure HbmPlace where
  stack : Nat
  pch   : Nat
  pos   : Nat
  byte  : Nat
  deriving DecidableEq, Repr

/-- The channel of an address. -/
def hbmChan (pa : Nat) : Nat := bits pa 18 8 ^^^ bits pa 29 19 ^^^ bits pa 39 30

/-- The place of an address in HBM4. -/
def hbmPlace (pa : Nat) : HbmPlace :=
  { stack := bits (hbmChan pa) 10 7, pch := bits (hbmChan pa) 6 0, pos := bits pa 39 19, byte := bits pa 7 0 }

/-- The address of a place: bits 18:8 are recovered from the channel and the position. -/
def HbmPlace.address (p : HbmPlace) : Nat :=
  p.pos * 2 ^ 19 + ((p.stack * 128 + p.pch) ^^^ p.pos % 2 ^ 11 ^^^ p.pos / 2 ^ 11) * 256 + p.byte

/-! ### The interleave of the second tier (R23) -/

/-- A place in the second tier: an LPDDR package, a 4 KiB granule in it, and a byte of the granule. -/
structure LpPlace where
  package : Nat
  granule : Nat
  byte    : Nat
  deriving DecidableEq, Repr

/-- The place of an address in the second tier. -/
def lpPlace (pa : Nat) : LpPlace :=
  let o := pa - 0x10000000000
  { package := o / 4096 % 48, granule := o / 4096 / 48, byte := o % 4096 }

/-- The address of a place. -/
def LpPlace.address (p : LpPlace) : Nat := 0x10000000000 + (p.granule * 48 + p.package) * 4096 + p.byte

/-- The base die that an LPDDR package attaches to. -/
def packageBase (p : Nat) : Nat := p / 6

/-- The base die whose memory holds a physical address of either tier or of the chip scratchpad (R19, R22, R23, R159). -/
def memoryBase (pa : Nat) : Option Nat :=
  match physPart pa with
  | .hbm => some (baseOf (hbmPlace pa).stack)
  | .second => some (packageBase (lpPlace pa).package)
  | .chip => some ((pa - 0x70000000000) / 2 ^ 27)
  | _ => none

end Sys2Proof.Machine
end

