-- ==== Sys2Proof/Safety.lean ====
section
/-! DEFINITION. A safe run: it takes steps without a fault and without a refusal. -/
namespace Sys2Proof

/-- A step of the machine goes on. -/
def stepsOn (s : Machine.State) : Prop := ∃ r, Machine.step s = .next r

/-- `k` steps of the machine go on. -/
def safeFor : Nat → Machine.State → Prop
  | 0, _ => True
  | k + 1, s => ∃ r, Machine.step s = .next r ∧ safeFor k r

end Sys2Proof
end

