-- ==== Sys2Proof/Certificates/Slice0/Obligations.lean ====
section
/-! DEFINITION. The statements for the provers. Each states what the machine does, over every state that meets its
hypotheses; `Claims` holds the words they are written in. -/
namespace Sys2Proof.Claims
open Sys2Proof.Machine

/-! ### An instruction issues, and its operands can be used -/

/-- Thread `cur` issues `word` as `v` (R148, R219): no wait keeps it, and no pending cause comes first. `sw` marks a switch
point. -/
def Issues (s : State) (word : Word) (sw : Bool) (v : Thread) : Prop :=
  ∃ u, s.thread? s.cur = some u ∧ s.issuing s.cur u word sw = some v

/-- The operands read so far raise no fault, and no stream keeps the instruction waiting (R144, R259). -/
def Clean (c : Ctx) : Prop := c.flag = none ∧ c.stall = false ∧ c.starve = false

/-- The context in which `cur` issues `word`: `acc` are the hints that R253 lets the instruction take. -/
def begin (s : State) (v : Thread) (word : Word) (acc : Accepts) : Ctx := Ctx.start s s.cur v word acc

/-- Every byte store of the device has its canonical form: addresses rise and no cell holds what an unlisted byte reads as. -/
def Canonical (s : State) : Prop :=
  Memory.wf s.mem = true ∧ Memory.wf s.mgmt = true ∧ Memory.wf s.tables = true ∧ Memory.wf s.cist = true ∧
    Memory.wf s.mailbox.rmbuf = true ∧ ∀ m ∈ s.flash.slots, Memory.wf m = true

/-- The target of a word offset from the pc, in 64 bits (R249, R298). -/
def direct {n : Nat} (v : Thread) (f : BitVec n) : Dword := v.pc.setWidth 64 + (f ++ 0#2).signExtend 64

/-- A write of a master that is not the owner is discarded and counted (R79). -/
def rejected (s : State) : State := { s with own := { s.own with rejcnt := s.own.rejcnt + 1 } }

/-- A write of a master reaches the management block, which is served to it (R31, R38). -/
def Reaches (s : State) (m : Nat) : Prop := s.masterReaches m = true ∧ s.served 0x200 = true

/-- The master owns the device (R79). -/
def Owns (s : State) (m : Nat) : Prop := Reaches s m ∧ s.own.valid = true ∧ s.own.id = m

/-- Another master than the owner (R79). -/
def Stranger (s : State) (m : Nat) : Prop := Reaches s m ∧ ¬ (s.own.valid = true ∧ s.own.id = m)

/-- A write of a master before the block is served, or of a fabric manager without a port that is up (R31, R38). -/
def unserved (s : State) (m : Nat) : State := if s.masterReaches m then { s with out := s.out ++ [.unsupported] } else s

/-! ### Instructions of two 32-bit sources and a 32-bit destination -/

/-- Four results, from byte 3 to byte 0. -/
def bytes4 (f : BitVec 8 → BitVec 8 → BitVec 8) (x y : Word) : Word :=
  f (x.extractLsb' 24 8) (y.extractLsb' 24 8) ++ f (x.extractLsb' 16 8) (y.extractLsb' 16 8)
    ++ f (x.extractLsb' 8 8) (y.extractLsb' 8 8) ++ f (x.extractLsb' 0 8) (y.extractLsb' 0 8)

/-- Two results, from the high half to the low half. -/
def halves2 (f : BitVec 16 → BitVec 16 → BitVec 16) (x y : Word) : Word :=
  f (x.extractLsb' 16 16) (y.extractLsb' 16 16) ++ f (x.extractLsb' 0 16) (y.extractLsb' 0 16)

/-- An element-wise result on bytes: under an OPI hint each element of b is the low bits of the immediate (R275). -/
def on8 (f : BitVec 8 → BitVec 8 → BitVec 8) (opi : Bool) (x y : Word) : Word :=
  if opi then bytes4 (fun a _ => f a (y.extractLsb' 0 8)) x y else bytes4 f x y

/-- An element-wise result on halves (R275). -/
def on16 (f : BitVec 16 → BitVec 16 → BitVec 16) (opi : Bool) (x y : Word) : Word :=
  if opi then halves2 (fun a _ => f a (y.extractLsb' 0 16)) x y else halves2 f x y

/-- A shift of bytes: under an OPI hint the amount is the whole immediate (R245, R275). -/
def shift8 (f : BitVec 8 → Nat → BitVec 8) (opi : Bool) (x y : Word) : Word :=
  if opi then bytes4 (fun a _ => f a y.toNat) x y else bytes4 (fun a b => f a b.toNat) x y

/-- A shift of halves (R245, R275). -/
def shift16 (f : BitVec 16 → Nat → BitVec 16) (opi : Bool) (x y : Word) : Word :=
  if opi then halves2 (fun a _ => f a y.toNat) x y else halves2 (fun a b => f a b.toNat) x y

/-- The position of a bit field (R271). -/
def pos (y : Word) : Nat := (y.extractLsb' 0 8).toNat
/-- The length of a bit field (R271). -/
def len (y : Word) : Nat := min (y.extractLsb' 8 8).toNat 32

/-- An FP32 code function on words. -/
def code32 (f : Fmt → Nat → Nat → Nat) (x y : Word) : Word := BitVec.ofNat 32 (f binary32 x.toNat y.toNat)

/-- A packed 16-bit code function on words (R280). -/
def codePk (t : BitVec 1) (f : Fmt → Nat → Nat → Nat) : Word → Word → Word :=
  halves2 (fun x y => BitVec.ofNat 16 (f (pkFmt t) x.toNat y.toNat))

/-- The instructions with two 32-bit sources and a 32-bit destination: the hints they take, their fields, and the result
from a, b and whether b is an immediate. -/
inductive TwoSources : Instr → Accepts → RegField → RegField → RegField → (Bool → Word → Word → Word) → Prop where
  | add (w d a b) : TwoSources (.add w d a b) .opiOnly d a b (fun _ x y => x + y)
  | sub (w d a b) : TwoSources (.sub w d a b) .opiOnly d a b (fun _ x y => x - y)
  | mul (w d a b) : TwoSources (.mul w d a b) .opiOnly d a b (fun _ x y => x * y)
  | mulhI (w d a b) : TwoSources (.mulhI w d a b) .opiOnly d a b (fun _ x y => BitVec.ofInt 32 (x.toInt * y.toInt / 2 ^ 32))
  | mulhN (w d a b) : TwoSources (.mulhN w d a b) .opiOnly d a b
      (fun _ x y => (x.setWidth 64 * y.setWidth 64).extractLsb' 32 32)
  | minI (w d a b) : TwoSources (.minI w d a b) .opiOnly d a b (fun _ x y => if x.slt y then x else y)
  | maxI (w d a b) : TwoSources (.maxI w d a b) .opiOnly d a b (fun _ x y => if x.slt y then y else x)
  | minN (w d a b) : TwoSources (.minN w d a b) .opiOnly d a b (fun _ x y => if x.ult y then x else y)
  | maxN (w d a b) : TwoSources (.maxN w d a b) .opiOnly d a b (fun _ x y => if x.ult y then y else x)
  | and (w d a b) : TwoSources (.and w d a b) .opiOnly d a b (fun _ x y => x &&& y)
  | or (w d a b) : TwoSources (.or w d a b) .opiOnly d a b (fun _ x y => x ||| y)
  | xor (w d a b) : TwoSources (.xor w d a b) .opiOnly d a b (fun _ x y => x ^^^ y)
  | andn (w d a b) : TwoSources (.andn w d a b) .opiOnly d a b (fun _ x y => x &&& ~~~y)
  | shl (w d a b) : TwoSources (.shl w d a b) .opiOnly d a b (fun _ x y => x <<< y.toNat)
  | shr (w d a b) : TwoSources (.shr w d a b) .opiOnly d a b (fun _ x y => x >>> y.toNat)
  | sar (w d a b) : TwoSources (.sar w d a b) .opiOnly d a b (fun _ x y => x.sshiftRight y.toNat)
  | rot (w d a b) : TwoSources (.rot w d a b) .opiOnly d a b (fun _ x y => x.rotateLeft y.toNat)
  | bfxI (w d a b) : TwoSources (.bfxI w d a b) .opiOnly d a b
      (fun _ x y => ((x.sshiftRight (pos y)).setWidth (len y)).signExtend 32)
  | bfxN (w d a b) : TwoSources (.bfxN w d a b) .opiOnly d a b (fun _ x y => ((x >>> pos y).setWidth (len y)).setWidth 32)
  | absd (w d a b) : TwoSources (.absd w d a b) .opiOnly d a b (fun _ x y => if x.ult y then y - x else x - y)
  | padd8 (w d a b) : TwoSources (.padd8 w d a b) .opiOnly d a b (on8 fun x y => x + y)
  | psub8 (w d a b) : TwoSources (.psub8 w d a b) .opiOnly d a b (on8 fun x y => x - y)
  | paddsI8 (w d a b) : TwoSources (.paddsI8 w d a b) .opiOnly d a b
      (on8 fun x y => BitVec.ofInt 8 (max (-128) (min 127 (x.toInt + y.toInt))))
  | paddsN8 (w d a b) : TwoSources (.paddsN8 w d a b) .opiOnly d a b (on8 fun x y => BitVec.ofNat 8 (min 255 (x.toNat + y.toNat)))
  | psubsI8 (w d a b) : TwoSources (.psubsI8 w d a b) .opiOnly d a b
      (on8 fun x y => BitVec.ofInt 8 (max (-128) (min 127 (x.toInt - y.toInt))))
  | psubsN8 (w d a b) : TwoSources (.psubsN8 w d a b) .opiOnly d a b (on8 fun x y => BitVec.ofNat 8 (x.toNat - y.toNat))
  | pminI8 (w d a b) : TwoSources (.pminI8 w d a b) .opiOnly d a b (on8 fun x y => if x.slt y then x else y)
  | pmaxI8 (w d a b) : TwoSources (.pmaxI8 w d a b) .opiOnly d a b (on8 fun x y => if x.slt y then y else x)
  | pminN8 (w d a b) : TwoSources (.pminN8 w d a b) .opiOnly d a b (on8 fun x y => if x.ult y then x else y)
  | pmaxN8 (w d a b) : TwoSources (.pmaxN8 w d a b) .opiOnly d a b (on8 fun x y => if x.ult y then y else x)
  | pabsd8 (w d a b) : TwoSources (.pabsd8 w d a b) .opiOnly d a b (on8 fun x y => if x.ult y then y - x else x - y)
  | pshl8 (w d a b) : TwoSources (.pshl8 w d a b) .opiOnly d a b (shift8 fun x n => x <<< n)
  | pshr8 (w d a b) : TwoSources (.pshr8 w d a b) .opiOnly d a b (shift8 fun x n => x >>> n)
  | psar8 (w d a b) : TwoSources (.psar8 w d a b) .opiOnly d a b (shift8 fun x n => x.sshiftRight n)
  | pavgN8 (w d a b) : TwoSources (.pavgN8 w d a b) .opiOnly d a b
      (on8 fun x y => BitVec.ofNat 8 ((x.toNat + y.toNat + 1) / 2))
  | padd16 (w d a b) : TwoSources (.padd16 w d a b) .opiOnly d a b (on16 fun x y => x + y)
  | psub16 (w d a b) : TwoSources (.psub16 w d a b) .opiOnly d a b (on16 fun x y => x - y)
  | paddsI16 (w d a b) : TwoSources (.paddsI16 w d a b) .opiOnly d a b
      (on16 fun x y => BitVec.ofInt 16 (max (-32768) (min 32767 (x.toInt + y.toInt))))
  | paddsN16 (w d a b) : TwoSources (.paddsN16 w d a b) .opiOnly d a b
      (on16 fun x y => BitVec.ofNat 16 (min 65535 (x.toNat + y.toNat)))
  | psubsI16 (w d a b) : TwoSources (.psubsI16 w d a b) .opiOnly d a b
      (on16 fun x y => BitVec.ofInt 16 (max (-32768) (min 32767 (x.toInt - y.toInt))))
  | psubsN16 (w d a b) : TwoSources (.psubsN16 w d a b) .opiOnly d a b (on16 fun x y => BitVec.ofNat 16 (x.toNat - y.toNat))
  | pminI16 (w d a b) : TwoSources (.pminI16 w d a b) .opiOnly d a b (on16 fun x y => if x.slt y then x else y)
  | pmaxI16 (w d a b) : TwoSources (.pmaxI16 w d a b) .opiOnly d a b (on16 fun x y => if x.slt y then y else x)
  | pminN16 (w d a b) : TwoSources (.pminN16 w d a b) .opiOnly d a b (on16 fun x y => if x.ult y then x else y)
  | pmaxN16 (w d a b) : TwoSources (.pmaxN16 w d a b) .opiOnly d a b (on16 fun x y => if x.ult y then y else x)
  | pabsd16 (w d a b) : TwoSources (.pabsd16 w d a b) .opiOnly d a b (on16 fun x y => if x.ult y then y - x else x - y)
  | pshl16 (w d a b) : TwoSources (.pshl16 w d a b) .opiOnly d a b (shift16 fun x n => x <<< n)
  | pshr16 (w d a b) : TwoSources (.pshr16 w d a b) .opiOnly d a b (shift16 fun x n => x >>> n)
  | psar16 (w d a b) : TwoSources (.psar16 w d a b) .opiOnly d a b (shift16 fun x n => x.sshiftRight n)
  | pavgN16 (w d a b) : TwoSources (.pavgN16 w d a b) .opiOnly d a b
      (on16 fun x y => BitVec.ofNat 16 ((x.toNat + y.toNat + 1) / 2))
  | fmin (w d a b) : TwoSources (.fmin w d a b) { Accepts.rndOnly with opi := true } d a b (fun _ => code32 fminCode)
  | fmax (w d a b) : TwoSources (.fmax w d a b) { Accepts.rndOnly with opi := true } d a b (fun _ => code32 fmaxCode)
  | fsgnj (w d a b) : TwoSources (.fsgnj w d a b) { Accepts.rndOnly with opi := true } d a b
      (fun _ => code32 (fun f x y => withSign f x (f.signOf y)))
  | fminPk (w t d a b) : TwoSources (.fminPk w t d a b) { Accepts.rndOnly with opi := true } d a b (fun _ => codePk t fminCode)
  | fmaxPk (w t d a b) : TwoSources (.fmaxPk w t d a b) { Accepts.rndOnly with opi := true } d a b (fun _ => codePk t fmaxCode)

/-- The instructions with one 32-bit source and a 32-bit destination. -/
inductive OneSource : Instr → Accepts → RegField → RegField → (Word → Word) → Prop where
  | clz (w d a) : OneSource (.clz w d a) .nothing d a
      (fun x => BitVec.ofNat 32 ((List.range 32).takeWhile (fun i => !x.getLsbD (31 - i))).length)
  | ctz (w d a) : OneSource (.ctz w d a) .nothing d a
      (fun x => BitVec.ofNat 32 ((List.range 32).takeWhile (fun i => !x.getLsbD i)).length)
  | popc (w d a) : OneSource (.popc w d a) .nothing d a (fun x => BitVec.ofNat 32 ((List.range 32).countP (fun i => x.getLsbD i)))
  | brev (w d a) : OneSource (.brev w d a) .nothing d a (fun x => x.reverse)
  | sext8 (w d a) : OneSource (.sext8 w d a) .nothing d a (fun x => (x.setWidth 8).signExtend 32)
  | sext16 (w d a) : OneSource (.sext16 w d a) .nothing d a (fun x => (x.setWidth 16).signExtend 32)
  | zext8 (w d a) : OneSource (.zext8 w d a) .nothing d a (fun x => x &&& 0xFF)
  | zext16 (w d a) : OneSource (.zext16 w d a) .nothing d a (fun x => x &&& 0xFFFF)
  | mov (w d a) : OneSource (.mov w d a) .nothing d a (fun x => x)
  | fabs (w d a) : OneSource (.fabs w d a) .rndOnly d a 
      (fun x => if (val x.toNat binary32).isNan then 0x7FC00000 else x &&& 0x7FFFFFFF)
  | fneg (w d a) : OneSource (.fneg w d a) .rndOnly d a 
      (fun x => if (val x.toNat binary32).isNan then 0x7FC00000 else x ^^^ 0x80000000)
  | fnegPk (w t d a) : OneSource (.fnegPk w t d a) .rndOnly d a 
      (fun x => codePk t (fun f x _ => withSign f x (!f.signOf x)) x x)
  | fclass (w d a) : OneSource (.fclass w d a) .nothing d a classMask
  | frcp (w d a) : OneSource (.frcp w d a) .nothing d a
      (fun x => BitVec.ofNat 32 (roundVal binary32 0 0 (val x.toNat binary32).rcp))
  | frsq (w d a) : OneSource (.frsq w d a) .nothing d a
      (fun x => BitVec.ofNat 32 (roundVal binary32 0 0 (val x.toNat binary32).rsq))
  | fexp2 (w d a) : OneSource (.fexp2 w d a) .nothing d a
      (fun x => BitVec.ofNat 32 (roundVal binary32 0 0 (exp2Val (val x.toNat binary32))))
  | flog2 (w d a) : OneSource (.flog2 w d a) .nothing d a
      (fun x => BitVec.ofNat 32 (roundVal binary32 0 0 (log2Val (val x.toNat binary32))))
  | fsin (w d a) : OneSource (.fsin w d a) .nothing d a
      (fun x => BitVec.ofNat 32 (roundVal binary32 0 0 (sinVal (val x.toNat binary32))))
  | fcos (w d a) : OneSource (.fcos w d a) .nothing d a
      (fun x => BitVec.ofNat 32 (roundVal binary32 0 0 (cosVal (val x.toNat binary32))))
  | ftanh (w d a) : OneSource (.ftanh w d a) .nothing d a
      (fun x => BitVec.ofNat 32 (roundVal binary32 0 0 (tanhVal (val x.toNat binary32))))
  | cvtF32Bf16 (w d a) : OneSource (.cvtF32Bf16 w d a) .rndOnly d a
      (fun x => BitVec.ofNat 32 (roundVal binary32 0 0 (val (x.toNat % 65536) bfloat16)))
  | cvtF32F16 (w d a) : OneSource (.cvtF32F16 w d a) .rndOnly d a
      (fun x => BitVec.ofNat 32 (roundVal binary32 0 0 (val (x.toNat % 65536) binary16)))

/-- The instructions with one 32-bit source and an immediate (R274). -/
inductive Immediate : Instr → RegField → RegField → (HintSet → Word → Word) → Prop where
  | addi (w d a i) : Immediate (.addi w d a i) d a (fun h x => x + BitVec.ofInt 32 (h.immS i.toNat 11))
  | muli (w d a i) : Immediate (.muli w d a i) d a (fun h x => x * BitVec.ofInt 32 (h.immS i.toNat 11))
  | andi (w d a i) : Immediate (.andi w d a i) d a (fun h x => x &&& BitVec.ofNat 32 (h.immU i.toNat 11))
  | ori (w d a i) : Immediate (.ori w d a i) d a (fun h x => x ||| BitVec.ofNat 32 (h.immU i.toNat 11))
  | xori (w d a i) : Immediate (.xori w d a i) d a (fun h x => x ^^^ BitVec.ofNat 32 (h.immU i.toNat 11))
  | shli (w d a n) : Immediate (.shli w d a n) d a (fun h x => x <<< h.immU n.toNat 9)
  | shri (w d a n) : Immediate (.shri w d a n) d a (fun h x => x >>> h.immU n.toNat 9)
  | sari (w d a n) : Immediate (.sari w d a n) d a (fun h x => x.sshiftRight (h.immU n.toNat 9))
  | roti (w d a n) : Immediate (.roti w d a n) d a (fun h x => x.rotateLeft (h.immU n.toNat 9))

/-- The sum of the signed products of the elements of x and y, under an OPI hint with the low bits of y for every
element (R275, R276). -/
def dot8 (opi : Bool) (x y : Word) : Word :=
  let e := fun k => (y.extractLsb' (if opi then 0 else k) 8).signExtend 32
  (x.extractLsb' 0 8).signExtend 32 * e 0 + (x.extractLsb' 8 8).signExtend 32 * e 8
    + (x.extractLsb' 16 8).signExtend 32 * e 16 + (x.extractLsb' 24 8).signExtend 32 * e 24

/-- The same for halves. -/
def dot16 (opi : Bool) (x y : Word) : Word :=
  let e := fun k => (y.extractLsb' (if opi then 0 else k) 16).signExtend 32
  (x.extractLsb' 0 16).signExtend 32 * e 0 + (x.extractLsb' 16 16).signExtend 32 * e 16

/-- The instructions that also read an addend or the old destination: the result from a, b and that value. -/
inductive WithOld : Instr → Accepts → RegField → RegField → RegField → (Bool → Word → Word → Word → Word) → Prop where
  | mad (w d a b) : WithOld (.mad w d a b) { Accepts.opiOnly with add := true } d a b (fun _ x y e => x * y + e)
  | bfi (w d a b) : WithOld (.bfi w d a b) .opiOnly d a b
      (fun _ x y e => let m : Word := (1#32 <<< len y - 1) <<< pos y; (e &&& ~~~m) ||| ((x <<< pos y) &&& m))
  | pdot8 (w d a b) : WithOld (.pdot8 w d a b) { Accepts.opiOnly with add := true } d a b (fun o x y e => e + dot8 o x y)
  | pdot16 (w d a b) : WithOld (.pdot16 w d a b) { Accepts.opiOnly with add := true } d a b (fun o x y e => e + dot16 o x y)

/-- Two pairs to a pair (R277). -/
inductive TwoPairs : Instr → Accepts → RegField → RegField → RegField → (Dword → Dword → Dword) → Prop where
  | addD (w d a b) : TwoPairs (.addD w d a b) .nothing d a b (fun x y => x + y)
  | subD (w d a b) : TwoPairs (.subD w d a b) .nothing d a b (fun x y => x - y)
  | andD (w d a b) : TwoPairs (.andD w d a b) .nothing d a b (fun x y => x &&& y)
  | orD (w d a b) : TwoPairs (.orD w d a b) .nothing d a b (fun x y => x ||| y)
  | xorD (w d a b) : TwoPairs (.xorD w d a b) .nothing d a b (fun x y => x ^^^ y)
  | fminF64 (w d a b) : TwoPairs (.fminF64 w d a b) .rndOnly d a b
      (fun x y => BitVec.ofNat 64 (fminCode binary64 x.toNat y.toNat))
  | fmaxF64 (w d a b) : TwoPairs (.fmaxF64 w d a b) .rndOnly d a b
      (fun x y => BitVec.ofNat 64 (fmaxCode binary64 x.toNat y.toNat))
  | fsgnjF64 (w d a b) : TwoPairs (.fsgnjF64 w d a b) .rndOnly d a b
      (fun x y => BitVec.ofNat 64 (withSign binary64 x.toNat (binary64.signOf y.toNat)))

/-- A pair and a word to a pair (R277). -/
inductive PairAndWord : Instr → RegField → RegField → RegField → (Dword → Word → Dword) → Prop where
  | shlD (w d a b) : PairAndWord (.shlD w d a b) d a b (fun x n => x <<< n.toNat)
  | shrD (w d a b) : PairAndWord (.shrD w d a b) d a b (fun x n => x >>> n.toNat)
  | sarD (w d a b) : PairAndWord (.sarD w d a b) d a b (fun x n => x.sshiftRight n.toNat)
  | addxI (w d a b) : PairAndWord (.addxI w d a b) d a b (fun x n => x + n.signExtend 64)
  | addxN (w d a b) : PairAndWord (.addxN w d a b) d a b (fun x n => x + n.setWidth 64)

/-- One source to a pair (R270, R279, R283). -/
inductive WordToPair : Instr → Accepts → RegField → RegField → (Word → Dword) → Prop where
  | cvtF64F32 (w d a) : WordToPair (.cvtF64F32 w d a) .rndOnly d a
      (fun x => BitVec.ofNat 64 (roundVal binary64 0 0 (val x.toNat binary32)))
  | cvtF64I32 (w d a) : WordToPair (.cvtF64I32 w d a) .rndOnly d a
      (fun x => BitVec.ofNat 64 (roundVal binary64 0 0 (.num x.msb x.toInt.natAbs 0 false)))
  | cvtF64N32 (w d a) : WordToPair (.cvtF64N32 w d a) .rndOnly d a
      (fun x => BitVec.ofNat 64 (roundVal binary64 0 0 (.num false x.toNat 0 false)))

/-- The FP32 forms that round (R278): the exact result from the mode and the values. -/
inductive Rounds32 : Instr → RegField → RegField → RegField → (Nat → Val → Val → Val) → Prop where
  | fadd (w d a b) : Rounds32 (.fadd w d a b) d a b (fun m x y => x.add m y)
  | fsub (w d a b) : Rounds32 (.fsub w d a b) d a b (fun m x y => x.add m y.neg)
  | fmul (w d a b) : Rounds32 (.fmul w d a b) d a b (fun _ x y => x.mul y)

/-- The packed forms that round (R280). -/
inductive RoundsPk : Instr → BitVec 1 → RegField → RegField → RegField → (Nat → Val → Val → Val) → Prop where
  | faddPk (w t d a b) : RoundsPk (.faddPk w t d a b) t d a b (fun m x y => x.add m y)
  | fsubPk (w t d a b) : RoundsPk (.fsubPk w t d a b) t d a b (fun m x y => x.add m y.neg)
  | fmulPk (w t d a b) : RoundsPk (.fmulPk w t d a b) t d a b (fun _ x y => x.mul y)

/-- The FP64 forms that round (R278). -/
inductive Rounds64 : Instr → RegField → RegField → RegField → (Nat → Val → Val → Val) → Prop where
  | faddF64 (w d a b) : Rounds64 (.faddF64 w d a b) d a b (fun m x y => x.add m y)
  | fsubF64 (w d a b) : Rounds64 (.fsubF64 w d a b) d a b (fun m x y => x.add m y.neg)
  | fmulF64 (w d a b) : Rounds64 (.fmulF64 w d a b) d a b (fun _ x y => x.mul y)

/-- The product of a and b, plus or minus, with the addend: fused (R278). -/
def fusedVal (minus : Bool) (m : Nat) (x y e : Val) : Val :=
  if minus then e.add m (x.mul y).neg else (x.mul y).add m e

/-- Conversions to at most 32 bits that can overflow (R283, R284): the format and the form's own policy. -/
inductive Down32 : Instr → RegField → RegField → Fmt → Nat → Prop where
  | cvtI32F32 (w d a) : Down32 (.cvtI32F32 w d a) d a int32 0
  | cvtN32F32 (w d a) : Down32 (.cvtN32F32 w d a) d a nat32 0
  | cvtBf16F32 (w d a) : Down32 (.cvtBf16F32 w d a) d a bfloat16 1
  | cvtF16F32 (w d a) : Down32 (.cvtF16F32 w d a) d a binary16 1

/-- The same from FP64. -/
inductive Down64 : Instr → RegField → RegField → Fmt → Nat → Prop where
  | cvtF32F64 (w d a) : Down64 (.cvtF32F64 w d a) d a binary32 1
  | cvtI32F64 (w d a) : Down64 (.cvtI32F64 w d a) d a int32 0
  | cvtN32F64 (w d a) : Down64 (.cvtN32F64 w d a) d a nat32 0

/-- Compares of two 32-bit sources: the condition bit and the test (R272, R282). -/
inductive Compares : Instr → BitVec 3 → RegField → RegField → (Word → Word → Bool) → Prop where
  | cmp (w k c a b) : Compares (.cmp w k c a b) c a b (intCond k)
  | fcmp (w k c a b) : Compares (.fcmp w k c a b) c a b
      (fun x y => floatCond k (val x.toNat binary32) (val y.toNat binary32))

end Sys2Proof.Claims

namespace Sys2Proof.Claims
open Sys2Proof.Machine

/-! ### Cross-lane instructions -/

/-- A cross-lane instruction of `cur` with its operands resolved: the hints it takes, whether it is a switch point, its member mask
register, its operation, and the context after its operands (R300, R301). -/
inductive Arrives (s : State) (v : Thread) : Instr → Accepts → Bool → BitVec 3 → XOp → Ctx → Prop where
  | pickK (w m d a n x r c1 c2) : laneSource a (begin s v (Enc.pickK w m d a n) .immOnly) = (x, c1) → laneDest d c1 = (r, c2) →
      Arrives s v (.pickK w m d a n) .immOnly false m (.pickK r x ((HintSet.of v.hints).immU n.toNat 4)) c2
  | pickR (w m d a k x r c1 c2) : laneSource a (begin s v (Enc.pickR w m d a k) .nothing) = (x, c1) → laneDest d c1 = (r, c2) →
      Arrives s v (.pickR w m d a k) .nothing false m (.pickR r x k.toNat) c2
  | pickXor (w m d a n x r c1 c2) : laneSource a (begin s v (Enc.pickXor w m d a n) .immOnly) = (x, c1) →
      laneDest d c1 = (r, c2) →
      Arrives s v (.pickXor w m d a n) .immOnly false m (.pickXor r x ((HintSet.of v.hints).immU n.toNat 4)) c2
  | pickAdd (w m d a n x r c1 c2) : laneSource a (begin s v (Enc.pickAdd w m d a n) .immOnly) = (x, c1) →
      laneDest d c1 = (r, c2) →
      Arrives s v (.pickAdd w m d a n) .immOnly false m (.pickAdd r x ((HintSet.of v.hints).immU n.toNat 4)) c2
  | pickSub (w m d a n x r c1 c2) : laneSource a (begin s v (Enc.pickSub w m d a n) .immOnly) = (x, c1) →
      laneDest d c1 = (r, c2) →
      Arrives s v (.pickSub w m d a n) .immOnly false m (.pickSub r x ((HintSet.of v.hints).immU n.toNat 4)) c2
  | census (w m r p) :
      Arrives s v (.census w m r p) .nothing false m (.census r p) (begin s v (Enc.census w m r p) .nothing)
  | kinWord (w m r a x c1) : laneSource a (begin s v (Enc.kin w m r a 0) .nothing) = (x, c1) →
      Arrives s v (.kin w m r a 0) .nothing false m (.kin r x false) c1
  | kinPair (w m r a x c1) : block a 2 2 (begin s v (Enc.kin w m r a 1) .nothing) = (x, c1) →
      Arrives s v (.kin w m r a 1) .nothing false m (.kin r x true) c1
  | agreeAll (w m x r c p) : Arrives s v (.agreeAll w m x r c p) .nothing false m (.agreeAll (decide (x = 1)) r c p)
      (begin s v (Enc.agreeAll w m x r c p) .nothing)
  | agreeAny (w m x r c p) : Arrives s v (.agreeAny w m x r c p) .nothing false m (.agreeAny (decide (x = 1)) r c p)
      (begin s v (Enc.agreeAny w m x r c p) .nothing)
  | agreeSame (w m x r c p) : Arrives s v (.agreeSame w m x r c p) .nothing false m (.agreeSame (decide (x = 1)) r c p)
      (begin s v (Enc.agreeSame w m x r c p) .nothing)
  | combAdd (w m d a t x r c1 c2) : laneSource a (begin s v (Enc.combAdd w m d a t) .nothing) = (x, c1) →
      laneDest d c1 = (r, c2) → Arrives s v (.combAdd w m d a t) .nothing false m (.combAdd r x t) c2
  | combMin (w m d a t x r c1 c2) : laneSource a (begin s v (Enc.combMin w m d a t) .nothing) = (x, c1) →
      laneDest d c1 = (r, c2) → Arrives s v (.combMin w m d a t) .nothing false m (.combMin r x t) c2
  | combMax (w m d a t x r c1 c2) : laneSource a (begin s v (Enc.combMax w m d a t) .nothing) = (x, c1) →
      laneDest d c1 = (r, c2) → Arrives s v (.combMax w m d a t) .nothing false m (.combMax r x t) c2
  | scanAdd (w m d a t x r c1 c2) : laneSource a (begin s v (Enc.scanAdd w m d a t) .nothing) = (x, c1) →
      laneDest d c1 = (r, c2) → Arrives s v (.scanAdd w m d a t) .nothing false m (.scanAdd r x t) c2
  | fenceGrp (w m) : Arrives s v (.fenceGrp w m) .nothing true m .fenceGrp (begin s v (Enc.fenceGrp w m) .nothing)

/-- The device with `cur` parked at its cross-lane instruction (R129), which it issues as `v`: its x registers from before it arrived are kept
(R131, R142). -/
def atLanes (s : State) (v : Thread) (c : Ctx) (op : XOp) (mask : Dword) : State :=
  s.setThread s.cur { c.th with wait := .xlane op mask v.x }

/-! ### Memory instructions -/

/-- The run has room for one more operand-log entry (R152). -/
def Room (t : Thread) : Prop := (t.log.filter (fun e => decide (e.index < 16))).length < 16

/-- A context whose thread has logged an access: it takes the lowest free entry, with the issue stamp, the word, the hints and
K (R152). -/
def logged (c : Ctx) (a : Access) : Ctx :=
  let e : LogEntry := { index := freeIndex c.th.log, stamp := c.s.stamp, issue := c.s.issue, word := c.word, hints := c.th.hints
                        kernel := c.th.kernel, access := a, state := .pending, fill := true }
  { c with th := { c.th with log := c.th.log ++ [e] }, s := { c.s with stamp := c.s.stamp + 1 } }

/-- The address of a load or store (R309, R312): the base register, or for `.gl` the base pair, plus the signed offset times the
access size. -/
def Addressed (space : Space) (a : RegField) (off : BitVec 8) (n : Nat) (c : Ctx) (addr : Dword) (r : Ctx) : Prop :=
  ∃ k, if space = .gl
    then block a 2 2 c = (k, r) ∧ addr = r.th.pair k + BitVec.ofInt 64 (c.hs.immS off.toNat 8 * n)
    else block a 1 1 c = (k, r) ∧ addr = (r.th.reg k + BitVec.ofInt 32 (c.hs.immS off.toNat 8 * n)).setWidth 64

/-- An address that an access of `n` bytes can use at issue (R57, R67, R311): aligned and in range outside `.gl`; in `.gl` only an
ordered access has to be aligned, and a global range passes the checks of R57. -/
def AddressOk (s : State) (space : Space) (addr : Dword) (n : Nat) (ordered : Bool) : Prop :=
  if space = .gl then
    (ordered = true → addr.toNat % n = 0) ∧
    (addr.msb = true → s.globalOk (s.asidOf s.cur.teamId) addr n = true ∧ (ordered = true → s.straddles addr n = false))
  else addr.toNat % n = 0 ∧ s.inRange s.cur space addr.toNat n = true

/-- The loads of the shared spaces. -/
inductive SharedLoad : Instr → Space → BitVec 3 → RegField → RegField → BitVec 8 → Prop where
  | ldCo (w o d a f) : SharedLoad (.ldCo w o d a f) .co o d a f
  | ldCl (w o d a f) : SharedLoad (.ldCl w o d a f) .cl o d a f
  | ldCh (w o d a f) : SharedLoad (.ldCh w o d a f) .ch o d a f
  | ldGl (w o d a f) : SharedLoad (.ldGl w o d a f) .gl o d a f

/-- The stores of the shared spaces. -/
inductive SharedStore : Instr → Space → BitVec 3 → RegField → RegField → BitVec 8 → Prop where
  | stCo (w o d a f) : SharedStore (.stCo w o d a f) .co o d a f
  | stCl (w o d a f) : SharedStore (.stCl w o d a f) .cl o d a f
  | stCh (w o d a f) : SharedStore (.stCh w o d a f) .ch o d a f
  | stGl (w o d a f) : SharedStore (.stGl w o d a f) .gl o d a f

/-- The size of an access from its op (R257, R309): 1, 2, 4, 8, 16, 4, 8 bytes, or the CACHE hint's 2^z for op 111. -/
def Sized (h : HintSet) (o : BitVec 3) (n : Nat) : Prop :=
  (o = 0 ∧ n = 1) ∨ (o = 1 ∧ n = 2) ∨ (o = 2 ∧ n = 4) ∨ (o = 3 ∧ n = 8) ∨ (o = 4 ∧ n = 16) ∨ (o = 5 ∧ n = 4) ∨ (o = 6 ∧ n = 8)
    ∨ (o = 7 ∧ ((h.cache = none ∧ n = 4) ∨ (∃ z b a, h.cache = some (z, b, a) ∧ n = 2 ^ z.toNat)))

/-- The atomics (R316). -/
inductive Atomic : Instr → AtomOp → BitVec 3 → BitVec 1 → BitVec 1 → RegField → RegField → Prop where
  | atomAdd (w s z r d a) : Atomic (.atomAdd w s z r d a) .add s z r d a
  | atomAnd (w s z r d a) : Atomic (.atomAnd w s z r d a) .and s z r d a
  | atomOr (w s z r d a) : Atomic (.atomOr w s z r d a) .or s z r d a
  | atomXor (w s z r d a) : Atomic (.atomXor w s z r d a) .xor s z r d a
  | atomMinI (w s z r d a) : Atomic (.atomMinI w s z r d a) .minI s z r d a
  | atomMaxI (w s z r d a) : Atomic (.atomMaxI w s z r d a) .maxI s z r d a
  | atomMinN (w s z r d a) : Atomic (.atomMinN w s z r d a) .minN s z r d a
  | atomMaxN (w s z r d a) : Atomic (.atomMaxN w s z r d a) .maxN s z r d a
  | atomSwap (w s z r d a) : Atomic (.atomSwap w s z r d a) .swap s z r d a
  | atomCas (w s z r d a) : Atomic (.atomCas w s z r d a) .cas s z r d a
  | atomFadd (w s z r d a) : Atomic (.atomFadd w s z r d a) .fadd s z r d a

/-- No flush is under way for `cur`. -/
def NoFlush (s : State) : Prop := s.net.flushes.any (fun f => decide ((s.cur, 0) ∈ f.users)) = false

/-- No halt and no stop keeps `cur`, which has just parked (R122, R224). -/
def GoesOn (s : State) : Prop := ∃ t, s.thread? s.cur = some t ∧ s.staysPut s.cur t = false

/-- An acquire of scope pod or glb drops the core's pod read buffer (R202, R204). -/
def acquires (s : State) (c : Scope) : State := if c = .pod ∨ c = .glb then s.clearPodBuf s.cur.core else s

end Sys2Proof.Claims

namespace Sys2Proof.Claims
open Sys2Proof.Machine

/-- What the members that have arrived at a barrier did before they arrived (R307). -/
def phaseView (s : State) (b : Barrier) : View :=
  b.reached.foldl (fun v r => if b.arrived.contains r.1.group then v.join (s.sofar r.1) else v) View.none

/-- An instruction of `cur` that signs a convergence register, with its operands read (R336, R338, R342): the register, the operation,
the scale pair, and the context. -/
inductive SignsFor (s : State) (v : Thread) : Instr → BitVec 3 → SigOp → Word → Word → Ctx → Prop where
  | mma (w g sc o l u k x c1 c2) : block sc 2 2 (begin s v (Enc.mma w g sc o l u) .nothing) = (k, c1) → src o c1 = (x, c2) →
      SignsFor s v (.mma w g sc o l u) g (.mma x l.toNat (decide (u = 1))) (c1.th.reg k) (c1.th.reg (k + 1)) c2
  | mmap (w g sc o l u k x c1 c2) : block sc 2 2 (begin s v (Enc.mmap w g sc o l u) .nothing) = (k, c1) → src o c1 = (x, c2) →
      SignsFor s v (.mmap w g sc o l u) g (.mmap x l.toNat (decide (u = 1))) (c1.th.reg k) (c1.th.reg (k + 1)) c2
  | mldb (w g o x c1 c2 tile) : src o (begin s v (Enc.mldb w g o) .nothing) = (x, c1) →
      s.tile? s.cur.teamId (x.extractLsb' 0 8).toNat = some tile → tile.valid = true → tile.state = .ready →
      c2 = { c1 with th := { c1.th with view := c1.th.view.join (s.counts (.tile s.cur.teamId (x.extractLsb' 0 8).toNat)).2 } } →
      SignsFor s v (.mldb w g o) g (.mldb x) 0 0 c2
  | mzero (w g c) : SignsFor s v (.mzero w g c) g (.mzero c.toNat) 0 0 (begin s v (Enc.mzero w g c) .nothing)
  | mst (w g o x c1 tile) : src o (begin s v (Enc.mst w g o) .nothing) = (x, c1) →
      s.tile? s.cur.teamId (x.extractLsb' 4 8).toNat = some tile → tile.valid = true →
      SignsFor s v (.mst w g o) g (.mst x) 0 0 c1
  | ssx (w g a k c1) : block a 1 1 (begin s v (Enc.ssx w g a) .nothing) = (k, c1) → (c1.th.reg k).toNat % 128 = 0 →
      s.inRange s.cur .co (c1.th.reg k).toNat 128 = true → s.doneBefore s.cur s.stamp = true → SignsFor s v (.ssx w g a) g (.ssx (c1.th.reg k).toNat) 0 0 c1

/-- The words that a `task` of kind 2 signs, with the context `c` in which it reads their operands (R332): the register, the operation, the
scale pair, the tiles of the entry from those of the quad, and the context after. `mldb` takes its tile as an input, `mst` as the output. -/
inductive TaskSigns (s : State) (c : Ctx) (tiles : TaskTiles) : Word → BitVec 3 → SigOp → Word → Word → TaskTiles → Ctx → Prop where
  | mma (g sc o l u k x c1 c2) : block sc 2 2 c = (k, c1) → src o c1 = (x, c2) →
      TaskSigns s c tiles (Enc.mma 0 g sc o l u) g (.mma x l.toNat (decide (u = 1))) (c1.th.reg k) (c1.th.reg (k + 1)) tiles c2
  | mldb (g o x c1 tile) : src o c = (x, c1) → s.tile? s.cur.teamId (x.extractLsb' 0 8).toNat = some tile → tile.valid = true →
      TaskSigns s c tiles (Enc.mldb 0 g o) g (.mldb x) 0 0 { tiles with inputs := tiles.inputs ++ [(x.extractLsb' 0 8).toNat] } c1
  | mzero (g acc) : TaskSigns s c tiles (Enc.mzero 0 g acc) g (.mzero acc.toNat) 0 0 tiles c
  | mst (g o x c1 tile) : src o c = (x, c1) → s.tile? s.cur.teamId (x.extractLsb' 4 8).toNat = some tile → tile.valid = true →
      TaskSigns s c tiles (Enc.mst 0 g o) g (.mst x) 0 0 { tiles with out := some (x.extractLsb' 4 8).toNat } c1

/-- Register r with one more signature, of the thread `cur` (R135), as `th` signs: with its K and what it has seen and done. -/
def signing (s : State) (r : ConvReg) (word : Word) (op : SigOp) (a b : Word) (th : Thread) (task : Option TaskTiles) : ConvReg :=
  { r with sigs := r.sigs ++ [Signature.mk s.cur word op a b th.kernel task th.sofar] }

/-- The device with one more signature of `cur` on register g (R135). -/
def signed (s : State) (g : Nat) (r : ConvReg) (word : Word) (op : SigOp) (a b : Word) (th : Thread) (task : Option TaskTiles) : State :=
  { (s.setConv s.cur.teamId g (signing s r word op a b th task)) with stamp := s.stamp + 1 }

/-- The four `cacheop` instructions with their codes (R351). -/
inductive CacheOp : Instr → Nat → RegField → RegField → Prop where
  | clean (w a b) : CacheOp (.cacheopClean w a b) 0 a b
  | ev1 (w a b) : CacheOp (.cacheopEv1 w a b) 1 a b
  | ev2 (w a b) : CacheOp (.cacheopEv2 w a b) 2 a b
  | pod (w a b) : CacheOp (.cacheopPod w a b) 3 a b

/-- A handle of the thread's own ASID (R347). -/
def OwnHandle (s : State) (h : Word) : Prop :=
  h.toNat < 4096 ∧ ∃ x, AMap.get? s.handles h.toNat = some x ∧ x.asid = s.asidOf s.cur.teamId

end Sys2Proof.Claims

namespace Sys2Proof.Claims
open Sys2Proof.Machine

/-- The instruction of thread `cur` changed nothing but the registers of its destination `l`, the x registers and streams that
its fields name, its pc, its count and its hints. The stamp counter is the model's own. -/
def RegistersOnly (fields : List RegField) (width : Nat) (l : Loc) (s : State) (v : Thread) (t : State) : Prop :=
  ∃ n r, t = ({ s with stamp := n } : State).setThread s.cur r ∧
    r.pc = v.pc + 4 ∧ r.nret = v.nret + 1 ∧ r.hints = [] ∧ r.wait = .run ∧
    (∀ k, (∀ d, l = .reg d → k < d ∨ d + width ≤ k) → r.reg k = v.reg k) ∧
    (∀ k, (∀ f ∈ fields, f.toNat ≠ 120 + k) → r.x.getD k 0 = v.x.getD k 0) ∧
    (∀ k, (∀ f ∈ fields, f.toNat ≠ 112 + k) → r.stream k = v.stream k) ∧
    r.lane = v.lane ∧ r.slot = v.slot ∧ r.regs = v.regs ∧ r.m = v.m ∧ r.f = v.f ∧ r.tstat = v.tstat ∧ r.tsav = v.tsav ∧
    r.thdl = v.thdl ∧ r.thdlHi = v.thdlHi ∧ r.tcause = v.tcause ∧ r.tepc = v.tepc ∧ r.tepcHi = v.tepcHi ∧ r.tval = v.tval ∧
    r.tvalHi = v.tvalHi ∧ r.tlog = v.tlog ∧ r.srseed = v.srseed ∧ r.gen = v.gen ∧ r.ncycHi = v.ncycHi ∧ r.nretHi = v.nretHi ∧
    r.log = v.log ∧ r.kept = v.kept ∧ r.pend08 = v.pend08 ∧ r.pend0D = v.pend0D ∧ r.pend14 = v.pend14 ∧ r.pend15 = v.pend15 ∧
    r.mismatch = v.mismatch ∧ r.latch = v.latch

/-- The same, and the condition bits are unchanged as well. -/
def DestinationOnly (fields : List RegField) (width : Nat) (l : Loc) (s : State) (v : Thread) (t : State) : Prop :=
  RegistersOnly fields width l s v t ∧ (t.thread? s.cur).map (fun r => r.c) = some v.c

/-- What a debugger's step in progress does after a step (R224). -/
def settled (r : State) : State := if r.dbg.busy then r.debugSettle else r

end Sys2Proof.Claims

section
open Sys2Proof Sys2Proof.Machine Sys2Proof.Claims

/-! ### Compute instructions -/

/-- R266, R269 to R271, R275, R279, R280: an instruction of two 32-bit sources reads a, then b or the OPI immediate, resolves d,
writes its result there and retires; nothing else of the device changes. -/
def Obligations.TwoSourceResults : Prop :=
  ∀ i acc d a b f, TwoSources i acc d a b f →
  ∀ s v word x y l c1 c2 c3, encode? i = some word → Issues s word false v →
    src a (begin s v word acc) = (x, c1) → srcB b c1 = (y, c2) → dst d c2 = (l, c3) → Clean c3 →
    exec i s = .next ((wr l (f (HintSet.of v.hints).opi.isSome x y) c3).2.retired v.stepping)

/-- R246, R266, R270, R279 to R281, R283, R287: an instruction of one 32-bit source. -/
def Sys2Proof.Claims.OneSourceResults : Prop :=
  ∀ i acc d a f, OneSource i acc d a f →
  ∀ s v word x l c1 c2, encode? i = some word → Issues s word false v →
    src a (begin s v word acc) = (x, c1) → dst d c1 = (l, c2) → Clean c2 →
    exec i s = .next ((wr l (f x) c2).2.retired v.stepping)

/-- R249, R252, R274: an instruction of a 32-bit source and an immediate, which IMM hints extend. -/
def Sys2Proof.Claims.ImmediateResults : Prop :=
  ∀ i d a f, Immediate i d a f →
  ∀ s v word x l c1 c2, encode? i = some word → Issues s word false v →
    src a (begin s v word .immOnly) = (x, c1) → dst d c1 = (l, c2) → Clean c2 →
    exec i s = .next ((wr l (f (HintSet.of v.hints) x) c2).2.retired v.stepping)

/-- R253, R266, R270, R271, R276: an instruction that adds to, or inserts into, its old destination; an ADD hint gives the
addend instead, read before the destination is resolved. -/
def Obligations.OldDestinationResults : Prop :=
  ∀ i acc d a b f, WithOld i acc d a b f →
  ∀ s v word x y c1 c2, encode? i = some word → Issues s word false v →
    src a (begin s v word acc) = (x, c1) → srcB b c1 = (y, c2) →
    (∀ l e c3 c4, (HintSet.of v.hints).add = none → dst d c2 = (l, c3) → rdDst l c3 = (e, c4) → Clean c4 →
      exec i s = .next ((wr l (f (HintSet.of v.hints).opi.isSome x y e) c4).2.retired v.stepping)) ∧
    (∀ fe l e c3 c4, (HintSet.of v.hints).add = some fe → acc.add = true → src fe c2 = (e, c3) → dst d c3 = (l, c4) → Clean c4 →
      exec i s = .next ((wr l (f (HintSet.of v.hints).opi.isSome x y e) c4).2.retired v.stepping))

/-- R266, R270, R277, R279, R283: the instructions whose destination is a pair. -/
def Obligations.PairResults : Prop :=
  (∀ i acc d a b f, TwoPairs i acc d a b f →
    ∀ s v word x y l c1 c2 c3, encode? i = some word → Issues s word false v →
      srcP a (begin s v word acc) = (x, c1) → srcP b c1 = (y, c2) → dstP d c2 = (l, c3) → Clean c3 →
      exec i s = .next ((wrp l (f x y) c3).2.retired v.stepping)) ∧
  (∀ i d a b f, PairAndWord i d a b f →
    ∀ s v word x y l c1 c2 c3, encode? i = some word → Issues s word false v →
      srcP a (begin s v word .nothing) = (x, c1) → src b c1 = (y, c2) → dstP d c2 = (l, c3) → Clean c3 →
      exec i s = .next ((wrp l (f x y) c3).2.retired v.stepping)) ∧
  (∀ i acc d a f, WordToPair i acc d a f →
    ∀ s v word x l c1 c2, encode? i = some word → Issues s word false v →
      src a (begin s v word acc) = (x, c1) → dstP d c1 = (l, c2) → Clean c2 →
      exec i s = .next ((wrp l (f x) c2).2.retired v.stepping)) ∧
  (∀ s v w d a b x y l c1 c2 c3, src a c1 = (x, c2) → srcB b c2 = (y, c3) → Clean (dstP d c3).2 → (dstP d c3).1 = l →
    (c1 = begin s v (Enc.mulwI w d a b) .opiOnly → Issues s (Enc.mulwI w d a b) false v →
      exec (.mulwI w d a b) s
        = .next ((wrp l (BitVec.ofInt 64 (x.toInt * y.toInt)) (dstP d c3).2).2.retired v.stepping)) ∧
    (c1 = begin s v (Enc.mulwN w d a b) .opiOnly → Issues s (Enc.mulwN w d a b) false v →
      exec (.mulwN w d a b) s
        = .next ((wrp l (BitVec.ofNat 64 (x.toNat * y.toNat)) (dstP d c3).2).2.retired v.stepping))) ∧
  (∀ s v w d a x l c1 c2 c3, srcP a c1 = (x, c2) → dstP d c2 = (l, c3) → Clean c3 →
    (c1 = begin s v (Enc.fabsF64 w d a) .rndOnly → Issues s (Enc.fabsF64 w d a) false v →
      exec (.fabsF64 w d a) s
        = .next ((wrp l (BitVec.ofNat 64 (withSign binary64 x.toNat false)) c3).2.retired v.stepping)) ∧
    (c1 = begin s v (Enc.fnegF64 w d a) .rndOnly → Issues s (Enc.fnegF64 w d a) false v →
      exec (.fnegF64 w d a) s
        = .next ((wrp l (BitVec.ofNat 64 (withSign binary64 x.toNat (!binary64.signOf x.toNat))) c3).2.retired v.stepping)))

/-- R138, R272, R273, R282: compares write their condition bit and nothing else; `sel` chooses by one. -/
def Obligations.CompareResults : Prop :=
  (∀ i c a b f, Compares i c a b f →
    ∀ s v word x y c1 c2, encode? i = some word → Issues s word false v →
      src a (begin s v word .nothing) = (x, c1) → src b c1 = (y, c2) → Clean c2 →
      exec i s = .next (({ c2 with th := c2.th.setCond c (f x y) } : Ctx).retired v.stepping)) ∧
  (∀ w k c a b s v x y c1 c2, Issues s (Enc.fcmpF64 w k c a b) false v →
    srcP a (begin s v (Enc.fcmpF64 w k c a b) .nothing) = (x, c1) → srcP b c1 = (y, c2) → Clean c2 →
    exec (.fcmpF64 w k c a b) s = .next (({ c2 with
      th := c2.th.setCond c (floatCond k (val x.toNat binary64) (val y.toNat binary64)) } : Ctx).retired v.stepping)) ∧
  (∀ w k c a i s v x c1, Issues s (Enc.cmpi w k c a i) false v →
    src a (begin s v (Enc.cmpi w k c a i) .immOnly) = (x, c1) → Clean c1 →
    exec (.cmpi w k c a i) s = .next (({ c1 with
      th := c1.th.setCond c (intCond k x (BitVec.ofInt 32 ((HintSet.of v.hints).immS i.toNat 11))) } : Ctx).retired v.stepping)) ∧
  (∀ w t c d a b s v x y l c1 c2 c3, Issues s (Enc.sel w t c d a b) false v →
    src a (begin s v (Enc.sel w t c d a b) .nothing) = (x, c1) → src b c1 = (y, c2) → dst d c2 = (l, c3) → Clean c3 →
    exec (.sel w t c d a b) s = .next ((wr l (if v.cond c = decide (t = 1) then x else y) c3).2.retired v.stepping))

/-- R234 to R236, R278, R280: a form that rounds takes its mode from the RND hint or tstat.rnd, draws under the stochastic
mode (element 0 before element 1), rounds the exact result once, and retires. -/
def Sys2Proof.Claims.RoundingResults : Prop :=
  (∀ i d a b f, Rounds32 i d a b f →
    ∀ s v word x y l m r c1 c2 c3 c4, encode? i = some word → Issues s word false v →
      src a (begin s v word { Accepts.rndOnly with opi := true }) = (x, c1) → srcB b c1 = (y, c2) → dst d c2 = (l, c3) →
      Clean c3 → (modeOf c3).1 = m → draw m c3 = (r, c4) →
      exec i s = .next ((wr l (BitVec.ofNat 32
        (roundVal binary32 m r (f m (val x.toNat binary32) (val y.toNat binary32)))) c4).2.retired v.stepping)) ∧
  (∀ i d a b f, Rounds64 i d a b f →
    ∀ s v word x y l m r c1 c2 c3 c4, encode? i = some word → Issues s word false v →
      srcP a (begin s v word .rndOnly) = (x, c1) → srcP b c1 = (y, c2) → dstP d c2 = (l, c3) →
      Clean c3 → (modeOf c3).1 = m → draw m c3 = (r, c4) →
      exec i s = .next ((wrp l (BitVec.ofNat 64
        (roundVal binary64 m r (f m (val x.toNat binary64) (val y.toNat binary64)))) c4).2.retired v.stepping)) ∧
  (∀ i t d a b f, RoundsPk i t d a b f →
    ∀ s v word x y l m r0 r1 c1 c2 c3 c4 c5, encode? i = some word → Issues s word false v →
      src a (begin s v word { Accepts.rndOnly with opi := true }) = (x, c1) → srcB b c1 = (y, c2) → dst d c2 = (l, c3) →
      Clean c3 → (modeOf c3).1 = m → draw m c3 = (r0, c4) → draw m c4 = (r1, c5) →
      exec i s = .next ((wr l
        (BitVec.ofNat 16 (roundVal (pkFmt t) m r1
            (f m (val (x.extractLsb' 16 16).toNat (pkFmt t)) (val (y.extractLsb' 16 16).toNat (pkFmt t))))
          ++ BitVec.ofNat 16 (roundVal (pkFmt t) m r0
            (f m (val (x.extractLsb' 0 16).toNat (pkFmt t)) (val (y.extractLsb' 0 16).toNat (pkFmt t))))) c5).2.retired
        v.stepping)) ∧
  (∀ w d a s v x l m r c1 c2 c3, Issues s (Enc.fsqrt w d a) false v →
    src a (begin s v (Enc.fsqrt w d a) .rndOnly) = (x, c1) → dst d c1 = (l, c2) → Clean c2 → (modeOf c2).1 = m →
    draw m c2 = (r, c3) →
    exec (.fsqrt w d a) s
      = .next ((wr l (BitVec.ofNat 32 (roundVal binary32 m r (val x.toNat binary32).sqrt)) c3).2.retired v.stepping))

/-- R253, R266, R278, R280: the fused forms round the exact product and sum once; the addend is the old destination or the
ADD addend. -/
def Sys2Proof.Claims.FusedResults : Prop :=
  (∀ s v w d a b x y p m r c1 c2 c3 c4 c5, src a c1 = (x, c2) → srcB b c2 = (y, c3) → addend d c3 = (p, c4) → Clean c4 →
    (modeOf c4).1 = m → draw m c4 = (r, c5) →
    (c1 = begin s v (Enc.ffma w d a b) { Accepts.rndOnly with opi := true, add := true } → Issues s (Enc.ffma w d a b) false v →
      exec (.ffma w d a b) s = .next ((wr p.1 (BitVec.ofNat 32 (roundVal binary32 m r (fusedVal false m
        (val x.toNat binary32) (val y.toNat binary32) (val p.2.toNat binary32)))) c5).2.retired v.stepping)) ∧
    (c1 = begin s v (Enc.fnma w d a b) { Accepts.rndOnly with opi := true, add := true } → Issues s (Enc.fnma w d a b) false v →
      exec (.fnma w d a b) s = .next ((wr p.1 (BitVec.ofNat 32 (roundVal binary32 m r (fusedVal true m
        (val x.toNat binary32) (val y.toNat binary32) (val p.2.toNat binary32)))) c5).2.retired v.stepping))) ∧
  (∀ s v w d a b x y p m r c1 c2 c3 c4 c5, srcP a c1 = (x, c2) → srcP b c2 = (y, c3) → addendP d c3 = (p, c4) → Clean c4 →
    (modeOf c4).1 = m → draw m c4 = (r, c5) →
    (c1 = begin s v (Enc.ffmaF64 w d a b) { Accepts.rndOnly with add := true } → Issues s (Enc.ffmaF64 w d a b) false v →
      exec (.ffmaF64 w d a b) s = .next ((wrp p.1 (BitVec.ofNat 64 (roundVal binary64 m r (fusedVal false m
        (val x.toNat binary64) (val y.toNat binary64) (val p.2.toNat binary64)))) c5).2.retired v.stepping)) ∧
    (c1 = begin s v (Enc.fnmaF64 w d a b) { Accepts.rndOnly with add := true } → Issues s (Enc.fnmaF64 w d a b) false v →
      exec (.fnmaF64 w d a b) s = .next ((wrp p.1 (BitVec.ofNat 64 (roundVal binary64 m r (fusedVal true m
        (val x.toNat binary64) (val y.toNat binary64) (val p.2.toNat binary64)))) c5).2.retired v.stepping))) ∧
  (∀ s v w t d a b x y p m r0 r1 c1 c2 c3 c4 c5 c6, src a c1 = (x, c2) → srcB b c2 = (y, c3) → addend d c3 = (p, c4) →
    Clean c4 → (modeOf c4).1 = m → draw m c4 = (r0, c5) → draw m c5 = (r1, c6) →
    ∀ minus hi lo,
    hi = roundVal (pkFmt t) m r1 (fusedVal minus m (val (x.extractLsb' 16 16).toNat (pkFmt t))
      (val (y.extractLsb' 16 16).toNat (pkFmt t)) (val (p.2.extractLsb' 16 16).toNat (pkFmt t))) →
    lo = roundVal (pkFmt t) m r0 (fusedVal minus m (val (x.extractLsb' 0 16).toNat (pkFmt t))
      (val (y.extractLsb' 0 16).toNat (pkFmt t)) (val (p.2.extractLsb' 0 16).toNat (pkFmt t))) →
    (minus = false → c1 = begin s v (Enc.ffmaPk w t d a b) { Accepts.rndOnly with opi := true, add := true } →
      Issues s (Enc.ffmaPk w t d a b) false v →
      exec (.ffmaPk w t d a b) s = .next ((wr p.1 (BitVec.ofNat 16 hi ++ BitVec.ofNat 16 lo) c6).2.retired v.stepping)) ∧
    (minus = true → c1 = begin s v (Enc.fnmaPk w t d a b) { Accepts.rndOnly with opi := true, add := true } →
      Issues s (Enc.fnmaPk w t d a b) false v →
      exec (.fnmaPk w t d a b) s = .next ((wr p.1 (BitVec.ofNat 16 hi ++ BitVec.ofNat 16 lo) c6).2.retired v.stepping)))

/-- R283 to R286: conversions from integers round; those that can overflow follow their policy or raise
conversion-overflow with the source; `cvtdn` and `cvtup` use a format register and a slot of the word. -/
def Obligations.ConversionResults : Prop :=
  (∀ s v w d a x l m r c1 c2 c3 c4, src a c1 = (x, c2) → dst d c2 = (l, c3) → Clean c3 → (modeOf c3).1 = m →
    draw m c3 = (r, c4) →
    (c1 = begin s v (Enc.cvtF32I32 w d a) .rndOnly → Issues s (Enc.cvtF32I32 w d a) false v →
      exec (.cvtF32I32 w d a) s = .next ((wr l (BitVec.ofNat 32
        (roundVal binary32 m r (.num x.msb x.toInt.natAbs 0 false))) c4).2.retired v.stepping)) ∧
    (c1 = begin s v (Enc.cvtF32N32 w d a) .rndOnly → Issues s (Enc.cvtF32N32 w d a) false v →
      exec (.cvtF32N32 w d a) s = .next ((wr l (BitVec.ofNat 32
        (roundVal binary32 m r (.num false x.toNat 0 false))) c4).2.retired v.stepping))) ∧
  (∀ i d a f own, Down32 i d a f own →
    ∀ s v word x l m o r c1 c2 c3, encode? i = some word → Issues s word false v →
      src a (begin s v word .rndPolicy) = (x, c1) → dst d c1 = (l, c2) → Clean c2 → (modeOf c2).1 = m →
      (policyOf own c2).1 = o → draw m c2 = (r, c3) →
      (∀ z, convertDown f m r o (val x.toNat binary32) = some z →
        exec i s = .next ((wr l (BitVec.ofNat 32 z) c3).2.retired v.stepping)) ∧
      (convertDown f m r o (val x.toNat binary32) = none → v.log = [] → s.deliver s.cur v = none →
        exec i s = .next (s.trap s.cur v Cause.conversionOverflow.code (x.setWidth 64)))) ∧
  (∀ i d a f own, Down64 i d a f own →
    ∀ s v word x l m o r c1 c2 c3, encode? i = some word → Issues s word false v →
      srcP a (begin s v word .rndPolicy) = (x, c1) → dst d c1 = (l, c2) → Clean c2 → (modeOf c2).1 = m →
      (policyOf own c2).1 = o → draw m c2 = (r, c3) →
      (∀ z, convertDown f m r o (val x.toNat binary64) = some z →
        exec i s = .next ((wr l (BitVec.ofNat 32 z) c3).2.retired v.stepping)) ∧
      (convertDown f m r o (val x.toNat binary64) = none → v.log = [] → s.deliver s.cur v = none →
        exec i s = .next (s.trap s.cur v Cause.conversionOverflow.code ((x.extractLsb' 32 32).setWidth 64)))) ∧
  (∀ s v w o k d a f j x l old m r c1 c2 c3 c4, Issues s (Enc.cvtdn w o k d a f j) false v →
    j.toNat < 32 / (v.fmt f).container →
    src a (begin s v (Enc.cvtdn w o k d a f j) .nothing) = (x, c1) → dst d c1 = (l, c2) → rdDst l c2 = (old, c3) → Clean c3 →
    m = (if k = 0 then 0 else if k = 1 then 1 else if k = 2 then 5 else v.rnd.toNat) → draw m c3 = (r, c4) →
    (∀ z, convertDown (v.fmt f) m r o.toNat (val x.toNat binary32) = some z →
      exec (.cvtdn w o k d a f j) s = .next ((wr l (putSlot old (v.fmt f).container j.toNat z) c4).2.retired v.stepping)) ∧
    (convertDown (v.fmt f) m r o.toNat (val x.toNat binary32) = none → v.log = [] → s.deliver s.cur v = none →
      exec (.cvtdn w o k d a f j) s = .next (s.trap s.cur v Cause.conversionOverflow.code (x.setWidth 64)))) ∧
  (∀ s v w d a f j x l m r c1 c2 c3, Issues s (Enc.cvtup w d a f j) false v → j.toNat < 32 / (v.fmt f).container →
    src a (begin s v (Enc.cvtup w d a f j) .rndOnly) = (x, c1) → dst d c1 = (l, c2) → Clean c2 → (modeOf c2).1 = m →
    draw m c2 = (r, c3) →
    exec (.cvtup w d a f j) s = .next ((wr l (BitVec.ofNat 32 (roundVal binary32 m r
      (val (x.toNat / 2 ^ ((v.fmt f).container * j.toNat) % 2 ^ (v.fmt f).W) (v.fmt f)))) c3).2.retired v.stepping))

/-- R287, R289 to R291: `movi`, and the reads and writes of index registers, format registers and masks. -/
def Sys2Proof.Claims.MoveResults : Prop :=
  (∀ s v w d i l c1, Issues s (Enc.movi w d i) false v → dst d (begin s v (Enc.movi w d i) .immOnly) = (l, c1) → Clean c1 →
    exec (.movi w d i) s = .next ((wr l (BitVec.ofInt 32 ((HintSet.of v.hints).immS i.toNat 18)) c1).2.retired v.stepping)) ∧
  (∀ s v w d k l c1, Issues s (Enc.xget w d k) false v → dst d (begin s v (Enc.xget w d k) .nothing) = (l, c1) → Clean c1 →
    exec (.xget w d k) s = .next ((wr l (v.x.getD k.toNat 0 &&& 0x3FFFFFFF) c1).2.retired v.stepping)) ∧
  (∀ s v w k b y c1, Issues s (Enc.xset w k b) false v → srcB b (begin s v (Enc.xset w k b) .opiOnly) = (y, c1) → Clean c1 →
    exec (.xset w k b) s
      = .next (({ c1 with th := { c1.th with x := c1.th.x.set k.toNat (y &&& 0x3FFFFFFF) } } : Ctx).retired v.stepping)) ∧
  (∀ s v w k b y c1 u z, Issues s (Enc.xadj w k b) false v → srcB b (begin s v (Enc.xadj w k b) .opiOnly) = (y, c1) → Clean c1 →
    c1.th.x.getD k.toNat 0 = u →
    z = u.extractLsb' 24 8 ++ (u.extractLsb' 16 8 + y.extractLsb' 0 8) ++ u.extractLsb' 0 16 →
    exec (.xadj w k b) s
      = .next (({ c1 with th := { c1.th with x := c1.th.x.set k.toNat z } } : Ctx).retired v.stepping)) ∧
  (∀ s v w d f l c1, Issues s (Enc.fget w d f) false v → dst d (begin s v (Enc.fget w d f) .nothing) = (l, c1) → Clean c1 →
    exec (.fget w d f) s = .next ((wr l (v.f.getD f.toNat 0) c1).2.retired v.stepping)) ∧
  (∀ s v w f b y c1, Issues s (Enc.fset w f b) false v → srcB b (begin s v (Enc.fset w f b) .opiOnly) = (y, c1) → Clean c1 →
    (fmtLegal y = true →
      exec (.fset w f b) s = .next (({ c1 with th := { c1.th with f := c1.th.f.set f.toNat y } } : Ctx).retired v.stepping)) ∧
    (fmtLegal y = false → v.log = [] → s.deliver s.cur v = none →
      exec (.fset w f b) s = .next (s.trap s.cur v Cause.illegalFormat.code (y.setWidth 64)))) ∧
  (∀ s v w d g l c1, Issues s (Enc.mget w d g) false v → dstP d (begin s v (Enc.mget w d g) .nothing) = (l, c1) → Clean c1 →
    exec (.mget w d g) s
      = .next ((wrp l (if g = 7 then s.liveMask s.cur.group else v.m.getD g.toNat 0) c1).2.retired v.stepping)) ∧
  (∀ s v w g b, Issues s (Enc.mset w g b) false v →
    (∀ y c1, (HintSet.of v.hints).opi = none → srcP b (begin s v (Enc.mset w g b) .opiOnly) = (y, c1) → Clean c1 →
      exec (.mset w g b) s = .next (({ c1 with th := c1.th.setMask g (s.gwidth s.cur.group) y } : Ctx).retired v.stepping)) ∧
    (∀ p, (HintSet.of v.hints).opi = some p → b = 0 → Clean (begin s v (Enc.mset w g b) .opiOnly) →
      exec (.mset w g b) s = .next (({ begin s v (Enc.mset w g b) .opiOnly with
        th := v.setMask g (s.gwidth s.cur.group) (BitVec.ofInt 64 ((HintSet.of v.hints).immS p.toNat 22)) } : Ctx).retired
          v.stepping)))

/-- R146, R210, R293: `csrr` returns the register of an assigned number, latching the high words of ncyc and nret; `csrw`
writes it, W1C for scoperep; an unassigned number raises illegal-instruction. -/
def Sys2Proof.Claims.StatusRegisterResults : Prop :=
  (∀ s v w d n l c1, Issues s (Enc.csrr w d n) false v → dst d (begin s v (Enc.csrr w d n) .immOnly) = (l, c1) → Clean c1 →
    (HintSet.of v.hints).imms.all (fun p => decide (p = 0)) = true →
    (∀ x t, csrValue s s.cur v n.toNat = some (x, t) →
      exec (.csrr w d n) s = .next ((wr l x { c1 with
        th := { c1.th with ncycHi := t.ncycHi, nretHi := t.nretHi } }).2.retired v.stepping)) ∧
    (csrValue s s.cur v n.toNat = none → v.log = [] → s.deliver s.cur v = none →
      exec (.csrr w d n) s = .next (s.trap s.cur v Cause.illegalInstruction.code ((Enc.csrr w d n).setWidth 64)))) ∧
  (∀ s v w a n x c1, Issues s (Enc.csrw w a n) false v → src a (begin s v (Enc.csrw w a n) .immOnly) = (x, c1) → Clean c1 →
    (HintSet.of v.hints).imms.all (fun p => decide (p = 0)) = true →
    (∀ t, csrWrite c1.th n.toNat x = some t → n ≠ 0x016 →
      exec (.csrw w a n) s = .next (({ c1 with th := t } : Ctx).retired v.stepping)) ∧
    (n = 0x016 →
      exec (.csrw w a n) s = .next (({ c1 with
        s := s.modTeam s.cur.teamId (fun m => { m with scoperep := m.scoperep &&& ~~~(x.setWidth 7) }) } : Ctx).retired
          v.stepping)) ∧
    (csrWrite c1.th n.toNat x = none → v.log = [] → s.deliver s.cur v = none →
      exec (.csrw w a n) s = .next (s.trap s.cur v Cause.illegalInstruction.code ((Enc.csrw w a n).setWidth 64))))

/-! ### Hints, streams, branches and thread control -/

/-- R146, R251, R252: a hint word is kept for the next instruction word, counts in nret and advances the pc. -/
def Sys2Proof.Claims.HintWords : Prop :=
  ∀ s u, s.thread? s.cur = some u → u.wait.issues = true →
  ∀ i h, ((∃ p, i = .hintImm p ∧ h = .imm p) ∨ (∃ p, i = .hintOpi p ∧ h = .opi p) ∨ (∃ c, i = .hintScope c ∧ h = .scope c)
      ∨ (∃ o p r, i = .hintRnd o p r ∧ h = .rnd o p r) ∨ (∃ z b a, i = .hintCache z b a ∧ h = .cache z b a)
      ∨ (∃ e, i = .hintAdd e ∧ h = .add e)) →
    exec i s = .next (s.setThread s.cur { u with hints := u.hints ++ [h], pc := u.pc + 4, nret := u.nret + 1, wait := .run })

/-- R294, R296, R297: `sdef` binds a stream from a legal block of eight registers and `sstop` unbinds one, both once the
elements appended to it are performed; `bstr` tests an end flag of a bound stream. -/
def Obligations.StreamInstructions : Prop :=
  (∀ s v w q a n c1, Issues s (Enc.sdef w q a) false v → block a 8 8 (begin s v (Enc.sdef w q a) .immOnly) = (n, c1) →
    (HintSet.of v.hints).imms.all (fun p => decide (p = 0)) = true → Clean c1 →
    (descBad (fun i => c1.th.reg (n + i)) = false → s.undrained s.cur c1.th q.toNat = false →
      exec (.sdef w q a) s = .next (({ c1 with
        th := c1.th.setStream q.toNat (some (descStream (fun i => c1.th.reg (n + i)) c1.th.kernel s.stamp)),
        s := { s with stamp := s.stamp + 1 } } : Ctx).retired v.stepping)) ∧
    (descBad (fun i => c1.th.reg (n + i)) = true → v.log = [] → s.deliver s.cur v = none →
      exec (.sdef w q a) s = .next (s.trap s.cur v Cause.reservedOperand.code ((Enc.sdef w q a).setWidth 64)))) ∧
  (∀ s v w q, Issues s (Enc.sstop w q) false v → Clean (begin s v (Enc.sstop w q) .immOnly) →
    (HintSet.of v.hints).imms.all (fun p => decide (p = 0)) = true →
    (s.undrained s.cur v q.toNat = false →
      exec (.sstop w q) s
        = .next (({ begin s v (Enc.sstop w q) .immOnly with th := v.setStream q.toNat none } : Ctx).retired v.stepping)) ∧
    (s.undrained s.cur v q.toNat = true → exec (.sstop w q) s = .next (s.setThread s.cur { v with wait := .sstop q.toNat }))) ∧
  (∀ s v w q k t f, Issues s (Enc.bstr w q k t f) false v → Clean (begin s v (Enc.bstr w q k t f) .nothing) →
    (∀ m, v.stream q.toNat = some m → (m.flags.getLsbD k.toNat = decide (t = 1) → (direct v f).extractLsb' 48 16 = 0) →
      exec (.bstr w q k t f) s = .next (({ begin s v (Enc.bstr w q k t f) .nothing with
        npc := if m.flags.getLsbD k.toNat = decide (t = 1) then (direct v f).extractLsb' 0 48 else v.pc + 4 } : Ctx).retired
          v.stepping)) ∧
    (∀ m, v.stream q.toNat = some m → m.flags.getLsbD k.toNat = decide (t = 1) → (direct v f).extractLsb' 48 16 ≠ 0 →
      v.log = [] → s.deliver s.cur v = none →
      exec (.bstr w q k t f) s = .next (s.trap s.cur v Cause.permission.code (direct v f))) ∧
    (v.stream q.toNat = none → v.log = [] → s.deliver s.cur v = none →
      exec (.bstr w q k t f) s = .next (s.trap s.cur v Cause.reservedOperand.code ((Enc.bstr w q k t f).setWidth 64))))

/-- R247, R249, R298: branches, jumps, calls and returns: offsets count words from the instruction's own pc, the link is
pc + 4, an indirect target drops bits [1:0], and a target whose bits [63:48] are not zero raises permission with the whole target. -/
def Obligations.Branches : Prop :=
  (∀ s v w t c f, Issues s (Enc.br w t c f) false v → Clean (begin s v (Enc.br w t c f) .nothing) →
    (v.cond c = decide (t = 0) → exec (.br w t c f) s = .next ((begin s v (Enc.br w t c f) .nothing).retired v.stepping)) ∧
    (v.cond c = decide (t = 1) → (direct v f).extractLsb' 48 16 = 0 →
      exec (.br w t c f) s = .next (({ begin s v (Enc.br w t c f) .nothing with npc := (direct v f).extractLsb' 0 48 } : Ctx).retired
        v.stepping)) ∧
    (v.cond c = decide (t = 1) → (direct v f).extractLsb' 48 16 ≠ 0 → v.log = [] → s.deliver s.cur v = none →
      exec (.br w t c f) s = .next (s.trap s.cur v Cause.permission.code (direct v f)))) ∧
  (∀ s v w f, Issues s (Enc.jmp w f) false v → Clean (begin s v (Enc.jmp w f) .nothing) →
    ((direct v f).extractLsb' 48 16 = 0 →
      exec (.jmp w f) s = .next (({ begin s v (Enc.jmp w f) .nothing with npc := (direct v f).extractLsb' 0 48 } : Ctx).retired
        v.stepping)) ∧
    ((direct v f).extractLsb' 48 16 ≠ 0 → v.log = [] → s.deliver s.cur v = none →
      exec (.jmp w f) s = .next (s.trap s.cur v Cause.permission.code (direct v f)))) ∧
  (∀ s v w d f l c1, Issues s (Enc.call w d f) false v → dstP d (begin s v (Enc.call w d f) .nothing) = (l, c1) → Clean c1 →
    (∀ c2, (direct v f).extractLsb' 48 16 = 0 → (wrp l ((v.pc + 4).setWidth 64) c1).2 = c2 →
      exec (.call w d f) s = .next (({ c2 with npc := (direct v f).extractLsb' 0 48 } : Ctx).retired v.stepping)) ∧
    ((direct v f).extractLsb' 48 16 ≠ 0 → v.log = [] → s.deliver s.cur v = none →
      exec (.call w d f) s = .next (s.trap s.cur v Cause.permission.code (direct v f)))) ∧
  (∀ s v w a x c1 c2, srcP a c1 = (x, c2) → Clean c2 →
    ((c1 = begin s v (Enc.brx w a) .nothing ∧ Issues s (Enc.brx w a) false v → x.extractLsb' 48 16 = 0 →
      exec (.brx w a) s = .next (({ c2 with npc := x.extractLsb' 2 46 ++ 0#2 } : Ctx).retired v.stepping)) ∧
     (c1 = begin s v (Enc.ret w a) .nothing ∧ Issues s (Enc.ret w a) false v → x.extractLsb' 48 16 = 0 →
      exec (.ret w a) s = .next (({ c2 with npc := x.extractLsb' 2 46 ++ 0#2 } : Ctx).retired v.stepping)) ∧
     (x.extractLsb' 48 16 ≠ 0 → v.log = [] → s.deliver s.cur v = none →
      (c1 = begin s v (Enc.brx w a) .nothing ∧ Issues s (Enc.brx w a) false v →
        exec (.brx w a) s = .next (s.trap s.cur v Cause.permission.code (x.extractLsb' 2 62 ++ 0#2))) ∧
      (c1 = begin s v (Enc.ret w a) .nothing ∧ Issues s (Enc.ret w a) false v →
        exec (.ret w a) s = .next (s.trap s.cur v Cause.permission.code (x.extractLsb' 2 62 ++ 0#2)))))) ∧
  (∀ s v w d a x l c1 c2, Issues s (Enc.callx w d a) false v → srcP a (begin s v (Enc.callx w d a) .nothing) = (x, c1) →
    dstP d c1 = (l, c2) → Clean c2 →
    (∀ c3, x.extractLsb' 48 16 = 0 → (wrp l ((v.pc + 4).setWidth 64) c2).2 = c3 →
      exec (.callx w d a) s = .next (({ c3 with npc := x.extractLsb' 2 46 ++ 0#2 } : Ctx).retired v.stepping)) ∧
    (x.extractLsb' 48 16 ≠ 0 → v.log = [] → s.deliver s.cur v = none →
      exec (.callx w d a) s = .next (s.trap s.cur v Cause.permission.code (x.extractLsb' 2 62 ++ 0#2))))

/-- R108, R109, R223, R299: `nop` only retires; `yield` gives its group's place to a ready pending group; `park` waits n
cycles of the team; `brk` raises breakpoint, or halts the group where its catch setting is on and ends a debugger's step of its thread. -/
def Sys2Proof.Claims.ThreadControl : Prop :=
  (∀ s v w, Issues s (Enc.nop w) false v → Clean (begin s v (Enc.nop w) .nothing) →
    exec (.nop w) s = .next ((begin s v (Enc.nop w) .nothing).retired v.stepping)) ∧
  (∀ s v w, Issues s (Enc.yield w) false v → Clean (begin s v (Enc.yield w) .nothing) →
    exec (.yield w) s = .next (((begin s v (Enc.yield w) .nothing).retired v.stepping).exchange s.cur.group)) ∧
  (∀ s v w n, Issues s (Enc.park w n) true v → Clean (begin s v (Enc.park w n) .immOnly) →
    ((HintSet.of v.hints).immU n.toNat 16 = 0 →
      exec (.park w n) s = .next ((begin s v (Enc.park w n) .immOnly).retired v.stepping)) ∧
    ((HintSet.of v.hints).immU n.toNat 16 ≠ 0 →
      exec (.park w n) s = .next (s.setThread s.cur { v with
        wait := .park (s.ncyc s.cur.teamId + (HintSet.of v.hints).immU n.toNat 16) }))) ∧
  (∀ s v w n, Issues s (Enc.brk w n) false v → Clean (begin s v (Enc.brk w n) .nothing) → v.log = [] →
    (s.catching s.cur = false → s.deliver s.cur v = none →
      exec (.brk w n) s = .next (s.trap s.cur v 0x11 (n.setWidth 64))) ∧
    (s.catching s.cur = true →
      ∀ r, (s.setThread s.cur { v with wait := .run }).modGroup s.cur.group (fun g => { g with halted := true }) = r →
      exec (.brk w n) s = .next { r with dbg := if s.dbg.target = some s.cur.group
        then { s.dbg with stepping := s.dbg.stepping.filter (fun m => decide (m.1 ≠ s.cur.mem)) } else s.dbg }))
end

section
open Sys2Proof Sys2Proof.Machine Sys2Proof.Claims

/-! ### Cross-lane instructions -/

/-- R129, R130, R300: a member whose own bit is in its mask parks at a cross-lane instruction; what that completes follows at
once. A member whose bit is not in its mask raises reserved-operand. -/
def Sys2Proof.Claims.LaneArrival : Prop :=
  ∀ s v i acc sw m op c word, Arrives s v i acc sw m op c → encode? i = some word → Issues s word sw v → Clean c →
    ((s.maskReg s.cur v m).getLsbD s.cur.mem = true →
      exec i s = .next ((atLanes s v c op (s.maskReg s.cur v m)).meet s.cur.group)) ∧
    ((s.maskReg s.cur v m).getLsbD s.cur.mem = false → v.log = [] → s.deliver s.cur v = none →
      exec i s = .next (s.trap s.cur v Cause.reservedOperand.code (word.setWidth 64)))

/-- R130, R133: when the arriving member makes its set complete, and no other set of the group is complete before or after, the
instruction executes once for the members of the set. Members at a `fence.grp` first flush what they have stored in the pod (R188). -/
def Sys2Proof.Claims.LaneCompletion : Prop :=
  ∀ s v i acc sw m op c word g ps p t, Arrives s v i acc sw m op c → encode? i = some word → Issues s word sw v → Clean c →
    (s.maskReg s.cur v m).getLsbD s.cur.mem = true →
    s.group? s.cur.group = some g → g.halted = false → g.fault = none →
    p = (atLanes s v c op (s.maskReg s.cur v m)).laneLand s.cur.group → p.laneReady s.cur.group s.cur.mem = some ps →
    (∀ j qs, p.laneReady s.cur.group j = some qs → qs = ps) → t = p.laneExecute s.cur.group ps →
    (∀ j, t.laneReady s.cur.group j = none) → t.laneDeadlock s.cur.group = false →
    exec i s = .next t

/-- R193, R197, R301: what a cross-lane operation gives each participant, from the registers of all of them as they were; each retires to
the word after the instruction, where no halt, stop or step trap keeps it. `census`, `agree`, `kin`, `comb` and `scan` give what `LaneVotes` and
`LaneReductions` state of `laneEffect`; a pick of a member that takes no part gives the participant's own value. -/
def Sys2Proof.Claims.LaneResults : Prop :=
  ∀ (s : State) (g : GroupId) (ps : List Nat), ps.Nodup →
  (∀ j ∈ ps, ∀ u, s.thread? (memberOf g j) = some u → u.stepping = false ∧ s.staysPut (memberOf g j) u = false) →
  ∀ i ∈ ps, ∀ t, s.thread? (memberOf g i) = some t →
  ∀ r, (s.laneExecute g ps).thread? (memberOf g i) = some r →
    r.pc = t.pc + 4 ∧ r.nret = t.nret + 1 ∧ r.wait = .run ∧ r.hints = [] ∧
    (∀ d a n u, s.laneOp g i = .pickK d a n → n ∈ ps → s.thread? (memberOf g n) = some u →
      r.v = t.v.set d (u.reg (s.laneOp g n).source)) ∧
    (∀ d a n, s.laneOp g i = .pickK d a n → n ∉ ps → r.v = t.v.set d (t.reg a)) ∧
    (∀ d a k, s.laneOp g i = .pickR d a k → (t.reg k).toNat ∉ ps → r.v = t.v.set d (t.reg a)) ∧
    (∀ d a n, s.laneOp g i = .pickXor d a n → i ^^^ n ∉ ps → r.v = t.v.set d (t.reg a)) ∧
    (∀ d a n, s.laneOp g i = .pickAdd d a n → (i + n) % s.gwidth g ∉ ps → r.v = t.v.set d (t.reg a)) ∧
    (∀ d a n (j : Nat), s.laneOp g i = .pickSub d a n → ((j : Nat) : Int) = ((i : Int) - n) % (s.gwidth g : Int) → j ∉ ps →
      r.v = t.v.set d (t.reg a)) ∧
    (∀ d a k u, s.laneOp g i = .pickR d a k → (t.reg k).toNat ∈ ps → s.thread? (memberOf g (t.reg k).toNat) = some u →
      r.v = t.v.set d (u.reg (s.laneOp g (t.reg k).toNat).source)) ∧
    (∀ d a n u, s.laneOp g i = .pickXor d a n → i ^^^ n ∈ ps → s.thread? (memberOf g (i ^^^ n)) = some u →
      r.v = t.v.set d (u.reg (s.laneOp g (i ^^^ n)).source)) ∧
    (∀ d a n u, s.laneOp g i = .pickAdd d a n → (i + n) % s.gwidth g ∈ ps →
      s.thread? (memberOf g ((i + n) % s.gwidth g)) = some u →
      r.v = t.v.set d (u.reg (s.laneOp g ((i + n) % s.gwidth g)).source)) ∧
    (∀ d a n u (j : Nat), s.laneOp g i = .pickSub d a n → ((j : Nat) : Int) = ((i : Int) - n) % (s.gwidth g : Int) → j ∈ ps →
      s.thread? (memberOf g j) = some u → r.v = t.v.set d (u.reg (s.laneOp g j).source)) ∧
    (s.laneOp g i ≠ .fenceGrp → r = (s.laneEffect g ps (s.laneOp g) i t).retire (t.pc + 4)) ∧
    (s.laneOp g i = .fenceGrp → ∀ u v, u = { t with view := t.view.join (s.laneView g ps) } → v = s.fenceView (memberOf g i) u .grp →
      r = ({ u.ordered with view := v, fences := u.fences.filter (fun f => decide (f.1 ≠ .grp)) ++ [(.grp, v)] } : Thread).retire (t.pc + 4))

/-- R301: `census` gives the mask of the participants whose predicate holds; `agree.all`, `agree.any` and `agree.same` write their
condition bit from it, and the mask register where x = 1. -/
def Sys2Proof.Claims.LaneVotes : Prop :=
  ∀ (s : State) (g : GroupId) (ps : List Nat) (ops : Nat → XOp) (i : Nat) (t : Thread) (vote : Nat → Bool),
    (∀ j ∈ ps, ∃ u, s.thread? (memberOf g j) = some u ∧
      vote j = (u.cond ((ops j).predicate.extractLsb' 0 3) != (ops j).predicate.getLsbD 3)) →
    (∀ r p, ops i = .census r p → s.laneEffect g ps ops i t = t.setMask r (s.gwidth g) (maskOf (ps.filter vote))) ∧
    (∀ r c p, ops i = .agreeAll false r c p → s.laneEffect g ps ops i t = t.setCond c (ps.all vote)) ∧
    (∀ r c p, ops i = .agreeAny false r c p → s.laneEffect g ps ops i t = t.setCond c (ps.any vote)) ∧
    (∀ r c p, ops i = .agreeSame false r c p → s.laneEffect g ps ops i t = t.setCond c (ps.all vote || ps.all (fun j => !vote j))) ∧
    (∀ r c p, ops i = .agreeAll true r c p →
      s.laneEffect g ps ops i t = (t.setMask r (s.gwidth g) (maskOf (ps.filter vote))).setCond c (ps.all vote)) ∧
    (∀ r c p, ops i = .agreeAny true r c p →
      s.laneEffect g ps ops i t = (t.setMask r (s.gwidth g) (maskOf (ps.filter vote))).setCond c (ps.any vote)) ∧
    (∀ r c p, ops i = .agreeSame true r c p →
      s.laneEffect g ps ops i t
        = (t.setMask r (s.gwidth g) (maskOf (ps.filter vote))).setCond c (ps.all vote || ps.all (fun j => !vote j)))

/-- R229, R242, R301: `comb` gives every participant the sum or an extremum over the set, `scan.add` the sum up to its own member, and
`kin` the mask of the members that hold the same word or pair. -/
def Sys2Proof.Claims.LaneReductions : Prop :=
  ∀ (s : State) (g : GroupId) (ps : List Nat) (ops : Nat → XOp) (i : Nat) (t : Thread) (value : Nat → Word), i ∈ ps →
    (∀ j ∈ ps, ∃ u, s.thread? (memberOf g j) = some u ∧ value j = u.reg (ops j).source) →
    (∀ d a k, ops i = .combAdd d a k → k ≠ 1 → s.laneEffect g ps ops i t = t.setReg d (ps.map value).sum) ∧
    (∀ d a k, ops i = .scanAdd d a k → k ≠ 1 →
      s.laneEffect g ps ops i t = t.setReg d ((ps.filter (fun j => decide (j ≤ i))).map value).sum) ∧
    (∀ d a, ops i = .combAdd d a 1 →
      s.laneEffect g ps ops i t = t.setReg d (if ps.length = 1 then soleSingle (value i) else tree 7 (ps.map value))) ∧
    (∀ d a, ops i = .combMin d a 0 →
      ∃ j ∈ ps, s.laneEffect g ps ops i t = t.setReg d (value j) ∧ ∀ k ∈ ps, (value j).toInt ≤ (value k).toInt) ∧
    (∀ d a, ops i = .combMax d a 0 →
      ∃ j ∈ ps, s.laneEffect g ps ops i t = t.setReg d (value j) ∧ ∀ k ∈ ps, (value k).toInt ≤ (value j).toInt) ∧
    (∀ d a, ops i = .combMin d a 1 →
      ∃ j ∈ ps, s.laneEffect g ps ops i t = t.setReg d (value j) ∧ ∀ k ∈ ps, (value j).toNat ≤ (value k).toNat) ∧
    (∀ d a, ops i = .combMax d a 1 →
      ∃ j ∈ ps, s.laneEffect g ps ops i t = t.setReg d (value j) ∧ ∀ k ∈ ps, (value k).toNat ≤ (value j).toNat) ∧
    (∀ d a first rest, ps.map value = first :: rest →
      (ops i = .combMin d a 2 → s.laneEffect g ps ops i t
        = t.setReg d (rest.foldl (code32 fminCode) (code32 fminCode first first))) ∧
      (ops i = .combMax d a 2 → s.laneEffect g ps ops i t
        = t.setReg d (rest.foldl (code32 fmaxCode) (code32 fmaxCode first first)))) ∧
    (∀ d a l, ops i = .scanAdd d a 1 → l = (ps.filter (fun j => decide (j ≤ i))).map value →
      s.laneEffect g ps ops i t = t.setReg d (if l.length = 1 then soleSingle (value i) else tree 7 l)) ∧
    (∀ r a, ops i = .kin r a false →
      s.laneEffect g ps ops i t = t.setMask r (s.gwidth g) (maskOf (ps.filter (fun j => value j == value i)))) ∧
    (∀ r a (wide : Nat → Dword), ops i = .kin r a true →
      (∀ j ∈ ps, ∃ u, s.thread? (memberOf g j) = some u ∧ wide j = u.pair (ops j).source) →
      s.laneEffect g ps ops i t = t.setMask r (s.gwidth g) (maskOf (ps.filter (fun j => wide j == wide i))))

/-! ### Memory instructions -/

/-- R152, R257, R309 to R313: a load or store of a shared space computes its address, takes the next operand-log entry with its
size, order, scope and operands, and retires; the access itself follows. -/
def Sys2Proof.Claims.SharedAccesses : Prop :=
  (∀ i space o d a f, SharedLoad i space o d a f →
    ∀ s v word n addr k c1 c2, encode? i = some word → Issues s word false v → Sized (HintSet.of v.hints) o n →
      opIllegal space o = false → cacheBad (HintSet.of v.hints) (decide (o = 7)) = false →
      Addressed space a f n (begin s v word (memAccepts space)) addr c1 →
      dstDeferred d (max 1 (n / 4)) (max 1 (n / 4)) c1 = (k, c2) → Clean c2 →
      AddressOk s space addr n (decide (o = 5 ∨ o = 6)) → Room v →
      exec i s = .next ((logged c2 (.load space addr n (if o = 5 ∨ o = 6 then .acq else if o = 7 then .nt else .plain)
        ((HintSet.of v.hints).scopeOr (spaceScope space)) k)).retired v.stepping)) ∧
  (∀ i space o d a f, SharedStore i space o d a f →
    ∀ s v word n addr x c1 c2, encode? i = some word → Issues s word false v → Sized (HintSet.of v.hints) o n →
      opIllegal space o = false → cacheBad (HintSet.of v.hints) (decide (o = 7)) = false →
      Addressed space a f n (begin s v word (memAccepts space)) addr c1 → srcSized d n c1 = (x, c2) → Clean c2 →
      AddressOk s space addr n (decide (o = 5 ∨ o = 6)) → Room v →
      exec i s = .next ((logged c2 (.store space addr n (if o = 5 ∨ o = 6 then .rel else if o = 7 then .nt else .plain)
        ((HintSet.of v.hints).scopeOr (spaceScope space)) x)).retired v.stepping))

/-- R125, R157, R309, R312: a lane load reads its bytes of the thread's own slice and a lane store writes them, at once. -/
def Sys2Proof.Claims.LaneAccesses : Prop :=
  (∀ s v w o d a f n addr l c1 c2, Issues s (Enc.ldLn w o d a f) false v → Sized (HintSet.of v.hints) o n → o.toNat < 5 →
    Addressed .ln a f n (begin s v (Enc.ldLn w o d a f) .immOnly) addr c1 → dstSized d n c1 = (l, c2) → Clean c2 →
    AddressOk s .ln addr n false → c2.laneHeld addr n = false →
    exec (.ldLn w o d a f) s
      = .next ((wrSized l n (s.read (laneBase s.cur.core v.lane v.slot + addr.toNat) n) c2).2.retired v.stepping)) ∧
  (∀ s v w o d a f n addr x c1 c2, Issues s (Enc.stLn w o d a f) false v → Sized (HintSet.of v.hints) o n → o.toNat < 5 →
    Addressed .ln a f n (begin s v (Enc.stLn w o d a f) .immOnly) addr c1 → srcSized d n c1 = (x, c2) → Clean c2 →
    AddressOk s .ln addr n false → c2.laneHeld addr n = false →
    exec (.stLn w o d a f) s
      = .next (({ c2 with
          s := s.storeFrom (s.originOf s.cur none false) (laneBase s.cur.core v.lane v.slot + addr.toNat) (natBytes n x) } : Ctx).retired
            v.stepping))

/-- R125, R312: a lane store changes no byte of memory but its own n bytes of the thread's slice. -/
def Sys2Proof.Claims.LaneStoreFrame : Prop :=
  ∀ s v w o d a f n addr x c1 c2, Canonical s → Issues s (Enc.stLn w o d a f) false v → v.stepping = false →
    Sized (HintSet.of v.hints) o n → o.toNat < 5 →
    Addressed .ln a f n (begin s v (Enc.stLn w o d a f) .immOnly) addr c1 → srcSized d n c1 = (x, c2) → Clean c2 →
    AddressOk s .ln addr n false → c2.laneHeld addr n = false →
    ∃ t, exec (.stLn w o d a f) s = .next t ∧
      (∀ p, p < laneBase s.cur.core v.lane v.slot + addr.toNat ∨ laneBase s.cur.core v.lane v.slot + addr.toNat + n ≤ p →
        Memory.get t.mem p = Memory.get s.mem p) ∧
      t.read (laneBase s.cur.core v.lane v.slot + addr.toNat) n = x % 256 ^ n ∧
      (∀ id, id ≠ s.cur → t.thread? id = s.thread? id) ∧ t.teams = s.teams ∧ t.groups = s.groups ∧ t.cores = s.cores

/-- R152, R258, R315, R316: an atomic resolves its address and its register block or data, takes an operand-log entry and retires;
without a return value only `cas` needs a block. -/
def Obligations.Atomics : Prop :=
  ∀ i op sc z r d a, Atomic i op sc z r d a →
  ∀ s v word k n c1, encode? i = some word → Issues s word false v → cacheBad (HintSet.of v.hints) false = false →
    block a 2 2 (begin s v word { Accepts.nothing with cache := true }) = (k, c1) →
    n = (if z = 1 then 8 else 4) →
    ∀ scope, Scope.ofCode sc = some scope →
    AddressOk s .gl (c1.th.pair k) n true → Room v →
    (∀ m e c2, m = (if z = 1 then 2 else 1) * (if op = .cas then 2 else 1) → (r = 1 ∨ op = .cas) →
      (if r = 1 then dstDeferred d m m c1 else block d m m c1) = (e, c2) → Clean c2 →
      exec i s = .next ((logged c2 (.atom op (c1.th.pair k) (decide (z = 1)) scope (decide (r = 1)) e
        (c2.th.regsValue e m % 256 ^ n) (c2.th.regsValue e m / 256 ^ n))).retired v.stepping)) ∧
    (∀ x c2, r = 0 → op ≠ .cas → srcSized d n c1 = (x, c2) → Clean c2 →
      exec i s = .next ((logged c2 (.atom op (c1.th.pair k) (decide (z = 1)) scope false 0 x 0)).retired v.stepping))

/-- R311, R315: a misaligned address of a load or store of a shared space outside `.gl`, of an ordered one in `.gl`, and of an atomic with or
without return, raises misaligned with the address, and nothing is accessed. -/
def Sys2Proof.Claims.MisalignedAccess : Prop :=
  (∀ i space o d a f, SharedLoad i space o d a f →
    ∀ s v word n addr k c1 c2, encode? i = some word → Issues s word false v → Sized (HintSet.of v.hints) o n →
      opIllegal space o = false → cacheBad (HintSet.of v.hints) (decide (o = 7)) = false →
      Addressed space a f n (begin s v word (memAccepts space)) addr c1 →
      dstDeferred d (max 1 (n / 4)) (max 1 (n / 4)) c1 = (k, c2) → Clean c2 →
      (space = .gl → (o = 5 ∨ o = 6) ∧ addr.msb = false) →
      addr.toNat % n ≠ 0 → v.log = [] → s.deliver s.cur v = none →
      exec i s = .next (s.trap s.cur v Cause.misaligned.code addr)) ∧
  (∀ i space o d a f, SharedStore i space o d a f →
    ∀ s v word n addr x c1 c2, encode? i = some word → Issues s word false v → Sized (HintSet.of v.hints) o n →
      opIllegal space o = false → cacheBad (HintSet.of v.hints) (decide (o = 7)) = false →
      Addressed space a f n (begin s v word (memAccepts space)) addr c1 → srcSized d n c1 = (x, c2) → Clean c2 →
      (space = .gl → (o = 5 ∨ o = 6) ∧ addr.msb = false) →
      addr.toNat % n ≠ 0 → v.log = [] → s.deliver s.cur v = none →
      exec i s = .next (s.trap s.cur v Cause.misaligned.code addr)) ∧
  (∀ i op sc z r d a, Atomic i op sc z r d a →
    ∀ s v word k n c1 m c2, encode? i = some word → Issues s word false v → cacheBad (HintSet.of v.hints) false = false →
      block a 2 2 (begin s v word { Accepts.nothing with cache := true }) = (k, c1) → n = (if z = 1 then 8 else 4) →
      (∃ scope, Scope.ofCode sc = some scope) → m = (if z = 1 then 2 else 1) * (if op = .cas then 2 else 1) →
      ((r = 1 ∧ ∃ e, dstDeferred d m m c1 = (e, c2)) ∨ (r = 0 ∧ op = .cas ∧ ∃ e, block d m m c1 = (e, c2)) ∨
        (r = 0 ∧ op ≠ .cas ∧ ∃ x, srcSized d n c1 = (x, c2))) →
      Clean c2 → (c1.th.pair k).msb = false → (c1.th.pair k).toNat % n ≠ 0 → v.log = [] → s.deliver s.cur v = none →
      exec i s = .next (s.trap s.cur v Cause.misaligned.code (c1.th.pair k)))

/-- R188, R198, R310, R319 to R322: `fence` waits until the thread's earlier accesses are done and its release holds, then retires as
an acquire for its earlier loads and a release for its later stores; `drain.nt` waits until the thread's non-temporal stores are performed; each
starts the flushes it still needs. `pflush` of selfrank only retires, and one of a pod peer starts its flush once the earlier stores to it have
left, and waits. -/
def Obligations.FencesAndDrains : Prop :=
  (∀ s v w scope p, Issues s (Enc.fence w) true v → Clean (begin s v (Enc.fence w) .scopeOnly) →
    scope = (HintSet.of v.hints).scopeOr .dev → p = (s.pardon s.cur).setThread s.cur { v with wait := .fence scope s.stamp } → GoesOn p →
    (p.doneBefore s.cur s.stamp = true → p.releaseReady s.stamp scope (some s.cur) = true → NoFlush p →
      exec (.fence w) s = .next ((((acquires p scope).passFence s.cur scope).pardon s.cur).complete s.cur)) ∧
    (p.doneBefore s.cur s.stamp = true → p.releaseReady s.stamp scope (some s.cur) = true → ¬ NoFlush p → exec (.fence w) s = .next p) ∧
    (p.doneBefore s.cur s.stamp = true → p.releaseReady s.stamp scope (some s.cur) = false →
      exec (.fence w) s = .next (p.pursueRelease s.stamp scope (s.cur, 0))) ∧
    (p.doneBefore s.cur s.stamp = false → exec (.fence w) s = .next (p.pursue s.cur s.stamp))) ∧
  (∀ s v w p, Issues s (Enc.drainNt w) true v → Clean (begin s v (Enc.drainNt w) .nothing) →
    p = (s.pardon s.cur).setThread s.cur { v with wait := .drain } → GoesOn p →
    (s.buffer.any (fun b => decide (b.thread = s.cur) && b.access.nonTemporal) = true → exec (.drainNt w) s = .next p) ∧
    (s.buffer.any (fun b => decide (b.thread = s.cur) && b.access.nonTemporal) = false →
      (∀ t u, p.awaited s.cur s.stamp true = t :: u →
        exec (.drainNt w) s = .next (p.flushMembers ((t :: u).map (fun x => x.member)) (s.cur, 0))) ∧
      (p.awaited s.cur s.stamp true = [] → s.net.messages.any (fun m => m.unacked s.cur s.stamp true) = false → NoFlush p →
        exec (.drainNt w) s = .next (((p.setThread s.cur { v with
          wait := .drain, wrote := max v.wrote (lastWrite (s.agent s.cur) 0 s.hist) }).pardon s.cur).complete s.cur)))) ∧
  (∀ s v w a x c1, Issues s (Enc.pflush w a) true v → src a (begin s v (Enc.pflush w a) .nothing) = (x, c1) → Clean c1 →
    x.extractLsb' 17 15 = 0 →
    ((x.extractLsb' 0 17).toNat = s.selfrank → exec (.pflush w a) s = .next (c1.retired v.stepping)) ∧
    (∀ m p, (x.extractLsb' 0 17).toNat ≠ s.selfrank →
      s.rankCheck (s.asidOf s.cur.teamId) (x.extractLsb' 0 17).toNat = some (.pod m) →
      p = s.setThread s.cur { c1.th with wait := .pflush (x.extractLsb' 0 17).toNat m s.stamp false } →
      exec (.pflush w a) s = .next (p.fenceStep s.cur) ∧
      (GoesOn p → p.allSent s.stamp (fun q => match q with
          | .pod _ k _ _ => decide (k = m)
          | _ => false) = true → p.podWaiting s.stamp (some m) = false → p.net.flushes.any (fun f => f.member == m) = false →
        p.fenceStep s.cur = ((p.startFlush (x.extractLsb' 0 17).toNat m).useFlush m (s.cur, 0)).setThread s.cur { c1.th with
          wait := .pflush (x.extractLsb' 0 17).toNat m s.stamp true })))

/-- R204, R318, R323: `cwait` retires once its counter is at or above n and waits otherwise; `cadd` and `cpoll` take operand-log
entries. -/
def Sys2Proof.Claims.CounterInstructions : Prop :=
  (∀ s v w c n x y c1 c2 scope, Issues s (Enc.cwait w c n) true v → src c (begin s v (Enc.cwait w c n) .scopeOnly) = (x, c1) →
    srcP n c1 = (y, c2) → Clean c2 → x.extractLsb' 16 16 = 0 → scope = (HintSet.of v.hints).scopeOr .dev →
    ∀ p, p = s.setThread s.cur { c2.th with wait := .counter (x.extractLsb' 0 16).toNat y scope } → GoesOn p →
    (y.toNat ≤ s.ctrValue (x.extractLsb' 0 16).toNat →
      exec (.cwait w c n) s = .next (((acquires p scope).sees s.cur
        ((acquires p scope).ctrView s.cur (x.extractLsb' 0 16).toNat (waitScope scope))).complete s.cur)) ∧
    (s.ctrValue (x.extractLsb' 0 16).toNat < y.toNat → exec (.cwait w c n) s = .next p)) ∧
  (∀ s v w c n x y c1 c2, Issues s (Enc.cadd w c n) false v → src c (begin s v (Enc.cadd w c n) .scopeOnly) = (x, c1) →
    srcP n c1 = (y, c2) → Clean c2 → Room v →
    x.extractLsb' 16 16 = 0 →
    exec (.cadd w c n) s = .next ((logged c2 (.cadd (x.extractLsb' 0 16).toNat y
      ((HintSet.of v.hints).scopeOr .dev))).retired v.stepping)) ∧
  (∀ s v w d c x k c1 c2, Issues s (Enc.cpoll w d c) false v → src c (begin s v (Enc.cpoll w d c) .nothing) = (x, c1) →
    x.extractLsb' 16 16 = 0 → dstDeferred d 2 2 c1 = (k, c2) → Clean c2 → Room v →
    exec (.cpoll w d c) s = .next ((logged c2 (.cpoll (x.extractLsb' 0 16).toNat k)).retired v.stepping))

/-- R74, R324, R325: `wsig` and `wred` check their register blocks and take operand-log entries; `wred` advances the generation of
its group. -/
def Sys2Proof.Claims.SignalsAndContributions : Prop :=
  (∀ s v w a k c1 (source dest : Dword), Issues s (Enc.wsig w a) false v → block a 8 8 (begin s v (Enc.wsig w a) .nothing) = (k, c1) →
    Clean c1 → Room v → source = c1.th.reg (k + 1) ++ c1.th.reg k → dest = c1.th.reg (k + 3) ++ c1.th.reg (k + 2) →
    (c1.th.reg (k + 5)).extractLsb' 16 16 = 0 → (c1.th.reg (k + 6)).extractLsb' 17 15 = 0 → c1.th.reg (k + 7) = 0 →
    0 < (c1.th.reg (k + 4)).toNat → (c1.th.reg (k + 4)).toNat ≤ 2 ^ 24 → source.extractLsb' 48 16 = 0 → dest.msb = true →
    s.straddles dest (c1.th.reg (k + 4)).toNat = false →
    s.globalOk (s.asidOf s.cur.teamId) dest (c1.th.reg (k + 4)).toNat = true →
    exec (.wsig w a) s = .next ((logged c1 (.wsig source dest (c1.th.reg (k + 4)).toNat
      ((c1.th.reg (k + 5)).extractLsb' 0 16).toNat
      (if (c1.th.reg (k + 6)).getLsbD 16 then some ((c1.th.reg (k + 6)).extractLsb' 0 16).toNat else none))).retired
        v.stepping)) ∧
  (∀ s v w a k c1 (source : Dword) gid e, Issues s (Enc.wred w a) false v → block a 4 4 (begin s v (Enc.wred w a) .nothing) = (k, c1) →
    Clean c1 → Room v → source = c1.th.reg (k + 1) ++ c1.th.reg k → gid = ((c1.th.reg (k + 2)).extractLsb' 0 16).toNat →
    e = s.groupEntry gid → (c1.th.reg (k + 2)).extractLsb' 16 16 = 0 → (c1.th.reg (k + 3)).extractLsb' 17 15 = 0 →
    source.toNat % 4 = 0 → source.extractLsb' 48 16 = 0 → bits e 17 17 = 1 →
    (s.rankCheck (s.asidOf s.cur.teamId) (bits e 97 81)).isSome = true →
    stripeOk (s.stripe (bits e 165 160)) = true →
    s.straddles (BitVec.ofNat 64 (gAddr (bits e 97 81) (bits e 165 160) (bits e 231 192))) (4 * bits e 151 128) = false →
    ∀ c2, c2 = logged c1 (.wred source gid (BitVec.ofNat 8 (bits e 25 18))
      (if (c1.th.reg (k + 3)).getLsbD 16 then some ((c1.th.reg (k + 3)).extractLsb' 0 16).toNat else none)) →
    exec (.wred w a) s = .next (({ c2 with s := c2.s.advanceGen gid e } : Ctx).retired v.stepping))
end

section
open Sys2Proof Sys2Proof.Machine Sys2Proof.Claims

/-! ### Turnouts, barriers and tiles -/

/-- R180, R304: `rsend` parks its member at the slot with its register block, `rrecv` takes an operand-log entry and retires; the
team's turnouts move on at once. -/
def Sys2Proof.Claims.TurnoutInstructions : Prop :=
  (∀ s v w slot b n k c1, Issues s (Enc.rsend w slot b n) true v →
    block b 1 (n.toNat + 1) (begin s v (Enc.rsend w slot b n) .nothing) = (k, c1) → Clean c1 →
    exec (.rsend w slot b n) s = .next ((s.setThread s.cur { c1.th with
      wait := .send (Enc.rsend w slot b n) slot.toNat k (n.toNat + 1) }).turnouts s.cur.teamId)) ∧
  (∀ s v w slot b n k c1, Issues s (Enc.rrecv w slot b n) false v →
    dstDeferred b 1 (n.toNat + 1) (begin s v (Enc.rrecv w slot b n) .nothing) = (k, c1) → Clean c1 → Room v →
    exec (.rrecv w slot b n) s
      = .next (((logged c1 (.rrecv slot.toNat k (n.toNat + 1))).retired v.stepping).turnouts s.cur.teamId))

/-- R180, R305: where the groups `a` and `b` are the two sides of a slot and name one count, the receiving members' entries return
the registers of the sending members with their numbers, or nothing where the sender has none of that number; the sending members retire where no
halt, stop or step trap keeps them, and the slot is free. One group can be both sides (log entry 86 keeps its own `rrecv` in its log until then). -/
def Sys2Proof.Claims.TurnoutTransfer : Prop :=
  ∀ (s : State) (id : TeamId) (slot : Nat) (team : Team) (v : Turnout) (a b : Nat) (n : Nat),
    s.team? id = some team → team.turnouts[slot]? = some v →
    s.turnoutSide id v.sender (fun g => s.sendPresent g slot) = some a →
    s.turnoutSide id v.receiver (fun g => s.recvPresent g slot) = some b →
    (∀ m ∈ s.turnoutCounts (groupOf id a) (groupOf id b) slot, m = n) →
    (∀ i ∈ s.members (groupOf id a), ∀ t, s.thread? (memberOf (groupOf id a) i) = some t →
      t.stepping = false ∧ s.staysPut (memberOf (groupOf id a) i) t = false) →
    (a ≠ b → ∀ i t w k, i ∈ s.members (groupOf id a) → s.thread? (memberOf (groupOf id a) i) = some t → t.wait = .send w slot k n →
      (s.turnoutStep id slot).thread? (memberOf (groupOf id a) i) = some (t.retire (t.pc + 4))) ∧
    (∀ i t e base m values, i ∈ s.members (groupOf id b) → s.thread? (memberOf (groupOf id b) i) = some t →
      s.recvOf (memberOf (groupOf id b) i) slot = some (e, base, m) →
      ((s.sendOf (memberOf (groupOf id a) i) slot = none ∧ values = []) ∨
        ∃ w k u, s.sendOf (memberOf (groupOf id a) i) slot = some (w, k, n) ∧ s.thread? (memberOf (groupOf id a) i) = some u ∧
          values = (List.range n).map (fun j => (base + j, u.reg (k + j)))) →
      (a ≠ b → (s.turnoutStep id slot).thread? (memberOf (groupOf id b) i) = some (t.setEntry { e with state := .returned values })) ∧
      (a = b → (s.turnoutStep id slot).thread? (memberOf (groupOf id b) i)
        = some ((t.setEntry { e with state := .returned values }).retire (t.pc + 4)))) ∧
    ((s.turnoutStep id slot).team? id).bind (fun t => t.turnouts[slot]?) = some { sender := none, receiver := none }

/-- R306, R307: a member that reaches a barrier for the first time in a phase is noted with its n, and parks where the instruction
is `bar` or `bar.cl`; the phase completes where that makes it full and the arrived members' accesses are done. -/
def Sys2Proof.Claims.BarrierInstructions : Prop :=
  ∀ s v i word sw cl b n park, encode? i = some word →
    ((∃ w m, i = .bar w b m ∧ cl = false ∧ n = m.toNat ∧ park = some (Wait.bar b.toNat) ∧ sw = true) ∨
     (∃ w, i = .barCl w b ∧ cl = true ∧ n = 0 ∧ park = some (Wait.barCl b.toNat) ∧ sw = true) ∨
     (∃ w m, i = .arrive w b m 0 ∧ cl = false ∧ n = m.toNat ∧ park = none ∧ sw = false) ∨
     (∃ w, i = .arrive w b 0 1 ∧ cl = true ∧ n = 0 ∧ park = none ∧ sw = false)) →
    Issues s word sw v → Clean (begin s v word .nothing) →
    ∀ team x y p, s.team? s.cur.teamId = some team → n ≤ team.groups → s.barrier? s.cur.teamId cl b.toNat = some x →
    x.reached.any (fun r => decide (r.1 = s.cur)) = false → x.full (s.barrierGroups s.cur.teamId cl) = false →
    (x.n = none ∨ x.n = some n) → y = { x with n := some n, reached := x.reached ++ [(s.cur, s.stamp)] } →
    (∀ wt, park = some wt →
      p = ((s.pardon s.cur).setBarrier s.cur.teamId cl b.toNat y).setThread s.cur { v with wait := wt } →
      exec i s = .next (p.barrierStep s.cur.teamId cl b.toNat)) ∧
    (park = none →
      p = ({ begin s v word .nothing with s := (s.pardon s.cur).setBarrier s.cur.teamId cl b.toNat y } : Ctx).retired v.stepping →
      exec i s = .next (p.barrierStep s.cur.teamId cl b.toNat))

/-- R307: a second arrival in one phase waits for the next phase. -/
def Sys2Proof.Claims.BarrierSecondArrival : Prop :=
  ∀ s v w b m x team, Issues s (Enc.bar w b m) true v → Clean (begin s v (Enc.bar w b m) .nothing) →
    s.team? s.cur.teamId = some team → m.toNat ≤ team.groups → s.barrier? s.cur.teamId false b.toNat = some x →
    x.reached.any (fun r => decide (r.1 = s.cur)) = true →
    exec (.bar w b m) s = .next (s.setThread s.cur { v with wait := .barNext b.toNat false })

/-- R307: where a phase of a team's barrier is full and its arrivals are done, the parked members of the arrived groups, which no halt, stop
or step trap keeps, go on to the word after their `bar`, having seen what the arrived members did; the barrier holds no arrivals. -/
def Sys2Proof.Claims.BarrierPhase : Prop :=
  ∀ (s : State) (id : TeamId) (k : Nat) (b b' : Barrier), s.barrier? id false k = some b → b.n.isSome = true →
    b' = s.noteArrivals b (s.barrierGroups id false) → b'.full (s.barrierGroups id false) = true → s.arrivalsDone b' = true →
    (s.threads.map (fun p => p.1)).Nodup →
    (∀ i t, s.thread? i = some t → i.teamId = id → t.wait = .bar k → i.group ∈ b'.arrived →
      t.stepping = false ∧ s.staysPut i t = false) →
    (∀ i t, s.thread? i = some t → i.teamId = id → t.wait = .bar k → i.group ∈ b'.arrived →
      (s.barrierStep id false k).thread? i = some { t.retire (t.pc + 4) with view := t.view.join (phaseView s b') }) ∧
    (∀ i, i.teamId ≠ id → (s.barrierStep id false k).thread? i = s.thread? i) ∧
    (∀ x, (s.barrierStep id false k).barrier? id false k = some x → x.arrived = [])

/-- R167 to R169, R328, R329: `tdef` defines an idle tile of the team from its packed value, `tfree` empties a defined one, and
`tstate` writes state, valid, error and phase; a tile beyond the team's, or one not defined, raises undefined-tile; a busy tile keeps
`tdef` and `tfree` waiting. -/
def Obligations.TileInstructions : Prop :=
  (∀ s v i word c1 value t, encode? i = some word → Issues s word false v →
    ((∃ w f, i = .tdef w t f ∧ c1 = begin s v word .immOnly ∧ value = (HintSet.of v.hints).immU f.toNat 11) ∨
     (∃ w a x, i = .tdefReg w t a ∧ src a (begin s v word .nothing) = (x, c1) ∧ value = x.toNat)) →
    Clean c1 → value < 2 ^ 26 → s.inRange s.cur .co (64 * (value % 8192)) (64 * (value / 8192 + 1)) = true →
    (t.toNat < s.tileCount s.cur.teamId → s.tileBusy s.cur.teamId t.toNat = false →
      exec i s = .next (({ c1 with s := (s.modTile s.cur.teamId t.toNat (fun _ =>
        { valid := true, state := .empty, base := 64 * (value % 8192), bytes := 64 * (value / 8192 + 1), bar := 0 })).forgetCounts (
          .tile s.cur.teamId t.toNat) } : Ctx).retired v.stepping)) ∧
    (t.toNat < s.tileCount s.cur.teamId → s.tileBusy s.cur.teamId t.toNat = true →
      exec i s = .next (s.setThread s.cur { v with wait := .tile t.toNat false })) ∧
    (s.tileCount s.cur.teamId ≤ t.toNat → v.log = [] → s.deliver s.cur v = none →
      exec i s = .next (s.trap s.cur v Cause.undefinedTile.code (t.setWidth 64)))) ∧
  (∀ s v w t x, Issues s (Enc.tfree w t) false v → Clean (begin s v (Enc.tfree w t) .nothing) →
    s.tile? s.cur.teamId t.toNat = some x →
    (x.valid = true → s.tileBusy s.cur.teamId t.toNat = false →
      exec (.tfree w t) s = .next (({ begin s v (Enc.tfree w t) .nothing with
        s := s.modTile s.cur.teamId t.toNat (fun y => { y with state := .empty }) } : Ctx).retired v.stepping)) ∧
    (x.valid = false → v.log = [] → s.deliver s.cur v = none →
      exec (.tfree w t) s = .next (s.trap s.cur v Cause.undefinedTile.code (t.setWidth 64)))) ∧
  (∀ s v w t d l c1 x, Issues s (Enc.tstate w t d) false v → dst d (begin s v (Enc.tstate w t d) .nothing) = (l, c1) → Clean c1 →
    s.tile? s.cur.teamId t.toNat = some x →
    exec (.tstate w t d) s = .next ((wr l (if x.valid then
      BitVec.setWidth 32 (x.bar.extractLsb' 63 1 ++ x.bar.extractLsb' 62 1 ++ 1#1 ++ BitVec.ofNat 2 x.state.code) else 0) c1).2.retired
        v.stepping))

/-- R171, R172, R199, R330: `barm` takes an operand-log entry for its barrier object or tile; `bwait` retires when the object's phase
differs from bit 0 of b, having seen what the phases that are over counted, and waits otherwise. -/
def Sys2Proof.Claims.BarrierObjectInstructions : Prop :=
  (∀ s v w a b k c1 e c2, Issues s (Enc.barm w a b) false v → block a 1 1 (begin s v (Enc.barm w a b) .nothing) = (k, c1) →
    src b c1 = (e, c2) → Clean c1 → Clean c2 → (c1.th.reg k).toNat % 8 = 0 →
    s.inRange s.cur .co (c1.th.reg k).toNat 8 = true → Room v →
    exec (.barm w a b) s
      = .next ((logged c2 (.barm (.object s.cur.teamId (c1.th.reg k).toNat) e)).retired v.stepping)) ∧
  (∀ s v w t b e c1 x, Issues s (Enc.barmT w t b) false v → src b (begin s v (Enc.barmT w t b) .nothing) = (e, c1) → Clean c1 →
    t.toNat < s.tileCount s.cur.teamId → s.tile? s.cur.teamId t.toNat = some x → x.valid = true → Room v →
    exec (.barmT w t b) s = .next ((logged c1 (.barm (.tile s.cur.teamId t.toNat) e)).retired v.stepping)) ∧
  (∀ s v w a b k c1 y c2 p, Issues s (Enc.bwait w a b) true v → block a 1 1 (begin s v (Enc.bwait w a b) .nothing) = (k, c1) →
    src b c1 = (y, c2) → Clean c1 → Clean c2 → (c1.th.reg k).toNat % 8 = 0 →
    s.inRange s.cur .co (c1.th.reg k).toNat 8 = true →
    p = s.setThread s.cur { c2.th with wait := .bwait (.object s.cur.teamId (c1.th.reg k).toNat) (y.getLsbD 0) } →
    ((s.barValue (.object s.cur.teamId (c1.th.reg k).toNat)).getLsbD 63 ≠ y.getLsbD 0 →
      exec (.bwait w a b) s
        = .next ((p.seesCounted s.cur (.object s.cur.teamId (c1.th.reg k).toNat)).complete s.cur)) ∧
    ((s.barValue (.object s.cur.teamId (c1.th.reg k).toNat)).getLsbD 63 = y.getLsbD 0 → exec (.bwait w a b) s = .next p)) ∧
  (∀ s v w t b y c1 x p, Issues s (Enc.bwaitT w t b) true v → src b (begin s v (Enc.bwaitT w t b) .nothing) = (y, c1) →
    Clean c1 → t.toNat < s.tileCount s.cur.teamId → s.tile? s.cur.teamId t.toNat = some x → x.valid = true →
    p = s.setThread s.cur { c1.th with wait := .bwait (.tile s.cur.teamId t.toNat) (y.getLsbD 0) } →
    (x.bar.getLsbD 63 ≠ y.getLsbD 0 →
      exec (.bwaitT w t b) s = .next ((p.seesCounted s.cur (.tile s.cur.teamId t.toNat)).complete s.cur)) ∧
    (x.bar.getLsbD 63 = y.getLsbD 0 → exec (.bwaitT w t b) s = .next p))

/-- R172: an arrival or arm adds to the count modulo 2^40; the phase toggles exactly where the count becomes zero; the error bit
stays set once it is. -/
def Sys2Proof.Claims.BarrierObjectUpdate : Prop :=
  ∀ (v : Dword) (d : Int) (err : Bool),
    (barUpdate v d err).extractLsb' 0 40 = v.extractLsb' 0 40 + BitVec.ofInt 40 d ∧
    (barUpdate v d err).getLsbD 62 = (v.getLsbD 62 || err) ∧
    (barUpdate v d err).getLsbD 63
      = (if v.extractLsb' 0 40 + BitVec.ofInt 40 d = 0 then !v.getLsbD 63 else v.getLsbD 63) ∧
    (barUpdate v d err).extractLsb' 40 22 = v.extractLsb' 40 22
end

section
open Sys2Proof Sys2Proof.Machine Sys2Proof.Claims

/-! ### Engines and the matrix engine -/

/-- R331: `kick` with room for its batch queues the batch of n + 1 requests and parks; a misaligned block raises misaligned. R333: `chain`
with its accesses performed starts a legal chain, with its range where it owns one, or reports an illegal one on its barrier (which descriptor
fields make it illegal is the model's choice beside R178: log entry 46). -/
def Sys2Proof.Claims.CopyAndChainStarts : Prop :=
  (∀ s v w a n k c1 x, Issues s (Enc.kick w a n) true v → block a 1 1 (begin s v (Enc.kick w a n) .nothing) = (k, c1) → Clean c1 →
    x = c1.th.reg k →
    (x.toNat % 32 = 0 → s.inRange s.cur .co x.toNat (32 * (n.toNat + 1)) = true → (s.core s.cur.core).batches.length < 16 →
      exec (.kick w a n) s = .next ((({ s with stamp := s.stamp + 1 } : State).modCore s.cur.core (fun u => { u with
        batches := u.batches ++ [Batch.mk s.cur s.stamp x.toNat (n.toNat + 1) c1.th.kernel c1.th.sofar] })).setThread
          s.cur { c1.th with wait := .kick })) ∧
    (x.toNat % 32 ≠ 0 → v.log = [] → s.deliver s.cur v = none →
      exec (.kick w a n) s = .next (s.trap s.cur v Cause.misaligned.code (x.setWidth 64)))) ∧
  (∀ s v w a k c1 x ch, Issues s (Enc.chain w a) true v → block a 1 1 (begin s v (Enc.chain w a) .nothing) = (k, c1) → Clean c1 →
    x = c1.th.reg k → x.toNat % 128 = 0 → s.inRange s.cur .co x.toNat 128 = true → s.doneBefore s.cur s.stamp = true →
    ch = c1.chainAt x.toNat →
    (chainOk ch = true → s.canOwn s.cur.core (chainRange ch) = true →
      exec (.chain w a) s = .next (({ c1 with
        s := (({ s with nextId := ch.tag + 1, stamp := s.stamp + 1 } : State).modCore s.cur.core (fun u => { u with
          ranges := u.ranges ++ chainRange ch })).modCore s.cur.core (fun u => { u with chains := u.chains ++ [ch] }) } : Ctx).retired
            v.stepping)) ∧
    (chainOk ch = false →
      exec (.chain w a) s = .next (({ c1 with
        s := s.arriveAll (s.chainBars ch) (4 * descCount ch.desc) true .none } : Ctx).retired v.stepping)))

/-- R332: `task` places an entry with its tiles in the dataflow table: a copy request (kind 0), a chain (kind 1), or it signs the matrix
instruction of its word (kind 2), `mma`, `mldb`, `mzero` or `mst`; the last signer waits while the table is full. Which descriptors are legal
chains is log entry 46, the model's choice. -/
def Sys2Proof.Claims.TaskInstruction : Prop :=
  ∀ s v w a n c1, Issues s (Enc.task w a) true v → block a 4 4 (begin s v (Enc.task w a) .nothing) = (n, c1) → Clean c1 →
    (c1.th.reg n).extractLsb' 2 30 = 0 → (c1.th.reg (n + 3)).extractLsb' 13 19 = 0 →
    ∀ tiles : TaskTiles,
    tiles.inputs = ((List.range 4).filter (fun j => (c1.th.reg (n + 3)).getLsbD (9 + j))).map
      (fun j => ((c1.th.reg (n + 2)).extractLsb' (8 * j) 8).toNat) →
    tiles.out = (if (c1.th.reg (n + 3)).getLsbD 8 then some ((c1.th.reg (n + 3)).extractLsb' 0 8).toNat else none) →
    (∀ t ∈ tiles.inputs ++ tiles.out.toList, ∃ x, s.tile? s.cur.teamId t = some x ∧ x.valid = true) →
    ((c1.th.reg n).toNat = 0 → ∀ off r req, off = (c1.th.reg (n + 1)).toNat → off % 32 = 0 → s.inRange s.cur .co off 32 = true →
      (s.core s.cur.core).flow.length < 64 → s.doneBefore s.cur s.stamp = true → r = s.read (s.coPa s.cur.teamId off) 32 →
      (rqTileDst r = true → tiles.out = some (rqTile r)) → s.rqOk s.cur.teamId r = true →
      req = CopyReq.mk s.cur s.stamp (s.asidOf s.cur.teamId) c1.th.kernel r true (s.rqPieces r) (List.range (s.rqPieces r).length) false s.nextId
        c1.th.sofar →
      s.canOwn s.cur.core req.ranges = true →
      ∃ t, exec (.task w a) s = .next (({ c1 with s := t } : Ctx).retired v.stepping) ∧
        (t.core s.cur.core).flow = (s.core s.cur.core).flow ++ [FlowEntry.mk s.cur.teamId (.copy req) tiles false] ∧
        (t.core s.cur.core).ranges = (s.core s.cur.core).ranges ++ req.ranges ∧
        t.nextId = s.nextId + 1 ∧ t.stamp = s.stamp + 1 ∧ t.mem = s.mem ∧ t.threads = s.threads) ∧
    ((c1.th.reg n).toNat = 1 → ∀ off ch, off = (c1.th.reg (n + 1)).toNat → off % 128 = 0 → s.inRange s.cur .co off 128 = true →
      (s.core s.cur.core).flow.length < 64 → s.doneBefore s.cur s.stamp = true → ch = c1.chainAt off → chainOk ch = true →
      s.canOwn s.cur.core (chainRange ch) = true →
      ∃ t, exec (.task w a) s = .next (({ c1 with s := t } : Ctx).retired v.stepping) ∧
        (t.core s.cur.core).flow = (s.core s.cur.core).flow ++ [FlowEntry.mk s.cur.teamId (.chain ch) tiles false] ∧
        (t.core s.cur.core).ranges = (s.core s.cur.core).ranges ++ chainRange ch ∧
        t.nextId = ch.tag + 1 ∧ t.stamp = s.stamp + 1 ∧ t.mem = s.mem ∧ t.threads = s.threads) ∧
    ((c1.th.reg n).toNat = 2 → ∀ g op x y quad c2 team r pairs k after, TaskSigns s c1 tiles (c1.th.reg (n + 1)) g op x y quad c2 → Clean c2 →
      s.team? s.cur.teamId = some team → team.conv[g.toNat]? = some r → r.declared = some (pairs, k) →
      pairs.any (fun p => decide (p.1 = s.cur.grp) && p.2.getLsbD s.cur.mem) = true →
      r.sigs.any (fun z => decide (z.thread = s.cur)) = false →
      after = signed s g.toNat r (Enc.task w a) op x y c2.th (some quad) →
      (after.convTry s.cur.teamId g.toNat (some s.cur) = .waiting →
        (after.setSigned s.cur.teamId pairs (signing s r (Enc.task w a) op x y c2.th (some quad)) = false →
          exec (.task w a) s = .next (({ c2 with s := after } : Ctx).retired v.stepping)) ∧
        (after.setSigned s.cur.teamId pairs (signing s r (Enc.task w a) op x y c2.th (some quad)) = true →
          exec (.task w a) s = .next (s.setThread s.cur v))) ∧
      (∀ t, after.convTry s.cur.teamId g.toNat (some s.cur) = .issued t →
        exec (.task w a) s = .next (({ c2 with s := t } : Ctx).retired v.stepping)))

/-- R308: `gdef` declares a register without pending signatures: its set of groups and members is not empty, and it takes its groups, its
member mask, and its count (0: no limit); a pending signature raises illegal-matrix-configuration. -/
def Sys2Proof.Claims.ConvergenceDeclaration : Prop :=
  ∀ s v w g a n c1 team r, Issues s (Enc.gdef w g a) false v → block a 4 4 (begin s v (Enc.gdef w g a) .nothing) = (n, c1) →
    Clean c1 → s.team? s.cur.teamId = some team → team.conv[g.toNat]? = some r →
    (∃ i, i < 32 ∧ (c1.th.reg n).getLsbD i = true ∧
      (c1.th.reg (n + 3) ++ c1.th.reg (n + 2)).toNat % 2 ^ s.gwidth ⟨s.cur.core, s.cur.team, i⟩ ≠ 0) →
    (c1.th.reg n).toNat < 2 ^ team.groups → (c1.th.reg (n + 1)).extractLsb' 16 16 = 0 →
    (r.sigs = [] → exec (.gdef w g a) s = .next (({ c1 with s := s.setConv s.cur.teamId g.toNat (ConvReg.mk
      (some (((List.range 32).filter (fun i => (c1.th.reg n).getLsbD i)).map (fun i => (i, c1.th.reg (n + 3) ++ c1.th.reg (n + 2))),
        if (c1.th.reg (n + 1)).extractLsb' 0 16 = 0 then none else some ((c1.th.reg (n + 1)).extractLsb' 0 16).toNat)) [] none) } :
          Ctx).retired v.stepping)) ∧
    (r.sigs ≠ [] → v.log = [] → s.deliver s.cur v = none →
      exec (.gdef w g a) s = .next (s.trap s.cur v Cause.illegalMatrix.code ((Enc.gdef w g a).setWidth 64)))

/-- R135, R136: a member that has not signed yet signs and retires; where its signature lets the operation issue, it issues; where the
operation fails, it raises illegal-matrix-configuration; a second signature waits; a thread outside the set raises the cause. -/
def Sys2Proof.Claims.Signing : Prop :=
  ∀ s v i g op x y c word, SignsFor s v i g op x y c → encode? i = some word → Issues s word false v → Clean c →
  ∀ team r, s.team? s.cur.teamId = some team → team.conv[g.toNat]? = some r →
    (∀ pairs k, r.declared = some (pairs, k) → pairs.any (fun p => decide (p.1 = s.cur.grp) && p.2.getLsbD s.cur.mem) = true →
      (r.sigs.any (fun z => decide (z.thread = s.cur)) = false →
        ((signed s g.toNat r word op x y c.th none).convTry s.cur.teamId g.toNat (some s.cur) = .waiting →
          exec i s = .next (({ c with s := signed s g.toNat r word op x y c.th none } : Ctx).retired v.stepping)) ∧
        (∀ t, (signed s g.toNat r word op x y c.th none).convTry s.cur.teamId g.toNat (some s.cur) = .issued t →
          exec i s = .next (({ c with s := t } : Ctx).retired v.stepping)) ∧
        (∀ t, (signed s g.toNat r word op x y c.th none).convTry s.cur.teamId g.toNat (some s.cur) = .failed t →
          v.log = [] → s.deliver s.cur v = none →
          exec i s = .next (t.trap s.cur v Cause.illegalMatrix.code (word.setWidth 64)))) ∧
      (r.sigs.any (fun z => decide (z.thread = s.cur)) = true →
        exec i s = .next (s.setThread s.cur { v with wait := .signed g.toNat }))) ∧
    ((∀ pairs k, r.declared = some (pairs, k) → pairs.any (fun p => decide (p.1 = s.cur.grp) && p.2.getLsbD s.cur.mem) = false) →
      v.log = [] → s.deliver s.cur v = none →
      exec i s = .next (s.trap s.cur v Cause.illegalMatrix.code (word.setWidth 64)))

/-- R133, R135, R340: with every live member of the declared set signed, all with one operation other than `mmap` and `ssx`, no `task`, and
the checks passed, the operation enters the matrix engine's order behind the others; with a live member unsigned it waits. -/
def Sys2Proof.Claims.OperationIssue : Prop :=
  ∀ (s : State) (id : TeamId) (g : Nat) (cur : Option ThreadId) (team : Team) (r : ConvReg) pairs k x rest,
    s.team? id = some team → team.conv[g]? = some r → r.declared = some (pairs, k) → r.sigs = x :: rest → r.offered = none →
    ((∃ m ∈ s.setMembers id pairs, ∀ z ∈ r.sigs, z.thread ≠ m) → s.convTry id g cur = .waiting) ∧
    ((∀ m ∈ s.setMembers id pairs, ∃ z ∈ r.sigs, z.thread = m) → (∀ z ∈ r.sigs, z.op = x.op ∧ z.task = none) →
      (∀ o n u, x.op ≠ .mmap o n u) → (∀ o, x.op ≠ .ssx o) →
      team.opOk (s.pairLaunch id) (s.ssbOf id x.op) x.op (s.rows r.sigs).length = true →
      ∃ t op, s.convTry id g cur = .issued t ∧ (t.core id.core).matrix = (s.core id.core).matrix ++ [op] ∧ op.op = x.op ∧
        op.team = id ∧ op.number = (s.core id.core).issued ∧ (t.core id.core).issued = (s.core id.core).issued + 1 ∧
        op.signers = (s.rows r.sigs).map (fun z => z.thread))

/-- R183, R334, R339, R346: `cres` keeps a legal reservation record with its formats; `crel` frees a reservation that no operation
still to issue names and marks one that some do; `mrd` and a plain `ssq` take operand-log entries, and a waiting `ssq` retires once its solver is not
busy. -/
def Obligations.ReservationsAndResults : Prop :=
  (∀ s v w k a n c1 team r, Issues s (Enc.cres w k a) false v → block a 4 4 (begin s v (Enc.cres w k a) .nothing) = (n, c1) → Clean c1 →
    s.team? s.cur.teamId = some team → r = c1.th.regsValue n 4 → bits r 81 64 = 0 → bits r 111 98 = 0 → bits r 127 114 = 0 →
    bits r 31 0 % 256 = 0 → bits r 63 32 % 256 = 0 → bits r 63 32 ≠ 0 → bits r 31 0 + bits r 63 32 ≤ team.cistBytes →
    exec (.cres w k a) s = .next (({ c1 with s := s.modTeam s.cur.teamId (fun t => { t with resv := t.resv.set k.toNat (some
      (Reservation.mk r (c1.th.f.getD (bits r 86 84) 0) (c1.th.f.getD (bits r 89 87) 0) (c1.th.f.getD 6 0) none)) }) } : Ctx).retired
        v.stepping)) ∧
  (∀ s v w k team r, Issues s (Enc.crel w k) false v → Clean (begin s v (Enc.crel w k) .nothing) → s.team? s.cur.teamId = some team →
    team.resv[k.toNat]? = some (some r) → r.freeing = none →
    (s.naming s.cur.teamId k.toNat = [] →
      exec (.crel w k) s = .next (({ begin s v (Enc.crel w k) .nothing with
        s := s.modTeam s.cur.teamId (fun t => { t with resv := t.resv.set k.toNat none }) } : Ctx).retired v.stepping)) ∧
    (s.naming s.cur.teamId k.toNat ≠ [] →
      exec (.crel w k) s = .next (({ begin s v (Enc.crel w k) .nothing with
        s := s.modTeam s.cur.teamId (fun t => { t with resv := t.resv.set k.toNat (some { r with
          freeing := some (s.naming s.cur.teamId k.toNat) }) }) } : Ctx).retired v.stepping))) ∧
  (∀ s v w acc d a x k c1 c2 team, Issues s (Enc.mrd w acc d a) false v → src a (begin s v (Enc.mrd w acc d a) .nothing) = (x, c1) →
    dstDeferred d 4 4 c1 = (k, c2) → Clean c2 → x.extractLsb' 12 20 = 0 → (x.extractLsb' 6 6).toNat % 4 = 0 →
    s.team? s.cur.teamId = some team → 16384 * (acc.toNat + 1) ≤ team.cistBytes → Room v →
    exec (.mrd w acc d a) s = .next ((logged c2 (.mrd acc.toNat (x.extractLsb' 0 6).toNat (x.extractLsb' 6 6).toNat k
      (s.core s.cur.core).issued)).retired v.stepping)) ∧
  (∀ s v w d a k x r c1 c2, block a 1 1 (begin s v (Enc.ssq w d a x) .nothing) = (k, c1) → Clean c1 → (c1.th.reg k).toNat % 128 = 0 →
    s.inRange s.cur .co (c1.th.reg k).toNat 128 = true → dstDeferred d 1 1 c1 = (r, c2) → Clean c2 →
    (x = 0 → Issues s (Enc.ssq w d a x) false v → Room v →
      exec (.ssq w d a x) s = .next ((logged c2 (.ssq (c1.th.reg k).toNat r)).retired v.stepping)) ∧
    (∀ p, x = 1 → Issues s (Enc.ssq w d a x) true v → p = s.setThread s.cur { c2.th with wait := .ssq (c1.th.reg k).toNat r } →
      ((s.ssqValue s.cur.teamId (c1.th.reg k).toNat).msb = true → exec (.ssq w d a x) s = .next p) ∧
      ((s.ssqValue s.cur.teamId (c1.th.reg k).toNat).msb = false →
        ∃ t u, exec (.ssq w d a x) s = .next t ∧ (c2.th.stepping = false → s.staysPut s.cur c2.th = false → t.thread? s.cur = some u ∧ u.pc = c2.th.pc + 4 ∧
          u.wait = .run ∧ ∃ e, u.log = c2.th.log ++ [e] ∧
            e.state = .returned [(r, s.ssqValue s.cur.teamId (c1.th.reg k).toNat)]))))

/-! ### System instructions -/

/-- R347, R350, R351: `rhset`, `rhpri`, `rhdem`, `pref`, `spawn` and the `cacheop` instructions check their operands and take operand-log
entries. -/
def Obligations.LoggedSystemInstructions : Prop :=
  (∀ s v w d a n k c1 c2, Issues s (Enc.rhset w d a) false v → block a 4 4 (begin s v (Enc.rhset w d a) .nothing) = (n, c1) →
    dstDeferred d 1 1 c1 = (k, c2) → Clean c2 → ∀ base : Dword, base = c2.th.reg (n + 1) ++ c2.th.reg n → base.toNat % 65536 = 0 →
    base.toNat < 2 ^ 48 → c2.th.reg (n + 2) ≠ 0 → (c2.th.reg (n + 3)).extractLsb' 5 27 = 0 → Room v →
    exec (.rhset w d a) s = .next ((logged c2 (.rhset base (c2.th.reg (n + 2)).toNat ((c2.th.reg (n + 3)).extractLsb' 0 4).toNat
      ((c2.th.reg (n + 3)).getLsbD 4) k)).retired v.stepping)) ∧
  (∀ s v w a b x y c1 c2, Issues s (Enc.rhpri w a b) false v → src a (begin s v (Enc.rhpri w a b) .nothing) = (x, c1) →
    Clean c1 → src b c1 = (y, c2) → Clean c2 → y.extractLsb' 5 27 = 0 → Room v →
    (OwnHandle s x → exec (.rhpri w a b) s = .next ((logged c2 (.rhpri x.toNat y)).retired v.stepping)) ∧
    (¬ OwnHandle s x → v.log = [] → s.deliver s.cur v = none →
      exec (.rhpri w a b) s = .next (s.trap s.cur v Cause.permission.code (x.setWidth 64)))) ∧
  (∀ s v w a x c1, Issues s (Enc.rhdem w a) false v → src a (begin s v (Enc.rhdem w a) .nothing) = (x, c1) → Clean c1 →
    OwnHandle s x → Room v → exec (.rhdem w a) s = .next ((logged c1 (.rhdem x.toNat)).retired v.stepping)) ∧
  (∀ s v w a b k y c1 c2, Issues s (Enc.pref w a b) false v → block a 2 2 (begin s v (Enc.pref w a b) .nothing) = (k, c1) →
    src b c1 = (y, c2) → Clean c2 → Room v →
    exec (.pref w a b) s = .next ((logged c2 (.pref (c1.th.pair k) y.toNat)).retired v.stepping)) ∧
  (∀ s v w d a k r c1 c2 off q, Issues s (Enc.spawn w d a) false v → block a 2 2 (begin s v (Enc.spawn w d a) .nothing) = (k, c1) →
    Clean c1 → off = c1.th.reg k → q = c1.th.reg (k + 1) → off.toNat % 64 = 0 →
    s.inRange s.cur .co off.toNat 64 = true → dstDeferred d 1 1 c1 = (r, c2) → Clean c2 → Room v →
    exec (.spawn w d a) s = .next ((logged c2 (.spawn off.toNat (q.extractLsb' 0 14).toNat r)).retired v.stepping)) ∧
  (∀ i op a b, CacheOp i op a b → ∀ s v word k y c1 c2, encode? i = some word → Issues s word false v →
    block a 2 2 (begin s v word .nothing) = (k, c1) → src b c1 = (y, c2) → Clean c2 → Room v →
    exec i s = .next ((logged c2 (.cacheop op (c1.th.pair k) y.toNat)).retired v.stepping))

/-- R213, R216, R348, R349, R353: `svc` joins its group's service batch and parks; `trap` raises its cause with its value; `tret` returns from
a handler, and waits there for the accesses it issued again; `wfe` clears a set latch or waits. -/
def Sys2Proof.Claims.TrapsAndServices : Prop :=
  (∀ s v w a n m c1 number, Issues s (Enc.svc w a n) true v → number = (HintSet.of v.hints).immU n.toNat 13 → number < 2 ^ 16 →
    block a 2 6 (begin s v (Enc.svc w a n) .immOnly) = (m, c1) → Clean c1 →
    exec (.svc w a n) s = .next ((s.joinBatch s.cur.group 0 (Call.mk s.cur.mem number
      [c1.th.reg m, c1.th.reg (m + 1), c1.th.reg (m + 2), c1.th.reg (m + 3), c1.th.reg (m + 4), c1.th.reg (m + 5)] 0 0 m)).setThread
        s.cur { c1.th with hints := [], wait := .call })) ∧
  (∀ s v w c a x c1 k, Issues s (Enc.trap w c a) false v → src a (begin s v (Enc.trap w c a) .nothing) = (x, c1) → Clean c1 →
    Cause.ofCode c.toNat = some k → k.untrappable = false → v.log = [] → s.deliver s.cur v = none →
    exec (.trap w c a) s = .next (s.trap s.cur v c.toNat (k.trapValue (Enc.trap w c a) x))) ∧
  (∀ s v w, Issues s (Enc.tret w) true v → Clean (begin s v (Enc.tret w) .nothing) →
    (v.handling = true → v.badStatus = false →
      exec (.tret w) s = .next ((({ begin s v (Enc.tret w) .nothing with
        th := v.trapReturn, npc := (v.tepcHi ++ v.tepc) &&& ~~~3#48 } : Ctx).retired v.stepping).modThread s.cur Thread.awaitReissued)) ∧
    (v.handling = false → v.log = [] → s.deliver s.cur v = none →
      exec (.tret w) s = .next (s.trap s.cur v Cause.illegalTret.code 0))) ∧
  (∀ s v w a x c1, Issues s (Enc.wfe w a) true v → src a (begin s v (Enc.wfe w a) .nothing) = (x, c1) → Clean c1 →
    (v.latch = true → exec (.wfe w a) s = .next (({ c1 with th := { c1.th with latch := false } } : Ctx).retired v.stepping)) ∧
    (v.latch = false → exec (.wfe w a) s = .next (s.setThread s.cur { c1.th with
      wait := .wfe (if x = 0 then none else some (s.ncyc s.cur.teamId + x.toNat)) })))

/-- R352: `tlbinv` raises permission with the address where K = 0; with K = 1 it waits, with its address and selection, to complete. -/
def Sys2Proof.Claims.TlbInvalidationPrivilege : Prop :=
  ∀ s v w a b k x y c1 c2, Issues s (Enc.tlbinv w a b) true v → block a 2 2 (begin s v (Enc.tlbinv w a b) .nothing) = (k, c1) →
    x = c1.th.pair k → src b c1 = (y, c2) → Clean c2 →
    (v.kernel = true → exec (.tlbinv w a b) s = .next (s.setThread s.cur { c2.th with wait := .tlbinv x y })) ∧
    (v.kernel = false → v.log = [] → s.deliver s.cur v = none →
      exec (.tlbinv w a b) s = .next (s.trap s.cur v Cause.permission.code x))

/-- R132, R188, R299: `exit` counts in nret and removes its thread once its stores are performed, on other devices and from its write streams
too; until then it waits, and flushes the pod members that hold some. -/
def Sys2Proof.Claims.ExitRemoves : Prop :=
  ∀ s v w, Issues s (Enc.exit w) true v → Clean (begin s v (Enc.exit w) .nothing) →
    (s.storesLeft s.cur v = false →
      exec (.exit w) s = .next ((s.setThread s.cur { v with nret := v.nret + 1, wait := .exited }).removeMember s.cur)) ∧
    (s.storesLeft s.cur v = true → exec (.exit w) s = .next ((s.landAll s.cur v).setThread s.cur v))

/-- R303: `xiss` executes a permitted word of a register in its own place: the pc moves once and nret counts once. A word that is not
permitted raises illegal-xiss-word at the next instruction, with that word. -/
def Obligations.ExecutesAWord : Prop :=
  (∀ s v w f x c1 body r, Issues s (Enc.xiss w f) false v → src f (begin s v (Enc.xiss w f) .nothing) = (x, c1) → Clean c1 →
    permittedWord x = some body → r = (body { c1 with word := x, hs := HintSet.empty, flag := none, unknown := false }).2 → r.flag = none →
    r.stall = false → r.starve = false → r.hold = none → r.park = none → r.late = none → exec (.xiss w f) s = .next (r.retired v.stepping)) ∧
  (∀ s v w f d a b x y l c1 c2 c3 c4, Issues s (Enc.xiss w f) false v →
    src f (begin s v (Enc.xiss w f) .nothing) = (Enc.add 0 d a b, c1) → Clean c1 →
    src a { c1 with word := Enc.add 0 d a b, hs := HintSet.empty, unknown := false } = (x, c2) → src b c2 = (y, c3) → dst d c3 = (l, c4) → Clean c4 →
    exec (.xiss w f) s = .next ((wr l (x + y) c4).2.retired v.stepping)) ∧
  (∀ s v w f x c1, Issues s (Enc.xiss w f) false v → src f (begin s v (Enc.xiss w f) .nothing) = (x, c1) → Clean c1 →
    permittedWord x = none → v.log = [] → s.deliver s.cur v = none →
    exec (.xiss w f) s = .next ((s.setThread s.cur (c1.th.retire (v.pc + 4))).trap s.cur (c1.th.retire (v.pc + 4))
      Cause.illegalXissWord.code (x.setWidth 64)))
end

section
open Sys2Proof Sys2Proof.Machine Sys2Proof.Claims

/-! ### Reset, boot, power and memory errors -/

/-- R5, R28, R31: FUNDAMENTAL_RESET and POWER_REMOVAL leave every store in its reset state but the flash and the fuses; a thermal shutdown is a power
removal that the host sees; the link comes up on a powered device. That host memory, which is kept with the device's, reads as zero again too, and
what a byte that nothing has written reads as, are the model's choice (log entries 90 and 2). -/
def Sys2Proof.Claims.ResetAndPower : Prop :=
  (∀ s, ∃ t, exec .fundamentalReset s = .next t ∧ t.boot = { State.reset.boot with powered := true } ∧ t.flash = s.flash ∧
    t.mem = [] ∧ t.mgmt = State.reset.mgmt ∧ t.threads = [] ∧ t.teams = [] ∧ t.groups = [] ∧ t.queues = State.reset.queues ∧
    t.own = State.reset.own ∧ t.poison = [] ∧ t.tlb = [] ∧ t.handles = [] ∧ t.ports = State.reset.ports) ∧
  (∀ s, ∃ t, exec .powerRemoval s = .next t ∧ t.boot = { State.reset.boot with powered := false } ∧ t.flash = s.flash ∧
    t.mem = [] ∧ t.mgmt = State.reset.mgmt ∧ t.threads = [] ∧ t.teams = [] ∧ t.own = State.reset.own) ∧
  (∀ s, s.boot.powered = true → ∃ t, exec .thermalShutdown s = .next t ∧ t.boot = { State.reset.boot with powered := false } ∧
    t.flash = s.flash ∧ t.mem = [] ∧ t.mgmt = State.reset.mgmt ∧ t.threads = [] ∧ t.teams = [] ∧ t.own = State.reset.own ∧
    t.out = s.out ++ [.linkDown]) ∧
  (∀ s, s.boot.powered = true → exec .hostLinkUp s = .next { s with boot := { s.boot with linkUp := true } }) ∧
  (∀ s req, s.boot.linkUp = true →
    exec (.spdmRequest req) s = .next { s with out := s.out ++ [.spdm (s.spdmAnswer req)] })

/-- R31 to R33, R35: the boot stages in their order: 0x2 authenticates slot 0 and falls to 0x3, which authenticates slot 1 and falls to
0xF; an accepted image leads to 0x4, which clears HBM4 and LPDDR; 0x5 leads to 0x6 with the block served. -/
def Sys2Proof.Claims.BootStages : Prop :=
  ∀ s, s.boot.powered = true →
    (s.boot.stage = 0 → exec (.bootStageAdvance none) s = .next { s with boot := { s.boot with stage := 1 } }) ∧
    (s.boot.stage = 1 → exec (.bootStageAdvance none) s = .next { s with boot := { s.boot with stage := 2 } }) ∧
    (∀ k next fallback, (s.boot.stage = 2 ∧ k = 0 ∧ next = 4 ∧ fallback = 3) ∨ (s.boot.stage = 3 ∧ k = 1 ∧ next = 4 ∧ fallback = 15) →
      (s.flash.check k = 0 → exec (.bootStageAdvance none) s = .next { s with boot := { s.boot with
        stage := next, slot := BitVec.ofNat 4 k, measure := shake256 (s.flash.read k 0 256) 64 } }) ∧
      (s.flash.check k ≠ 0 → exec (.bootStageAdvance none) s = .next { s with boot := { s.boot with
        stage := fallback, fail := BitVec.ofNat 8 (s.flash.check k) } })) ∧
    (s.boot.stage = 4 → ∃ t, exec (.bootStageAdvance none) s = .next t ∧ t.boot = { s.boot with stage := 5 } ∧
      (∀ a, a < 0x70000000000 → Memory.get t.mem a = 0) ∧
      (∀ a, 0x70000000000 ≤ a → Memory.get t.mem a = Memory.get s.mem a)) ∧
    (∀ c, s.boot.stage = 4 → trainCode c = true →
      exec (.bootStageAdvance (some c)) s = .next { s with boot := { s.boot with stage := 15, fail := c } }) ∧
    (s.boot.stage = 5 → exec (.bootStageAdvance none) s = .next { s with boot := { s.boot with stage := 6, ready := true } })

/-- R25, R26, R28 to R30, R80: frequency, home and power-cap changes change no value of a program; the scrubber counts what it corrects and poisons
and counts what it cannot; a move of pages starts only on free frames and ends with its copy. That the row names the frames, which are taken as free,
and that a completed move rewrites the one entry through which it was asked for, are the model's choice (log entries 30 and 65). -/
def Obligations.PowerAndMemoryEvents : Prop :=
  (∀ s core steps, 12 ≤ steps → steps ≤ 36 →
    exec (.coreFrequencyChange core steps) s = .next (s.modCore core (fun k => { k with freq := steps }))) ∧
  (∀ s h die x, AMap.get? s.handles h = some x → die < 8 →
    exec (.l2HomeMove h die) s = .next { s with homes := AMap.set s.homes h die }) ∧
  (∀ s m value, Canonical s → Owns s m → 1500 ≤ bits value.toNat 12 0 → bits value.toNat 12 0 ≤ 5000 →
    ∃ t, exec (.powerCapWrite m value) s = .next t ∧ t.reg32 0x210 = bits value.toNat 12 0 ∧ t.mem = s.mem ∧ t.threads = s.threads) ∧
  (∀ s m value, (Stranger s m → exec (.powerCapWrite m value) s = .next (rejected s)) ∧
    (¬ Reaches s m → exec (.powerCapWrite m value) s = .next (unserved s m))) ∧
  (∀ s g, isProtected (g * 32) = true →
    exec (.patrolScrub g .clean) s = .next s ∧ exec (.patrolScrub g .correctable) s = .next (s.count 0x1000) ∧
    (g ∉ s.poison → exec (.patrolScrub g .uncorrectable) s = .next (({ s with poison := g :: s.poison } : State).count 0x1008))) ∧
  (∀ s what demote dests, ∃ t new, exec (.tierMoveStart what demote dests) s = .next t ∧ t.mem = s.mem ∧ t.threads = s.threads ∧
    t.handles = s.handles ∧ t.moves = s.moves ++ new ∧ (new = [] ∨ ∃ asid down ms, s.moveList what demote = some (asid, down, ms) ∧
      new.map (fun m => (m.page, m.block)) = ms.map (fun p => (p.page, p.block)) ∧ new.map (fun m => m.dst) = dests.take ms.length ∧
      ∀ m ∈ new, m.asid = asid ∧ m.tier = if down then 2 else 1)) ∧
  (∀ s what demote asid down p f, s.moveList what demote = some (asid, down, [p]) → s.frameOk f p.block down = true →
    exec (.tierMoveStart what demote [f]) s = .next { s with
      moves := s.moves ++ [TierMove.mk asid p.page p.block (p.pa / 65536) f (if down then 2 else 1)],
      asks := if what = .asked then s.asks.drop 1 else s.asks }) ∧
  (∀ s k h dests, AMap.get? s.handles k = some h → 15 ≤ h.prio → exec (.tierMoveStart (.handle k) true dests) s = .next s) ∧
  (∀ s asid page m e n src dst copied ea, Canonical s → s.moves.find? (fun x => x.asid == asid && x.page == page) = some m →
    s.walk asid (page * 65536) = some (e, m.block) → n = (if m.block then 2 ^ 29 else 65536) → m.page = page → m.asid = asid →
    src = m.src * 65536 → leafPa e m.block (page * 65536) = src → dst = m.dst * 65536 →
    copied = Memory.paste (Memory.clear s.mem dst n) dst (Memory.slice s.mem src n) →
    ea = ({ s with mem := copied } : State).entryPa asid (page * 65536) m.block →
    ∃ t, exec (.tierMoveComplete asid page) s = .next t ∧ m ∉ t.moves ∧ t.threads = s.threads ∧
      t.read ea 8 = retarget e m.dst m.tier % 2 ^ 64 ∧
      ∀ a, a < ea ∨ ea + 8 ≤ a → Memory.get t.mem a = Memory.get s.mem (if dst ≤ a ∧ a < dst + n then src + (a - dst) else a))

/-! ### The management block -/

/-- R10, R31, R38, R79, R82, R91, R384: a register write before the block is served is Unsupported Request; in an area of the owner, one of another
master is counted and discarded, and the owner's write of one aligned word stores the writable bits; one of 8 bytes writes both of its words, one
with a row of its own as that row does, after the other; ill-formed sizes and offsets that nothing writes are discarded; a qctl write with a reserved
op is refused; a claim write that is split, or has a reserved field, gives result 3. That the plain word of such a pair is stored first is the
model's choice (log entry 115). -/
def Sys2Proof.Claims.RegisterWrites : Prop :=
  (∀ s m off size v, (s.masterReaches m = false → exec (.registerWrite m off size v) s = .next s) ∧
    (s.masterReaches m = true → s.served off = false → exec (.registerWrite m off size v) s = .next { s with out := s.out ++ [.unsupported] })) ∧
  (∀ s m off size v, ownerArea off = true → Stranger s m → exec (.registerWrite m off size v) s = .next (rejected s)) ∧
  (∀ s m off v, ownerArea off = true → Canonical s → Owns s m → off % 4 = 0 → off ≠ 0x280048 → wideOnly off = false →
    ∃ t, exec (.registerWrite m off 4 v) s = .next t ∧ t.mem = s.mem ∧ t.threads = s.threads ∧ t.queues = s.queues ∧
      t.reg32 off = (s.reg32 off - (s.reg32 off &&& s.maskNow off (v.toNat % 2 ^ 32)))
        ||| (v.toNat % 2 ^ 32 &&& s.maskNow off (v.toNat % 2 ^ 32)) ∧
      (∀ a, a < off ∨ off + 4 ≤ a → Memory.get t.mgmt a = Memory.get s.mgmt a)) ∧
  (∀ s m off v lo hi, ownerArea off = true → Owns s m → off % 8 = 0 → off ≠ 0x280000 → lo = v.toNat % 2 ^ 32 → hi = v.toNat / 2 ^ 32 →
    (rowWord off = false → rowWord (off + 4) = false →
      exec (.registerWrite m off 8 v) s = .next ((s.writeWord off lo).writeWord (off + 4) hi)) ∧
    (rowWord off = true → rowWord (off + 4) = false →
      exec (.registerWrite m off 8 v) s = .next ((s.writeWord (off + 4) hi).writeRow m off lo)) ∧
    (rowWord off = false → rowWord (off + 4) = true →
      exec (.registerWrite m off 8 v) s = .next ((s.writeWord off lo).writeRow m (off + 4) hi)) ∧
    (rowWord off = true → rowWord (off + 4) = true →
      exec (.registerWrite m off 8 v) s = .next ((s.writeRow m off lo).writeRow m (off + 4) hi))) ∧
  (∀ s m off size v, ownerArea off = true → Owns s m → ¬ (off = 0x280000 ∧ size = 8) →
    (size ≠ 4 ∧ size ≠ 8 ∨ off % size ≠ 0 ∨ size = 4 ∧ wideOnly off = true) →
    exec (.registerWrite m off size v) s = .next s) ∧
  (∀ s m off size v, Reaches s m → ownerArea off = false → ¬ (0x800 ≤ off ∧ off < 0x1000) → ¬ (0x140 ≤ off ∧ off < 0x180) →
    exec (.registerWrite m off size v) s = .next s) ∧
  (∀ s m v, Owns s m → (bits v.toNat 15 14 = 3 ∨ bits v.toNat 31 16 ≠ 0) →
    exec (.registerWrite m 0x280000 8 v) s = .next { s with qres := 3 }) ∧
  (∀ s m r size v, Reaches s m → r < 8 → (size ≠ 8 ∨ bits v.toNat 63 40 ≠ 0 ∨ 3 < bits v.toNat 39 35) →
    exec (.registerWrite m (0x140 + 8 * r) size v) s = .next { s with own := { s.own with results := s.own.results.set r 3 } }) ∧
  (∀ s m v, s.masterReaches m = true → s.served 0x804 = true → s.mailMaster m = true →
    exec (.registerWrite m 0x804 4 v) s = .next { s with mailbox := { s.mailbox with rmoff := BitVec.ofNat 32 (v.toNat % 2 ^ 32) } })

/-- R31, R78, R79, R89, R96, R384: a read of the management block is Unsupported Request before its offset is served, and otherwise the addressed
words, the 64 bytes of a queue's state block at once among them; one that is not naturally aligned is discarded, and window keys read as zero. A read
of a doorbell of BAR2, which is write-only, gives zeros; other reads of BAR2, and writes at its unimplemented offsets, are Unsupported Request. -/
def Sys2Proof.Claims.RegisterReads : Prop :=
  (∀ (s : State) off n, s.served off = false → s.regRead off n = .unsupported) ∧
  (∀ (s : State) off, s.served off = true →
    (off % 4 = 0 → s.regRead off 4 = .data (s.readWord off)) ∧
    (off % 8 = 0 → s.regRead off 8 = .data (s.readWord off + s.readWord (off + 4) * 2 ^ 32)) ∧
    (off % 2 = 0 → s.regRead off 2 = .data (s.readWord (off / 4 * 4) / 2 ^ (8 * (off % 4)) % 2 ^ 16)) ∧
    (∀ n, (n = 2 ∨ n = 4 ∨ n = 8 ∨ n = 64) → off % n ≠ 0 → s.regRead off n = .discarded)) ∧
  (∀ (s : State) q, q < 16384 → s.served (0x100000 + 64 * q) = true → (∀ k, (s.queue q).word k < 2 ^ 32) →
    ∃ v, s.regRead (0x100000 + 64 * q) 64 = .data v ∧ ∀ k, k < 16 → v / 2 ^ (32 * k) % 2 ^ 32 = (s.queue q).word k) ∧
  (∀ (s : State) k, k < 512 → s.served (0x11000 + 4 * k) = true → s.regRead (0x11000 + 4 * k) 4 = .data 0) ∧
  (∀ (s : State) off size,
    (s.barsOpen = true → (off % 4096 = 0x40 ∨ off % 4096 = 0x48) →
      s.bar2Request off size false = { s with out := s.out ++ [.hostData (List.replicate size 0)] }) ∧
    (off % 4096 ≠ 0x40 → off % 4096 ≠ 0x48 → s.bar2Request off size false = { s with out := s.out ++ [.unsupported] } ∧
      (64 ≤ off % 4096 → s.bar2Request off size true = { s with out := s.out ++ [.unsupported] })) ∧
    (s.barsOpen = false → ∀ w, s.bar2Request off size w = { s with out := s.out ++ [.unsupported] }))

/-- R33, R35: an accepted command of the mailbox sets busy with its result to come, an erase empties its slot, a write programs a chunk that was not
programmed; done comes with the result; a master without access gets result 0x01, and a busy mailbox discards. That a command takes its effect as it
is accepted, with the result held until it is done, and that a restart sets the slot to 0xF, are the model's choice (log entries 48 and 49). -/
def Sys2Proof.Claims.MailboxCommands : Prop :=
  (∀ s m, Canonical s → s.masterReaches m = true → s.served 0x800 = true → s.mailbox.busy = false → s.mailMaster m = true →
    (∀ k, exec (.mailboxErase m k) s = .next { s with
      flash := { s.flash with slots := s.flash.slots.set k [], written := s.flash.written.filter (fun w => decide (w.1 ≠ k)) },
      mailbox := { s.mailbox with busy := true, done := false, running := some (.erase, 0) } }) ∧
    (∀ k, exec (.mailboxVerify m k) s = .next { s with
      mailbox := { s.mailbox with busy := true, done := false, running := some (.verify, s.flash.check k) } }) ∧
    (∀ k code, (code = 2 ∧ (67108864 ≤ s.mailbox.rmoff.toNat ∨ s.mailbox.rmoff.toNat % 1024 ≠ 0) ∨
        code = 3 ∧ s.mailbox.rmoff.toNat < 67108864 ∧ s.mailbox.rmoff.toNat % 1024 = 0 ∧
          s.flash.written.contains (k, s.mailbox.rmoff.toNat / 1024) = true) →
      exec (.mailboxWrite m k) s = .next { s with
        mailbox := { s.mailbox with busy := true, done := false, running := some (.write, code) } }) ∧
    (∀ k, k < s.flash.slots.length → s.mailbox.rmoff.toNat < 67108864 → s.mailbox.rmoff.toNat % 1024 = 0 →
      s.flash.written.contains (k, s.mailbox.rmoff.toNat / 1024) = false →
      ∃ t, exec (.mailboxWrite m k) s = .next t ∧ t.mailbox = { s.mailbox with busy := true, done := false, running := some (.write, 0) } ∧
        t.flash.read k s.mailbox.rmoff.toNat 1024 = Memory.read s.mailbox.rmbuf 0 1024 ∧
        t.flash.written = s.flash.written ++ [(k, s.mailbox.rmoff.toNat / 1024)]) ∧
    (s.boot.stage ≠ 15 → exec (.mailboxRestart m) s = .next { s with mailbox := { s.mailbox with result := 1 } }) ∧
    (s.boot.stage = 15 → exec (.mailboxRestart m) s = .next { s with
      boot := { s.boot with stage := 1, slot := 15 },
      mailbox := { s.mailbox with busy := true, done := false, running := some (.restart, 0) } })) ∧
  (∀ s m i, ((∃ k, i = .mailboxErase m k) ∨ (∃ k, i = .mailboxWrite m k) ∨ (∃ k, i = .mailboxVerify m k) ∨ i = .mailboxRestart m) →
    s.masterReaches m = true → s.served 0x800 = true →
    (s.mailbox.busy = true → exec i s = .next s) ∧
    (s.mailbox.busy = false → s.mailMaster m = false → exec i s = .next { s with mailbox := { s.mailbox with result := 1 } })) ∧
  (∀ s err op code, s.mailbox.running = some (op, code) → ∃ t, exec (.mailboxCommandDone err) s = .next t ∧
    t.mailbox.busy = false ∧ t.mailbox.done = true ∧ t.mailbox.running = none ∧
    (op = .verify → t.mailbox.vfail = BitVec.ofNat 8 code ∧ t.mailbox.result = if code = 0 then 0 else 4) ∧
    (op ≠ .verify → t.mailbox.vfail = s.mailbox.vfail) ∧ (op = .restart → t.mailbox.result = 0) ∧
    (op = .erase ∨ op = .write → t.mailbox.result = if code = 0 ∧ err = true then 3 else BitVec.ofNat 8 code))

/-- R38, R81, R83: PORT_ENABLE with a legal control word trains a disabled port, and PORT_DISABLE disables an enabled one; training ends up or
failed, and a failed port trains again; a port that loses its link fails; the last port of a fabric takes the link of its manager with it. -/
def Sys2Proof.Claims.FabricPorts : Prop :=
  (∀ s m p v, Canonical s → Owns s m → p < 26 → bits v.toNat 0 0 = 1 → portReserved v.toNat = false →
    badMode p (bits v.toNat 3 2) = false → bits (s.reg32 (portOff p)) 0 0 = 0 →
    ∃ t, exec (.portEnable m p v) s = .next t ∧ AMap.getD t.ports p .disabled = .training ∧
      t.reg32 (portOff p) = 4 * bits v.toNat 3 2 + 1) ∧
  (∀ s m p v, Canonical s → Owns s m → p < 26 → bits v.toNat 0 0 = 0 → portReserved v.toNat = false →
    bits (s.reg32 (portOff p)) 0 0 = 1 →
    ∃ t, exec (.portDisable m p v) s = .next t ∧ AMap.getD t.ports p .disabled = .disabled ∧
      t.reg32 (portOff p) = 4 * bits v.toNat 3 2) ∧
  (∀ s p up, s.portEn p = true →
    (AMap.getD s.ports p .disabled = .training →
      ∃ t, exec (.portTrainingDone p up) s = .next t ∧ AMap.getD t.ports p .disabled = if up then .up else .failed) ∧
    (AMap.getD s.ports p .disabled = .failed →
      ∃ t, exec (.portTrainingDone p up) s = .next t ∧ AMap.getD t.ports p .disabled = .training) ∧
    ((AMap.getD s.ports p .disabled = .disabled ∨ AMap.getD s.ports p .disabled = .up) → exec (.portTrainingDone p up) s = .next s)) ∧
  (∀ s p, p < 26 → s.portEn p = true → AMap.getD s.ports p .disabled = .up →
    ∃ t, exec (.portLinkLoss p) s = .next t ∧ AMap.getD t.ports p .disabled = .failed ∧
      (t.linkIsUp (decide (18 ≤ p)) = false → s.own.valid = true → s.own.id = (if 18 ≤ p then 3 else 2) → t.own.valid = false)) ∧
  (∀ s i m p v, (i = .portEnable m p v ∨ i = .portDisable m p v) → (Stranger s m → exec i s = .next (rejected s)) ∧
    (¬ Reaches s m → exec i s = .next (unserved s m)))

/-- R82, R83, R90: the claim writes with the next sequence number take, ask for, hand over and give up ownership; a wrong register or identity gives
result 3 and a wrong sequence 2; a master whose link goes loses its ownership, and its queues that run or stand in error are orphaned. That a release
leaves every queue as it is, is the model's choice (log entry 31), and so is that a queue's owner field passes on, and counts, in every mode (log
entry 107). -/
def Sys2Proof.Claims.Ownership : Prop :=
  (∀ s r id seq, Reaches s r → id.toNat = r → seq = s.own.csq + 1 →
    (s.own.valid = false → exec (.claim r r id seq) s = .next { s with
      own := { s.own with valid := true, id := r, csq := seq, results := s.own.results.set r 1 } }) ∧
    (s.own.valid = true → exec (.claim r r id seq) s = .next { s with own := { s.own with results := s.own.results.set r 3 } }) ∧
    (s.own.valid = true → s.own.id ≠ r → s.own.reqValid = false → exec (.requestHandover r r id seq) s = .next { s with
      own := { s.own with reqValid := true, reqId := r, results := s.own.results.set r 1 } }) ∧
    (s.own.valid = true → s.own.id = r → s.own.reqValid = true → ∃ t, exec (.acceptHandover r r id seq) s = .next t ∧
      t.own = { s.own with id := s.own.reqId, reqValid := false, csq := seq, results := s.own.results.set r 1 } ∧
      ∀ q x, AMap.get? s.queues q = some x → ∃ y, AMap.get? t.queues q = some y ∧
        y = if x.owner = r then { x with owner := s.own.reqId } else x) ∧
    (s.own.valid = true → s.own.id = r → exec (.release r r id seq) s = .next { s with
      own := { s.own with valid := false, reqValid := false, csq := seq, results := s.own.results.set r 1 } })) ∧
  (∀ s i m r id seq, (i = .claim m r id seq ∨ i = .requestHandover m r id seq ∨ i = .acceptHandover m r id seq ∨ i = .release m r id seq) →
    Reaches s m →
    (m ≠ r ∨ id.toNat ≠ r → exec i s = .next { s with own := { s.own with results := s.own.results.set r 3 } }) ∧
    (m = r → id.toNat = r → seq ≠ s.own.csq + 1 →
      exec i s = .next { s with own := { s.own with results := s.own.results.set r 2 } })) ∧
  (∀ s m, (m ∈ hostMasters ∨ m = 1 ∨ ((m = 2 ∨ m = 3) ∧ s.linkIsUp (decide (m = 3)) = false)) →
    ∃ t, exec (.masterLinkDown m) s = .next t ∧ (s.own.valid = true → s.own.id = m → t.own.valid = false) ∧
      (∀ q x, AMap.get? s.queues q = some x → x.owner = m → (x.mode = .running ∨ x.mode = .error) →
        ∃ y, AMap.get? t.queues q = some y ∧ y = { x with mode := .orphaned, fetching := decide (x.mode = .running) }) ∧ t.mem = s.mem)

/-- R56, R62, R76: a job is enabled where its spill area fits and its address is aligned, and refused with enfail otherwise; with its enable, or with
the end of an invalidation, the tables in force become what the job block, the groups and the counters hold, which is copied as one (the model's
choice: log entry 10); an enable of a job that runs is refused too where its area does not fit (log entry 93), so those clauses take one that does
not. -/
def Obligations.JobControl : Prop :=
  (∀ s m, Canonical s → Owns s m →
    (spillNeed s.nranks ≤ s.reg64 0x40040 → s.reg64 0x40038 % 4096 = 0 → ∃ t, exec (.jobEnable m) s = .next t ∧ t.jobOn = true ∧
      (s.jobOn = false → t.tables = s.takeTables.tables) ∧ t.mem = s.mem) ∧
    (s.jobOn = false → (s.reg64 0x40040 < spillNeed s.nranks ∨ s.reg64 0x40038 % 4096 ≠ 0) →
      ∃ t, exec (.jobEnable m) s = .next t ∧ t.reg32 0x40000 = 2 ∧ t.jobOn = false ∧ t.tables = s.tables ∧ t.mem = s.mem) ∧
    (∃ t, exec (.jobDisable m) s = .next t ∧ t.jobOn = false) ∧
    exec (.jinval m) s = .next { s with jinval := true }) ∧
  (∀ s, s.jinval = true → exec .jinvalComplete s = .next { s.takeTables with jinval := false }) ∧
  (∀ (s : State), Canonical s → (∀ a, 0x40000 ≤ a → a < 0xC0000 → Memory.get s.takeTables.tables a = Memory.get s.mgmt a) ∧
    (∀ k, k < 0x400000 → Memory.get s.takeTables.tables (0x2000000 + k) = Memory.get s.mem (s.grpbase + k)) ∧
    (∀ k, k < 0x100000 → Memory.get s.takeTables.tables (0x3000000 + k) = Memory.get s.mem (s.ctrbase + k))) ∧
  (∀ s i m, (i = .jobEnable m ∨ i = .jobDisable m ∨ i = .jinval m) → (Stranger s m → exec i s = .next (rejected s)) ∧
    (¬ Reaches s m → exec i s = .next (unserved s m)))
end

section
open Sys2Proof Sys2Proof.Machine Sys2Proof.Claims

/-! ### Work queues -/

/-- R84, R85, R90, R91, R92: enabling a queue checks its configuration; the doorbells move a running queue's indexes; an accepted spawn record becomes
a fetched command and any other is counted; resetting discards the queue's launches, keeps owner and rejected count and starts a new generation;
adoption takes an orphaned or running queue of the named generation. That an enable keeps errstat is the model's choice (log entry 50). -/
def Sys2Proof.Claims.QueueAdministration : Prop :=
  (∀ s m q v, Owns s m → bits v.toNat 0 0 = 1 → s.queueEn q = false →
    (s.queueCfgOk q v.toNat = true → ∃ t, exec (.queueEnable m q v) s = .next t ∧
      t.queue q = { s.queue q with mode := .running, owner := m } ∧ t.mem = s.mem ∧ (Canonical s → t.queueEn q = true)) ∧
    (s.queueCfgOk q v.toNat = false → ∃ t, exec (.queueEnable m q v) s = .next t ∧
      t.queue q = { s.queue q with mode := .error, errstat := 1 } ∧ (Canonical s → t.queueEn q = false))) ∧
  (∀ s m q, Owns s m → ∀ i out, ((∃ v, i = .queueDisable m q v ∧ bits v.toNat 0 0 = 0 ∧ s.queueEn q = true ∧
        out = s.qres) ∨ (i = .queueReset m q ∧ out = 2) ∨
      (∃ g, i = .queueAdopt m q g ∧ out = 2 ∧ ((s.queue q).gen ≠ g ∨ (s.queue q).mode = .disabled ∨
        (s.queue q).mode = .error))) →
    ∃ t, exec i s = .next t ∧ t.qres = out ∧ t.mem = s.mem ∧ (∀ p ∈ t.launches, p.2.queue ≠ q) ∧
      t.queue q = { Queue.atReset with owner := (s.queue q).owner, gen := (s.queue q).gen + 1, rejspawn := (s.queue q).rejspawn,
                                       skip := (s.queue q).skip } ∧ (∀ k, k ≠ q → t.queue k = s.queue k)) ∧
  (∀ s m q, Owns s m → ((s.queue q).mode = .orphaned ∨ (s.queue q).mode = .running) →
    exec (.queueAdopt m q (s.queue q).gen) s
      = .next ({ s.setQueue q { s.queue q with mode := .running, owner := m } with qres := 1 } : State)) ∧
  (∀ s m, Owns s m → ∃ t, exec (.endReattach m) s = .next t ∧ t.qres = 2 ∧ t.mem = s.mem ∧
    (∀ q, (s.queue q).mode = .orphaned → (t.queue q).mode = .disabled) ∧ ∀ q, (∀ p ∈ s.queues, p.1 = q → p.2.mode ≠ .orphaned) → t.queue q = s.queue q) ∧
  (∀ s q k, s.barsOpen = true → (s.queue q).mode = .running →
    exec (.commandDoorbell q k) s = .next (s.setQueue q { s.queue q with sqtail := k.toNat % s.sqSize q }) ∧
    exec (.completionDoorbell q k) s = .next (s.setQueue q { s.queue q with cqhead := k.toNat % s.cqSize q })) ∧
  (∀ s q b, s.barsOpen = true → s.unitStopped .queues = false →
    (b.length = 64 → s.acceptsSpawn q b = true → exec (.spawnWindowStore q true b) s = .next (s.setQueue q { s.queue q with
      nextexp := (s.queue q).nextexp + 1, cmds := (s.queue q).cmds ++ [Cmd.mk (s.queue q).nextexp b none 0 .fetched] })) ∧
    (∀ w, w = false ∨ b.length ≠ 64 ∨ s.acceptsSpawn q b = false → exec (.spawnWindowStore q w b) s
      = .next (s.setQueue q { s.queue q with rejspawn := (s.queue q).rejspawn + 1 })))

/-- R87 to R89: the command at the head of the ring is fetched in its sequence, and another sequence stops the queue with an error once its
completion is written; the oldest completion is written into its ring with its phase, and lastcomp follows the completions in order. -/
def Sys2Proof.Claims.FetchAndCompletion : Prop :=
  (∀ s q pa b, s.mayFetch q = true → pa = ringPa (s.sqDev q) (s.reg64 (0x200010 + 32 * q)) (64 * (s.queue q).sqhead) →
    s.held pa 64 = false → b = Memory.read s.mem pa 64 →
    (cmdSeq b = (s.queue q).nextexp → exec (.commandFetch q) s = .next (s.setQueue q { s.queue q with
      sqhead := ((s.queue q).sqhead + 1) % s.sqSize q, nextexp := (s.queue q).nextexp + 1,
      cmds := (s.queue q).cmds ++ [Cmd.mk (s.queue q).nextexp b none 0 .fetched] })) ∧
    (cmdSeq b ≠ (s.queue q).nextexp → exec (.commandFetch q) s = .next (s.setQueue q { s.queue q with
      waiting := (s.queue q).waiting ++ [(cmdSeq b, 2, 0)] }))) ∧
  (∀ s q seq status result rest pa tail, Canonical s → (s.queue q).waiting = (seq, status, result) :: rest →
    ((s.queue q).mode = .orphaned → s.cqDev q = true) → tail = ((s.queue q).cqtail + 1) % s.cqSize q → tail ≠ (s.queue q).cqhead →
    pa = ringPa (s.cqDev q) (s.reg64 (0x200018 + 32 * q)) (16 * (s.queue q).cqtail) → s.held pa 16 = false →
    ∃ t, exec (.completionWrite q) s = .next t ∧
      t.queue q = { s.queue q with
        waiting := rest, cqtail := tail, phase := if tail = 0 then !(s.queue q).phase else (s.queue q).phase,
        errstat := if status = 2 then 2 else (s.queue q).errstat, fetching := if status = 2 then false else (s.queue q).fetching,
        mode := if status = 2 ∧ (s.queue q).mode = .running then .error else (s.queue q).mode } ∧
      t.read pa 4 = seq.toNat ∧ t.read (pa + 4) 2 = status % 65536 ∧ t.read (pa + 6) 2 = (if (s.queue q).phase then 32768 else 0) ∧
      t.read (pa + 8) 8 = result % 2 ^ 64 ∧ ∀ a, a < pa ∨ pa + 16 ≤ a → Memory.get t.mem a = Memory.get s.mem a) ∧
  (∀ (v : Queue) seq status result, v.donemap.getLsbD 0 = false →
    (seq = v.lastcomp + 1 → v.donemap = 0 → (v.finish seq status result).lastcomp = v.lastcomp + 1 ∧
      (v.finish seq status result).donemap = 0) ∧
    (∀ k, 0 < k → k < 32 → seq = v.lastcomp + 1 + BitVec.ofNat 32 k → (v.finish seq status result).lastcomp = v.lastcomp ∧
      (v.finish seq status result).donemap = v.donemap ||| (1#32 <<< k)))

/-- R86, R87: a command that can start and is well-formed has its effect: WAIT waits for its counter, SIGNAL adds to one, NOP completes,
COPY copies its bytes with its completion, and completes with status 0x0006 where the host port fails it; a malformed command completes
with status 0x0001. -/
def Obligations.QueueCommands : Prop :=
  (∀ s q seq c, s.cmd? q seq = some c → s.canStart q c = true → s.cmdBad c.bytes = false →
    (cmdOp c.bytes = 2 → exec (.wait q seq) s = .next (s.setCmd q seq .running)) ∧
    (cmdOp c.bytes = 3 → exec (.signal q seq) s
      = .next ((s.ctrAdd .device (cmdField c.bytes 8 2) (cmdField c.bytes 16 8)).finish q seq 0 0)) ∧
    (cmdOp c.bytes = 4 → exec (.copy q seq) s = .next (s.setCmd q seq .running)) ∧
    (cmdOp c.bytes = 5 → exec (.nopCommand q seq) s = .next (s.finish q seq 0 0))) ∧
  (∀ s q seq c i, s.cmd? q seq = some c → s.canStart q c = true → s.cmdBad c.bytes = true →
    ((i = .wait q seq ∧ cmdOp c.bytes = 2) ∨ (i = .signal q seq ∧ cmdOp c.bytes = 3) ∨ (i = .copy q seq ∧ cmdOp c.bytes = 4) ∨
      (i = .nopCommand q seq ∧ (cmdOp c.bytes = 0 ∨ 5 ≤ cmdOp c.bytes)) ∨ (i = .launch q seq ∧ cmdOp c.bytes = 1)) →
    exec i s = .next (s.finish q seq 1 0)) ∧
  (∀ s q seq c, s.cmd? q seq = some c → c.state = .running → cmdOp c.bytes = 2 →
    (cmdField c.bytes 16 8 ≤ s.ctrValue (cmdField c.bytes 8 2) → exec (.waitComplete q seq) s = .next (s.finish q seq 0 0)) ∧
    (s.ctrValue (cmdField c.bytes 8 2) < cmdField c.bytes 16 8 → exec (.waitComplete q seq) s = .next s)) ∧
  (∀ s q seq c x written, s.cmd? q seq = some c → c.state = .running → cmdOp c.bytes = 4 → x = copySides c.bytes →
    s.held (copyPa x.srcDev x.src) x.len = false → s.held (copyPa x.dstDev x.dst) x.len = false →
    (devRangeOk x.srcDev x.src x.len = true → devRangeOk x.dstDev x.dst x.len = true → s.poisonIn (copyPa x.srcDev x.src) x.len = false →
      exec (.copyComplete q seq false written) s
        = .next ((s.store (copyPa x.dstDev x.dst) (Memory.read s.mem (copyPa x.srcDev x.src) x.len)).finish q seq 0 0)) ∧
    (∀ failed, (failed = true ∧ (x.srcDev && x.dstDev) = false) ∨ devRangeOk x.srcDev x.src x.len = false ∨
        devRangeOk x.dstDev x.dst x.len = false ∨ s.poisonIn (copyPa x.srcDev x.src) x.len = true →
      ∃ t, exec (.copyComplete q seq failed written) s = .next t ∧ (Canonical s → ∀ a,
        (¬ ∃ k ∈ written, k < x.len ∧ a = copyPa x.dstDev (x.dst + k)) → Memory.get t.mem a = Memory.get s.mem a) ∧
        t.queue q = (s.queue q).finish seq 6 0 ∧ t.threads = s.threads)) ∧
  (∀ s q seq c x, s.cmd? q seq = some c → c.state = .running → cmdOp c.bytes = 4 → x = copySides c.bytes →
    (x.srcDev = false ∨ x.dstDev = false) →
    ∃ t, exec (.hostPortTimeout (.copy q seq)) s = .next t ∧ t.queue q = (s.queue q).finish seq 6 0 ∧ t.threads = s.threads) ∧
  (∀ s id t k e b a n ord d r ps, s.thread? id = some t → t.log.find? (fun e => e.index == k) = some e →
    e.access = .load b a n ord d r → e.state = .sent ps → (∃ bus m, (Place.peer bus, m, none) ∈ ps) →
    exec (.hostPortTimeout (.peerLoad id k)) s = .next (s.failEntry id e a))

/-- R86, R93, R99 to R101: a LAUNCH of its queue's ASID with a readable, accepted header becomes a ready launch; another ASID or a header
that is refused completes it with its status; a launch whose clusters have all ended and whose stores are performed completes, and increments its
join word. -/
def Obligations.Launches : Prop :=
  (∀ s q seq c, s.cmd? q seq = some c → cmdOp c.bytes = 1 → s.canStart q c = true → s.cmdBad c.bytes = false →
    (cmdField c.bytes 14 2 ≠ s.queueAsid q → exec (.launch q seq) s = .next (s.completeLaunch q c 3 0)) ∧
    (cmdField c.bytes 14 2 = s.queueAsid q → s.headerAt (cmdField c.bytes 14 2) (cmdField c.bytes 8 6) = .refused →
      exec (.launch q seq) s = .next ((s.numberCmd q seq).finish q seq 1 0)) ∧
    (∀ b, cmdField c.bytes 14 2 = s.queueAsid q → s.headerAt (cmdField c.bytes 14 2) (cmdField c.bytes 8 6) = .ok b [] →
      (parseHeader b = none → exec (.launch q seq) s = .next ((s.numberCmd q seq).completeLaunch q { c with number := s.nextId } 4 0)) ∧
      (∀ h, parseHeader b = some h →
        h.accepted (cmdField c.bytes 14 2) (cmdField c.bytes 56 2) (cmdField c.bytes 58 2) (cmdField c.bytes 60 2) = false →
        exec (.launch q seq) s = .next ((s.numberCmd q seq).completeLaunch q { c with number := s.nextId } 4 0)) ∧
      (∀ h, parseHeader b = some h →
        h.accepted (cmdField c.bytes 14 2) (cmdField c.bytes 56 2) (cmdField c.bytes 58 2) (cmdField c.bytes 60 2) = true →
        ∃ t l, exec (.launch q seq) s = .next t ∧ t.launches = insertLaunch s.nextId l s.launches ∧ l.queue = q ∧ l.seq = c.seq ∧ l.header = h ∧
          l.entry = cmdField c.bytes 8 6 ∧ l.gx = cmdField c.bytes 56 2 ∧ l.gy = cmdField c.bytes 58 2 ∧ l.gz = cmdField c.bytes 60 2 ∧
          l.next = 0 ∧ l.ended = 0 ∧ t.mem = s.mem ∧ t.threads = s.threads))) ∧
  (∀ s q seq c n l (u : State) status, s.cmd? q seq = some c → c.state = .running → s.launchOfCmd q seq = some (n, l) →
    l.ended = l.gx * l.gy * l.gz → s.launchStored n = true → u = ({ s with launches := AMap.erase s.launches n } : State) →
    status = (if l.faulted = 0 then 0 else 5) →
    (u.joinAt q c status = .none → exec (.launchComplete q seq) s = .next (u.finish q c.seq status l.faulted)) ∧
    (u.joinAt q c status = .count → exec (.launchComplete q seq) s = .next ((u.count 0x10A8).finish q c.seq status l.faulted)) ∧
    (∀ pa, u.joinAt q c status = .add pa → exec (.launchComplete q seq) s
      = .next ((u.storeFrom { Origin.device with rmw := true } pa (natBytes 8 ((u.read pa 8 + 1) % 2 ^ 64))).finish q c.seq status l.faulted))) ∧
  (∀ s q seq c n l, s.cmd? q seq = some c → c.state = .running → s.launchOfCmd q seq = some (n, l) →
    (l.ended ≠ l.gx * l.gy * l.gz ∨ s.launchStored n = false) → exec (.launchComplete q seq) s = .next s)
end

section
open Sys2Proof Sys2Proof.Machine Sys2Proof.Claims

/-! ### Placement, pre-emption and swaps -/

/-- R101 to R107, R120: a write of pmap by the owner copies the withdrawal map; a decision dispatches the queue that the deficit round robin chooses
among those that can be placed, a promoted queue before it, and decides nothing where none can; the round robin dispatches the queue at its cursor
once its deficit pays its cost, which it then does, and else moves on to the next, which gains its weight: the one dispatched keeps what it had and
gained but for its cost, and every other all of it. -/
def Sys2Proof.Claims.DispatchDecisions : Prop :=
  (∀ s m v, Owns s m → ∃ t, exec (.pmapWrite m v) s = .next t ∧
    t.withdrawn = (if bits v.toNat 63 63 = 1 then mapMembers (Memory.read s.mem (bits v.toNat 47 6 * 64) 512) else []) ∧
    (Canonical s → t.reg64 0x280010 = bits v.toNat 63 63 * 2 ^ 63 + bits v.toNat 47 0) ∧ t.mem = s.mem ∧ t.teams = s.teams) ∧
  (∀ s, s.unitStopped .queues = true → exec .dispatchDecision s = .next s) ∧
  (∀ s b, s.unitStopped .queues = false → b = s.beforeDecision →
    (∀ q pos, b.promoted.find? (fun q => b.readyQueues.contains q) = some q → b.placeOf q = some pos →
      exec .dispatchDecision s = .next (b.dispatch q pos b.readyQueues).zeroDeficits) ∧
    (∀ h hd hc hp q defs cur p pos, b.promoted.find? (fun q => b.readyQueues.contains q) = none →
      b.choose b.readyQueues = some (h, hd, hc, hp) → (b.placeOf h).isSome = true →
      b.choose (b.readyQueues.filter (fun q => (b.placeOf q).isSome)) = some (q, defs, cur, p) → b.placeOf q = some pos →
      exec .dispatchDecision s
        = .next ((({ b with cursors := AMap.set b.cursors p cur } : State).setDeficits defs).dispatch q pos b.readyQueues).zeroDeficits) ∧
    (b.readyQueues = [] → exec .dispatchDecision s = .next b.zeroDeficits)) ∧
  (∀ s t q v, exec .dispatchDecision s = .next t → s.unitStopped .queues = false → AMap.get? t.queues q = some v → q ∉ t.readyQueues →
    v.deficit = 0) ∧
  (∀ cost weight qs fuel defs cur q d c, roundRobin cost weight qs fuel defs cur = some (q, d, c) →
    c = q ∧ q ∈ qs) ∧
  (∀ cost weight qs fuel defs cur k, k = AMap.getD defs cur 0 → cur ∈ qs → cost cur ≤ k →
    roundRobin cost weight qs (fuel + 1) defs cur = some (cur, AMap.set defs cur (k - cost cur), cur)) ∧
  (∀ cost weight qs fuel defs cur n, (cur ∉ qs ∨ AMap.getD defs cur 0 < cost cur) → n = nextAfter cur qs →
    roundRobin cost weight qs (fuel + 1) defs cur = roundRobin cost weight qs fuel (AMap.set defs n (AMap.getD defs n 0 + weight n)) n) ∧
  (∀ cost weight qs fuel defs cur q d c, roundRobin cost weight qs fuel defs cur = some (q, d, c) →
    (∃ visits, AMap.getD d q 0 + cost q = AMap.getD defs q 0 + visits * weight q) ∧
    (∀ x, x ≠ q → ∃ visits, AMap.getD d x 0 = AMap.getD defs x 0 + visits * weight x))

/-- R101, R103, R105, R138: the threads of a group that starts: one for each member, in lane 4b + i, at the first word after the launch header, in the
kernel mode of its launch, with the launch's registers and words, and a lane slice that reads zero. -/
def Sys2Proof.Claims.GroupStart : Prop :=
  ∀ (s : State) (g : GroupId) (l : Launch) (b i : Nat), i < l.header.width → ∃ slot n,
    (s.startGroup g l b).thread? (memberOf g i)
      = some { Thread.start (4 * b + i) slot l.header.regs l.words (BitVec.ofNat 48 ((l.entry + 64) / 4 * 4)) l.header.pin with
          view := View.upTo n } ∧ s.hist.length < n ∧
    slot < 16 ∧ (∀ a, a < l.header.slice → Memory.get (s.startGroup g l b).mem (laneBase g.core (4 * b + i) slot + a) = 0) ∧
    (s.startGroup g l b).teams = s.teams

/-- R29, R109, R115 to R119: a stopped team that is to be flushed is discarded, and one that is to be saved leaves with its context in the save area;
a team that drains too long is saved; the longest-parked active group, or the one with the most issues, gives its place to a ready pending group, at
most once in a cycle of their core, and neither issues for 2 cycles. That a team leaves only once all of its cluster has stopped is the model's choice
(log entry 55). -/
def Obligations.TeamsLeaveAndSwap : Prop :=
  (∀ s id v, s.team? id = some v → v.ended = false → v.action = some .flush → s.clusterStopped v.cluster = true →
    ∃ t, exec (.teamFlush id) s = .next t ∧ t.team? id = none ∧ (∀ p ∈ t.threads, p.1.teamId ≠ id) ∧ t.mem = s.mem ∧
      (∀ i, i ≠ id → t.team? i = s.team? i)) ∧
  (∀ s id v, s.team? id = some v → v.ended = false → v.action = some .save → s.clusterStopped v.cluster = true →
    (s.areaUsed + s.contextBytes id v ≤ s.ctxlen → ∃ t, exec (.teamSave id) s = .next t ∧ t.team? id = none ∧
      (∀ p ∈ t.threads, p.1.teamId ≠ id) ∧
      (Canonical s → ∀ a, a < s.ctxbase + s.areaUsed ∨ s.ctxbase + s.areaUsed + s.contextBytes id v ≤ a → Memory.get t.mem a = Memory.get s.mem a) ∧
      ∃ c ∈ t.saved, c.number = v.cluster ∧ ∃ w ∈ c.teams, w.core = id.core ∧ w.teamid = id.team ∧ w.bytes = s.contextBytes id v ∧
        w.co = Memory.slice s.mem (scratchPa id.core v.coBase) v.coBytes) ∧
    (s.ctxlen < s.areaUsed + s.contextBytes id v → exec (.teamSave id) s = .next s)) ∧
  (∀ s id v, s.team? id = some v → s.clusterStopped v.cluster = false →
    exec (.teamFlush id) s = .next s ∧ exec (.teamSave id) s = .next s) ∧
  (∀ s id v since, s.team? id = some v → v.action = some (.drain since) → v.ended = false →
    (since + 2 ^ 22 ≤ v.ncyc → exec (.drainTimeout id) s = .next (s.modTeam id (fun t => { t with action := some .save }))) ∧
    (v.ncyc < since + 2 ^ 22 → exec (.drainTimeout id) s = .next s)) ∧
  (∀ s core g v e, s.readyPending core = some e → g ∈ (s.core core).active → s.group? g = some v → g.core = core →
    ((s.core core).swapT ≤ v.parkedFor → s.ready g = false →
      (∀ h ∈ (s.core core).active, h ≠ g → ∀ w, s.group? h = some w → w.parkedFor < v.parkedFor) →
      exec (.parkSwap core) s = .next (s.exchange g)) ∧
    (s.longWaiting core = true → (∀ h ∈ (s.core core).active, h ≠ g → ∀ w, s.group? h = some w → w.issues < v.issues) →
      exec (.issueSwap core) s = .next (s.exchange g)) ∧
    ((s.core core).swapped ≠ (s.core core).cycle →
      ((s.exchange g).core core).active = (s.core core).active.filter (fun x => decide (x ≠ g)) ++ [e] ∧
      ((s.exchange g).core core).pending = (s.core core).pending.filter (fun x => decide (x ≠ e)) ++ [g] ∧
      ((s.exchange g).core core).swapped = (s.core core).cycle ∧
      (∀ h w, (h = g ∨ h = e) → (s.exchange g).group? h = some w → w.held = (s.core core).cycle + 2)) ∧
    ((s.core core).swapped = (s.core core).cycle → s.exchange g = s) ∧
    (s.exchange g).threads = s.threads) ∧
  (∀ s core, (∀ g ∈ (s.core core).pending, s.ready g = true → ∀ v, s.group? g = some v → v.waited < 4096) →
    exec (.issueSwap core) s = .next s) ∧
  (∀ s core n, 16 ≤ n → n ≤ 4096 → exec (.swapThresholdAdjust core n) s = .next (s.modCore core (fun k => { k with swapT := n })))

/-- R51, R121 to R123: a stop request of the owner asks every unit to stop, once; a unit that stops at its boundary is noted, and with the last the
device has stopped; a receiver numbers what arrives, and keeps it for a stopped unit in the save area; a resume ends the stop and hands over what was
kept in ascending number, and is ignored before the stop. That a stop request clears savefail, and how the flits of a receiver are numbered and kept,
are the model's choice (log entries 56 and 57). -/
def Obligations.ConsistentCut : Prop :=
  (∀ s m i k, Owns s m → ((i = .cutStop m ∧ k = false) ∨ (i = .cutStopSave m ∧ k = true)) →
    (s.cut.isStopped = false → s.cut.stopping = false →
      exec i s = .next { s with cut := { s.cut with stopping := true, save := k, saveFail := false, chosen := [], units := [] } }) ∧
    (s.cut.isStopped = false → s.cut.stopping = true →
      exec i s = .next { s with cut := { s.cut with save := s.cut.save || k } }) ∧
    (s.cut.isStopped = true → (k = false ∨ s.cut.save = true) → exec i s = .next s)) ∧
  (∀ s u, s.cut.stopping = true → s.cut.units.contains u = false → s.unitAtBoundary u = true →
    ∃ t, exec (.unitStop u) s = .next t ∧ t.cut.units = s.cut.units ++ [u] ∧ t.mem = s.mem ∧
      (t.cut.isStopped = false → t.cut.stopping = true ∧ ∃ x ∈ t.cutUnits, t.cut.units.contains x = false)) ∧
  (∀ s rx cls payload n, n = AMap.getD s.cut.rxSeq (rx, cls) 0 →
    (s.flitStopped payload = true → ∃ t, exec (.stoppedUnitFlit rx cls payload) s = .next t ∧ t.cut = { s.cut with
        rxSeq := AMap.set s.cut.rxSeq (rx, cls) (n + 1), flits := s.cut.flits ++ [(rx, cls, n, payload)] } ∧ t.threads = s.threads ∧
      (Canonical s → ∀ a, a < s.ctxbase + s.areaUsed ∨ s.ctxbase + s.areaUsed + flitSize payload ≤ a → Memory.get t.mem a = Memory.get s.mem a)) ∧
    (s.flitStopped payload = false → exec (.stoppedUnitFlit rx cls payload) s = .next (({ s with cut := { s.cut with
      rxSeq := AMap.set s.cut.rxSeq (rx, cls) (n + 1), handed := s.cut.handed ++ [(rx, cls, n, payload)] } } : State).deliverFlit payload))) ∧
  (∀ (s : State) b, (s.cut.stopping = true ∨ s.cut.isStopped = true) → s.flitStopped (.raw b) = true) ∧
  (∀ (s : State) id k b, (s.flitStopped (.answer id k b) = true ↔ .thread id ∈ s.cut.units) ∧
    (s.flitStopped (.element id k b) = true ↔ .thread id ∈ s.cut.units)) ∧
  (∀ s m, Owns s m →
    (s.cut.isStopped = true → ∃ r u : State, ∃ l, l.Perm s.cut.flits ∧ l.Pairwise (fun a b => a.2.2.1 ≤ b.2.2.1) ∧
      r.cut = { s.cut with save := false, isStopped := false, saving := false, chosen := [], units := [], flits := [], handed := s.cut.handed ++ l } ∧
      r.threads = s.threads ∧ r.mem = s.mem ∧
      (∀ id v, s.team? id = some v → r.team? id = some (if v.action = some .save ∧ id ∈ s.cut.chosen then { v with action := none } else v)) ∧
      u = l.foldl (fun x f => x.deliverFlit f.2.2.2) r ∧
      exec (.cutResume m) s = .next (u.groups.foldl (fun x p => (x.turnouts p.1.teamId).meet p.1) u)) ∧
    (s.cut.isStopped = false → exec (.cutResume m) s = .next s)) ∧
  (∀ (s : State) id k r, (∀ e, s.entryAt id k = some e → s.deliverFlit (.answer id k r) = (s.entryReturn id e r []).lookAgain id) ∧
    (∀ t q, s.thread? id = some t → t.stream k = some q → q.write = false → s.deliverFlit (.element id k r) = s.fetchStep id k q r []))

/-! ### Services, accesses and faults -/

/-- R111 to R113, R187: a batch closes 64 cycles after its first call; a closed batch takes the next free slot of its ring, with state 1, and signals
the service core; an answered slot resumes its members and is freed, none of them in a cut: an `svc` gets its words, a translation fault is tried
again or denied; a walk that finds a page enters it into the TLB of its die, and of a core; which translations the TLBs keep, and that the row says
when a die had evicted a page, is the model's choice (log entry 68). A batch of a halted group waits, unless one of its members is stepped. -/
def Obligations.ServiceEvents : Prop :=
  (∀ s g kind, ∃ t, exec (.serviceBatchTimeout g kind) s = .next t ∧ t.threads = s.threads ∧ t.mem = s.mem ∧
    ∀ (k : Nat) b, s.service.batches[k]? = some b → t.service.batches[k]? = some
      (if b.group = g ∧ b.kind = kind ∧ b.closed = false ∧ b.opened + 64 ≤ s.groupCycles g then { b with closed := true } else b)) ∧
  (∀ s k b ring next core n, s.service.batches[k]? = some b → b.closed = true → b.slot = none →
    AMap.get? s.service.rings b.die = some (ring, next, core) → s.freeSlot b.die ring next = some n →
    ∃ u : State, exec (.serviceBatchPost k) s = .next (u.latchCore core) ∧ u.service.batches = s.service.batches.set k { b with slot := some n } ∧
      u.service.rings = AMap.set s.service.rings b.die (ring, (n + 1) % 64, core) ∧ u.threads = s.threads ∧
      (Canonical s → u.read (slotPa ring n + 16) 4 = 1 ∧ ∀ a, a < slotPa ring n → Memory.get u.mem a = Memory.get s.mem a)) ∧
  (∀ s die slot ring next core b, AMap.get? s.service.rings die = some (ring, next, core) → slot < 64 →
    s.read (slotPa ring slot + 16) 4 = 2 → s.service.batches.find? (fun b => b.slot == some slot && b.die == die) = some b →
    s.cut.stopping = false → s.cut.isStopped = false → s.batchHalted b = false →
    ∀ u pa, pa = slotPa ring slot → u = ({ s with service := { s.service with
      batches := s.service.batches.filter (fun x => !(x.slot == some slot && x.die == die)) } } : State) →
    (b.kind ≠ 2 → exec (.serviceAnswer die slot) s
      = .next ((b.calls.foldl (fun r c => r.resumeMember b pa c) u).write (pa + 16) 4 0)) ∧
    (b.kind = 2 → (s.answer pa 0).1 = 0 → exec (.serviceAnswer die slot) s = .next (u.write (pa + 16) 4 0)) ∧
    (b.kind = 2 → (s.answer pa 0).1 ≠ 0 → exec (.serviceAnswer die slot) s = .next ((u.denyEngine b.engine).write (pa + 16) 4 0))) ∧
  (∀ s die slot, (s.cut.stopping = true ∨ s.cut.isStopped = true) → exec (.serviceAnswer die slot) s = .next s) ∧
  (∀ (s : State) (b : ServiceBatch), s.batchHalted b = true ↔ b.kind < 2 ∧ (∃ v, s.group? b.group = some v ∧ v.halted = true) ∧
    ∀ c ∈ b.calls, ∀ t, s.thread? (b.thread c) = some t → s.stepsNow (b.thread c) t = false) ∧
  (∀ (s : State) (b : ServiceBatch) pa c t w0 w1, s.thread? (b.thread c) = some t → t.wait = .call → b.kind = 0 → b.engine = .none →
    s.answer pa c.member = (w0, w1) →
    ∃ u e, (s.resumeMember b pa c).thread? (b.thread c) = some u ∧ u.log = t.log ++ [e] ∧ e.state = .returned [(c.dst, w0), (c.dst + 1, w1)] ∧
      (s.staysPut (b.thread c) t = false → t.stepping = false → u.pc = t.pc + 4 ∧ u.nret = t.nret + 1 ∧ u.wait = .run) ∧
      (s.staysPut (b.thread c) t = true → u.pc = t.pc ∧ u.nret = t.nret ∧ u.wait = .done)) ∧
  (∀ (s : State) (b : ServiceBatch) pa c t back, s.thread? (b.thread c) = some t → t.wait = .service back → b.kind = 1 → b.engine = .none →
    ((s.answer pa c.member).1 = 0 → ∃ u, (s.resumeMember b pa c).thread? (b.thread c) = some u ∧ u.pc = t.pc ∧
      flaggedOf u.log = [] ∧ u.log.length = t.log.length ∧ u.wait = if t.log.isEmpty then .run else back) ∧
    ((s.answer pa c.member).1 ≠ 0 → t.handling = false → t.trapsOn = true → ∃ u, (s.resumeMember b pa c).thread? (b.thread c) = some u ∧
      u.pc = t.handler ∧ u.tcause = 0x07 ∧ u.tvalHi ++ u.tval = c.addr ∧ u.kept = t.log ∧ u.log = [])) ∧
  (∀ s die asid page l1 fresh, (2 ^ 32 ≤ page ∨ ∃ c, l1 = some c ∧ dieOf c ≠ die) →
    exec (.translationWalk die asid ⟨page, l1, fresh⟩) s = .next s) ∧
  (∀ s die asid page l1 fresh e b u, page < 2 ^ 32 → (∀ c, l1 = some c → dieOf c = die) →
    u = (if fresh then s.forgetPage die asid (page * 65536) else s) →
    ((u.cachedLeaf (.die die) asid (page * 65536)).orElse (fun _ => u.walkVia die asid (page * 65536))) = some (e, b) →
    ∃ t, exec (.translationWalk die asid ⟨page, l1, fresh⟩) s = .next t ∧ t.mem = s.mem ∧ t.threads = s.threads ∧
      TlbEntry.mk (.die die) asid page e b ∈ t.tlb ∧ (∀ c, l1 = some c → TlbEntry.mk (.core c) asid page e b ∈ t.tlb)) ∧
  (∀ s die asid page l1 u, page < 2 ^ 32 → (∀ c, l1 = some c → dieOf c = die) → u = s.forgetPage die asid (page * 65536) →
    u.walkVia die asid (page * 65536) = none → exec (.translationWalk die asid ⟨page, l1, true⟩) s = .next u)

/-- R147, R148, R152, R154, R191, R219: an access of the operand log that nothing holds back is performed by ACCESS_RETURN; a parked thread whose
accesses have all returned commits: it writes its results and goes on, traps on a flagged entry, or delivers a pending cause. That a thread which
something stops commits where it waits is the model's choice (log entry 101). -/
def Sys2Proof.Claims.ReturnsAndCommits : Prop :=
  (∀ s id k t e r ev pick u, s.thread? id = some t → t.log.find? (fun e => e.index == k) = some e → e.state = .pending →
    u = s.evictLines ev → u.blocked id e.stamp e.kernel e.access = false → u.transportHolds (u.accessParts id e.kernel e.access) = false →
    exec (.accessReturn id (.entry k) r ⟨ev, pick, false⟩) s = .next ((((u.startAccess id e pick).usedIf
      (fun x => decide (x.entryAt id k ≠ some e)) (u.accessParts id e.kernel e.access)).barriers id.teamId).meet id.group)) ∧
  (∀ s id n b r ev pick u, u = s.evictLines ev → u.buffer.find? (fun b => decide (b.thread = id) && b.stamp == n) = some b →
    u.transportHolds b.parts = false →
    exec (.accessReturn id (.buffered n) r ⟨ev, pick, false⟩) s
      = .next ((((u.performStore b pick).usedIf (fun x => decide (x.buffer ≠ u.buffer)) b.parts).barriers id.teamId).meet id.group)) ∧
  (∀ s id t, s.thread? id = some t → (∃ l, t.wait = .marker false l) → allReturned t.log = true → flaggedOf t.log = [] →
    exec (.markerCommit id) s = .next (s.setThread id { (t.commit t.log).ordered with log := [], wait := .committed })) ∧
  (∀ s id t l u, s.thread? id = some t → t.wait = .marker true l → allReturned t.log = true → flaggedOf t.log = [] →
    u = { (t.commit t.log).ordered with log := [], wait := Wait.run } →
    (s.deliver id u = none → exec (.markerCommit id) s
      = .next (s.setThread id { u with wait := if l then .leaving else .committed })) ∧
    (∀ r, s.deliver id u = some r → exec (.markerCommit id) s = .next r)) ∧
  (∀ s id t u, s.thread? id = some t → t.wait = .reissue → allReturned t.log = true → flaggedOf t.log = [] →
    u = { (t.commit t.log).ordered with log := [], wait := Wait.run } → exec (.markerCommit id) s = .next (s.setThread id u)) ∧
  (∀ s id t c v u, s.thread? id = some t → t.wait.atMarker = true → allReturned t.log = true → firstTrap (flaggedOf t.log) = some (c, v) →
    u = (t.commit t.log).ordered → exec (.markerCommit id) s = .next (s.trapAt id { u with kept := flaggedOf t.log, log := [] } c.code
      u.firstWord v (tlogOf (flaggedOf t.log)))) ∧
  (∀ s id t, s.thread? id = some t → (t.wait.atMarker = false ∨ allReturned (t.log.filter (fun e => !t.wait.passes e)) = false) →
    (s.commitsToStop id t = false → exec (.markerCommit id) s = .next s) ∧
    (s.commitsToStop id t = true → exec (.markerCommit id) s = .next (s.setThread id { t.commit t.log with log := flaggedOf t.log })))

/-- R215, R217, R218: an error of an access that has left the thread fills its pending slot, and another of the kind is counted and dropped; the
members of a group that a double trap ends are removed once their accesses are performed. -/
def Sys2Proof.Claims.ErrorsAndFaultStops : Prop :=
  (∀ s id tval, exec (.asyncErrorArrival id 0x14 tval) s = .next (s.pend id .uncorrectableMemory tval) ∧
    exec (.asyncErrorArrival id 0x15 tval) s = .next (s.pend id .remoteAccessFailure tval)) ∧
  (∀ s id t g, s.thread? id = some t → s.group? id.group = some g → t.live = true → g.fault.isSome = true → allReturned t.log = true →
    s.storesGone id t = true →
    (s.landed id s.stamp false = true → s.landed id s.stamp true = true → exec (.groupFaultStop id) s = .next (s.removeMember id)) ∧
    ((s.landed id s.stamp false = false ∨ s.landed id s.stamp true = false) → ∃ r, exec (.groupFaultStop id) s = .next r ∧
      r.threads = s.threads ∧ r.mem = s.mem)) ∧
  (∀ s id t g, s.thread? id = some t → s.group? id.group = some g →
    (t.live = false ∨ g.fault = none ∨ allReturned t.log = false ∨ s.storesGone id t = false) →
    exec (.groupFaultStop id) s = .next s)
end

section
open Sys2Proof Sys2Proof.Machine Sys2Proof.Claims

/-! ### Engines -/

/-- R168, R173 to R175, R177, R181, R199, R331: the headgate checks the next request of its oldest batch once the accesses before the `kick` are
performed, and reports one that fails on its barriers; a checked request starts once its tiles allow it; a local piece is read and written, or
fails; the oldest ready entry of the dataflow table is dispatched. -/
def Sys2Proof.Claims.CopyEngine : Prop :=
  (∀ s core b rest id r, (s.core core).batches = b :: rest → id = b.thread.teamId → r = s.read (s.coPa id b.off) 32 →
    s.unitStopped (.headgate core) = false → s.doneBefore b.thread b.stamp = true → 1 < b.left →
    (∀ q, q = CopyReq.mk b.thread b.stamp (s.asidOf id) b.kernel r false (s.rqPieces r) (List.range (s.rqPieces r).length) false s.nextId b.view →
      s.rqOk id r = true → (s.canOwn core q.ranges = false → exec (.copyRequestCheck core) s = .next s) ∧
      (s.canOwn core q.ranges = true → ∃ t, exec (.copyRequestCheck core) s = .next t ∧ t.mem = s.mem ∧ t.threads = s.threads ∧
      (t.core core).copies = (s.core core).copies ++ [q] ∧ (t.core core).ranges = (s.core core).ranges ++ q.ranges ∧
      (t.core core).batches = { b with off := b.off + 32, left := b.left - 1 } :: rest)) ∧
    (s.rqOk id r = false → ∃ t, exec (.copyRequestCheck core) s = .next t ∧ (t.core core).copies = (s.core core).copies ∧
      (t.core core).batches = { b with off := b.off + 32, left := b.left - 1 } :: rest ∧
      AMap.getD t.errs 0x1088 0 = AMap.getD s.errs 0x1088 0 + 1 ∧
      t.mem = (s.arriveAll (s.rqBars id r) (rqLen r) true .none).mem ∧ t.teams = (s.arriveAll (s.rqBars id r) (rqLen r) true .none).teams)) ∧
  (∀ s core b rest, (s.core core).batches = b :: rest → s.unitStopped (.headgate core) = false → s.doneBefore b.thread b.stamp = false →
    exec (.copyRequestCheck core) s = .next (s.pursue b.thread b.stamp)) ∧
  (∀ s core n c, (s.core core).copies.find? (fun c => c.tag == n) = some c → c.started = false → s.unitStopped (.headgate core) = false →
    ((s.rqFills c.thread.teamId c.raw).all (fun t => s.tileIs t (rqTile c.raw) .empty) = true →
      s.rqSourceReady c.thread.teamId c.raw = true → ∃ t, exec (.copyRequestDispatch core n) s = .next t ∧ t.mem = s.mem ∧
        (t.core core).copies.find? (fun c => c.tag == n) = some { c with started := true, view := s.rqView c }) ∧
    (s.rqSourceReady c.thread.teamId c.raw = false → exec (.copyRequestDispatch core n) s = .next s)) ∧
  (∀ s core n k c off len ps f r, (s.core core).copies.find? (fun c => c.tag == n) = some c → c.cuts[k]? = some (off, len) →
    c.started = true → c.pieces.contains k = true → s.pieceSent core n k = false → s.engineWaits (.piece core n k) = false →
    s.unitStopped (.headgate core) = false → ps = s.pieceSource c off len →
    (s.partStop (core, 0) true 0 ps = .go → isFar ps = false →
      exec (.copyPieceComplete core n k f r) s = .next ((s.pieceWrite core c k off len (s.pieceNear c k ps)).useLines ps)) ∧
    (s.partStop (core, 0) true 0 ps = .go → isFar ps = true →
      (s.podFlows ps = false → exec (.copyPieceComplete core n k f r) s = .next s) ∧
      (s.podFlows ps = true → ∀ b, r = .data b → b.length = farBytes ps →
        exec (.copyPieceComplete core n k f r) s = .next ((s.numberReads ps).pieceWrite core c k off len (mergeParts ps (s.pieceNear c k ps) b))) ∧
      (s.podFlows ps = true → (r = .failed ∨ r = .none ∧ f = some .network) → exec (.copyPieceComplete core n k f r) s
        = .next ((s.pend c.thread .remoteAccessFailure (BitVec.ofNat 64 (s.pieceAddr c off))).pieceRefused core c k off len 0))) ∧
    (∀ code, s.partStop (core, 0) true 0 ps = .fail code → exec (.copyPieceComplete core n k f r) s = .next (s.pieceRefused core c k off len code)) ∧
    (∀ i, s.partStop (core, 0) true 0 ps = .poison i → exec (.copyPieceComplete core n k f r) s = .next ((s.pend c.thread .uncorrectableMemory
      (spaceVa (rqSsp c.raw) (s.pieceAddr c off + i))).pieceRefused core c k off len 0)) ∧
    (s.partStop (core, 0) true 0 ps = .wait → exec (.copyPieceComplete core n k f r) s = .next s) ∧
    (∀ va, s.partStop (core, 0) true 0 ps = .missing va → exec (.copyPieceComplete core n k f r) s
      = .next (s.engineBatch ⟨core, c.thread.team, 0⟩ (dieOf core) c.asid va 0 (.piece core n k)))) ∧
  (∀ s core i e, (s.core core).flow[i]? = some e → s.flowReady core e = true →
    (∀ (j : Nat) x, j < i → (s.core core).flow[j]? = some x → s.flowReady core x = false) →
    exec (.dataflowDispatch core) s = .next (s.flowStart core i e)) ∧
  (∀ s core, (∀ x ∈ (s.core core).flow, s.flowReady core x = false) → exec (.dataflowDispatch core) s = .next s)

/-- R179, R333: an element of a chain is read; the chain's words run on it in order, from its value in register 0 and the constants in registers 8 to
15, and give the value that is written, as soon as no format check of another element can stop the chain; or the element fails. 4 bytes arrive on its
barriers either way. -/
def Sys2Proof.Claims.FlumeEngine : Prop :=
  (∀ s core n k c a ps r, (s.core core).chains.find? (fun c => c.tag == n) = some c → c.pending.contains k = true →
    s.engineWaits (.element core n k) = false → s.unitStopped (.flume core) = false → a = descSrc c.desc + 4 * k →
    (∀ x, AMap.get? c.ready k = some x →
      ((∀ j ∈ c.pending, (AMap.get? c.ready j).isSome = true) → exec (.flumeElement core n k r) s = .next (s.elementWrite core c k x)) ∧
      ((∃ j ∈ c.pending, AMap.get? c.ready j = none) → exec (.flumeElement core n k r) s = .next s)) ∧
    (AMap.get? c.ready k = none → (s.elementInSpace c (descSsp c.desc) a = false ∨ s.elementInSpace c (descDsp c.desc) (descDst c.desc + 4 * k) = false) →
      exec (.flumeElement core n k r) s = .next (s.elementDone core c k true)) ∧
    (AMap.get? c.ready k = none → s.elementInSpace c (descSsp c.desc) a = true → s.elementInSpace c (descDsp c.desc) (descDst c.desc + 4 * k) = true →
      ps = s.engineParts c.thread c.kernel (descSsp c.desc) a 4 .load →
      (s.partStop (core, 1) true 0 ps = .go → isFar ps = false →
        exec (.flumeElement core n k r) s = .next (s.elementValue core c k
          (BitVec.ofNat 32 (leNat (s.engineRead c.thread.teamId c.view c.tag k (memRanges ps)))))) ∧
      (s.partStop (core, 1) true 0 ps = .go → isFar ps = true →
        (s.podFlows ps = false → exec (.flumeElement core n k r) s = .next s) ∧
        (s.podFlows ps = true → ∀ b, r = .data b → b.length = farBytes ps → exec (.flumeElement core n k r) s
          = .next ((s.numberReads ps).elementValue core c k
              (BitVec.ofNat 32 (leNat (mergeParts ps (s.engineRead c.thread.teamId c.view c.tag k (memRanges ps)) b))))) ∧
        (s.podFlows ps = true → r = .failed → exec (.flumeElement core n k r) s
          = .next (((s.numberReads ps).pend c.thread .remoteAccessFailure (BitVec.ofNat 64 a)).elementDone core c k true))) ∧
      (∀ code, s.partStop (core, 1) true 0 ps = .fail code → exec (.flumeElement core n k r) s = .next (s.elementFail core c k code)) ∧
      (∀ i, s.partStop (core, 1) true 0 ps = .poison i → exec (.flumeElement core n k r) s = .next ((s.pend c.thread .uncorrectableMemory
        (spaceVa (descSsp c.desc) (a + i))).elementDone core c k true)))) ∧
  (∀ (s : State) core c k v x, flumeValue c k v = some x → c.gated = false → s.elementValue core c k v = s.elementWrite core c k x) ∧
  (∀ (s : State) core c k v, flumeValue c k v = none → ∃ u : State, s.elementValue core c k v = u.convEverywhere ∧
    (∀ d ∈ (u.core core).chains, d.tag ≠ c.tag) ∧ u.mem = (s.arriveAll (s.chainBars c) (4 * c.pending.length) true c.view).mem) ∧
  (∀ (s : State) core c k x va ps, va = descDst c.desc + 4 * k → ps = s.engineParts c.thread c.kernel (descDsp c.desc) va 4 .store →
    s.partStop (core, 1) false 0 ps = .go → s.podBlocked c.stamp ps = false → s.podFlows ps = true →
    s.elementWrite core c k x = (s.storeParts (s.engineOrigin c.thread.teamId (descOwns c.desc))
      (BufStore.mk c.thread c.stamp c.stamp c.kernel (.store .gl (BitVec.ofNat 64 va) 4 .plain .dev x.toNat) ps [] false)
      (BitVec.ofNat 64 va) (natBytes 4 x.toNat) 0 ps).elementDone core c k false) ∧
  (∀ c k v word (j : Nat), j < 8 → encode? (.add 0 0 0 (BitVec.ofNat 7 (8 + j))) = some word → descOps c.desc = [word] →
    flumeValue c k v = some (v + (descConsts c.desc).getD j 0)) ∧
  (∀ c k v u ws (d : Ctx), descOps c.desc = u :: ws → flumeWords [u] (Ctx.start State.reset c.thread (flumeThread c k v) 0 .nothing) = some d →
    flumeValue c k v = (flumeWords ws d).map (fun e => e.th.reg 0))

/-- R137, R199, R337, R338, R340, R342, R345: the head of the matrix engine's order starts once the accesses of its signers are performed; when it
completes it has written its accumulator or tile and leaves the order; a chunk of an `ssx` writes its outputs and is recorded; a stop leaves its
record; a withdrawn offer gives pair-timeout. -/
def Obligations.MatrixEngine : Prop :=
  (∀ s core o rest, (s.core core).matrix = o :: rest → o.started = false → s.unitStopped (.matrix core) = false →
    (s.released o = true → (∀ a b c, o.op ≠ .mmap a b c) → (∀ w, o.op ≠ .mst w) → (∀ a, o.op ≠ .ssx a) →
      exec (.matrixOpStart core) s = .next (s.modCore core (fun k => { k with matrix := { o with started := true } :: rest }))) ∧
    (s.released o = false → exec (.matrixOpStart core) s = .next (s.pursueOp o))) ∧
  (∀ s core o acc rest, (s.core core).matrix = o :: rest → o.started = true → o.op = .mzero acc →
    exec (.matrixOpComplete core) s = .next ((s.runMatrix o).modCore core Core.popHead).convEverywhere ∧
      (∀ a, s.cistPa o.team (16384 * acc) ≤ a → a < s.cistPa o.team (16384 * acc) + 16384 → Memory.get (s.runMatrix o).cist a = 0) ∧
      (∀ a, a < s.cistPa o.team (16384 * acc) ∨ s.cistPa o.team (16384 * acc) + 16384 ≤ a →
        Memory.get (s.runMatrix o).cist a = Memory.get s.cist a)) ∧
  (∀ s core o rest m w l u, Canonical s → (s.core core).matrix = o :: rest → o.started = true → o.op = .mma w l u → o.side o = some m →
    s.metadataOk m = true → exec (.matrixOpComplete core) s = .next ((s.runMatrix o).modCore core Core.popHead).convEverywhere ∧
    ∀ i j, i < 64 → j < 64 → Memory.readLE (s.runMatrix o).cist (s.cistPa o.team (16384 * opAcc m.wordB + 4 * (64 * i + j))) 4
      = s.mmaElem m i j (Memory.readLE s.cist (s.cistPa m.teamB (16384 * opAcc m.wordB + 4 * (64 * i + j))) 4) % 2 ^ 32) ∧
  (∀ s core o rest off c, (s.core core).matrix = o :: rest → o.started = true → o.op = .ssx off → c = ssbDone o.ssb →
    s.engineWaits (.ssx core) = false → s.cut.stopping = false → s.teamStops o.team = false →
    (ssbC o.ssb ≤ c → exec (.ssxChunkComplete core) s = .next (s.ssxEnd core o false)) ∧
    (∀ rs ws, c < ssbC o.ssb → s.reachAll o core .load (ssbReads o.ssb c) = .ok rs → s.reachAll o core .store (ssbWrites o.ssb c) = .ok ws →
      exec (.ssxChunkComplete core) s = .next (s.chunkDone core o c (s.chunkOut o c rs) ws)) ∧
    (∀ va, c < ssbC o.ssb → s.reachAll o core .load (ssbReads o.ssb c) = .error (.missing va) → exec (.ssxChunkComplete core) s
      = .next (s.engineBatch ⟨core, o.team.team, 3⟩ (dieOf core) o.asid (BitVec.ofNat 64 va) 0 (.ssx core)))) ∧
  (∀ s core o rest off written, (s.core core).matrix = o :: rest → o.started = true → o.op = .ssx off →
    (s.cut.stopping = true ∨ s.teamStops o.team = true) →
    ∃ u : State, exec (.ssxStop core written) s = .next u.convEverywhere ∧ (u.core core).matrix = { o with started := false, paired := none } :: rest ∧
      u.threads = s.threads) ∧
  (∀ s id g t c n, s.team? id = some t → t.conv[g]? = some c → c.offered = some n →
    (n + 2 ^ 24 ≤ t.ncyc → exec (.pairTimeout id g) s = .next (c.sigs.foldl (fun s x => s.pend x.thread .pairTimeout
      (BitVec.ofNat 64 (partnerCore id.core))) (s.convDone id g c false))) ∧
    (t.ncyc < n + 2 ^ 24 → exec (.pairTimeout id g) s = .next s))

/-! ### Waits -/

/-- R144, R168, R172, R204, R296, R299, R320 to R323, R330, R346, R352, R353: the rows that end a wait go on exactly where what the thread waits for
has come, and then retire the instruction or let it issue; a stream element is fetched in order. That an element without a translation forms a batch
of its own with the service team is the model's choice (log entry 15). -/
def Obligations.WaitsEnd : Prop :=
  (∀ s id t, s.thread? id = some t →
    (∀ k, t.wait = .tile k false → exec (.tileWaitRelease id) s
      = .next (if s.tileBusy id.teamId k then s else s.setThread id { t with wait := .committed })) ∧
    (∀ k x, t.wait = .tile k true → s.tile? id.teamId k = some x → exec (.tileWaitRelease id) s
      = .next (if x.state = .ready then s.setThread id { t with wait := .committed } else s)) ∧
    (s.staysPut id t = true → exec (.counterWaitRelease id) s = .next s ∧ exec (.fenceComplete id) s = .next s) ∧
    (∀ k n c, t.wait = .counter k n c →
      (s.staysPut id t = false → n.toNat ≤ s.ctrValue k → exec (.counterWaitRelease id) s
        = .next (((if c = .pod ∨ c = .glb then s.clearPodBuf id.core else s).sees id (s.ctrView id k (waitScope c))).complete id)) ∧
      (s.ctrValue k < n.toNat → exec (.counterWaitRelease id) s = .next s)) ∧
    (∀ b p, t.wait = .bwait b p → exec (.bwaitRelease id) s
      = .next (if (s.barValue b).getLsbD 63 = p then s else (s.seesCounted id b).complete id)) ∧
    (t.wait = .drain → s.buffer.any (fun b => decide (b.thread = id) && b.access.nonTemporal) = true →
      exec (.fenceComplete id) s = .next s) ∧
    (t.wait = .drain → s.staysPut id t = false → s.buffer.any (fun b => decide (b.thread = id) && b.access.nonTemporal) = false →
      s.awaited id s.stamp true = [] → s.landed id s.stamp true = true → s.flushing id = false → exec (.fenceComplete id) s
        = .next (((s.setThread id { t with wrote := max t.wrote (lastWrite (s.agent id) 0 s.hist) }).pardon id).complete id)) ∧
    (∀ c n, t.wait = .fence c n → s.staysPut id t = false → s.doneBefore id n = true →
      (s.releaseReady n c (some id) = true → s.flushing id = false → exec (.fenceComplete id) s
        = .next ((((if c = .pod ∨ c = .glb then s.clearPodBuf id.core else s).passFence id c).pardon id).complete id)) ∧
      (s.releaseReady n c (some id) = false → exec (.fenceComplete id) s = .next (s.pursueRelease n c (id, 0)))) ∧
    (∀ c n, t.wait = .fence c n → s.staysPut id t = false → s.doneBefore id n = false → exec (.fenceComplete id) s = .next (s.pursue id n)) ∧
    (∀ rank peer n, t.wait = .pflush rank peer n true → s.staysPut id t = false → exec (.fenceComplete id) s
      = .next (if s.flushing id then s else (s.pardon id).complete id)) ∧
    (∀ o d, t.wait = .ssq o d → (s.ssqValue id.teamId o).msb = true → exec (.ssqWaitRelease id) s = .next s) ∧
    (∀ o d, t.wait = .ssq o d → (s.ssqValue id.teamId o).msb = false → t.stepping = false → s.staysPut id t = false → ∃ r u e,
      exec (.ssqWaitRelease id) s = .next r ∧ r.thread? id = some u ∧ u.pc = t.pc + 4 ∧ u.wait = .run ∧ u.log = t.log ++ [e] ∧
      e.state = .returned [(d, s.ssqValue id.teamId o)]) ∧
    (∀ va sel, t.wait = .tlbinv va sel → ∀ l r u, l = s.tlb.filter (fun e => !e.named va sel) →
      r = s.walks.filter (fun e => !e.named va sel) → u = ({ s with tlb := l, walks := r } : State) →
      exec (.tlbinvComplete id) s = .next (if u.namedLeft va sel then u else u.complete id)) ∧
    (∀ n, t.wait = .park n → exec (.parkExpire id) s = .next (if n ≤ s.ncyc id.teamId then s.complete id else s)) ∧
    (∀ n, t.wait = .wfe (some n) → exec (.wfeTimeout id) s = .next (if n ≤ s.ncyc id.teamId then s.complete id else s)) ∧
    (t.wait = .wfe none → exec (.wfeTimeout id) s = .next s) ∧
    (∀ k q p r back u w, t.live = true → t.stream k = some q → q.write = false → q.arriving = [] →
      u = s.useLines (s.parts id q.kernel q.space (q.elemAddr q.fetched) q.size .load) → u.fetches id q = true → p = q.refetch →
      w = u.modStream id k Stream.refetch → p.fetched < p.total → w.engineWaits (.stream id k) = false →
      (∀ c code, w.elemBad id p (p.elemAddr p.fetched) = some (c, code) →
        (c = .translation → exec (.streamElementFetch id k ⟨r, back⟩) s = .next (w.streamBatch id k (p.elemAddr p.fetched) 0)) ∧
        (c ≠ .translation → exec (.streamElementFetch id k ⟨r, back⟩) s
          = .next ((w.countCode code).putElement id k (.fault c (p.elemAddr p.fetched))))) ∧
      (∀ ps, w.elemBad id p (p.elemAddr p.fetched) = none → ps = w.parts id p.kernel p.space (p.elemAddr p.fetched) p.size .load →
        w.blocked id p.stamp p.kernel (.load p.space (p.elemAddr p.fetched) p.size .plain .dev 0) = false →
        ps.any w.partHeld = false → w.transportHolds ps = false →
        (∀ i, w.partsPoison ps 0 = some i → exec (.streamElementFetch id k ⟨r, back⟩) s = .next ((w.pend id .uncorrectableMemory
          (spaceAddr p.space (p.elemAddr p.fetched) + BitVec.ofNat 64 i)).openElement id k p)) ∧
        (∀ b now, w.partsPoison ps 0 = none → now = w.partsNow id false (w.loadOf none [w.readerOf id (memRanges ps)] back).2 ps →
          partsBytes now = some b → ∃ v x m, exec (.streamElementFetch id k ⟨r, back⟩) s = .next v ∧ v.thread? id = some x ∧ v.mem = s.mem ∧
            x.stream k = some { p with fetched := p.fetched + 1, fifo := p.fifo ++ [.data (leNat b) m], arriving := [], shows := .none }))) ∧
    (∀ k q r back u, t.live = true → t.stream k = some q → q.write = true →
      u = s.useLines (s.parts id q.kernel q.space (q.elemAddr q.fetched) q.size .load) →
      exec (.streamElementFetch id k ⟨r, back⟩) s = .next ((u.performElement id k q back).streamDrained id))) ∧
  (∀ (s : State) id t, s.thread? id = some t →
    (s.staysPut id t = true → s.complete id = s.setThread id { t with wait := .done }) ∧
    (s.staysPut id t = false → t.stepping = false →
      s.complete id = s.setThread id { t with pc := t.pc + 4, nret := t.nret + 1, hints := [], wait := .run }))
end

section
open Sys2Proof Sys2Proof.Machine Sys2Proof.Claims

/-! ### The transport and the pod -/

/-- Something of a class of traffic reaches this device from a rank, on a port that is up: the given one, or the first of the kind that serves the
rank; `u` is the state once the port's receiver has numbered it (R38, R51). -/
def Sys2Proof.Claims.Hears (s : State) (rank : Nat) (port : Option Nat) (cls : Nat) (u : State) : Prop :=
  ∃ p, s.portUp p = true ∧ u = s.numberFlit p cls ∧ (port = some p ∨ port = none ∧
    (List.range 26).find? (fun p => (decide (18 ≤ p) == (match s.pathOf rank with
      | some (.pod _) => false
      | _ => true)) && s.portUp p) = some p)

/-- R46, R47, R49, R50, R71: an arriving packet is acknowledged again, discarded, asked for again, refused or taken, in the order of R49, and a
placed write is in memory; the source sends while its transport runs and the job is enabled, fails a message on a refusal or after 16 transmissions,
and sends again what is asked for. That each packet, acknowledgement and response that a port takes counts as one flit of its class is the model's
choice (log entry 57). -/
def Obligations.EthernetTransport : Prop :=
  (∀ s p r u, Hears s p.source (some (18 + p.port)) (packetClass p.kind) u → r = s.receiver p.source →
    (r.accepted p.psn = true → exec (.packetArrival p) s = .next (u.sendAck p.source)) ∧
    (r.accepted p.psn = false → 512 < (p.psn - r.cum).toNat → exec (.packetArrival p) s = .next (u.count 0x1058)) ∧
    (r.accepted p.psn = false → (p.psn - r.cum).toNat ≤ 512 →
      (p.trimmed = true → exec (.packetArrival p) s = .next { u with out := s.out ++ [.resend p.source p.psn] }) ∧
      (p.trimmed = false → (s.jobOn = false ∨ p.job ≠ bits (s.reg32 0x40004) 23 0) →
        exec (.packetArrival p) s = .next { u.count 0x1010 with out := s.out ++ [.nack p.source p.psn 1] }) ∧
      (p.trimmed = false → s.jobOn = true → p.job = bits (s.reg32 0x40004) 23 0 → ∀ data sig ctr ps, p.kind = .write data sig ctr →
        u.targetParts p.region (p.offset + p.msgOff) data.length .store p.key sig = .ok ps → u.counterOk ctr = true →
        (ps.any u.partHeld = true → exec (.packetArrival p) s = .next u) ∧
        (ps.any u.partHeld = false → exec (.packetArrival p) s
          = .next (((u.partsWrite (placedBy (.glb p.source) (if sig then none else p.release)) ps data).placed p u.hist.length data.length ctr).acceptPacket
              p.source p.psn))))) ∧
  (∀ s p, s.portUp (18 + p.port) = false → exec (.packetArrival p) s = .next s) ∧
  (∀ s rank psn code cum bitmap ecn data, (∀ p, p < 26 → s.portUp p = false) → exec (.ackReceived rank cum bitmap ecn) s = .next s ∧
    exec (.nackReceived rank psn code) s = .next s ∧ exec (.resendRequestReceived rank psn) s = .next s ∧
    exec (.ethernetResponse rank psn data) s = .next s) ∧
  (∀ s rank, (s.jobOn = false ∨ s.nextMessage rank = none) → exec (.packetSend rank) s = .next s) ∧
  (∀ (s : State) rank m, s.nextMessage rank = some m → (s.cut.stopping = true ∨ s.cut.isStopped = true) → m.sent = 0 → m.body.answered = true ∧
    s.cut.units.contains .transport = false) ∧
  (∀ s rank m b path u v psn, s.jobOn = true → s.nextMessage rank = some m → s.pathOf rank = some .glb → m.rank = rank →
    s.windowRoom rank = true → s.payload m m.sent (min 4096 (m.len - m.sent)) = .bytes b → s.newPath rank = some (path, u) →
    u.takePsn m m.sent path = (v, psn) →
    exec (.packetSend rank) s = .next ((v.emit m psn path m.sent b).modMessage m.number (fun m => { m with
      sent := m.sent + min 4096 (m.len - m.sent) })) ∧ psn = AMap.getD u.net.nextPsn rank 0 ∧ AMap.getD v.net.nextPsn rank 0 = psn + 1) ∧
  (∀ (s : State) m psn path off b, (s.flows (s.routeOf m path).port = false → s.emit m psn path off b = s) ∧
    (s.flows (s.routeOf m path).port = true → (∀ e n, m.body = .load e n → s.emit m psn path off b
      = { s with out := s.out ++ [.packet m.rank (s.routeOf m path) (s.packetOf m psn off b)] }))) ∧
  (∀ s rank psn w m, s.inWindow rank psn = some (w, m) →
    (∀ u, Hears s rank none 5 u →
      (∀ code, code ≠ 0 → exec (.nackReceived rank psn code) s = .next (u.failMessage m)) ∧
      (w.acked = true → exec (.resendRequestReceived rank psn) s = .next u) ∧
      (w.acked = false → exec (.resendRequestReceived rank psn) s = .next (if 16 ≤ w.sends then u.failMessage m else u.resendPacket w m))) ∧
    (m.pod = true → m.acked = 3 → exec (.retransmissionTimeout rank psn) s = .next ((s.count 0x1070).failMessage m)) ∧
    (m.pod = true → m.acked ≠ 3 → exec (.retransmissionTimeout rank psn) s
      = .next (if 16 ≤ w.sends then s.failMessage m else s.resendPacket w m)) ∧
    (∀ u, m.pod = false → u = s.modPath rank w.path PathState.timedOut → exec (.retransmissionTimeout rank psn) s
      = .next (if 16 ≤ w.sends then u.failMessage m else u.resendPacket w m)) ∧
    (∀ u, Hears s rank none 1 u →
      (∀ data, data.length ≠ m.len → exec (.ethernetResponse rank psn data) s = .next u) ∧
      (∀ data entry part e b a n o c d ps, data.length = m.len → m.body = .load entry part → (u.dropMessage m.number).entryOf m entry = some e →
        e.access = .load b a n o c d → e.state = .sent ps →
        exec (.ethernetResponse rank psn data) s = .next ((u.dropMessage m.number).loadDone m.thread e d n (fillPart part data ps))) ∧
      (∀ data k part q, data.length = m.len → m.body = .element k part → (u.dropMessage m.number).streamOf m k = some q →
        exec (.ethernetResponse rank psn data) s
          = .next ((u.dropMessage m.number).elementParts m.thread k q (fillPart part data q.arriving))))) ∧
  (∀ s rank psn, s.inWindow rank psn = none → ∀ code data, exec (.retransmissionTimeout rank psn) s = .next s ∧
    (∀ u, Hears s rank none 5 u → exec (.nackReceived rank psn code) s = .next u ∧ exec (.resendRequestReceived rank psn) s = .next u) ∧
    (∀ u, Hears s rank none 1 u → exec (.ethernetResponse rank psn data) s = .next u)) ∧
  (∀ s rank cum bitmap ecn x, Hears s rank none 5 x → ((∀ w ∈ s.net.window, w.rank ≠ rank) → exec (.ackReceived rank cum bitmap ecn) s = .next x) ∧
    (s.net.messages = [] → ∃ t, exec (.ackReceived rank cum bitmap ecn) s = .next t ∧ t.net.window = s.net.window.filter (fun w =>
      !(decide (w.rank = rank) && !w.acked && (decide (w.psn = cum) || (w.psn - cum).msb || bitmap.getLsbD (w.psn - cum - 1).toNat)))) ∧
    (∀ w m u, s.net.window = [w] → s.net.messages = [m] → w.msg = m.number → w.rank = rank → w.acked = false → w.psn = cum → m.len ≤ m.sent →
      m.pod = false → m.body.answered = false → u = x.modPath rank w.path (fun v => v.acked (ecn.contains w.psn.toNat)) →
      exec (.ackReceived rank cum bitmap ecn) s = .next (({ u with net := { u.net with window := [] } } : State).endMessage m))) ∧
  (∀ s p k n, ((s.cong (p, k)).path n).mode = .failed →
    exec (.pathProbe p k n true) s = .next (s.setCong (p, k) ((s.cong (p, k)).setPath n PathState.start)) ∧
    exec (.pathProbe p k n false) s = .next s) ∧
  (∀ s p k mark trim, exec (.congestionThresholdAdjust p k mark trim) s
    = .next (s.setCong (p, k) { s.cong (p, k) with mark := mark, trim := trim })) ∧
  (∀ (v : PathState), (v.timedOut.mode = .failed ↔ 3 ≤ v.timeouts + 1 ∨ v.mode = .failed) ∧ v.timedOut.timeouts = v.timeouts + 1 ∧
    (v.acked false).timeouts = 0)

/-- R49, R52 to R54, R65, R74: an arriving reduction packet is acknowledged again, discarded, refused by the first check that fails, folded or held
by its generation, or discarded and counted; an abort asks for the positions that are missing. That a packet counts as one flit, and that no counter
of the home entry is checked, are the model's choice (log entries 57 and 106). -/
def Sys2Proof.Claims.Reductions : Prop :=
  (∀ s p r code u, Hears s p.source (some p.port) 3 u → s.reductionCheck p = code → r = s.receiver p.source →
    (r.accepted p.psn = true → p.first = p.last → exec (.reductionPacketArrival p) s = .next (u.sendAck p.source)) ∧
    (r.accepted p.psn = false → 512 < (p.psn - r.cum).toNat → exec (.reductionPacketArrival p) s = .next (u.count 0x1058)) ∧
    (r.accepted p.psn = false → (p.psn - r.cum).toNat ≤ 512 →
      (code ≠ 0 → exec (.reductionPacketArrival p) s = .next (u.refusePacket p.source p.psn code)) ∧
      (code = 0 → u.reductionHeld p = true → exec (.reductionPacketArrival p) s = .next u) ∧
      (code = 0 → u.reductionHeld p = false → (p.gen = (s.folding p.gid).gen ∨ p.gen = (s.folding p.gid).gen + 1) →
        exec (.reductionPacketArrival p) s
          = .next ((u.foldOn p.gid 3 { u.folding p.gid with held := (u.folding p.gid).held ++ [p] }).acceptPacket p.source p.psn)) ∧
      (code = 0 → u.reductionHeld p = false → p.gen ≠ (s.folding p.gid).gen → p.gen ≠ (s.folding p.gid).gen + 1 →
        exec (.reductionPacketArrival p) s = .next ((u.count 0x1050).acceptPacket p.source p.psn)))) ∧
  (∀ s p, s.portUp p.port = false → exec (.reductionPacketArrival p) s = .next s) ∧
  (∀ s gid e, e = s.groupEntry gid → bits e 16 16 = 1 → ∃ l, exec (.reductionAbort gid) s = .next { s with out := s.out ++ [.wanted gid l] } ∧
    (∀ x ∈ l, x.1 < bits e 115 98 ∧ x.2 = positionRank e x.1) ∧
    (∀ k, k < bits e 115 98 → (s.folding gid).covered = [] → (s.folding gid).held = [] →
      0 < bits e 151 128 → (k, positionRank e k) ∈ l)) ∧
  (∀ e p, bits e 353 337 ≠ 0 → positionRank e p = bits e 336 320 + p * bits e 353 337) ∧
  (∀ s gid, bits (s.groupEntry gid) 16 16 = 0 → exec (.reductionAbort gid) s = .next s)

/-- R41, R44, R65, R201: a pod request passes the checks of its target in order and has its effect, or is refused with its code; a flush that is
answered completes its users, and one that fails or is not answered gives remote-access-failure, at the address of the peer's rank (the model's
choice: log entry 35), and its code is kept for the flush of its source and port (log entry 77); a pod read that is not answered fails its access,
element or piece; a replay changes only its count. That each request counts as one flit of its class is the model's choice too (log entry 57). -/
def Sys2Proof.Claims.PodEvents : Prop :=
  (∀ s q, s.portUp q.port = false → exec (.podRequestArrival q) s = .next s) ∧
  (∀ s q b u, s.portUp q.port = true → u = s.numberFlit q.port (podClass q) → q.kind = .write b →
    (∀ ps, u.targetParts q.region q.offset b.length .store q.key q.signalled = .ok ps →
      ps.any u.partHeld = false → exec (.podRequestArrival q) s = .next (u.partsWrite (placedBy (.pod q.member q.bulk) q.release) ps b)) ∧
    (∀ ps, u.targetParts q.region q.offset b.length .store q.key q.signalled = .ok ps → ps.any u.partHeld = true →
      exec (.podRequestArrival q) s = .next u) ∧
    (∀ c, u.targetParts q.region q.offset b.length .store q.key q.signalled = .error c →
      exec (.podRequestArrival q) s = .next (u.keepPodFail q c))) ∧
  (∀ s q n u, s.portUp q.port = true → u = s.numberFlit q.port (podClass q) → q.kind = .read n →
    (∀ ps, u.targetParts q.region q.offset n .load q.key false = .ok ps → ps.any u.partHeld = false → u.partsPoison ps 0 = none →
      exec (.podRequestArrival q) s = .next { u with out := s.out ++ [.podResponse q.member 0 (u.partsRead ps)] }) ∧
    (∀ c, u.targetParts q.region q.offset n .load q.key false = .error c →
      exec (.podRequestArrival q) s = .next { u.countCheck c with out := s.out ++ [.podResponse q.member c []] })) ∧
  (∀ s q op wide v c ret ps r u, s.portUp q.port = true → u = s.numberFlit q.port (podClass q) → q.kind = .atomic op wide v c ret →
    u.targetParts q.region q.offset (if wide then 8 else 4) .atomic q.key false = .ok ps → ps.any u.partHeld = false →
    u.partsPoison ps 0 = none → u.atomicAt (placedAtomic (.pod q.member q.bulk) q.release) op wide v c ps = r → exec (.podRequestArrival q) s
      = .next (r.1.send (.podResponse q.member 0 (if ret then natBytes (if wide then 8 else 4) r.2 else [])))) ∧
  (∀ s q ctr n u, s.portUp q.port = true → u = s.numberFlit q.port (podClass q) → q.kind = .count ctr n → s.jobOn = true →
    (u.counterOk (some ctr) = true → exec (.podRequestArrival q) s = .next ((u.ctrMessage
      (countOrigin (.pod q.member true) (u.podCounted q n) (.ofWrites (q.release.getD []))) ctr n).send (.podResponse q.member 0 []))) ∧
    (u.counterOk (some ctr) = false → exec (.podRequestArrival q) s = .next (u.refusePod q 7))) ∧
  (∀ s q k code, s.portUp q.port = true → q.kind = .flush k → s.jobOn = true → code = AMap.getD s.net.podFail (podKey q) 0 → ∃ t,
    exec (.podRequestArrival q) s = .next t ∧ t.out = s.out ++ [.podResponse q.member code []] ∧ AMap.get? t.net.podFail (podKey q) = none) ∧
  (∀ s peer f, s.net.flushes.find? (fun f => f.member == peer) = some f → s.net.messages = [] →
    ∃ t, exec (.podFlushComplete peer 0) s = .next t ∧ (∀ x ∈ t.net.flushes, x.member ≠ peer) ∧ t.threads = s.threads ∧ t.mem = s.mem) ∧
  (∀ s peer f id t code u, s.net.flushes.find? (fun f => f.member == peer) = some f → s.net.messages = [] → f.users = [(id, 0)] → 0 < code →
    s.thread? id = some t → t.live = true → t.pend15 = none → u = BitVec.ofNat 64 (gAddr (s.rankOfMember peer) 0 0) →
    ∃ r, exec (.podFlushComplete peer code) s = .next r ∧ r.thread? id = some { t with pend15 := some u }) ∧
  (∀ s id t k e b a n ord d r ps, s.thread? id = some t → t.log.find? (fun e => e.index == k) = some e → e.access = .load b a n ord d r →
    e.state = .sent ps →
    (awaitsPod ps = true → exec (.podRequestTimeout id (.entry k)) s = .next ((s.count 0x1070).failEntry id e a)) ∧
    (awaitsPod ps = false → exec (.podRequestTimeout id (.entry k)) s = .next s)) ∧
  (∀ s id t k q, s.thread? id = some t → t.stream k = some q →
    (awaitsPod q.arriving = true → exec (.podRequestTimeout id (.stream k)) s = .next ((s.count 0x1070).failElement id k q)) ∧
    (awaitsPod q.arriving = false → exec (.podRequestTimeout id (.stream k)) s = .next s)) ∧
  (∀ s id core n k c off len, (s.core core).copies.find? (fun c => c.tag == n) = some c → c.cuts[k]? = some (off, len) → c.started = true →
    c.pieces.contains k = true → s.pieceSent core n k = false → (s.pieceSource c off len).any (fun p => p.1.isPod) = true →
    exec (.podRequestTimeout id (.piece core n k)) s = .next (((s.count 0x1070).pend c.thread .remoteAccessFailure
      (BitVec.ofNat 64 ((s.count 0x1070).pieceAddr c off))).pieceRefused core c k off len 0)) ∧
  (∀ s id core n k c, (s.core core).chains.find? (fun c => c.tag == n) = some c → c.pending.contains k = true → AMap.get? c.ready k = none →
    (s.engineParts c.thread c.kernel (descSsp c.desc) (descSrc c.desc + 4 * k) 4 .load).any (fun p => p.1.isPod) = true →
    exec (.podRequestTimeout id (.element core n k)) s = .next (((s.count 0x1070).pend c.thread .remoteAccessFailure
      (BitVec.ofNat 64 (descSrc c.desc + 4 * k))).elementDone core c k true)) ∧
  (∀ s p, p < 18 → exec (.linkLevelReplay p) s = .next (s.count 0x1078))

/-! ### The host and the debugger -/

/-- R26, R94, R96 to R98, R182, R205, R207: the direct aperture and coherent accesses read and write device memory; an enable of a transform window checks
its descriptor; a fully written block is transformed and reported; an AtomicOp on HBM4 changes its word and returns the old one. That a read of a
window's input is Unsupported Request is the model's choice (log entry 97), and so are the length that an entry of status 5 reports (log entry 36) and
what AtomicOps and coherent accesses reach (log entry 78). -/
def Obligations.HostAccesses : Prop :=
  (∀ s off pa, s.barsOpen = true → off < 2 ^ 36 → s.aperturePa off = some pa →
    (∀ n, s.held pa n = false → s.poisonIn pa n = false →
      exec (.directApertureAccess off n none) s
        = .next (({ s with out := s.out ++ [.hostData (Memory.read s.mem pa n)] } : State).useLines [(.mem 0 pa 1, n)])) ∧
    (∀ n, s.held pa n = false → s.poisonIn pa n = true →
      exec (.directApertureAccess off n none) s = .next { s with out := s.out ++ [.hostPoison] }) ∧
    (∀ n b, s.held pa b.length = false → exec (.directApertureAccess off n (some b)) s
      = .next ((s.storeFrom (hostOrigin false) pa b).useLines [(.mem 0 pa 1, b.length)])) ∧
    (∀ n, s.held pa n = true → exec (.directApertureAccess off n none) s = .next s)) ∧
  (∀ s off n d, (s.barsOpen = false ∨ (2 ^ 36 ≤ off ∧ d = none) ∨ (off < 2 ^ 36 ∧ s.aperturePa off = none)) →
    exec (.directApertureAccess off n d) s = .next { s with out := s.out ++ [.unsupported] }) ∧
  (∀ s off n b, 2 ^ 36 ≤ off → exec (.directApertureAccess off n (some b)) s = exec (.transformWindowWrite off b) s) ∧
  (∀ s pa n b k, s.barsOpen = true → s.hostReaches pa n = true → s.held pa n = true → b.length = n →
    exec (.hostCoherentAccess pa n ⟨none, false⟩) s = .next s ∧ exec (.hostCoherentAccess pa k ⟨some b, false⟩) s = .next s) ∧
  (∀ s pa n b k, s.barsOpen = true → s.hostReaches pa n = true → s.moving pa n = false → b.length = n → (∀ l ∈ linesOf pa n, l ∈ s.hostLines) →
    ∃ t, exec (.hostCoherentAccess pa k ⟨some b, true⟩) s = .next t ∧ t.mem = (s.storeFrom (hostOrigin true) pa b).mem ∧
      ∀ l ∈ linesOf pa n, l ∉ t.hostLines) ∧
  (∀ s pa n, s.barsOpen = true → s.hostReaches pa n = true → s.held pa n = false →
    (s.poisonIn pa n = false → exec (.hostCoherentAccess pa n ⟨none, false⟩) s
      = .next (({ s with out := s.out ++ [.hostData (Memory.read s.mem pa n)] } : State).useLines [(.mem 0 pa 1, n)])) ∧
    (s.poisonIn pa n = true → ∀ x, exec (.hostCoherentAccess pa n ⟨none, x⟩) s = .next { s with out := s.out ++ [.hostPoison] }) ∧
    (∀ b k, b.length = n → exec (.hostCoherentAccess pa k ⟨some b, false⟩) s
      = .next ((s.storeFrom (hostOrigin false) pa b).useLines [(.mem 0 pa 1, n)])) ∧
    (s.poisonIn pa n = false → ∃ t, exec (.hostCoherentAccess pa n ⟨none, true⟩) s = .next t ∧
      t.out = s.out ++ [.hostData (Memory.read s.mem pa n)] ∧ t.mem = s.mem ∧ ∀ k ∈ linesOf pa n, k ∈ t.hostLines)) ∧
  (∀ (s : State) pa n, (∃ l ∈ linesOf pa n, l ∈ s.hostLines) → 0 < n → s.held pa n = true) ∧
  (∀ s pa w op v c, s.barsOpen = true → physPart pa = .hbm → (w = 16 → op = .cas) →
    (pa % w = 0 → s.held pa w = false → s.poisonIn pa w = false → exec (.hostAtomicop pa w op v c) s
      = .next ((s.storeFrom (hostOrigin true) pa (natBytes w (hostAtomicNew op w (s.read pa w) v c))).send (.hostData (natBytes w (s.read pa w))))) ∧
    (pa % w ≠ 0 → exec (.hostAtomicop pa w op v c) s = .next { s with out := s.out ++ [.completerAbort] })) ∧
  (∀ s m w v d, Canonical s → Owns s m → bits (s.reg32 (0x10000 + 64 * w)) 0 0 = 0 → bits v.toNat 0 0 = 1 →
    d = s.windowDesc w / 2 ^ 32 * 2 ^ 32 + v.toNat / 8 * 8 → ∃ t, exec (.transformWindowEnable m w v) s = .next t ∧
      t.reg32 (0x10000 + 64 * w) = v.toNat / 8 * 8 + (if windowBad d then 4 else 1) ∧ t.mem = s.mem) ∧
  (∀ s off data w b d, s.barsOpen = true → 2 ^ 36 ≤ off → off < 0x1400000000 → w = (off - 2 ^ 36) / 2 ^ 28 → b = off % 2 ^ 28 / 4096 →
    d = s.windowDesc w → ((bits d 0 0 = 0 ∨ bits d 111 96 < b) → exec (.transformWindowWrite off data) s = .next (s.count 0x1080)) ∧
    (bits d 0 0 = 1 → b ≤ bits d 111 96 → ((AMap.get? (s.window w).held b).isSome = true ∨ (s.window w).held.length < 16) →
      (off % 4096 + data.length ≤ 4096) → ∃ t h, exec (.transformWindowWrite off data) s = .next t ∧ t.mem = s.mem ∧
        AMap.get? (t.window w).held b = some h ∧ ∀ k, k < data.length → AMap.get? h (off % 4096 + k) = some (data.getD k 0))) ∧
  (∀ s w b m d pa x, AMap.get? (s.window w).held b = some m → 4096 ≤ m.length → d = s.windowDesc w →
    pa = bits d 447 384 + b * (4096 * 2 ^ bits d 95 92) → x = (List.range 4096).map (fun i => AMap.getD m i 0) →
    (s.held (bits d 511 448 + 8 * b) 8 = true → ∀ p, exec (.transformBlockProcess w b p) s = .next s) ∧
    (∀ z t, s.held (bits d 511 448 + 8 * b) 8 = false → s.blockStages d b x = .out z t → s.held pa z.length = false → s.poisonIn pa z.length = false → physPart pa = .hbm →
      physPart (pa + z.length - 1) = .hbm → exec (.transformBlockProcess w b false) s
        = .next ((s.store pa z).blockReport w b d (if t then 5 else 0) z.length)) ∧
    (∀ st p, s.held (bits d 511 448 + 8 * b) 8 = false → s.held pa (4096 * 2 ^ bits d 95 92) = false → s.blockStages d b x = .fail st →
      exec (.transformBlockProcess w b p) s = .next ((s.blockMaybe pa (4096 * 2 ^ bits d 95 92)).blockReport w b d st 0)))

/-- What an operation of the owner acts on while no step is in progress: the state that keeps its target, a group that exists with the lane as a live
member, and that lane (R224). -/
def Sys2Proof.Claims.Commands (s : State) (d : DebugTarget) (u : State) (g : Group) (lane : Nat) : Prop :=
  Owns s d.master ∧ s.dbg.busy = false ∧ u = ({ s with dbg := { s.dbg with target := some (targetGroup d) } } : State) ∧
    u.debugGroup d = some g ∧ lane = u.debugLane d

/-- R79, R224, R225: an operation of the owner on a group: halt, resume, the catch settings, reads and writes of a stopped lane's registers, and a
step; without a group, or for a lane that is no live member or has not stopped, the outcome is 3; while a step is in progress only a halt of its group
is taken. -/
def Obligations.Debugger : Prop :=
  (∀ s d g u lane, Commands s d u g lane →
    exec (.debugHalt d) s = .next (({ u with dbg := { u.dbg with busy := false, stepping := [] } } : State).modGroup (targetGroup d)
      (fun v => { v with halted := true }) |>.outcome lane 1)) ∧
  (∀ s d g u lane, Commands s d u g lane → exec (.debugResume d) s = .next (((((u.rewindGroup (targetGroup d)).modGroup (targetGroup d)
      (fun v => { v with halted := false })).turnouts (targetGroup d).teamId).meet (targetGroup d)).outcome lane 1)) ∧
  (∀ s d g u lane, Commands s d u g lane → exec (.debugCatchOn d) s = .next ((u.modGroup (targetGroup d)
      (fun v => { v with catching := true })).outcome lane 1)) ∧
  (∀ s d g u lane, Commands s d u g lane → exec (.debugCatchOff d) s = .next ((u.modGroup (targetGroup d)
      (fun v => { v with catching := false })).outcome lane 1)) ∧
  (∀ s d g u lane id t sel, Commands s d u g lane → u.debugThread d g = some (id, t) →
    (∀ v, u.debugValue id t sel = some v → exec (.debugRead d sel) s = .next (({ u with dbgdata := v } : State).outcome lane 1)) ∧
    (u.debugValue id t sel = none → exec (.debugRead d sel) s = .next (u.outcome lane 3))) ∧
  (∀ s d g u lane id t sel, Commands s d u g lane → u.debugThread d g = some (id, t) →
    (∀ t', u.debugPut id t sel s.dbgdata = some t' → exec (.debugWrite d sel) s = .next (State.outcome
      (if sel = 0x216 then (u.setThread id t').modTeam id.teamId (fun m => { m with scoperep := m.scoperep &&& ~~~(s.dbgdata.extractLsb' 0 7) })
       else u.setThread id t') lane 1)) ∧
    (u.debugPut id t sel s.dbgdata = none → exec (.debugWrite d sel) s = .next (u.outcome lane 3))) ∧
  (∀ s d g u lane id t r, Commands s d u g lane → u.debugThread d g = some (id, t) → r = u.rewindGroup (targetGroup d) →
    (r.stepBlocked id t = true → exec (.debugStep d) s = .next (r.outcome lane 2)) ∧
    (r.stepBlocked id t = false → ∃ x, exec (.debugStep d) s = .next x ∧ x.dbg.busy = true ∧ x.dbg.outcome = 0 ∧ x.dbg.dlane = lane ∧
      (∀ m ∈ x.dbg.stepping, m.2.2.1 = t.pc) ∧ x.mem = s.mem ∧ x.threads = r.threads)) ∧
  (∀ s d g u lane sel i, Commands s d u g lane → u.debugThread d g = none →
    (i = .debugRead d sel ∨ i = .debugWrite d sel ∨ i = .debugStep d) → exec i s = .next (u.outcome lane 3)) ∧
  (∀ s d i sel, (i = .debugHalt d ∨ i = .debugResume d ∨ i = .debugStep d ∨ i = .debugRead d sel ∨ i = .debugWrite d sel ∨ i = .debugCatchOn d ∨
      i = .debugCatchOff d) →
    (Stranger s d.master → exec i s = .next (rejected s)) ∧
    (s.served 0x200 = false → exec i s = .next (unserved s d.master)) ∧
    (Owns s d.master → s.dbg.busy = true → (i = .debugHalt d → s.dbg.target ≠ some (targetGroup d)) → exec i s = .next s) ∧
    (Owns s d.master → s.dbg.busy = false → ∀ u, u = ({ s with dbg := { s.dbg with target := some (targetGroup d) } } : State) →
      u.debugGroup d = none → exec i s = .next (u.outcome (u.debugLane d) 3))) ∧
  (∀ s d g lane, Owns s d.master → s.dbg.busy = true → s.dbg.target = some (targetGroup d) → s.debugGroup d = some g → lane = s.debugLane d →
    ∃ t, exec (.debugHalt d) s = .next t ∧ t.dbg.busy = false ∧ t.dbg.stepping = [] ∧ t.dbg.outcome = 1 ∧ t.dbg.dlane = lane) ∧
  (∀ (s : State) d g, s.debugGroup d = some g → s.group? (targetGroup d) = some g ∧ g.ended = false ∧
    (s.onLane (targetGroup d) (s.debugLane d)).isSome = true)
end

section
open Sys2Proof Sys2Proof.Machine Sys2Proof.Claims

/-! ### The machine as a whole -/

/-- R247, R248, R256 to R259: an instruction's word decodes to that instruction with every operand, and a word that decodes is the word of
what it decodes to. -/
def Obligations.DecodeAndEncodeAgree : Prop :=
  (∀ i w, i.wf = true → encode? i = some w → decodeWord w = some i) ∧
  (∀ w i, decodeWord w = some i → i.wf = true ∧ encode? i = some w)

/-- R247, R256: words written from the encodings of the spec, one for each of several families, and what they decode to. -/
def Obligations.DecodeWords : Prop :=
  decodeWord 0b0_000001_0000_0000100_0000101_0000110#32 = some (.add 0 4 5 6) ∧
  decodeWord 0b1_000001_0001_1111000_0000000_1110001#32 = some (.sub 1 120 0 113) ∧
  decodeWord 0b0_000101_0000011_0000010_11111111111#32 = some (.addi 0 3 2 0x7FF) ∧
  decodeWord 0b0_111110_000_1000000000000000000001#32 = some (.hintImm 0x200001) ∧
  decodeWord 0b0_111110_101_000000000000000_0000111#32 = some (.hintAdd 7) ∧
  decodeWord 0b0_000001_0000_0000100_0000101_0000110#32 ≠ some (.add 0 4 6 5) ∧
  decodeWord 0b0_111111_0000000000000000000000000#32 = none ∧
  decodeWord 0#32 = none

/-- The next step is a turn of some slices of a group, in state `u`: the head of the agenda, or the turn of thread `cur`, which is that of its slice. -/
def Sys2Proof.Claims.TurnOf (s u : State) (g : GroupId) (slices : List Nat) : Prop :=
  (∃ id rest, (s.agenda = [] ∧ rest = [] ∧ s.cur = id ∨ s.agenda = .thread id :: rest) ∧ u = ({ s with agenda := rest, cur := id } : State) ∧
    g = id.group ∧ slices = [s.sliceOf id]) ∨
  (∃ rest, s.agenda = .gang g slices :: rest ∧ u = ({ s with agenda := rest } : State))

/-- R126 to R128, R247: a gang of a group issues the word that its members have fetched at their common pc: the step is the instruction that the word
decodes to, executed by each member in ascending lane, in the state in which the gang is served and has counted one issue; a word that is no
instruction raises illegal-instruction or a bad hint. An event on the agenda is executed. -/
def Obligations.StepRunsDecoded : Prop :=
  (∀ s u g slices i id t w b turns, TurnOf s u g slices → turns = u.gangTurn g slices → gangMembers turns = [i] → id = memberOf g i →
    u.thread? id = some t → t.wait ≠ .done → u.fetch id t = .word w → b = ({ u.beginTurn g turns true with cur := id } : State) →
    (∀ k r, decodeWord w = some k → exec k b = .next r → step s = .next (settled r)) ∧
    (∀ r, decodeWord w = none → w.extractLsb' 25 7 ≠ 0x3E → illegalWord w b = .next r → step s = .next (settled r)) ∧
    (∀ r, decodeWord w = none → w.extractLsb' 25 7 = 0x3E → hintWord .bad b = .next r → step s = .next (settled r))) ∧
  (∀ s u g slices turns parts r, TurnOf s u g slices → turns = u.gangTurn g slices → turns ≠ [] →
    parts = (gangMembers turns).map (fun i => (memberOf g i, u.fetchFor (memberOf g i))) →
    membersTurn parts (u.beginTurn g turns (parts.any (fun p => p.2.isWord))) = .next r → step s = .next (settled r)) ∧
  (∀ s u g slices, TurnOf s u g slices → u.gangTurn g slices = [] → step s = .next (settled u)) ∧
  (∀ (u : State) id r rest v, memberTurn id r u = .next v → membersTurn ((id, r) :: rest) u = membersTurn rest v) ∧
  (∀ (u : State) id t w k, u.thread? id = some t → t.wait ≠ .done → decodeWord w = some k → memberTurn id (.word w) u = exec k { u with cur := id }) ∧
  (∀ (u : State) id t r, u.thread? id = some t → t.wait = .done → memberTurn id r u = .next (({ u with cur := id } : State).release id t)) ∧
  (∀ (u : State) g slices p q i j, p ∈ u.gangTurn g slices → q ∈ u.gangTurn g slices → i ∈ p.2 → j ∈ q.2 →
    u.pcOf g i = u.pcOf g j ∧ i ∈ u.sliceReady g p.1) ∧
  (∀ (u : State) id t pa e, u.mayIssue id t = true → u.translate (.core id.core) (u.asidOf id.teamId) t.pc.toNat .fetch t.kernel = .ok pa e →
    bits e 13 13 ≠ 1 → u.held pa 4 = false → u.fetch id t = .word (BitVec.ofNat 32 (u.read pa 4))) ∧
  (∀ (u : State) g turns x, (u.beginTurn g turns x).threads = u.threads ∧ (u.beginTurn g turns x).cur = u.cur ∧
    (u.beginTurn g turns x).mem = u.mem ∧ (u.beginTurn g turns x).teams = u.teams) ∧
  (∀ s i rest r, s.agenda = .event i :: rest → encode? i = none → i.wf = true → exec i { s with agenda := rest } = .next r →
    step s = .next (settled r)) ∧
  (∀ s k n rest, s.agenda = .clock k n :: rest → step s = .next (settled (({ s with agenda := rest } : State).clock k n)))

/-- R5, R28, R31, R82, R89, R109: the values the spec gives for reset: boot stage 0, no owner, the power cap at 5,000 W and every other
management register zero, queues disabled that expect sequence 1, T at 256, and nothing resident. That memory lists nothing is log entry 2. -/
def Obligations.ResetState : Prop :=
  Canonical State.reset ∧ State.reset.boot.stage = 0 ∧ State.reset.boot.ready = false ∧ State.reset.own.valid = false ∧
  State.reset.own.csq = 0 ∧ State.reset.own.rejcnt = 0 ∧ State.reset.reg32 0x210 = 5000 ∧
  (∀ off, off + 4 ≤ 0x210 ∨ 0x212 ≤ off → State.reset.reg32 off = 0) ∧
  (∀ q, (State.reset.queue q).mode = .disabled ∧ (State.reset.queue q).nextexp = 1 ∧ (State.reset.queue q).lastcomp = 0 ∧
    (State.reset.queue q).gen = 0) ∧
  (∀ k, (State.reset.core k).swapT = 256 ∧ (State.reset.core k).active = []) ∧
  State.reset.threads = [] ∧ State.reset.teams = [] ∧ State.reset.jobOn = false ∧ State.reset.cut.isStopped = false ∧
  (∀ p, AMap.getD State.reset.ports p .disabled = .disabled)

/-- R141: an indirect field resolves through its x register: the index used, the bound, the register number, and the stepped copy in each mode. -/
def Obligations.IndexResolution : Prop :=
  (∀ (w : Word) regs source (i : Nat),
    i = (if w.extractLsb' 28 2 = 2 ∧ source = true then ((w.extractLsb' 16 8) - 1#8).toNat else (w.extractLsb' 16 8).toNat) →
    (((w.extractLsb' 8 8).toNat ≤ i ∨ regs ≤ (w.extractLsb' 0 8).toNat + i) → stepIndex w regs source = .error i) ∧
    (i < (w.extractLsb' 8 8).toNat → (w.extractLsb' 0 8).toNat + i < regs →
      ∃ u, stepIndex w regs source = .ok ((w.extractLsb' 0 8).toNat + i, u) ∧
        u.extractLsb' 24 8 = w.extractLsb' 24 8 ∧ u.extractLsb' 0 16 = w.extractLsb' 0 16 ∧
        (w.extractLsb' 28 2 = 0 → u.extractLsb' 16 8 = BitVec.ofNat 8 i + (w.extractLsb' 24 4).signExtend 8) ∧
        (w.extractLsb' 28 2 = 1 → ((u.extractLsb' 16 8).toNat : Int) = ((i : Int) + (w.extractLsb' 24 4).toInt) % (w.extractLsb' 8 8).toNat) ∧
        (w.extractLsb' 28 2 = 2 → (u.extractLsb' 16 8).toNat = if source then i else i + 1) ∧
        (w.extractLsb' 28 2 = 3 → u.extractLsb' 16 8 = w.extractLsb' 16 8))) ∧
  (∀ (c : Ctx) (f : RegField) source k, f.toNat = 120 + k →
    (∀ n u, stepIndex (c.th.x.getD k 0) c.th.regs source = .ok (n, u) →
      c.resolve f source = (.reg n, { c with th := { c.th with x := c.th.x.set k u } })) ∧
    (∀ i, stepIndex (c.th.x.getD k 0) c.th.regs source = .error i → c.flag = none →
      c.resolve f source = (.none, { c with flag := some (.indexBound, BitVec.ofNat 64 (k * 256 + i)) })))

/-- R288: `movc d, c` writes c0 to c6 into bits [6:0], 1 into bit 7 and zero above; `movc c, a` writes c0 to c6 from bits [6:0] of a and nothing
else of it. -/
def Obligations.ConditionBitMoves : Prop :=
  (∀ s v w d l c1 (z : Word), Issues s (Enc.movcRead w d) false v → dst d (begin s v (Enc.movcRead w d) .nothing) = (l, c1) → Clean c1 →
    z.extractLsb' 0 7 = v.c → z.getLsbD 7 = true → z.extractLsb' 8 24 = 0 →
    exec (.movcRead w d) s = .next ((wr l z c1).2.retired v.stepping)) ∧
  (∀ s v w a x c1, Issues s (Enc.movcWrite w a) false v → src a (begin s v (Enc.movcWrite w a) .nothing) = (x, c1) → Clean c1 →
    exec (.movcWrite w a) s = .next (({ c1 with th := { c1.th with c := x.extractLsb' 0 7 } } : Ctx).retired v.stepping))

/-- R19, R20, R22, R23: where a core and a byte of either memory tier lie in the package: the maps of both tiers are one to one, 2,048 consecutive granules
cover every pseudo-channel once, and the base dies carry 18 UALink and 8 Ethernet ports. -/
def Sys2Proof.Claims.PackageMap : Prop :=
  (∀ pa, pa < 2 ^ 40 → hbmChan pa < 2048 ∧ (hbmPlace pa).stack = hbmChan pa / 128 ∧ (hbmPlace pa).pch = hbmChan pa % 128 ∧
    (hbmPlace pa).pos = pa / 2 ^ 19 ∧ (hbmPlace pa).byte = pa % 256 ∧ (hbmPlace pa).address = pa) ∧
  (∀ base c, base % 2 ^ 19 = 0 → base < 2 ^ 40 → c < 2048 → ∃ k, k < 2048 ∧ hbmChan (base + 256 * k) = c ∧
    ∀ j, j < 2048 → hbmChan (base + 256 * j) = c → j = k) ∧
  (∀ pa p, 0x10000000000 ≤ pa → p = lpPlace pa → p.package < 48 ∧ p.byte = pa % 4096 ∧ p.address = pa ∧
    6 * packageBase p.package ≤ p.package ∧ p.package ≤ 6 * packageBase p.package + 5) ∧
  (∀ die y x, y < 16 → x < 16 → coreAt die y x / 256 = die ∧ meshRow (coreAt die y x) = y ∧ meshColumn (coreAt die y x) = x) ∧
  (∀ b, b < 8 → ∀ c, c ∈ linkedDies b ↔ c < 8 ∧ ((baseRow c = baseRow b ∧ (baseColumn c = baseColumn b + 1 ∨ baseColumn b = baseColumn c + 1)) ∨
    (baseColumn c = baseColumn b ∧ baseRow c ≠ baseRow b))) ∧
  ((List.range 8).map (fun b => (resourcesOf b).ualink)).sum = 18 ∧ ((List.range 8).map (fun b => (resourcesOf b).ethernet)).sum = 8

/-- R8, R22, R23, R188: the map of the package; and bytes of memory and registers: a write is read back and changes nothing else, the lowest address
holds bits [7:0], and a pair's even register holds bits [31:0]. -/
def Obligations.MemoryBytes : Prop := PackageMap ∧
  (∀ (m : Memory) a b k, Memory.wf m = true → Memory.get (Memory.put m a b) k = if k = a then b else Memory.get m k) ∧
  (∀ (m : Memory) a n v, Memory.wf m = true → Memory.readLE (Memory.writeLE m a n v) a n = v % 256 ^ n ∧
    ∀ k, k < a ∨ a + n ≤ k → Memory.get (Memory.writeLE m a n v) k = Memory.get m k) ∧
  (∀ (m : Memory) a n i, i < n → (Memory.get m (a + i)).toNat = Memory.readLE m a n / 256 ^ i % 256) ∧
  (∀ (m k : Memory), Memory.wf m = true → Memory.wf k = true → (∀ a, Memory.get m a = Memory.get k a) → m = k) ∧
  (∀ (t : Thread) n (x : Dword), n + 1 < t.v.length →
    (t.setPair n x).reg n = x.extractLsb' 0 32 ∧ (t.setPair n x).reg (n + 1) = x.extractLsb' 32 32 ∧ (t.setPair n x).pair n = x ∧
    ∀ k, k ≠ n → k ≠ n + 1 → (t.setPair n x).reg k = t.reg k)

/-- The memory of every store keeps its canonical form over every step (the model's own invariant, log entry 2). -/
def Obligations.StepKeepsCanonical : Prop := ∀ s t, Canonical s → step s = .next t → Canonical t

/-- Every row answers a next state, but for an instruction word without a thread that executes it; so every step answers a next state (the
model's own boundary, log entry 1). -/
def Obligations.StepAnswers : Prop :=
  (∀ s, ∃ t, step s = .next t) ∧
  (∀ i s, encode? i = none → ∃ t, exec i s = .next t) ∧
  (∀ i s w v, encode? i = some w → s.thread? s.cur = some v → ∃ t, exec i s = .next t) ∧
  (∀ i s w, encode? i = some w → s.thread? s.cur = none → exec i s = .fault .noThread)

/-- R211, R214 to R216: trap entry saves status, cause, address and value, sets H, clears TE and D, and goes to the handler; with H = 1 or TE = 0 it
is a double trap, which stops the thread and gives its group the record; `tret` restores the status and goes on at tepc. -/
def Obligations.TrapEntry : Prop :=
  (∀ (s : State) id (t : Thread) cause (epc : Addr) (tval : Dword) (tlog : Word), t.tstat.getLsbD 0 = false → t.tstat.getLsbD 1 = true →
    ∃ r, s.trapAt id t cause epc tval tlog = s.setThread id r ∧ r.tsav = t.tstat ∧ r.tcause = BitVec.ofNat 32 cause ∧
      r.tepcHi ++ r.tepc = epc ∧ r.tvalHi ++ r.tval = tval ∧ r.tlog = tlog ∧
      (∀ k, r.tstat.getLsbD k = if k = 0 then true else if k = 1 ∨ k = 7 then false else t.tstat.getLsbD k) ∧
      r.pc.toNat = 2 ^ 32 * t.thdlHi.toNat + t.thdl.toNat / 4 * 4 ∧ r.hints = [] ∧ r.wait = .run ∧
      r.v = t.v ∧ r.x = t.x ∧ r.c = t.c ∧ r.m = t.m ∧ r.f = t.f ∧ r.q = t.q ∧ r.thdl = t.thdl ∧ r.thdlHi = t.thdlHi ∧
      r.srseed = t.srseed ∧ r.nret = t.nret ∧ r.log = t.log ∧ r.kept = t.kept ∧ r.latch = t.latch) ∧
  (∀ (s : State) id (t : Thread) cause (tval : Dword),
    s.trap id t cause tval = s.trapAt id t cause (t.pc - BitVec.ofNat 48 (4 * t.hints.length)) tval 0) ∧
  (∀ (s : State) id (t : Thread) cause (epc : Addr) (tval : Dword) (tlog : Word) g, (t.tstat.getLsbD 0 = true ∨ t.tstat.getLsbD 1 = false) →
    s.group? id.group = some g → g.fault = none →
    ∃ r, s.trapAt id t cause epc tval tlog = r ∧ r.thread? id = some { t with wait := .stopped, hints := [] } ∧
      r.group? id.group = some { g with fault := some (FaultInfo.mk t.lane (BitVec.ofNat 8 cause)
        (if t.tstat.getLsbD 0 then t.tcause.extractLsb' 0 8 else 0) epc tval t.tstat) } ∧
      AMap.getD r.errs 0x1098 0 = AMap.getD s.errs 0x1098 0 + 1 ∧ r.mem = s.mem ∧ r.teams = s.teams ∧
      ∀ i, i ≠ id → r.thread? i = s.thread? i) ∧
  (∀ (t : Thread), t.badStatus = false → t.trapReturn.tstat = t.tsav ∧
    t.trapReturn.pc.toNat = 2 ^ 32 * t.tepcHi.toNat + t.tepc.toNat / 4 * 4 ∧ t.trapReturn.kept = [] ∧ t.trapReturn.v = t.v ∧
    t.trapReturn.x = t.x ∧ t.trapReturn.c = t.c ∧ t.trapReturn.thdl = t.thdl)

/-- R138, R142, R266: what the register instructions leave alone: memory, every other thread, and of their own thread every register but the
destination, the x registers and streams that their fields name, the pc and the count of instructions. -/
def Obligations.RegisterFrame : Prop :=
  (∀ i acc d a b f, TwoSources i acc d a b f → ∀ s v word x y l c1 c2 c3, encode? i = some word → Issues s word false v → v.stepping = false →
    src a (begin s v word acc) = (x, c1) → srcB b c1 = (y, c2) → dst d c2 = (l, c3) → Clean c3 →
    ∃ t, exec i s = .next t ∧ DestinationOnly [a, b, d] 1 l s v t) ∧
  (∀ i acc d a f, OneSource i acc d a f → ∀ s v word x l c1 c2, encode? i = some word → Issues s word false v → v.stepping = false →
    src a (begin s v word acc) = (x, c1) → dst d c1 = (l, c2) → Clean c2 → ∃ t, exec i s = .next t ∧ DestinationOnly [a, d] 1 l s v t) ∧
  (∀ i d a f, Immediate i d a f → ∀ s v word x l c1 c2, encode? i = some word → Issues s word false v → v.stepping = false →
    src a (begin s v word .immOnly) = (x, c1) → dst d c1 = (l, c2) → Clean c2 → ∃ t, exec i s = .next t ∧ DestinationOnly [a, d] 1 l s v t) ∧
  (∀ i acc d a b f, WithOld i acc d a b f → ∀ s v word x y l e c1 c2 c3 c4, encode? i = some word → Issues s word false v → v.stepping = false →
    src a (begin s v word acc) = (x, c1) → srcB b c1 = (y, c2) → (HintSet.of v.hints).add = none → dst d c2 = (l, c3) → rdDst l c3 = (e, c4) →
    Clean c4 → ∃ t, exec i s = .next t ∧ DestinationOnly [a, b, d] 1 l s v t) ∧
  (∀ i acc d a b f, TwoPairs i acc d a b f → ∀ s v word x y l c1 c2 c3, encode? i = some word → Issues s word false v → v.stepping = false →
    srcP a (begin s v word acc) = (x, c1) → srcP b c1 = (y, c2) → dstP d c2 = (l, c3) → Clean c3 →
    ∃ t, exec i s = .next t ∧ DestinationOnly [a, b, d] 2 l s v t) ∧
  (∀ i d a b f, PairAndWord i d a b f → ∀ s v word x y l c1 c2 c3, encode? i = some word → Issues s word false v → v.stepping = false →
    srcP a (begin s v word .nothing) = (x, c1) → src b c1 = (y, c2) → dstP d c2 = (l, c3) → Clean c3 →
    ∃ t, exec i s = .next t ∧ DestinationOnly [a, b, d] 2 l s v t) ∧
  (∀ i c a b f, Compares i c a b f → ∀ s v word x y c1 c2, encode? i = some word → Issues s word false v → v.stepping = false →
    src a (begin s v word .nothing) = (x, c1) → src b c1 = (y, c2) → Clean c2 →
    ∃ t r, exec i s = .next t ∧ RegistersOnly [a, b] 0 .none s v t ∧ t.thread? s.cur = some r ∧
      ∀ k, k ≠ c → r.cond k = v.cond k)

/-- R26, R158, R161, R188, R190, R191, R312, R316: what an access does where its bytes lie in one part of the device's memory. A load returns one
version of every byte, which its thread need not have passed: the present one where it takes no older; the loads of one issue that share words of a
core's or cluster's scratchpads take them together. An accepted store writes its own bytes and no other, each now or later; an atomic writes its new
value and returns the old one. (That the model keeps the versions of a byte in the order of the writes is its own form of R194: log entry 83.) -/
def Obligations.AccessEffects : Prop :=
  (∀ (s : State) id e sp a n o c d va pa en back r, sp ≠ .co → sp ≠ .cl → o ≠ .acq → s.parts id e.kernel sp a n .load = [(.mem va pa en, n)] →
    s.partHeld (.mem va pa en, n) = false → s.poisoned pa n = none → r = s.loadOf none [s.readerOf id [(pa, n)]] back →
    s.startLoad id e sp a n o c d back = (r.1.foldl (fun u x => u.noteLoad id none x r.2) s).setEntry id e
      (.returned (loadValues d n (leNat (s.bytesAt (ownVersions [(pa, n)] r.2)))))) ∧
  (∀ (s : State) id e sp a n o c d va pa en back, (sp = .co ∨ sp = .cl) → s.parts id e.kernel sp a n .load = [(.mem va pa en, n)] →
    s.partHeld (.mem va pa en, n) = false → s.poisoned pa n = none →
    s.startLoad id e sp a n o c d back = s.startShared (s.matesOf id e) (o.acquiring c) back) ∧
  (∀ (s : State) acq rs back pa k j, (pa, k) ∈ (s.loadOf acq rs back).2 → (pa, j) ∈ (s.loadOf acq rs back).2 → k = j) ∧
  (∀ (s : State) rs back q pa k, q ∈ rs → pa ∈ bytesOf q.ps → (pa, k) ∈ (s.loadOf none rs back).2 → s.floor q.by' q.view pa ≤ k) ∧
  (∀ (s : State) acq id n pa, s.bytesAt (ownVersions [(pa, n)] (s.loadOf acq [s.readerOf id [(pa, n)]] []).2) = Memory.read s.mem pa n) ∧
  (∀ (s : State) (b : BufStore) sp a n o c x va pa en, Canonical s → b.access = .store sp a n o c x → (o = .plain ∨ o = .nt) → b.posted = false →
    b.parts = [(.mem va pa en, n)] → s.blocked b.thread b.stamp b.kernel b.access = false → s.storeHeld b.thread b.stamp b.issue b.parts = false →
    (b.done = [] → ∀ r, r = s.performStore b [] → r.read pa n = x % 256 ^ n ∧
      r.buffer = s.buffer.filter (fun y => decide (y.stamp ≠ b.stamp)) ∧ r.teams = s.teams ∧ r.mgmt = s.mgmt ∧
      (∀ i, i ≠ b.thread → r.thread? i = s.thread? i) ∧
      (∀ t, s.thread? b.thread = some t → r.thread? b.thread = some { t with wrote := if o = .nt then t.wrote else s.hist.length + 1 })) ∧
    (∀ take p, p < pa ∨ pa + n ≤ p → Memory.get (s.performStore b take).mem p = Memory.get s.mem p) ∧
    (∀ take k, k < n → Memory.get (s.performStore b take).mem (pa + k) = Memory.get s.mem (pa + k) ∨
      Memory.get (s.performStore b take).mem (pa + k) = BitVec.ofNat 8 (x / 256 ^ k))) ∧
  (∀ (s : State) id e op a wide c ret d rv sv va pa en w, Canonical s → w = (if wide then 8 else 4) →
    s.parts id e.kernel .gl a w .atomic = [(.mem va pa en, w)] → s.partHeld (.mem va pa en, w) = false →
    s.issueBlocked id e.stamp e.issue [(.mem va pa en, w)] = false → s.releaseReady e.stamp c none = true → s.poisoned pa w = none →
    ∃ u : State, s.startAtom id e op a wide c ret d rv sv
        = u.setEntry id e (.returned (if ret then loadValues d w (s.read pa w) else [])) ∧
      u.read pa w = atomNew op w (s.read pa w) rv sv % 256 ^ w ∧ ∀ p, p < pa ∨ pa + w ≤ p → Memory.get u.mem p = Memory.get s.mem p)
end

section
open Sys2Proof.Claims

/-! ### Statements of several parts -/

/-- R246, R249, R252, R266, R270, R274, R279 to R281, R283, R287: the instructions of one 32-bit source, and those of one source and an immediate. -/
def Obligations.OneSourceForms : Prop := OneSourceResults ∧ ImmediateResults

/-- R234 to R236, R253, R266, R278, R280: the forms that round once, fused ones among them. -/
def Obligations.RoundingForms : Prop := RoundingResults ∧ FusedResults

/-- R146, R210, R287, R289 to R291, R293: moves between registers of every kind, and `csrr` and `csrw`. -/
def Obligations.MovesAndStatusRegisters : Prop := MoveResults ∧ StatusRegisterResults

/-- R108, R132, R146, R223, R251, R252, R299: hint words, `nop`, `yield`, `park`, `brk` and `exit`. -/
def Obligations.HintsAndThreadControl : Prop := HintWords ∧ ThreadControl ∧ ExitRemoves

/-- R129, R130, R133, R300: a cross-lane instruction is reached by its members one by one and executes once for its set. -/
def Obligations.LaneInstructions : Prop := LaneArrival ∧ LaneCompletion

/-- R242, R301: what each cross-lane operation gives each participant. -/
def Obligations.LaneEffects : Prop := LaneResults ∧ LaneVotes ∧ LaneReductions

/-- R152, R257, R309 to R313, R315: loads and stores of the shared spaces, and their misaligned forms. -/
def Obligations.SharedMemory : Prop := SharedAccesses ∧ MisalignedAccess

/-- R125, R157, R309, R312: loads and stores of the thread's own lane slice, and what a store leaves alone. -/
def Obligations.LaneMemory : Prop := LaneAccesses ∧ LaneStoreFrame

/-- R74, R204, R318, R323 to R325: `cwait`, `cadd`, `cpoll`, `wsig` and `wred`. -/
def Obligations.CountersAndSignals : Prop := CounterInstructions ∧ SignalsAndContributions

/-- R180, R304, R305: `rsend` and `rrecv`, and their transfer. -/
def Obligations.Turnouts : Prop := TurnoutInstructions ∧ TurnoutTransfer

/-- R306, R307: `bar`, `bar.cl` and `arrive`, and the end of a phase. -/
def Obligations.Barriers : Prop := BarrierInstructions ∧ BarrierSecondArrival ∧ BarrierPhase

/-- R171, R172, R330: `barm` and `bwait`, and the one update of a barrier object. -/
def Obligations.BarrierObjects : Prop := BarrierObjectInstructions ∧ BarrierObjectUpdate

/-- R177, R331 to R333: `kick`, `chain` and `task`. -/
def Obligations.EngineStarts : Prop := CopyAndChainStarts ∧ TaskInstruction

/-- R133 to R136, R308, R336, R338, R340, R342: `gdef`, the signing instructions, and the issue of a signed operation. -/
def Obligations.MatrixSignatures : Prop := ConvergenceDeclaration ∧ Signing ∧ OperationIssue

/-- R213, R216, R348, R349, R352, R353: `svc`, `trap`, `tret`, `wfe` and `tlbinv`. -/
def Obligations.TrapsServicesAndEvents : Prop := TrapsAndServices ∧ TlbInvalidationPrivilege

/-- R5, R28, R31 to R34: reset, removal of power, the link, SPDM, and the stages of the boot. -/
def Obligations.ResetAndBoot : Prop := ResetAndPower ∧ BootStages

/-- R10, R31, R33, R35, R79, R384: writes of the management block and commands of the recovery mailbox. -/
def Obligations.RegistersAndMailbox : Prop := RegisterWrites ∧ RegisterReads ∧ MailboxCommands

/-- R38, R81 to R83, R90: fabric ports, and ownership of the device. -/
def Obligations.PortsAndOwnership : Prop := FabricPorts ∧ Ownership

/-- R84, R85, R87 to R92: administration of the work queues, fetching of commands and writing of completions. -/
def Obligations.QueueOperation : Prop := QueueAdministration ∧ FetchAndCompletion

/-- R101 to R107, R120, R138: decisions of the scheduler, and the threads of a group that starts. -/
def Obligations.Dispatch : Prop := DispatchDecisions ∧ GroupStart

/-- R147, R148, R152, R154, R191, R215, R217 to R219: accesses return, threads commit, and late errors arrive. -/
def Obligations.ReturnsCommitsAndErrors : Prop := ReturnsAndCommits ∧ ErrorsAndFaultStops

/-- R168, R173 to R175, R177, R179, R181, R199, R331, R333: the headgate, the dataflow table and the flume. -/
def Obligations.CopyAndChainEngines : Prop := CopyEngine ∧ FlumeEngine

/-- R41, R44, R52 to R54, R65, R74, R201: reduction packets, and requests of the pod. -/
def Obligations.ReductionsAndPod : Prop := Reductions ∧ PodEvents
end
end

