-- ==== Sys2Proof/Laws/Issue.lean ====
section
/-! SUPPORT. What issuing an instruction can do (R142, R144, R155, R219), and what the operand operations leave as they
were. -/
namespace Sys2Proof.Machine

/-! ### The frame of the operand operations -/

/-- The parts of a context that reading and resolving operands leaves alone. -/
structure Ctx.Keeps (c r : Ctx) : Prop where
  s : r.s = c.s
  id : r.id = c.id
  word : r.word = c.word
  hs : r.hs = c.hs
  hold : r.hold = c.hold
  park : r.park = c.park
  npc : r.npc = c.npc
  late : r.late = c.late
  always : r.always = c.always

theorem Ctx.Keeps.refl (c : Ctx) : c.Keeps c := ⟨rfl, rfl, rfl, rfl, rfl, rfl, rfl, rfl, rfl⟩

theorem Ctx.Keeps.trans {a b c : Ctx} (h : a.Keeps b) (k : b.Keeps c) : a.Keeps c :=
  ⟨k.s.trans h.s, k.id.trans h.id, k.word.trans h.word, k.hs.trans h.hs, k.hold.trans h.hold, k.park.trans h.park,
   k.npc.trans h.npc, k.late.trans h.late, k.always.trans h.always⟩

theorem Ctx.raise_keeps (c : Ctx) (x : Cause) (t : Dword) : c.Keeps (c.raise x t) := by
  unfold Ctx.raise
  split
  · split <;> exact ⟨rfl, rfl, rfl, rfl, rfl, rfl, rfl, rfl, rfl⟩
  · exact ⟨rfl, rfl, rfl, rfl, rfl, rfl, rfl, rfl, rfl⟩

theorem Ctx.lose_keeps (c : Ctx) (x : Cause) (t : Dword) : c.Keeps (c.lose x t) :=
  let k := c.raise_keeps x t
  ⟨k.s, k.id, k.word, k.hs, k.hold, k.park, k.npc, k.late, k.always⟩

theorem Ctx.loseWord_keeps (c : Ctx) : c.Keeps c.loseWord := c.lose_keeps _ _

theorem Ctx.popStream_keeps (c : Ctx) (k : Nat) (ok : Nat → Bool) : c.Keeps (c.popStream k ok).2 := by
  unfold Ctx.popStream
  split
  · exact c.loseWord_keeps
  · split
    · exact c.loseWord_keeps
    · split
      · exact ⟨rfl, rfl, rfl, rfl, rfl, rfl, rfl, rfl, rfl⟩
      · dsimp only
        split
        · exact c.lose_keeps _ _
        · exact ⟨rfl, rfl, rfl, rfl, rfl, rfl, rfl, rfl, rfl⟩
      · exact ⟨rfl, rfl, rfl, rfl, rfl, rfl, rfl, rfl, rfl⟩

/-- What checking a destination stream leaves alone: all that reading a source does, but for the count of a failed target. -/
structure Ctx.Checks (c r : Ctx) : Prop where
  s : r.s = c.s
  id : r.id = c.id
  word : r.word = c.word
  hs : r.hs = c.hs
  hold : r.hold = c.hold
  park : r.park = c.park
  npc : r.npc = c.npc
  late : r.late = c.late

theorem Ctx.Keeps.checks {c r : Ctx} (h : c.Keeps r) : c.Checks r := ⟨h.s, h.id, h.word, h.hs, h.hold, h.park, h.npc, h.late⟩

theorem Ctx.Checks.trans {a b c : Ctx} (h : a.Checks b) (k : b.Checks c) : a.Checks c :=
  ⟨k.s.trans h.s, k.id.trans h.id, k.word.trans h.word, k.hs.trans h.hs, k.hold.trans h.hold, k.park.trans h.park,
   k.npc.trans h.npc, k.late.trans h.late⟩

theorem Ctx.checkAppend_checks (c : Ctx) (k : Nat) (ok : Nat → Bool) : c.Checks (c.checkAppend k ok) := by
  unfold Ctx.checkAppend
  split
  · exact (c.raise_keeps _ _).checks
  · split
    · exact (c.raise_keeps _ _).checks
    · dsimp only
      split
      · split
        · exact (c.raise_keeps _ _).checks
        · exact ⟨rfl, rfl, rfl, rfl, rfl, rfl, rfl, rfl⟩
      · rename_i q _ _ _ x code _ _
        have h := c.raise_keeps x (q.elemAddr q.next)
        exact ⟨h.s, h.id, h.word, h.hs, h.hold, h.park, h.npc, h.late⟩
      · exact (Ctx.Keeps.refl c).checks

theorem Ctx.resolve_keeps (c : Ctx) (f : RegField) (b : Bool) : c.Keeps (c.resolve f b).2 := by
  unfold Ctx.resolve
  dsimp only
  split
  · split
    · exact Ctx.Keeps.refl c
    · exact c.lose_keeps _ _
  · split
    · exact Ctx.Keeps.refl c
    · split
      · exact c.lose_keeps _ _
      · split
        · exact ⟨rfl, rfl, rfl, rfl, rfl, rfl, rfl, rfl, rfl⟩
        · exact c.lose_keeps _ _

theorem Ctx.rd_keeps (c : Ctx) (l : Loc) : c.Keeps (c.rd l).2 := by
  cases l with
  | none => exact Ctx.Keeps.refl c
  | reg n => exact Ctx.Keeps.refl c
  | str k => exact c.popStream_keeps _ _

theorem Ctx.rdp_keeps (c : Ctx) (l : Loc) : c.Keeps (c.rdp l).2 := by
  cases l with
  | none => exact Ctx.Keeps.refl c
  | reg n =>
    unfold Ctx.rdp
    dsimp only
    split
    · exact Ctx.Keeps.refl c
    · exact c.lose_keeps _ _
  | str k => exact c.popStream_keeps _ _

/-- Reading a 32-bit source changes working registers, the flag and the waits only. -/
theorem src_keeps (f : RegField) (c : Ctx) : c.Keeps (src f c).2 := (c.resolve_keeps f true).trans (Ctx.rd_keeps _ _)

/-- Reading a pair source changes working registers, the flag and the waits only. -/
theorem srcP_keeps (f : RegField) (c : Ctx) : c.Keeps (srcP f c).2 := (c.resolve_keeps f true).trans (Ctx.rdp_keeps _ _)

/-- The b operand likewise. -/
theorem srcB_keeps (f : RegField) (c : Ctx) : c.Keeps (srcB f c).2 := by
  unfold srcB
  split
  · dsimp only
    split
    · exact Ctx.Keeps.refl c
    · exact c.raise_keeps _ _
  · exact src_keeps f c

/-- Resolving a 32-bit destination leaves the same alone, but for the count of a failed target. -/
theorem dst_checks (f : RegField) (c : Ctx) : c.Checks (dst f c).2 := by
  unfold dst
  dsimp only
  split
  · refine (c.resolve_keeps f false).checks.trans ?_
    dsimp only
    exact Ctx.checkAppend_checks _ _ _
  · exact (c.resolve_keeps f false).checks

/-- Resolving a pair destination leaves the same alone, but for the count of a failed target. -/
theorem dstP_checks (f : RegField) (c : Ctx) : c.Checks (dstP f c).2 := by
  unfold dstP
  dsimp only
  split
  · exact (c.resolve_keeps f false).checks
  · split
    · exact (c.resolve_keeps f false).checks
    · exact ((c.resolve_keeps f false).trans (Ctx.lose_keeps _ _ _)).checks
  · refine (c.resolve_keeps f false).checks.trans ?_
    dsimp only
    exact Ctx.checkAppend_checks _ _ _

/-- Reading the old destination likewise. -/
theorem rdDst_keeps (l : Loc) (c : Ctx) : c.Keeps (rdDst l c).2 := c.rd_keeps l

/-- Reading the old destination pair likewise. -/
theorem rdDstP_keeps (l : Loc) (c : Ctx) : c.Keeps (rdDstP l c).2 := c.rdp_keeps l

/-- Resolving a block likewise. -/
theorem block_keeps (f : RegField) (m k : Nat) (c : Ctx) : c.Keeps (block f m k c).2 := by
  unfold block
  dsimp only
  split
  · split
    · exact c.resolve_keeps f true
    · exact (c.resolve_keeps f true).trans (Ctx.lose_keeps _ _ _)
  · exact (c.resolve_keeps f true).trans (Ctx.lose_keeps _ _ _)
  · exact c.resolve_keeps f true

/-- Resolving a deferred destination likewise. -/
theorem dstDeferred_keeps (f : RegField) (m k : Nat) (c : Ctx) : c.Keeps (dstDeferred f m k c).2 := by
  unfold dstDeferred
  dsimp only
  split
  · split
    · exact c.resolve_keeps f false
    · exact (c.resolve_keeps f false).trans (Ctx.lose_keeps _ _ _)
  · exact (c.resolve_keeps f false).trans (Ctx.lose_keeps _ _ _)
  · exact c.resolve_keeps f false

/-! ### Writing a destination -/

/-- The parts of a context that writing a destination leaves alone: of the device, only the stamp moves. -/
structure Ctx.Writes (c r : Ctx) : Prop where
  s : r.s = { c.s with stamp := r.s.stamp }
  id : r.id = c.id
  word : r.word = c.word
  hs : r.hs = c.hs
  flag : r.flag = c.flag
  unknown : r.unknown = c.unknown
  stall : r.stall = c.stall
  starve : r.starve = c.starve
  hold : r.hold = c.hold
  park : r.park = c.park
  npc : r.npc = c.npc
  late : r.late = c.late
  always : r.always = c.always

theorem Ctx.Writes.refl (c : Ctx) : c.Writes c := ⟨rfl, rfl, rfl, rfl, rfl, rfl, rfl, rfl, rfl, rfl, rfl, rfl, rfl⟩

theorem Ctx.append_writes (c : Ctx) (k v : Nat) : c.Writes (c.append k v) := by
  unfold Ctx.append
  split
  · exact Ctx.Writes.refl c
  · exact ⟨rfl, rfl, rfl, rfl, rfl, rfl, rfl, rfl, rfl, rfl, rfl, rfl, rfl⟩

/-- What writing a 32-bit destination leaves alone. -/
theorem wr_writes (l : Loc) (v : Word) (c : Ctx) : c.Writes (wr l v c).2 := by
  cases l with
  | none => exact Ctx.Writes.refl c
  | reg n => exact ⟨rfl, rfl, rfl, rfl, rfl, rfl, rfl, rfl, rfl, rfl, rfl, rfl, rfl⟩
  | str k => exact c.append_writes k _

/-- What writing a pair destination leaves alone. -/
theorem wrp_writes (l : Loc) (v : Dword) (c : Ctx) : c.Writes (wrp l v c).2 := by
  cases l with
  | none => exact Ctx.Writes.refl c
  | reg n => exact ⟨rfl, rfl, rfl, rfl, rfl, rfl, rfl, rfl, rfl, rfl, rfl, rfl, rfl⟩
  | str k => exact c.append_writes k _

@[simp] theorem wr_reg (n : Nat) (v : Word) (c : Ctx) : wr (.reg n) v c = ((), { c with th := c.th.setReg n v }) := rfl
@[simp] theorem wr_none (v : Word) (c : Ctx) : wr .none v c = ((), c) := rfl
@[simp] theorem wr_str (k : Nat) (v : Word) (c : Ctx) : wr (.str k) v c = ((), c.append k v.toNat) := rfl
@[simp] theorem wrp_reg (n : Nat) (v : Dword) (c : Ctx) : wrp (.reg n) v c = ((), { c with th := c.th.setPair n v }) := rfl
@[simp] theorem wrp_none (v : Dword) (c : Ctx) : wrp .none v c = ((), c) := rfl
@[simp] theorem wrp_str (k : Nat) (v : Dword) (c : Ctx) : wrp (.str k) v c = ((), c.append k v.toNat) := rfl

/-! ### The operands -/

/-- A numbered register as a source. -/
theorem src_reg (f : RegField) (c : Ctx) (h : f.toNat < 112) (k : f.toNat < c.th.regs) :
    src f c = (c.th.reg f.toNat, c) := by
  simp [src, Ctx.resolve, h, k, Ctx.rd]

/-- A register number beyond the allocation as a source. -/
theorem src_beyond (f : RegField) (c : Ctx) (h : f.toNat < 112) (k : c.th.regs ≤ f.toNat) :
    src f c = (0, c.loseWord) := by
  simp [src, Ctx.resolve, h, Nat.not_lt.mpr k, Ctx.rd]

/-- A numbered register as a destination. -/
theorem dst_reg (f : RegField) (c : Ctx) (h : f.toNat < 112) (k : f.toNat < c.th.regs) :
    dst f c = (.reg f.toNat, c) := by
  simp [dst, Ctx.resolve, h, k]

/-- An even numbered register as a pair source. -/
theorem srcP_reg (f : RegField) (c : Ctx) (h : f.toNat < 112) (e : f.toNat % 2 = 0) (k : f.toNat + 1 < c.th.regs) :
    srcP f c = (c.th.pair f.toNat, c) := by
  simp [srcP, Ctx.resolve, h, show f.toNat < c.th.regs by omega, Ctx.rdp, e, k]

/-- An even numbered register as a pair destination. -/
theorem dstP_reg (f : RegField) (c : Ctx) (h : f.toNat < 112) (e : f.toNat % 2 = 0) (k : f.toNat + 1 < c.th.regs) :
    dstP f c = (.reg f.toNat, c) := by
  simp [dstP, Ctx.resolve, h, show f.toNat < c.th.regs by omega, e, k]

/-- The b operand without an OPI hint is its register field. -/
theorem srcB_field (f : RegField) (c : Ctx) (h : c.hs.opi = none) : srcB f c = src f c := by
  simp [srcB, h]

/-! ### The end of an issue -/

/-- Without D, nothing follows a retirement. -/
@[simp] theorem State.afterIssue_false (s : State) (id : ThreadId) : s.afterIssue id false = s := rfl

/-- An instruction with no fault, stall, wait or late cause retires. -/
theorem State.runBody_retires {s : State} {id : ThreadId} {th : Thread} {word : Word} {acc : Accepts} {body : Issue Unit}
    {post : State → State} {c : Ctx} (h : body (Ctx.start s id th word acc) = ((), c)) (hf : c.flag = none)
    (hs : c.stall = false) (hv : c.starve = false) (hh : c.hold = none) (hp : c.park = none) (hl : c.late = none) :
    s.runBody id th word acc body post = post (c.retired th.stepping) := by
  simp [State.runBody, h, hf, hs, hv, hh, hl, Ctx.finish, hp, Ctx.retired]

/-- An instruction with no fault, stall or late cause that parks. -/
theorem State.runBody_parks {s : State} {id : ThreadId} {th : Thread} {word : Word} {acc : Accepts} {body : Issue Unit}
    {post : State → State} {c : Ctx} {w : Wait} (h : body (Ctx.start s id th word acc) = ((), c)) (hf : c.flag = none)
    (hs : c.stall = false) (hv : c.starve = false) (hh : c.hold = none) (hp : c.park = some w) (hl : c.late = none) :
    s.runBody id th word acc body post = post (c.s.setThread c.id { c.th with wait := w }) := by
  simp [State.runBody, h, hf, hs, hv, hh, hl, Ctx.finish, hp]

/-- An instruction with a fault of its own traps, where no accesses are outstanding and no pending cause comes first. -/
theorem State.runBody_faults {s : State} {id : ThreadId} {th : Thread} {word : Word} {acc : Accepts} {body : Issue Unit}
    {post : State → State} {c : Ctx} {x : Cause} {v : Dword} (h : body (Ctx.start s id th word acc) = ((), c))
    (hf : c.flag = some (x, v)) (hv : c.starve = false) (hl : th.log = []) (hd : (c.always s).deliver id th = none) :
    s.runBody id th word acc body post = (c.faulting (c.always s)).trap id th x.code v := by
  simp [State.runBody, h, hf, hv, hl, hd]

/-- A thread that issues runs its instruction. -/
theorem issue_of {word : Word} {sw : Bool} {acc : Accepts} {body : Issue Unit} {post : State → State} {s : State}
    {u v : Thread} (h : s.thread? s.cur = some u) (hi : s.issuing s.cur u word sw = some v) :
    issue word sw acc body post s = .next (s.runBody s.cur v word acc body post) := by
  simp [issue, h, State.reach, hi]

/-- A plain instruction that completes. -/
theorem plain_of {word : Word} {acc : Accepts} {body : Issue Unit} {s : State} {u v : Thread} {c : Ctx}
    (h : s.thread? s.cur = some u) (hi : s.issuing s.cur u word false = some v)
    (hb : body (Ctx.start s s.cur v word acc) = ((), c)) (hf : c.flag = none) (hs : c.stall = false) (hv : c.starve = false) (hh : c.hold = none)
    (hp : c.park = none) (hl : c.late = none) :
    plain word acc body s = .next (c.retired v.stepping) := by
  simp only [plain]
  rw [issue_of h hi, State.runBody_retires hb hf hs hv hh hp hl]
  rfl

end Sys2Proof.Machine
end

