-- ==== Sys2Proof/Laws/Memory.lean ====
section
/-! SUPPORT. Every operation over memory keeps the canonical form, and the memories at reset have it. -/
namespace Sys2Proof.Machine

theorem Memory.risesFrom_cons {lo k : Nat} {v : Byte} {r : Memory} :
    Memory.risesFrom lo ((k, v) :: r) = true ↔ lo ≤ k ∧ v ≠ 0#8 ∧ Memory.risesFrom (k + 1) r = true := by
  simp [Memory.risesFrom, and_assoc]

theorem Memory.risesFrom_mono {lo hi : Nat} {m : Memory} (h : lo ≤ hi) (w : Memory.risesFrom hi m = true) : Memory.risesFrom lo m = true := by
  cases m with
  | nil => rfl
  | cons c r =>
    obtain ⟨k, v⟩ := c
    rw [Memory.risesFrom_cons] at w ⊢
    exact ⟨Nat.le_trans h w.1, w.2⟩

theorem Memory.risesFrom_put {a : Nat} {b : Byte} : ∀ {m : Memory} {lo : Nat}, lo ≤ a → Memory.risesFrom lo m = true →
    Memory.risesFrom lo (Memory.put m a b) = true := by
  intro m
  induction m with
  | nil =>
    intro lo h _
    unfold Memory.put
    split
    · rfl
    · rename_i hb
      exact Memory.risesFrom_cons.mpr ⟨h, hb, rfl⟩
  | cons c r ih =>
    obtain ⟨k, v⟩ := c
    intro lo h w
    have w' := Memory.risesFrom_cons.mp w
    unfold Memory.put
    split
    · rename_i h1
      split
      · exact w
      · rename_i hb
        exact Memory.risesFrom_cons.mpr ⟨h, hb, Memory.risesFrom_cons.mpr ⟨h1, w'.2⟩⟩
    · rename_i h1
      split
      · rename_i h2
        subst h2
        split
        · exact Memory.risesFrom_mono (Nat.le_succ_of_le w'.1) w'.2.2
        · rename_i hb
          exact Memory.risesFrom_cons.mpr ⟨h, hb, w'.2.2⟩
      · rename_i h2
        exact Memory.risesFrom_cons.mpr ⟨w'.1, w'.2.1, ih (by omega) w'.2.2⟩

/-- Writing one byte keeps the form. -/
theorem Memory.wf_put {m : Memory} (w : Memory.wf m = true) (a : Nat) (b : Byte) : Memory.wf (Memory.put m a b) = true :=
  Memory.risesFrom_put (Nat.zero_le a) w

/-- Writing bytes keeps the form. -/
theorem Memory.wf_write {m : Memory} (w : Memory.wf m = true) (a : Nat) (bs : List Byte) : Memory.wf (Memory.write m a bs) = true := by
  induction bs generalizing m a with
  | nil => exact w
  | cons b r ih => exact ih (Memory.wf_put w a b) (a + 1)

/-- Writing a number keeps the form. -/
theorem Memory.wf_writeLE {m : Memory} (w : Memory.wf m = true) (a n v : Nat) : Memory.wf (Memory.writeLE m a n v) = true :=
  Memory.wf_write w a _

/-- Writing the cells of a slice keeps the form. -/
theorem Memory.wf_paste {m : Memory} (w : Memory.wf m = true) (a : Nat) (cs : List Host.Cell) : Memory.wf (Memory.paste m a cs) = true := by
  induction cs generalizing m with
  | nil => exact w
  | cons c r ih => exact ih (Memory.wf_put w (a + c.1) c.2)

theorem Memory.risesFrom_filter (p : Host.Cell → Bool) {lo : Nat} : ∀ {m : Memory}, Memory.risesFrom lo m = true → Memory.risesFrom lo (m.filter p) = true := by
  intro m
  induction m generalizing lo with
  | nil => intro w; simpa using w
  | cons c r ih =>
    obtain ⟨k, v⟩ := c
    intro w
    have w' := Memory.risesFrom_cons.mp w
    rw [List.filter_cons]
    split
    · exact Memory.risesFrom_cons.mpr ⟨w'.1, w'.2.1, ih w'.2.2⟩
    · exact Memory.risesFrom_mono (Nat.le_succ_of_le w'.1) (ih w'.2.2)

/-- Making bytes zero keeps the form. -/
theorem Memory.wf_clear {m : Memory} (w : Memory.wf m = true) (a n : Nat) : Memory.wf (Memory.clear m a n) = true :=
  Memory.risesFrom_filter _ w

theorem Memory.risesFrom_shift (a : Nat) : ∀ {m : Memory} {lo : Nat}, a ≤ lo → Memory.risesFrom lo m = true →
    Memory.risesFrom (lo - a) (m.map (fun c => (c.1 - a, c.2))) = true := by
  intro m
  induction m with
  | nil => intro lo _ _; rfl
  | cons c r ih =>
    obtain ⟨k, v⟩ := c
    intro lo h w
    have w' := Memory.risesFrom_cons.mp w
    have h3 : k - a + 1 = k + 1 - a := by have := w'.1; omega
    have h4 : lo - a ≤ k - a := by have := w'.1; omega
    refine Memory.risesFrom_cons.mpr ⟨h4, w'.2.1, ?_⟩
    rw [h3]
    exact ih (by have := w'.1; omega) w'.2.2

theorem Memory.risesFrom_above {a : Nat} : ∀ {m : Memory} {lo : Nat}, Memory.risesFrom lo m = true → m.all (fun c => decide (a ≤ c.1)) = true →
    Memory.risesFrom (max lo a) m = true := by
  intro m lo w h
  cases m with
  | nil => rfl
  | cons c r =>
    obtain ⟨k, v⟩ := c
    rw [Memory.risesFrom_cons] at w ⊢
    simp only [List.all_cons, Bool.and_eq_true, decide_eq_true_eq] at h
    exact ⟨Nat.max_le.mpr ⟨w.1, h.1⟩, w.2⟩

/-- A slice has the form. -/
theorem Memory.wf_slice {m : Memory} (w : Memory.wf m = true) (a n : Nat) : Memory.wf (Memory.slice m a n) = true := by
  have h1 := Memory.risesFrom_filter (fun c => decide (a ≤ c.1) && decide (c.1 < a + n)) w
  have h2 : (m.filter (fun c => decide (a ≤ c.1) && decide (c.1 < a + n))).all (fun c => decide (a ≤ c.1)) = true := by
    simp only [List.all_eq_true, List.mem_filter, Bool.and_eq_true, decide_eq_true_eq]
    intro c hc; exact hc.2.1
  have h3 := Memory.risesFrom_above h1 h2
  have h4 := Memory.risesFrom_shift a (Nat.le_max_right 0 a) h3
  exact Memory.risesFrom_mono (Nat.zero_le _) h4

/-- A store to physical memory keeps the form. -/
theorem State.store_wf {s : State} (w : Memory.wf s.mem = true) (pa : Nat) (bs : List Byte) : Memory.wf (s.store pa bs).mem = true :=
  Memory.wf_write w pa bs

/-- A write of a number to physical memory keeps the form. -/
theorem State.write_wf {s : State} (w : Memory.wf s.mem = true) (pa n v : Nat) : Memory.wf (s.write pa n v).mem = true :=
  State.store_wf w pa _

/-- At reset nothing is listed; the registers of the management block that reset to other than zero have the form. -/
theorem State.reset_wf : Memory.wf State.reset.mem = true ∧ Memory.wf State.reset.cist = true ∧ Memory.wf State.reset.tables = true
    ∧ Memory.wf State.reset.mgmt = true ∧ State.reset.flash.slots.all Memory.wf = true ∧ Memory.wf State.reset.mailbox.rmbuf = true := by decide

end Sys2Proof.Machine
end

