-- ==== Sys2Proof/Laws/Numbers.lean ====
section
/-! SUPPORT. The shared number helpers (R15) against Lean's bit vectors. -/
namespace Sys2Proof.Machine

/-- Sign extension reads the low bits as a signed number. -/
theorem sextN_eq (v w : Nat) : sextN v w = (BitVec.ofNat w v).toInt := by
  rcases Nat.eq_zero_or_pos w with h | h
  · subst h; simp [sextN, Nat.mod_one, BitVec.toInt_of_zero_length]
  · have e : bits v (w - 1) (w - 1) = (v % 2 ^ w) / 2 ^ (w - 1) := by
      have p : 2 ^ w = 2 ^ (w - 1) * 2 := by rw [← Nat.pow_succ]; congr 1; omega
      rw [bits, show w - 1 + 1 - (w - 1) = 1 by omega, Nat.shiftRight_eq_div_pow, Nat.pow_one, p, Nat.mod_mul_right_div_self]
    have p : 2 ^ w = 2 * 2 ^ (w - 1) := by rw [Nat.mul_comm, ← Nat.pow_succ]; congr 1; omega
    have hlt : v % 2 ^ w < 2 ^ w := Nat.mod_lt _ (Nat.two_pow_pos w)
    have q : 0 < 2 ^ (w - 1) := Nat.two_pow_pos _
    rw [BitVec.toInt_eq_toNat_cond, BitVec.toNat_ofNat, sextN, e]
    by_cases k : 2 * (v % 2 ^ w) < 2 ^ w
    · have : (v % 2 ^ w) / 2 ^ (w - 1) = 0 := Nat.div_eq_of_lt (by omega)
      simp [this, k]
    · have : (v % 2 ^ w) / 2 ^ (w - 1) = 1 := by
        apply Nat.div_eq_of_lt_le <;> omega
      simp [this, k, h]

/-- Truncation of an integer. -/
theorem truncI_eq (v : Int) (w : Nat) : truncI v w = (BitVec.ofInt w v).toNat := by
  simp [truncI, BitVec.toNat_ofInt]

/-- An element of a word. -/
theorem elemOf_eq (x : Word) (w j : Nat) (h : 0 < w) : elemOf x w j = (x.extractLsb' (w * j) w).toNat := by
  simp [elemOf, bits, BitVec.extractLsb'_toNat, show w * j + w - 1 + 1 - w * j = w by omega]

/-- A concatenation as a number. -/
theorem toNat_concat {m n : Nat} (x : BitVec m) (y : BitVec n) : (x ++ y).toNat = x.toNat * 2 ^ n + y.toNat := by
  rw [BitVec.toNat_append, ← Nat.shiftLeft_add_eq_or_of_lt y.isLt, Nat.shiftLeft_eq]

/-- A fold over four positions. -/
theorem foldl_range4 (g : Nat → Nat → Nat) (z : Nat) : (List.range 4).foldl g z = g (g (g (g z 0) 1) 2) 3 := rfl

/-- A fold over two positions. -/
theorem foldl_range2 (g : Nat → Nat → Nat) (z : Nat) : (List.range 2).foldl g z = g (g z 0) 1 := rfl

/-- Four bytes as a word. -/
theorem concat4 (a b c d : BitVec 8) :
    BitVec.ofNat 32 (0 + a.toNat * 2 ^ (8 * 0) + b.toNat * 2 ^ (8 * 1) + c.toNat * 2 ^ (8 * 2) + d.toNat * 2 ^ (8 * 3))
      = d ++ c ++ b ++ a := by
  refine BitVec.eq_of_toNat_eq (n := 32) ?_
  have h : (d ++ c ++ b ++ a).toNat = ((d.toNat * 2 ^ 8 + c.toNat) * 2 ^ 8 + b.toNat) * 2 ^ 8 + a.toNat := by
    rw [toNat_concat, toNat_concat, toNat_concat]
  rw [BitVec.toNat_ofNat]
  refine Eq.trans ?_ h.symm
  have := a.isLt
  have := b.isLt
  have := c.isLt
  have := d.isLt
  omega

/-- Two halves as a word. -/
theorem concat2 (a b : BitVec 16) :
    BitVec.ofNat 32 (0 + a.toNat * 2 ^ (16 * 0) + b.toNat * 2 ^ (16 * 1)) = b ++ a := by
  refine BitVec.eq_of_toNat_eq (n := 32) ?_
  have h : (b ++ a).toNat = b.toNat * 2 ^ 16 + a.toNat := by rw [toNat_concat]
  rw [BitVec.toNat_ofNat]
  refine Eq.trans ?_ h.symm
  have := a.isLt
  have := b.isLt
  omega

/-- Four bytes joined. -/
theorem joinElems_8 (f : Nat → Int) :
    joinElems 8 4 f = BitVec.ofInt 8 (f 3) ++ BitVec.ofInt 8 (f 2) ++ BitVec.ofInt 8 (f 1) ++ BitVec.ofInt 8 (f 0) := by
  rw [joinElems, foldl_range4, truncI_eq, truncI_eq, truncI_eq, truncI_eq]
  exact concat4 _ _ _ _

/-- Two halves joined. -/
theorem joinElems_16 (f : Nat → Int) : joinElems 16 2 f = BitVec.ofInt 16 (f 1) ++ BitVec.ofInt 16 (f 0) := by
  rw [joinElems, foldl_range2, truncI_eq, truncI_eq]
  exact concat2 _ _

end Sys2Proof.Machine
end

