-- ==== Sys2Proof/Laws/State.lean ====
section
/-! SUPPORT. One lemma for each field and each update of the device and of a thread, true by unfolding. -/
namespace Sys2Proof.Machine

/-! ### State.setCore -/

@[simp] theorem State.setCore_agenda (s : State) (c : Nat) (k : Core) : (s.setCore c k).agenda = s.agenda := rfl
@[simp] theorem State.setCore_cur (s : State) (c : Nat) (k : Core) : (s.setCore c k).cur = s.cur := rfl
@[simp] theorem State.setCore_stamp (s : State) (c : Nat) (k : Core) : (s.setCore c k).stamp = s.stamp := rfl
@[simp] theorem State.setCore_issue (s : State) (c : Nat) (k : Core) : (s.setCore c k).issue = s.issue := rfl
@[simp] theorem State.setCore_out (s : State) (c : Nat) (k : Core) : (s.setCore c k).out = s.out := rfl
@[simp] theorem State.setCore_mem (s : State) (c : Nat) (k : Core) : (s.setCore c k).mem = s.mem := rfl
@[simp] theorem State.setCore_hist (s : State) (c : Nat) (k : Core) : (s.setCore c k).hist = s.hist := rfl
@[simp] theorem State.setCore_cist (s : State) (c : Nat) (k : Core) : (s.setCore c k).cist = s.cist := rfl
@[simp] theorem State.setCore_poison (s : State) (c : Nat) (k : Core) : (s.setCore c k).poison = s.poison := rfl
@[simp] theorem State.setCore_boot (s : State) (c : Nat) (k : Core) : (s.setCore c k).boot = s.boot := rfl
@[simp] theorem State.setCore_flash (s : State) (c : Nat) (k : Core) : (s.setCore c k).flash = s.flash := rfl
@[simp] theorem State.setCore_mailbox (s : State) (c : Nat) (k : Core) : (s.setCore c k).mailbox = s.mailbox := rfl
@[simp] theorem State.setCore_mgmt (s : State) (c : Nat) (k : Core) : (s.setCore c k).mgmt = s.mgmt := rfl
@[simp] theorem State.setCore_own (s : State) (c : Nat) (k : Core) : (s.setCore c k).own = s.own := rfl
@[simp] theorem State.setCore_errs (s : State) (c : Nat) (k : Core) : (s.setCore c k).errs = s.errs := rfl
@[simp] theorem State.setCore_ports (s : State) (c : Nat) (k : Core) : (s.setCore c k).ports = s.ports := rfl
@[simp] theorem State.setCore_tables (s : State) (c : Nat) (k : Core) : (s.setCore c k).tables = s.tables := rfl
@[simp] theorem State.setCore_jinval (s : State) (c : Nat) (k : Core) : (s.setCore c k).jinval = s.jinval := rfl
@[simp] theorem State.setCore_qres (s : State) (c : Nat) (k : Core) : (s.setCore c k).qres = s.qres := rfl
@[simp] theorem State.setCore_queues (s : State) (c : Nat) (k : Core) : (s.setCore c k).queues = s.queues := rfl
@[simp] theorem State.setCore_cursors (s : State) (c : Nat) (k : Core) : (s.setCore c k).cursors = s.cursors := rfl
@[simp] theorem State.setCore_promoted (s : State) (c : Nat) (k : Core) : (s.setCore c k).promoted = s.promoted := rfl
@[simp] theorem State.setCore_withdrawn (s : State) (c : Nat) (k : Core) : (s.setCore c k).withdrawn = s.withdrawn := rfl
@[simp] theorem State.setCore_launches (s : State) (c : Nat) (k : Core) : (s.setCore c k).launches = s.launches := rfl
@[simp] theorem State.setCore_clusters (s : State) (c : Nat) (k : Core) : (s.setCore c k).clusters = s.clusters := rfl
@[simp] theorem State.setCore_nextId (s : State) (c : Nat) (k : Core) : (s.setCore c k).nextId = s.nextId := rfl
@[simp] theorem State.setCore_teams (s : State) (c : Nat) (k : Core) : (s.setCore c k).teams = s.teams := rfl
@[simp] theorem State.setCore_groups (s : State) (c : Nat) (k : Core) : (s.setCore c k).groups = s.groups := rfl
@[simp] theorem State.setCore_threads (s : State) (c : Nat) (k : Core) : (s.setCore c k).threads = s.threads := rfl
@[simp] theorem State.setCore_cores (s : State) (c : Nat) (k : Core) : (s.setCore c k).cores = AMap.set s.cores c k := rfl
@[simp] theorem State.setCore_saved (s : State) (c : Nat) (k : Core) : (s.setCore c k).saved = s.saved := rfl
@[simp] theorem State.setCore_triggers (s : State) (c : Nat) (k : Core) : (s.setCore c k).triggers = s.triggers := rfl
@[simp] theorem State.setCore_cut (s : State) (c : Nat) (k : Core) : (s.setCore c k).cut = s.cut := rfl
@[simp] theorem State.setCore_service (s : State) (c : Nat) (k : Core) : (s.setCore c k).service = s.service := rfl
@[simp] theorem State.setCore_faultSeq (s : State) (c : Nat) (k : Core) : (s.setCore c k).faultSeq = s.faultSeq := rfl
@[simp] theorem State.setCore_buffer (s : State) (c : Nat) (k : Core) : (s.setCore c k).buffer = s.buffer := rfl
@[simp] theorem State.setCore_net (s : State) (c : Nat) (k : Core) : (s.setCore c k).net = s.net := rfl
@[simp] theorem State.setCore_tlb (s : State) (c : Nat) (k : Core) : (s.setCore c k).tlb = s.tlb := rfl
@[simp] theorem State.setCore_walks (s : State) (c : Nat) (k : Core) : (s.setCore c k).walks = s.walks := rfl
@[simp] theorem State.setCore_scopeRec (s : State) (c : Nat) (k : Core) : (s.setCore c k).scopeRec = s.scopeRec := rfl
@[simp] theorem State.setCore_recent (s : State) (c : Nat) (k : Core) : (s.setCore c k).recent = s.recent := rfl
@[simp] theorem State.setCore_handles (s : State) (c : Nat) (k : Core) : (s.setCore c k).handles = s.handles := rfl
@[simp] theorem State.setCore_homes (s : State) (c : Nat) (k : Core) : (s.setCore c k).homes = s.homes := rfl
@[simp] theorem State.setCore_moves (s : State) (c : Nat) (k : Core) : (s.setCore c k).moves = s.moves := rfl
@[simp] theorem State.setCore_asks (s : State) (c : Nat) (k : Core) : (s.setCore c k).asks = s.asks := rfl
@[simp] theorem State.setCore_windows (s : State) (c : Nat) (k : Core) : (s.setCore c k).windows = s.windows := rfl
@[simp] theorem State.setCore_dbg (s : State) (c : Nat) (k : Core) : (s.setCore c k).dbg = s.dbg := rfl
@[simp] theorem State.setCore_dbgdata (s : State) (c : Nat) (k : Core) : (s.setCore c k).dbgdata = s.dbgdata := rfl
@[simp] theorem State.setCore_hostLines (s : State) (c : Nat) (k : Core) : (s.setCore c k).hostLines = s.hostLines := rfl
@[simp] theorem State.setCore_counted (s : State) (c : Nat) (k : Core) : (s.setCore c k).counted = s.counted := rfl

/-! ### State.setQueue -/

@[simp] theorem State.setQueue_agenda (s : State) (q : Nat) (v : Queue) : (s.setQueue q v).agenda = s.agenda := rfl
@[simp] theorem State.setQueue_cur (s : State) (q : Nat) (v : Queue) : (s.setQueue q v).cur = s.cur := rfl
@[simp] theorem State.setQueue_stamp (s : State) (q : Nat) (v : Queue) : (s.setQueue q v).stamp = s.stamp := rfl
@[simp] theorem State.setQueue_issue (s : State) (q : Nat) (v : Queue) : (s.setQueue q v).issue = s.issue := rfl
@[simp] theorem State.setQueue_out (s : State) (q : Nat) (v : Queue) : (s.setQueue q v).out = s.out := rfl
@[simp] theorem State.setQueue_mem (s : State) (q : Nat) (v : Queue) : (s.setQueue q v).mem = s.mem := rfl
@[simp] theorem State.setQueue_hist (s : State) (q : Nat) (v : Queue) : (s.setQueue q v).hist = s.hist := rfl
@[simp] theorem State.setQueue_cist (s : State) (q : Nat) (v : Queue) : (s.setQueue q v).cist = s.cist := rfl
@[simp] theorem State.setQueue_poison (s : State) (q : Nat) (v : Queue) : (s.setQueue q v).poison = s.poison := rfl
@[simp] theorem State.setQueue_boot (s : State) (q : Nat) (v : Queue) : (s.setQueue q v).boot = s.boot := rfl
@[simp] theorem State.setQueue_flash (s : State) (q : Nat) (v : Queue) : (s.setQueue q v).flash = s.flash := rfl
@[simp] theorem State.setQueue_mailbox (s : State) (q : Nat) (v : Queue) : (s.setQueue q v).mailbox = s.mailbox := rfl
@[simp] theorem State.setQueue_mgmt (s : State) (q : Nat) (v : Queue) : (s.setQueue q v).mgmt = s.mgmt := rfl
@[simp] theorem State.setQueue_own (s : State) (q : Nat) (v : Queue) : (s.setQueue q v).own = s.own := rfl
@[simp] theorem State.setQueue_errs (s : State) (q : Nat) (v : Queue) : (s.setQueue q v).errs = s.errs := rfl
@[simp] theorem State.setQueue_ports (s : State) (q : Nat) (v : Queue) : (s.setQueue q v).ports = s.ports := rfl
@[simp] theorem State.setQueue_tables (s : State) (q : Nat) (v : Queue) : (s.setQueue q v).tables = s.tables := rfl
@[simp] theorem State.setQueue_jinval (s : State) (q : Nat) (v : Queue) : (s.setQueue q v).jinval = s.jinval := rfl
@[simp] theorem State.setQueue_qres (s : State) (q : Nat) (v : Queue) : (s.setQueue q v).qres = s.qres := rfl
@[simp] theorem State.setQueue_queues (s : State) (q : Nat) (v : Queue) : (s.setQueue q v).queues = AMap.set s.queues q v := rfl
@[simp] theorem State.setQueue_cursors (s : State) (q : Nat) (v : Queue) : (s.setQueue q v).cursors = s.cursors := rfl
@[simp] theorem State.setQueue_promoted (s : State) (q : Nat) (v : Queue) : (s.setQueue q v).promoted = s.promoted := rfl
@[simp] theorem State.setQueue_withdrawn (s : State) (q : Nat) (v : Queue) : (s.setQueue q v).withdrawn = s.withdrawn := rfl
@[simp] theorem State.setQueue_launches (s : State) (q : Nat) (v : Queue) : (s.setQueue q v).launches = s.launches := rfl
@[simp] theorem State.setQueue_clusters (s : State) (q : Nat) (v : Queue) : (s.setQueue q v).clusters = s.clusters := rfl
@[simp] theorem State.setQueue_nextId (s : State) (q : Nat) (v : Queue) : (s.setQueue q v).nextId = s.nextId := rfl
@[simp] theorem State.setQueue_teams (s : State) (q : Nat) (v : Queue) : (s.setQueue q v).teams = s.teams := rfl
@[simp] theorem State.setQueue_groups (s : State) (q : Nat) (v : Queue) : (s.setQueue q v).groups = s.groups := rfl
@[simp] theorem State.setQueue_threads (s : State) (q : Nat) (v : Queue) : (s.setQueue q v).threads = s.threads := rfl
@[simp] theorem State.setQueue_cores (s : State) (q : Nat) (v : Queue) : (s.setQueue q v).cores = s.cores := rfl
@[simp] theorem State.setQueue_saved (s : State) (q : Nat) (v : Queue) : (s.setQueue q v).saved = s.saved := rfl
@[simp] theorem State.setQueue_triggers (s : State) (q : Nat) (v : Queue) : (s.setQueue q v).triggers = s.triggers := rfl
@[simp] theorem State.setQueue_cut (s : State) (q : Nat) (v : Queue) : (s.setQueue q v).cut = s.cut := rfl
@[simp] theorem State.setQueue_service (s : State) (q : Nat) (v : Queue) : (s.setQueue q v).service = s.service := rfl
@[simp] theorem State.setQueue_faultSeq (s : State) (q : Nat) (v : Queue) : (s.setQueue q v).faultSeq = s.faultSeq := rfl
@[simp] theorem State.setQueue_buffer (s : State) (q : Nat) (v : Queue) : (s.setQueue q v).buffer = s.buffer := rfl
@[simp] theorem State.setQueue_net (s : State) (q : Nat) (v : Queue) : (s.setQueue q v).net = s.net := rfl
@[simp] theorem State.setQueue_tlb (s : State) (q : Nat) (v : Queue) : (s.setQueue q v).tlb = s.tlb := rfl
@[simp] theorem State.setQueue_walks (s : State) (q : Nat) (v : Queue) : (s.setQueue q v).walks = s.walks := rfl
@[simp] theorem State.setQueue_scopeRec (s : State) (q : Nat) (v : Queue) : (s.setQueue q v).scopeRec = s.scopeRec := rfl
@[simp] theorem State.setQueue_recent (s : State) (q : Nat) (v : Queue) : (s.setQueue q v).recent = s.recent := rfl
@[simp] theorem State.setQueue_handles (s : State) (q : Nat) (v : Queue) : (s.setQueue q v).handles = s.handles := rfl
@[simp] theorem State.setQueue_homes (s : State) (q : Nat) (v : Queue) : (s.setQueue q v).homes = s.homes := rfl
@[simp] theorem State.setQueue_moves (s : State) (q : Nat) (v : Queue) : (s.setQueue q v).moves = s.moves := rfl
@[simp] theorem State.setQueue_asks (s : State) (q : Nat) (v : Queue) : (s.setQueue q v).asks = s.asks := rfl
@[simp] theorem State.setQueue_windows (s : State) (q : Nat) (v : Queue) : (s.setQueue q v).windows = s.windows := rfl
@[simp] theorem State.setQueue_dbg (s : State) (q : Nat) (v : Queue) : (s.setQueue q v).dbg = s.dbg := rfl
@[simp] theorem State.setQueue_dbgdata (s : State) (q : Nat) (v : Queue) : (s.setQueue q v).dbgdata = s.dbgdata := rfl
@[simp] theorem State.setQueue_hostLines (s : State) (q : Nat) (v : Queue) : (s.setQueue q v).hostLines = s.hostLines := rfl
@[simp] theorem State.setQueue_counted (s : State) (q : Nat) (v : Queue) : (s.setQueue q v).counted = s.counted := rfl

/-! ### State.setThread -/

@[simp] theorem State.setThread_agenda (s : State) (i : ThreadId) (t : Thread) : (s.setThread i t).agenda = s.agenda := rfl
@[simp] theorem State.setThread_cur (s : State) (i : ThreadId) (t : Thread) : (s.setThread i t).cur = s.cur := rfl
@[simp] theorem State.setThread_stamp (s : State) (i : ThreadId) (t : Thread) : (s.setThread i t).stamp = s.stamp := rfl
@[simp] theorem State.setThread_issue (s : State) (i : ThreadId) (t : Thread) : (s.setThread i t).issue = s.issue := rfl
@[simp] theorem State.setThread_out (s : State) (i : ThreadId) (t : Thread) : (s.setThread i t).out = s.out := rfl
@[simp] theorem State.setThread_mem (s : State) (i : ThreadId) (t : Thread) : (s.setThread i t).mem = s.mem := rfl
@[simp] theorem State.setThread_hist (s : State) (i : ThreadId) (t : Thread) : (s.setThread i t).hist = s.hist := rfl
@[simp] theorem State.setThread_cist (s : State) (i : ThreadId) (t : Thread) : (s.setThread i t).cist = s.cist := rfl
@[simp] theorem State.setThread_poison (s : State) (i : ThreadId) (t : Thread) : (s.setThread i t).poison = s.poison := rfl
@[simp] theorem State.setThread_boot (s : State) (i : ThreadId) (t : Thread) : (s.setThread i t).boot = s.boot := rfl
@[simp] theorem State.setThread_flash (s : State) (i : ThreadId) (t : Thread) : (s.setThread i t).flash = s.flash := rfl
@[simp] theorem State.setThread_mailbox (s : State) (i : ThreadId) (t : Thread) : (s.setThread i t).mailbox = s.mailbox := rfl
@[simp] theorem State.setThread_mgmt (s : State) (i : ThreadId) (t : Thread) : (s.setThread i t).mgmt = s.mgmt := rfl
@[simp] theorem State.setThread_own (s : State) (i : ThreadId) (t : Thread) : (s.setThread i t).own = s.own := rfl
@[simp] theorem State.setThread_errs (s : State) (i : ThreadId) (t : Thread) : (s.setThread i t).errs = s.errs := rfl
@[simp] theorem State.setThread_ports (s : State) (i : ThreadId) (t : Thread) : (s.setThread i t).ports = s.ports := rfl
@[simp] theorem State.setThread_tables (s : State) (i : ThreadId) (t : Thread) : (s.setThread i t).tables = s.tables := rfl
@[simp] theorem State.setThread_jinval (s : State) (i : ThreadId) (t : Thread) : (s.setThread i t).jinval = s.jinval := rfl
@[simp] theorem State.setThread_qres (s : State) (i : ThreadId) (t : Thread) : (s.setThread i t).qres = s.qres := rfl
@[simp] theorem State.setThread_queues (s : State) (i : ThreadId) (t : Thread) : (s.setThread i t).queues = s.queues := rfl
@[simp] theorem State.setThread_cursors (s : State) (i : ThreadId) (t : Thread) : (s.setThread i t).cursors = s.cursors := rfl
@[simp] theorem State.setThread_promoted (s : State) (i : ThreadId) (t : Thread) : (s.setThread i t).promoted = s.promoted := rfl
@[simp] theorem State.setThread_withdrawn (s : State) (i : ThreadId) (t : Thread) : (s.setThread i t).withdrawn = s.withdrawn := rfl
@[simp] theorem State.setThread_launches (s : State) (i : ThreadId) (t : Thread) : (s.setThread i t).launches = s.launches := rfl
@[simp] theorem State.setThread_clusters (s : State) (i : ThreadId) (t : Thread) : (s.setThread i t).clusters = s.clusters := rfl
@[simp] theorem State.setThread_nextId (s : State) (i : ThreadId) (t : Thread) : (s.setThread i t).nextId = s.nextId := rfl
@[simp] theorem State.setThread_teams (s : State) (i : ThreadId) (t : Thread) : (s.setThread i t).teams = s.teams := rfl
@[simp] theorem State.setThread_groups (s : State) (i : ThreadId) (t : Thread) : (s.setThread i t).groups = s.groups := rfl
@[simp] theorem State.setThread_threads (s : State) (i : ThreadId) (t : Thread) : (s.setThread i t).threads = AMap.set s.threads i t := rfl
@[simp] theorem State.setThread_cores (s : State) (i : ThreadId) (t : Thread) : (s.setThread i t).cores = s.cores := rfl
@[simp] theorem State.setThread_saved (s : State) (i : ThreadId) (t : Thread) : (s.setThread i t).saved = s.saved := rfl
@[simp] theorem State.setThread_triggers (s : State) (i : ThreadId) (t : Thread) : (s.setThread i t).triggers = s.triggers := rfl
@[simp] theorem State.setThread_cut (s : State) (i : ThreadId) (t : Thread) : (s.setThread i t).cut = s.cut := rfl
@[simp] theorem State.setThread_service (s : State) (i : ThreadId) (t : Thread) : (s.setThread i t).service = s.service := rfl
@[simp] theorem State.setThread_faultSeq (s : State) (i : ThreadId) (t : Thread) : (s.setThread i t).faultSeq = s.faultSeq := rfl
@[simp] theorem State.setThread_buffer (s : State) (i : ThreadId) (t : Thread) : (s.setThread i t).buffer = s.buffer := rfl
@[simp] theorem State.setThread_net (s : State) (i : ThreadId) (t : Thread) : (s.setThread i t).net = s.net := rfl
@[simp] theorem State.setThread_tlb (s : State) (i : ThreadId) (t : Thread) : (s.setThread i t).tlb = s.tlb := rfl
@[simp] theorem State.setThread_walks (s : State) (i : ThreadId) (t : Thread) : (s.setThread i t).walks = s.walks := rfl
@[simp] theorem State.setThread_scopeRec (s : State) (i : ThreadId) (t : Thread) : (s.setThread i t).scopeRec = s.scopeRec := rfl
@[simp] theorem State.setThread_recent (s : State) (i : ThreadId) (t : Thread) : (s.setThread i t).recent = s.recent := rfl
@[simp] theorem State.setThread_handles (s : State) (i : ThreadId) (t : Thread) : (s.setThread i t).handles = s.handles := rfl
@[simp] theorem State.setThread_homes (s : State) (i : ThreadId) (t : Thread) : (s.setThread i t).homes = s.homes := rfl
@[simp] theorem State.setThread_moves (s : State) (i : ThreadId) (t : Thread) : (s.setThread i t).moves = s.moves := rfl
@[simp] theorem State.setThread_asks (s : State) (i : ThreadId) (t : Thread) : (s.setThread i t).asks = s.asks := rfl
@[simp] theorem State.setThread_windows (s : State) (i : ThreadId) (t : Thread) : (s.setThread i t).windows = s.windows := rfl
@[simp] theorem State.setThread_dbg (s : State) (i : ThreadId) (t : Thread) : (s.setThread i t).dbg = s.dbg := rfl
@[simp] theorem State.setThread_dbgdata (s : State) (i : ThreadId) (t : Thread) : (s.setThread i t).dbgdata = s.dbgdata := rfl
@[simp] theorem State.setThread_hostLines (s : State) (i : ThreadId) (t : Thread) : (s.setThread i t).hostLines = s.hostLines := rfl
@[simp] theorem State.setThread_counted (s : State) (i : ThreadId) (t : Thread) : (s.setThread i t).counted = s.counted := rfl

/-! ### State.count -/

@[simp] theorem State.count_agenda (s : State) (k : Nat) : (s.count k).agenda = s.agenda := rfl
@[simp] theorem State.count_cur (s : State) (k : Nat) : (s.count k).cur = s.cur := rfl
@[simp] theorem State.count_stamp (s : State) (k : Nat) : (s.count k).stamp = s.stamp := rfl
@[simp] theorem State.count_issue (s : State) (k : Nat) : (s.count k).issue = s.issue := rfl
@[simp] theorem State.count_out (s : State) (k : Nat) : (s.count k).out = s.out := rfl
@[simp] theorem State.count_mem (s : State) (k : Nat) : (s.count k).mem = s.mem := rfl
@[simp] theorem State.count_hist (s : State) (k : Nat) : (s.count k).hist = s.hist := rfl
@[simp] theorem State.count_cist (s : State) (k : Nat) : (s.count k).cist = s.cist := rfl
@[simp] theorem State.count_poison (s : State) (k : Nat) : (s.count k).poison = s.poison := rfl
@[simp] theorem State.count_boot (s : State) (k : Nat) : (s.count k).boot = s.boot := rfl
@[simp] theorem State.count_flash (s : State) (k : Nat) : (s.count k).flash = s.flash := rfl
@[simp] theorem State.count_mailbox (s : State) (k : Nat) : (s.count k).mailbox = s.mailbox := rfl
@[simp] theorem State.count_mgmt (s : State) (k : Nat) : (s.count k).mgmt = s.mgmt := rfl
@[simp] theorem State.count_own (s : State) (k : Nat) : (s.count k).own = s.own := rfl
@[simp] theorem State.count_errs (s : State) (k : Nat) : (s.count k).errs = AMap.set s.errs k (AMap.getD s.errs k 0 + 1) := rfl
@[simp] theorem State.count_ports (s : State) (k : Nat) : (s.count k).ports = s.ports := rfl
@[simp] theorem State.count_tables (s : State) (k : Nat) : (s.count k).tables = s.tables := rfl
@[simp] theorem State.count_jinval (s : State) (k : Nat) : (s.count k).jinval = s.jinval := rfl
@[simp] theorem State.count_qres (s : State) (k : Nat) : (s.count k).qres = s.qres := rfl
@[simp] theorem State.count_queues (s : State) (k : Nat) : (s.count k).queues = s.queues := rfl
@[simp] theorem State.count_cursors (s : State) (k : Nat) : (s.count k).cursors = s.cursors := rfl
@[simp] theorem State.count_promoted (s : State) (k : Nat) : (s.count k).promoted = s.promoted := rfl
@[simp] theorem State.count_withdrawn (s : State) (k : Nat) : (s.count k).withdrawn = s.withdrawn := rfl
@[simp] theorem State.count_launches (s : State) (k : Nat) : (s.count k).launches = s.launches := rfl
@[simp] theorem State.count_clusters (s : State) (k : Nat) : (s.count k).clusters = s.clusters := rfl
@[simp] theorem State.count_nextId (s : State) (k : Nat) : (s.count k).nextId = s.nextId := rfl
@[simp] theorem State.count_teams (s : State) (k : Nat) : (s.count k).teams = s.teams := rfl
@[simp] theorem State.count_groups (s : State) (k : Nat) : (s.count k).groups = s.groups := rfl
@[simp] theorem State.count_threads (s : State) (k : Nat) : (s.count k).threads = s.threads := rfl
@[simp] theorem State.count_cores (s : State) (k : Nat) : (s.count k).cores = s.cores := rfl
@[simp] theorem State.count_saved (s : State) (k : Nat) : (s.count k).saved = s.saved := rfl
@[simp] theorem State.count_triggers (s : State) (k : Nat) : (s.count k).triggers = s.triggers := rfl
@[simp] theorem State.count_cut (s : State) (k : Nat) : (s.count k).cut = s.cut := rfl
@[simp] theorem State.count_service (s : State) (k : Nat) : (s.count k).service = s.service := rfl
@[simp] theorem State.count_faultSeq (s : State) (k : Nat) : (s.count k).faultSeq = s.faultSeq := rfl
@[simp] theorem State.count_buffer (s : State) (k : Nat) : (s.count k).buffer = s.buffer := rfl
@[simp] theorem State.count_net (s : State) (k : Nat) : (s.count k).net = s.net := rfl
@[simp] theorem State.count_tlb (s : State) (k : Nat) : (s.count k).tlb = s.tlb := rfl
@[simp] theorem State.count_walks (s : State) (k : Nat) : (s.count k).walks = s.walks := rfl
@[simp] theorem State.count_scopeRec (s : State) (k : Nat) : (s.count k).scopeRec = s.scopeRec := rfl
@[simp] theorem State.count_recent (s : State) (k : Nat) : (s.count k).recent = s.recent := rfl
@[simp] theorem State.count_handles (s : State) (k : Nat) : (s.count k).handles = s.handles := rfl
@[simp] theorem State.count_homes (s : State) (k : Nat) : (s.count k).homes = s.homes := rfl
@[simp] theorem State.count_moves (s : State) (k : Nat) : (s.count k).moves = s.moves := rfl
@[simp] theorem State.count_asks (s : State) (k : Nat) : (s.count k).asks = s.asks := rfl
@[simp] theorem State.count_windows (s : State) (k : Nat) : (s.count k).windows = s.windows := rfl
@[simp] theorem State.count_dbg (s : State) (k : Nat) : (s.count k).dbg = s.dbg := rfl
@[simp] theorem State.count_dbgdata (s : State) (k : Nat) : (s.count k).dbgdata = s.dbgdata := rfl
@[simp] theorem State.count_hostLines (s : State) (k : Nat) : (s.count k).hostLines = s.hostLines := rfl
@[simp] theorem State.count_counted (s : State) (k : Nat) : (s.count k).counted = s.counted := rfl

/-! ### State.send -/

@[simp] theorem State.send_agenda (s : State) (m : OutMsg) : (s.send m).agenda = s.agenda := rfl
@[simp] theorem State.send_cur (s : State) (m : OutMsg) : (s.send m).cur = s.cur := rfl
@[simp] theorem State.send_stamp (s : State) (m : OutMsg) : (s.send m).stamp = s.stamp := rfl
@[simp] theorem State.send_issue (s : State) (m : OutMsg) : (s.send m).issue = s.issue := rfl
@[simp] theorem State.send_out (s : State) (m : OutMsg) : (s.send m).out = s.out ++ [m] := rfl
@[simp] theorem State.send_mem (s : State) (m : OutMsg) : (s.send m).mem = s.mem := rfl
@[simp] theorem State.send_hist (s : State) (m : OutMsg) : (s.send m).hist = s.hist := rfl
@[simp] theorem State.send_cist (s : State) (m : OutMsg) : (s.send m).cist = s.cist := rfl
@[simp] theorem State.send_poison (s : State) (m : OutMsg) : (s.send m).poison = s.poison := rfl
@[simp] theorem State.send_boot (s : State) (m : OutMsg) : (s.send m).boot = s.boot := rfl
@[simp] theorem State.send_flash (s : State) (m : OutMsg) : (s.send m).flash = s.flash := rfl
@[simp] theorem State.send_mailbox (s : State) (m : OutMsg) : (s.send m).mailbox = s.mailbox := rfl
@[simp] theorem State.send_mgmt (s : State) (m : OutMsg) : (s.send m).mgmt = s.mgmt := rfl
@[simp] theorem State.send_own (s : State) (m : OutMsg) : (s.send m).own = s.own := rfl
@[simp] theorem State.send_errs (s : State) (m : OutMsg) : (s.send m).errs = s.errs := rfl
@[simp] theorem State.send_ports (s : State) (m : OutMsg) : (s.send m).ports = s.ports := rfl
@[simp] theorem State.send_tables (s : State) (m : OutMsg) : (s.send m).tables = s.tables := rfl
@[simp] theorem State.send_jinval (s : State) (m : OutMsg) : (s.send m).jinval = s.jinval := rfl
@[simp] theorem State.send_qres (s : State) (m : OutMsg) : (s.send m).qres = s.qres := rfl
@[simp] theorem State.send_queues (s : State) (m : OutMsg) : (s.send m).queues = s.queues := rfl
@[simp] theorem State.send_cursors (s : State) (m : OutMsg) : (s.send m).cursors = s.cursors := rfl
@[simp] theorem State.send_promoted (s : State) (m : OutMsg) : (s.send m).promoted = s.promoted := rfl
@[simp] theorem State.send_withdrawn (s : State) (m : OutMsg) : (s.send m).withdrawn = s.withdrawn := rfl
@[simp] theorem State.send_launches (s : State) (m : OutMsg) : (s.send m).launches = s.launches := rfl
@[simp] theorem State.send_clusters (s : State) (m : OutMsg) : (s.send m).clusters = s.clusters := rfl
@[simp] theorem State.send_nextId (s : State) (m : OutMsg) : (s.send m).nextId = s.nextId := rfl
@[simp] theorem State.send_teams (s : State) (m : OutMsg) : (s.send m).teams = s.teams := rfl
@[simp] theorem State.send_groups (s : State) (m : OutMsg) : (s.send m).groups = s.groups := rfl
@[simp] theorem State.send_threads (s : State) (m : OutMsg) : (s.send m).threads = s.threads := rfl
@[simp] theorem State.send_cores (s : State) (m : OutMsg) : (s.send m).cores = s.cores := rfl
@[simp] theorem State.send_saved (s : State) (m : OutMsg) : (s.send m).saved = s.saved := rfl
@[simp] theorem State.send_triggers (s : State) (m : OutMsg) : (s.send m).triggers = s.triggers := rfl
@[simp] theorem State.send_cut (s : State) (m : OutMsg) : (s.send m).cut = s.cut := rfl
@[simp] theorem State.send_service (s : State) (m : OutMsg) : (s.send m).service = s.service := rfl
@[simp] theorem State.send_faultSeq (s : State) (m : OutMsg) : (s.send m).faultSeq = s.faultSeq := rfl
@[simp] theorem State.send_buffer (s : State) (m : OutMsg) : (s.send m).buffer = s.buffer := rfl
@[simp] theorem State.send_net (s : State) (m : OutMsg) : (s.send m).net = s.net := rfl
@[simp] theorem State.send_tlb (s : State) (m : OutMsg) : (s.send m).tlb = s.tlb := rfl
@[simp] theorem State.send_walks (s : State) (m : OutMsg) : (s.send m).walks = s.walks := rfl
@[simp] theorem State.send_scopeRec (s : State) (m : OutMsg) : (s.send m).scopeRec = s.scopeRec := rfl
@[simp] theorem State.send_recent (s : State) (m : OutMsg) : (s.send m).recent = s.recent := rfl
@[simp] theorem State.send_handles (s : State) (m : OutMsg) : (s.send m).handles = s.handles := rfl
@[simp] theorem State.send_homes (s : State) (m : OutMsg) : (s.send m).homes = s.homes := rfl
@[simp] theorem State.send_moves (s : State) (m : OutMsg) : (s.send m).moves = s.moves := rfl
@[simp] theorem State.send_asks (s : State) (m : OutMsg) : (s.send m).asks = s.asks := rfl
@[simp] theorem State.send_windows (s : State) (m : OutMsg) : (s.send m).windows = s.windows := rfl
@[simp] theorem State.send_dbg (s : State) (m : OutMsg) : (s.send m).dbg = s.dbg := rfl
@[simp] theorem State.send_dbgdata (s : State) (m : OutMsg) : (s.send m).dbgdata = s.dbgdata := rfl
@[simp] theorem State.send_hostLines (s : State) (m : OutMsg) : (s.send m).hostLines = s.hostLines := rfl
@[simp] theorem State.send_counted (s : State) (m : OutMsg) : (s.send m).counted = s.counted := rfl

/-! ### State.storeFrom -/

@[simp] theorem State.storeFrom_agenda (s : State) (o : Origin) (a : Nat) (b : List Byte) : (s.storeFrom o a b).agenda = s.agenda := rfl
@[simp] theorem State.storeFrom_cur (s : State) (o : Origin) (a : Nat) (b : List Byte) : (s.storeFrom o a b).cur = s.cur := rfl
@[simp] theorem State.storeFrom_stamp (s : State) (o : Origin) (a : Nat) (b : List Byte) : (s.storeFrom o a b).stamp = s.stamp := rfl
@[simp] theorem State.storeFrom_issue (s : State) (o : Origin) (a : Nat) (b : List Byte) : (s.storeFrom o a b).issue = s.issue := rfl
@[simp] theorem State.storeFrom_out (s : State) (o : Origin) (a : Nat) (b : List Byte) : (s.storeFrom o a b).out = s.out := rfl
@[simp] theorem State.storeFrom_mem (s : State) (o : Origin) (a : Nat) (b : List Byte) : (s.storeFrom o a b).mem = Memory.write s.mem a b := rfl
@[simp] theorem State.storeFrom_hist (s : State) (o : Origin) (a : Nat) (b : List Byte) : (s.storeFrom o a b).hist = s.hist ++ [{ pa := a, len := b.length, old := Memory.slice s.mem a b.length, from' := o }] := rfl
@[simp] theorem State.storeFrom_cist (s : State) (o : Origin) (a : Nat) (b : List Byte) : (s.storeFrom o a b).cist = s.cist := rfl
@[simp] theorem State.storeFrom_poison (s : State) (o : Origin) (a : Nat) (b : List Byte) : (s.storeFrom o a b).poison = clearPoison s.poison a b.length := rfl
@[simp] theorem State.storeFrom_boot (s : State) (o : Origin) (a : Nat) (b : List Byte) : (s.storeFrom o a b).boot = s.boot := rfl
@[simp] theorem State.storeFrom_flash (s : State) (o : Origin) (a : Nat) (b : List Byte) : (s.storeFrom o a b).flash = s.flash := rfl
@[simp] theorem State.storeFrom_mailbox (s : State) (o : Origin) (a : Nat) (b : List Byte) : (s.storeFrom o a b).mailbox = s.mailbox := rfl
@[simp] theorem State.storeFrom_mgmt (s : State) (o : Origin) (a : Nat) (b : List Byte) : (s.storeFrom o a b).mgmt = s.mgmt := rfl
@[simp] theorem State.storeFrom_own (s : State) (o : Origin) (a : Nat) (b : List Byte) : (s.storeFrom o a b).own = s.own := rfl
@[simp] theorem State.storeFrom_errs (s : State) (o : Origin) (a : Nat) (b : List Byte) : (s.storeFrom o a b).errs = s.errs := rfl
@[simp] theorem State.storeFrom_ports (s : State) (o : Origin) (a : Nat) (b : List Byte) : (s.storeFrom o a b).ports = s.ports := rfl
@[simp] theorem State.storeFrom_tables (s : State) (o : Origin) (a : Nat) (b : List Byte) : (s.storeFrom o a b).tables = s.tables := rfl
@[simp] theorem State.storeFrom_jinval (s : State) (o : Origin) (a : Nat) (b : List Byte) : (s.storeFrom o a b).jinval = s.jinval := rfl
@[simp] theorem State.storeFrom_qres (s : State) (o : Origin) (a : Nat) (b : List Byte) : (s.storeFrom o a b).qres = s.qres := rfl
@[simp] theorem State.storeFrom_queues (s : State) (o : Origin) (a : Nat) (b : List Byte) : (s.storeFrom o a b).queues = s.queues := rfl
@[simp] theorem State.storeFrom_cursors (s : State) (o : Origin) (a : Nat) (b : List Byte) : (s.storeFrom o a b).cursors = s.cursors := rfl
@[simp] theorem State.storeFrom_promoted (s : State) (o : Origin) (a : Nat) (b : List Byte) : (s.storeFrom o a b).promoted = s.promoted := rfl
@[simp] theorem State.storeFrom_withdrawn (s : State) (o : Origin) (a : Nat) (b : List Byte) : (s.storeFrom o a b).withdrawn = s.withdrawn := rfl
@[simp] theorem State.storeFrom_launches (s : State) (o : Origin) (a : Nat) (b : List Byte) : (s.storeFrom o a b).launches = s.launches := rfl
@[simp] theorem State.storeFrom_clusters (s : State) (o : Origin) (a : Nat) (b : List Byte) : (s.storeFrom o a b).clusters = s.clusters := rfl
@[simp] theorem State.storeFrom_nextId (s : State) (o : Origin) (a : Nat) (b : List Byte) : (s.storeFrom o a b).nextId = s.nextId := rfl
@[simp] theorem State.storeFrom_teams (s : State) (o : Origin) (a : Nat) (b : List Byte) : (s.storeFrom o a b).teams = s.teams := rfl
@[simp] theorem State.storeFrom_groups (s : State) (o : Origin) (a : Nat) (b : List Byte) : (s.storeFrom o a b).groups = s.groups := rfl
@[simp] theorem State.storeFrom_threads (s : State) (o : Origin) (a : Nat) (b : List Byte) : (s.storeFrom o a b).threads = s.threads := rfl
@[simp] theorem State.storeFrom_cores (s : State) (o : Origin) (a : Nat) (b : List Byte) : (s.storeFrom o a b).cores = s.cores := rfl
@[simp] theorem State.storeFrom_saved (s : State) (o : Origin) (a : Nat) (b : List Byte) : (s.storeFrom o a b).saved = s.saved := rfl
@[simp] theorem State.storeFrom_triggers (s : State) (o : Origin) (a : Nat) (b : List Byte) : (s.storeFrom o a b).triggers = s.triggers := rfl
@[simp] theorem State.storeFrom_cut (s : State) (o : Origin) (a : Nat) (b : List Byte) : (s.storeFrom o a b).cut = s.cut := rfl
@[simp] theorem State.storeFrom_service (s : State) (o : Origin) (a : Nat) (b : List Byte) : (s.storeFrom o a b).service = s.service := rfl
@[simp] theorem State.storeFrom_faultSeq (s : State) (o : Origin) (a : Nat) (b : List Byte) : (s.storeFrom o a b).faultSeq = s.faultSeq := rfl
@[simp] theorem State.storeFrom_buffer (s : State) (o : Origin) (a : Nat) (b : List Byte) : (s.storeFrom o a b).buffer = s.buffer := rfl
@[simp] theorem State.storeFrom_net (s : State) (o : Origin) (a : Nat) (b : List Byte) : (s.storeFrom o a b).net = s.net := rfl
@[simp] theorem State.storeFrom_tlb (s : State) (o : Origin) (a : Nat) (b : List Byte) : (s.storeFrom o a b).tlb = s.tlb := rfl
@[simp] theorem State.storeFrom_walks (s : State) (o : Origin) (a : Nat) (b : List Byte) : (s.storeFrom o a b).walks = s.walks := rfl
@[simp] theorem State.storeFrom_scopeRec (s : State) (o : Origin) (a : Nat) (b : List Byte) : (s.storeFrom o a b).scopeRec = s.scopeRec := rfl
@[simp] theorem State.storeFrom_recent (s : State) (o : Origin) (a : Nat) (b : List Byte) : (s.storeFrom o a b).recent = s.recent := rfl
@[simp] theorem State.storeFrom_handles (s : State) (o : Origin) (a : Nat) (b : List Byte) : (s.storeFrom o a b).handles = s.handles := rfl
@[simp] theorem State.storeFrom_homes (s : State) (o : Origin) (a : Nat) (b : List Byte) : (s.storeFrom o a b).homes = s.homes := rfl
@[simp] theorem State.storeFrom_moves (s : State) (o : Origin) (a : Nat) (b : List Byte) : (s.storeFrom o a b).moves = s.moves := rfl
@[simp] theorem State.storeFrom_asks (s : State) (o : Origin) (a : Nat) (b : List Byte) : (s.storeFrom o a b).asks = s.asks := rfl
@[simp] theorem State.storeFrom_windows (s : State) (o : Origin) (a : Nat) (b : List Byte) : (s.storeFrom o a b).windows = s.windows := rfl
@[simp] theorem State.storeFrom_dbg (s : State) (o : Origin) (a : Nat) (b : List Byte) : (s.storeFrom o a b).dbg = s.dbg := rfl
@[simp] theorem State.storeFrom_dbgdata (s : State) (o : Origin) (a : Nat) (b : List Byte) : (s.storeFrom o a b).dbgdata = s.dbgdata := rfl
@[simp] theorem State.storeFrom_hostLines (s : State) (o : Origin) (a : Nat) (b : List Byte) : (s.storeFrom o a b).hostLines = s.hostLines := rfl
@[simp] theorem State.storeFrom_counted (s : State) (o : Origin) (a : Nat) (b : List Byte) : (s.storeFrom o a b).counted = s.counted := rfl

/-! ### State.store -/

@[simp] theorem State.store_agenda (s : State) (a : Nat) (b : List Byte) : (s.store a b).agenda = s.agenda := rfl
@[simp] theorem State.store_cur (s : State) (a : Nat) (b : List Byte) : (s.store a b).cur = s.cur := rfl
@[simp] theorem State.store_stamp (s : State) (a : Nat) (b : List Byte) : (s.store a b).stamp = s.stamp := rfl
@[simp] theorem State.store_issue (s : State) (a : Nat) (b : List Byte) : (s.store a b).issue = s.issue := rfl
@[simp] theorem State.store_out (s : State) (a : Nat) (b : List Byte) : (s.store a b).out = s.out := rfl
@[simp] theorem State.store_mem (s : State) (a : Nat) (b : List Byte) : (s.store a b).mem = Memory.write s.mem a b := rfl
@[simp] theorem State.store_cist (s : State) (a : Nat) (b : List Byte) : (s.store a b).cist = s.cist := rfl
@[simp] theorem State.store_poison (s : State) (a : Nat) (b : List Byte) : (s.store a b).poison = clearPoison s.poison a b.length := rfl
@[simp] theorem State.store_boot (s : State) (a : Nat) (b : List Byte) : (s.store a b).boot = s.boot := rfl
@[simp] theorem State.store_flash (s : State) (a : Nat) (b : List Byte) : (s.store a b).flash = s.flash := rfl
@[simp] theorem State.store_mailbox (s : State) (a : Nat) (b : List Byte) : (s.store a b).mailbox = s.mailbox := rfl
@[simp] theorem State.store_mgmt (s : State) (a : Nat) (b : List Byte) : (s.store a b).mgmt = s.mgmt := rfl
@[simp] theorem State.store_own (s : State) (a : Nat) (b : List Byte) : (s.store a b).own = s.own := rfl
@[simp] theorem State.store_errs (s : State) (a : Nat) (b : List Byte) : (s.store a b).errs = s.errs := rfl
@[simp] theorem State.store_ports (s : State) (a : Nat) (b : List Byte) : (s.store a b).ports = s.ports := rfl
@[simp] theorem State.store_tables (s : State) (a : Nat) (b : List Byte) : (s.store a b).tables = s.tables := rfl
@[simp] theorem State.store_jinval (s : State) (a : Nat) (b : List Byte) : (s.store a b).jinval = s.jinval := rfl
@[simp] theorem State.store_qres (s : State) (a : Nat) (b : List Byte) : (s.store a b).qres = s.qres := rfl
@[simp] theorem State.store_queues (s : State) (a : Nat) (b : List Byte) : (s.store a b).queues = s.queues := rfl
@[simp] theorem State.store_cursors (s : State) (a : Nat) (b : List Byte) : (s.store a b).cursors = s.cursors := rfl
@[simp] theorem State.store_promoted (s : State) (a : Nat) (b : List Byte) : (s.store a b).promoted = s.promoted := rfl
@[simp] theorem State.store_withdrawn (s : State) (a : Nat) (b : List Byte) : (s.store a b).withdrawn = s.withdrawn := rfl
@[simp] theorem State.store_launches (s : State) (a : Nat) (b : List Byte) : (s.store a b).launches = s.launches := rfl
@[simp] theorem State.store_clusters (s : State) (a : Nat) (b : List Byte) : (s.store a b).clusters = s.clusters := rfl
@[simp] theorem State.store_nextId (s : State) (a : Nat) (b : List Byte) : (s.store a b).nextId = s.nextId := rfl
@[simp] theorem State.store_teams (s : State) (a : Nat) (b : List Byte) : (s.store a b).teams = s.teams := rfl
@[simp] theorem State.store_groups (s : State) (a : Nat) (b : List Byte) : (s.store a b).groups = s.groups := rfl
@[simp] theorem State.store_threads (s : State) (a : Nat) (b : List Byte) : (s.store a b).threads = s.threads := rfl
@[simp] theorem State.store_cores (s : State) (a : Nat) (b : List Byte) : (s.store a b).cores = s.cores := rfl
@[simp] theorem State.store_saved (s : State) (a : Nat) (b : List Byte) : (s.store a b).saved = s.saved := rfl
@[simp] theorem State.store_triggers (s : State) (a : Nat) (b : List Byte) : (s.store a b).triggers = s.triggers := rfl
@[simp] theorem State.store_cut (s : State) (a : Nat) (b : List Byte) : (s.store a b).cut = s.cut := rfl
@[simp] theorem State.store_service (s : State) (a : Nat) (b : List Byte) : (s.store a b).service = s.service := rfl
@[simp] theorem State.store_faultSeq (s : State) (a : Nat) (b : List Byte) : (s.store a b).faultSeq = s.faultSeq := rfl
@[simp] theorem State.store_buffer (s : State) (a : Nat) (b : List Byte) : (s.store a b).buffer = s.buffer := rfl
@[simp] theorem State.store_net (s : State) (a : Nat) (b : List Byte) : (s.store a b).net = s.net := rfl
@[simp] theorem State.store_tlb (s : State) (a : Nat) (b : List Byte) : (s.store a b).tlb = s.tlb := rfl
@[simp] theorem State.store_walks (s : State) (a : Nat) (b : List Byte) : (s.store a b).walks = s.walks := rfl
@[simp] theorem State.store_scopeRec (s : State) (a : Nat) (b : List Byte) : (s.store a b).scopeRec = s.scopeRec := rfl
@[simp] theorem State.store_recent (s : State) (a : Nat) (b : List Byte) : (s.store a b).recent = s.recent := rfl
@[simp] theorem State.store_handles (s : State) (a : Nat) (b : List Byte) : (s.store a b).handles = s.handles := rfl
@[simp] theorem State.store_homes (s : State) (a : Nat) (b : List Byte) : (s.store a b).homes = s.homes := rfl
@[simp] theorem State.store_moves (s : State) (a : Nat) (b : List Byte) : (s.store a b).moves = s.moves := rfl
@[simp] theorem State.store_asks (s : State) (a : Nat) (b : List Byte) : (s.store a b).asks = s.asks := rfl
@[simp] theorem State.store_windows (s : State) (a : Nat) (b : List Byte) : (s.store a b).windows = s.windows := rfl
@[simp] theorem State.store_dbg (s : State) (a : Nat) (b : List Byte) : (s.store a b).dbg = s.dbg := rfl
@[simp] theorem State.store_dbgdata (s : State) (a : Nat) (b : List Byte) : (s.store a b).dbgdata = s.dbgdata := rfl
@[simp] theorem State.store_hostLines (s : State) (a : Nat) (b : List Byte) : (s.store a b).hostLines = s.hostLines := rfl
@[simp] theorem State.store_counted (s : State) (a : Nat) (b : List Byte) : (s.store a b).counted = s.counted := rfl

/-! ### State.write -/

@[simp] theorem State.write_agenda (s : State) (a n v : Nat) : (s.write a n v).agenda = s.agenda := rfl
@[simp] theorem State.write_cur (s : State) (a n v : Nat) : (s.write a n v).cur = s.cur := rfl
@[simp] theorem State.write_stamp (s : State) (a n v : Nat) : (s.write a n v).stamp = s.stamp := rfl
@[simp] theorem State.write_issue (s : State) (a n v : Nat) : (s.write a n v).issue = s.issue := rfl
@[simp] theorem State.write_out (s : State) (a n v : Nat) : (s.write a n v).out = s.out := rfl
@[simp] theorem State.write_mem (s : State) (a n v : Nat) : (s.write a n v).mem = Memory.write s.mem a (natBytes n v) := rfl
@[simp] theorem State.write_cist (s : State) (a n v : Nat) : (s.write a n v).cist = s.cist := rfl
@[simp] theorem State.write_boot (s : State) (a n v : Nat) : (s.write a n v).boot = s.boot := rfl
@[simp] theorem State.write_flash (s : State) (a n v : Nat) : (s.write a n v).flash = s.flash := rfl
@[simp] theorem State.write_mailbox (s : State) (a n v : Nat) : (s.write a n v).mailbox = s.mailbox := rfl
@[simp] theorem State.write_mgmt (s : State) (a n v : Nat) : (s.write a n v).mgmt = s.mgmt := rfl
@[simp] theorem State.write_own (s : State) (a n v : Nat) : (s.write a n v).own = s.own := rfl
@[simp] theorem State.write_errs (s : State) (a n v : Nat) : (s.write a n v).errs = s.errs := rfl
@[simp] theorem State.write_ports (s : State) (a n v : Nat) : (s.write a n v).ports = s.ports := rfl
@[simp] theorem State.write_tables (s : State) (a n v : Nat) : (s.write a n v).tables = s.tables := rfl
@[simp] theorem State.write_jinval (s : State) (a n v : Nat) : (s.write a n v).jinval = s.jinval := rfl
@[simp] theorem State.write_qres (s : State) (a n v : Nat) : (s.write a n v).qres = s.qres := rfl
@[simp] theorem State.write_queues (s : State) (a n v : Nat) : (s.write a n v).queues = s.queues := rfl
@[simp] theorem State.write_cursors (s : State) (a n v : Nat) : (s.write a n v).cursors = s.cursors := rfl
@[simp] theorem State.write_promoted (s : State) (a n v : Nat) : (s.write a n v).promoted = s.promoted := rfl
@[simp] theorem State.write_withdrawn (s : State) (a n v : Nat) : (s.write a n v).withdrawn = s.withdrawn := rfl
@[simp] theorem State.write_launches (s : State) (a n v : Nat) : (s.write a n v).launches = s.launches := rfl
@[simp] theorem State.write_clusters (s : State) (a n v : Nat) : (s.write a n v).clusters = s.clusters := rfl
@[simp] theorem State.write_nextId (s : State) (a n v : Nat) : (s.write a n v).nextId = s.nextId := rfl
@[simp] theorem State.write_teams (s : State) (a n v : Nat) : (s.write a n v).teams = s.teams := rfl
@[simp] theorem State.write_groups (s : State) (a n v : Nat) : (s.write a n v).groups = s.groups := rfl
@[simp] theorem State.write_threads (s : State) (a n v : Nat) : (s.write a n v).threads = s.threads := rfl
@[simp] theorem State.write_cores (s : State) (a n v : Nat) : (s.write a n v).cores = s.cores := rfl
@[simp] theorem State.write_saved (s : State) (a n v : Nat) : (s.write a n v).saved = s.saved := rfl
@[simp] theorem State.write_triggers (s : State) (a n v : Nat) : (s.write a n v).triggers = s.triggers := rfl
@[simp] theorem State.write_cut (s : State) (a n v : Nat) : (s.write a n v).cut = s.cut := rfl
@[simp] theorem State.write_service (s : State) (a n v : Nat) : (s.write a n v).service = s.service := rfl
@[simp] theorem State.write_faultSeq (s : State) (a n v : Nat) : (s.write a n v).faultSeq = s.faultSeq := rfl
@[simp] theorem State.write_buffer (s : State) (a n v : Nat) : (s.write a n v).buffer = s.buffer := rfl
@[simp] theorem State.write_net (s : State) (a n v : Nat) : (s.write a n v).net = s.net := rfl
@[simp] theorem State.write_tlb (s : State) (a n v : Nat) : (s.write a n v).tlb = s.tlb := rfl
@[simp] theorem State.write_walks (s : State) (a n v : Nat) : (s.write a n v).walks = s.walks := rfl
@[simp] theorem State.write_scopeRec (s : State) (a n v : Nat) : (s.write a n v).scopeRec = s.scopeRec := rfl
@[simp] theorem State.write_recent (s : State) (a n v : Nat) : (s.write a n v).recent = s.recent := rfl
@[simp] theorem State.write_handles (s : State) (a n v : Nat) : (s.write a n v).handles = s.handles := rfl
@[simp] theorem State.write_homes (s : State) (a n v : Nat) : (s.write a n v).homes = s.homes := rfl
@[simp] theorem State.write_moves (s : State) (a n v : Nat) : (s.write a n v).moves = s.moves := rfl
@[simp] theorem State.write_asks (s : State) (a n v : Nat) : (s.write a n v).asks = s.asks := rfl
@[simp] theorem State.write_windows (s : State) (a n v : Nat) : (s.write a n v).windows = s.windows := rfl
@[simp] theorem State.write_dbg (s : State) (a n v : Nat) : (s.write a n v).dbg = s.dbg := rfl
@[simp] theorem State.write_dbgdata (s : State) (a n v : Nat) : (s.write a n v).dbgdata = s.dbgdata := rfl
@[simp] theorem State.write_hostLines (s : State) (a n v : Nat) : (s.write a n v).hostLines = s.hostLines := rfl
@[simp] theorem State.write_counted (s : State) (a n v : Nat) : (s.write a n v).counted = s.counted := rfl

/-! ### State.modThread -/

@[simp] theorem State.modThread_agenda (s : State) (i : ThreadId) (f : Thread → Thread) : (s.modThread i f).agenda = s.agenda := by unfold State.modThread; split <;> rfl
@[simp] theorem State.modThread_cur (s : State) (i : ThreadId) (f : Thread → Thread) : (s.modThread i f).cur = s.cur := by unfold State.modThread; split <;> rfl
@[simp] theorem State.modThread_stamp (s : State) (i : ThreadId) (f : Thread → Thread) : (s.modThread i f).stamp = s.stamp := by unfold State.modThread; split <;> rfl
@[simp] theorem State.modThread_issue (s : State) (i : ThreadId) (f : Thread → Thread) : (s.modThread i f).issue = s.issue := by unfold State.modThread; split <;> rfl
@[simp] theorem State.modThread_out (s : State) (i : ThreadId) (f : Thread → Thread) : (s.modThread i f).out = s.out := by unfold State.modThread; split <;> rfl
@[simp] theorem State.modThread_mem (s : State) (i : ThreadId) (f : Thread → Thread) : (s.modThread i f).mem = s.mem := by unfold State.modThread; split <;> rfl
@[simp] theorem State.modThread_hist (s : State) (i : ThreadId) (f : Thread → Thread) : (s.modThread i f).hist = s.hist := by unfold State.modThread; split <;> rfl
@[simp] theorem State.modThread_cist (s : State) (i : ThreadId) (f : Thread → Thread) : (s.modThread i f).cist = s.cist := by unfold State.modThread; split <;> rfl
@[simp] theorem State.modThread_poison (s : State) (i : ThreadId) (f : Thread → Thread) : (s.modThread i f).poison = s.poison := by unfold State.modThread; split <;> rfl
@[simp] theorem State.modThread_boot (s : State) (i : ThreadId) (f : Thread → Thread) : (s.modThread i f).boot = s.boot := by unfold State.modThread; split <;> rfl
@[simp] theorem State.modThread_flash (s : State) (i : ThreadId) (f : Thread → Thread) : (s.modThread i f).flash = s.flash := by unfold State.modThread; split <;> rfl
@[simp] theorem State.modThread_mailbox (s : State) (i : ThreadId) (f : Thread → Thread) : (s.modThread i f).mailbox = s.mailbox := by unfold State.modThread; split <;> rfl
@[simp] theorem State.modThread_mgmt (s : State) (i : ThreadId) (f : Thread → Thread) : (s.modThread i f).mgmt = s.mgmt := by unfold State.modThread; split <;> rfl
@[simp] theorem State.modThread_own (s : State) (i : ThreadId) (f : Thread → Thread) : (s.modThread i f).own = s.own := by unfold State.modThread; split <;> rfl
@[simp] theorem State.modThread_errs (s : State) (i : ThreadId) (f : Thread → Thread) : (s.modThread i f).errs = s.errs := by unfold State.modThread; split <;> rfl
@[simp] theorem State.modThread_ports (s : State) (i : ThreadId) (f : Thread → Thread) : (s.modThread i f).ports = s.ports := by unfold State.modThread; split <;> rfl
@[simp] theorem State.modThread_tables (s : State) (i : ThreadId) (f : Thread → Thread) : (s.modThread i f).tables = s.tables := by unfold State.modThread; split <;> rfl
@[simp] theorem State.modThread_jinval (s : State) (i : ThreadId) (f : Thread → Thread) : (s.modThread i f).jinval = s.jinval := by unfold State.modThread; split <;> rfl
@[simp] theorem State.modThread_qres (s : State) (i : ThreadId) (f : Thread → Thread) : (s.modThread i f).qres = s.qres := by unfold State.modThread; split <;> rfl
@[simp] theorem State.modThread_queues (s : State) (i : ThreadId) (f : Thread → Thread) : (s.modThread i f).queues = s.queues := by unfold State.modThread; split <;> rfl
@[simp] theorem State.modThread_cursors (s : State) (i : ThreadId) (f : Thread → Thread) : (s.modThread i f).cursors = s.cursors := by unfold State.modThread; split <;> rfl
@[simp] theorem State.modThread_promoted (s : State) (i : ThreadId) (f : Thread → Thread) : (s.modThread i f).promoted = s.promoted := by unfold State.modThread; split <;> rfl
@[simp] theorem State.modThread_withdrawn (s : State) (i : ThreadId) (f : Thread → Thread) : (s.modThread i f).withdrawn = s.withdrawn := by unfold State.modThread; split <;> rfl
@[simp] theorem State.modThread_launches (s : State) (i : ThreadId) (f : Thread → Thread) : (s.modThread i f).launches = s.launches := by unfold State.modThread; split <;> rfl
@[simp] theorem State.modThread_clusters (s : State) (i : ThreadId) (f : Thread → Thread) : (s.modThread i f).clusters = s.clusters := by unfold State.modThread; split <;> rfl
@[simp] theorem State.modThread_nextId (s : State) (i : ThreadId) (f : Thread → Thread) : (s.modThread i f).nextId = s.nextId := by unfold State.modThread; split <;> rfl
@[simp] theorem State.modThread_teams (s : State) (i : ThreadId) (f : Thread → Thread) : (s.modThread i f).teams = s.teams := by unfold State.modThread; split <;> rfl
@[simp] theorem State.modThread_groups (s : State) (i : ThreadId) (f : Thread → Thread) : (s.modThread i f).groups = s.groups := by unfold State.modThread; split <;> rfl
@[simp] theorem State.modThread_cores (s : State) (i : ThreadId) (f : Thread → Thread) : (s.modThread i f).cores = s.cores := by unfold State.modThread; split <;> rfl
@[simp] theorem State.modThread_saved (s : State) (i : ThreadId) (f : Thread → Thread) : (s.modThread i f).saved = s.saved := by unfold State.modThread; split <;> rfl
@[simp] theorem State.modThread_triggers (s : State) (i : ThreadId) (f : Thread → Thread) : (s.modThread i f).triggers = s.triggers := by unfold State.modThread; split <;> rfl
@[simp] theorem State.modThread_cut (s : State) (i : ThreadId) (f : Thread → Thread) : (s.modThread i f).cut = s.cut := by unfold State.modThread; split <;> rfl
@[simp] theorem State.modThread_service (s : State) (i : ThreadId) (f : Thread → Thread) : (s.modThread i f).service = s.service := by unfold State.modThread; split <;> rfl
@[simp] theorem State.modThread_faultSeq (s : State) (i : ThreadId) (f : Thread → Thread) : (s.modThread i f).faultSeq = s.faultSeq := by unfold State.modThread; split <;> rfl
@[simp] theorem State.modThread_buffer (s : State) (i : ThreadId) (f : Thread → Thread) : (s.modThread i f).buffer = s.buffer := by unfold State.modThread; split <;> rfl
@[simp] theorem State.modThread_net (s : State) (i : ThreadId) (f : Thread → Thread) : (s.modThread i f).net = s.net := by unfold State.modThread; split <;> rfl
@[simp] theorem State.modThread_tlb (s : State) (i : ThreadId) (f : Thread → Thread) : (s.modThread i f).tlb = s.tlb := by unfold State.modThread; split <;> rfl
@[simp] theorem State.modThread_walks (s : State) (i : ThreadId) (f : Thread → Thread) : (s.modThread i f).walks = s.walks := by unfold State.modThread; split <;> rfl
@[simp] theorem State.modThread_scopeRec (s : State) (i : ThreadId) (f : Thread → Thread) : (s.modThread i f).scopeRec = s.scopeRec := by unfold State.modThread; split <;> rfl
@[simp] theorem State.modThread_recent (s : State) (i : ThreadId) (f : Thread → Thread) : (s.modThread i f).recent = s.recent := by unfold State.modThread; split <;> rfl
@[simp] theorem State.modThread_handles (s : State) (i : ThreadId) (f : Thread → Thread) : (s.modThread i f).handles = s.handles := by unfold State.modThread; split <;> rfl
@[simp] theorem State.modThread_homes (s : State) (i : ThreadId) (f : Thread → Thread) : (s.modThread i f).homes = s.homes := by unfold State.modThread; split <;> rfl
@[simp] theorem State.modThread_moves (s : State) (i : ThreadId) (f : Thread → Thread) : (s.modThread i f).moves = s.moves := by unfold State.modThread; split <;> rfl
@[simp] theorem State.modThread_asks (s : State) (i : ThreadId) (f : Thread → Thread) : (s.modThread i f).asks = s.asks := by unfold State.modThread; split <;> rfl
@[simp] theorem State.modThread_windows (s : State) (i : ThreadId) (f : Thread → Thread) : (s.modThread i f).windows = s.windows := by unfold State.modThread; split <;> rfl
@[simp] theorem State.modThread_dbg (s : State) (i : ThreadId) (f : Thread → Thread) : (s.modThread i f).dbg = s.dbg := by unfold State.modThread; split <;> rfl
@[simp] theorem State.modThread_dbgdata (s : State) (i : ThreadId) (f : Thread → Thread) : (s.modThread i f).dbgdata = s.dbgdata := by unfold State.modThread; split <;> rfl
@[simp] theorem State.modThread_hostLines (s : State) (i : ThreadId) (f : Thread → Thread) : (s.modThread i f).hostLines = s.hostLines := by unfold State.modThread; split <;> rfl
@[simp] theorem State.modThread_counted (s : State) (i : ThreadId) (f : Thread → Thread) : (s.modThread i f).counted = s.counted := by unfold State.modThread; split <;> rfl

/-! ### State.modTeam -/

@[simp] theorem State.modTeam_agenda (s : State) (i : TeamId) (f : Team → Team) : (s.modTeam i f).agenda = s.agenda := by unfold State.modTeam; split <;> rfl
@[simp] theorem State.modTeam_cur (s : State) (i : TeamId) (f : Team → Team) : (s.modTeam i f).cur = s.cur := by unfold State.modTeam; split <;> rfl
@[simp] theorem State.modTeam_stamp (s : State) (i : TeamId) (f : Team → Team) : (s.modTeam i f).stamp = s.stamp := by unfold State.modTeam; split <;> rfl
@[simp] theorem State.modTeam_issue (s : State) (i : TeamId) (f : Team → Team) : (s.modTeam i f).issue = s.issue := by unfold State.modTeam; split <;> rfl
@[simp] theorem State.modTeam_out (s : State) (i : TeamId) (f : Team → Team) : (s.modTeam i f).out = s.out := by unfold State.modTeam; split <;> rfl
@[simp] theorem State.modTeam_mem (s : State) (i : TeamId) (f : Team → Team) : (s.modTeam i f).mem = s.mem := by unfold State.modTeam; split <;> rfl
@[simp] theorem State.modTeam_hist (s : State) (i : TeamId) (f : Team → Team) : (s.modTeam i f).hist = s.hist := by unfold State.modTeam; split <;> rfl
@[simp] theorem State.modTeam_cist (s : State) (i : TeamId) (f : Team → Team) : (s.modTeam i f).cist = s.cist := by unfold State.modTeam; split <;> rfl
@[simp] theorem State.modTeam_poison (s : State) (i : TeamId) (f : Team → Team) : (s.modTeam i f).poison = s.poison := by unfold State.modTeam; split <;> rfl
@[simp] theorem State.modTeam_boot (s : State) (i : TeamId) (f : Team → Team) : (s.modTeam i f).boot = s.boot := by unfold State.modTeam; split <;> rfl
@[simp] theorem State.modTeam_flash (s : State) (i : TeamId) (f : Team → Team) : (s.modTeam i f).flash = s.flash := by unfold State.modTeam; split <;> rfl
@[simp] theorem State.modTeam_mailbox (s : State) (i : TeamId) (f : Team → Team) : (s.modTeam i f).mailbox = s.mailbox := by unfold State.modTeam; split <;> rfl
@[simp] theorem State.modTeam_mgmt (s : State) (i : TeamId) (f : Team → Team) : (s.modTeam i f).mgmt = s.mgmt := by unfold State.modTeam; split <;> rfl
@[simp] theorem State.modTeam_own (s : State) (i : TeamId) (f : Team → Team) : (s.modTeam i f).own = s.own := by unfold State.modTeam; split <;> rfl
@[simp] theorem State.modTeam_errs (s : State) (i : TeamId) (f : Team → Team) : (s.modTeam i f).errs = s.errs := by unfold State.modTeam; split <;> rfl
@[simp] theorem State.modTeam_ports (s : State) (i : TeamId) (f : Team → Team) : (s.modTeam i f).ports = s.ports := by unfold State.modTeam; split <;> rfl
@[simp] theorem State.modTeam_tables (s : State) (i : TeamId) (f : Team → Team) : (s.modTeam i f).tables = s.tables := by unfold State.modTeam; split <;> rfl
@[simp] theorem State.modTeam_jinval (s : State) (i : TeamId) (f : Team → Team) : (s.modTeam i f).jinval = s.jinval := by unfold State.modTeam; split <;> rfl
@[simp] theorem State.modTeam_qres (s : State) (i : TeamId) (f : Team → Team) : (s.modTeam i f).qres = s.qres := by unfold State.modTeam; split <;> rfl
@[simp] theorem State.modTeam_queues (s : State) (i : TeamId) (f : Team → Team) : (s.modTeam i f).queues = s.queues := by unfold State.modTeam; split <;> rfl
@[simp] theorem State.modTeam_cursors (s : State) (i : TeamId) (f : Team → Team) : (s.modTeam i f).cursors = s.cursors := by unfold State.modTeam; split <;> rfl
@[simp] theorem State.modTeam_promoted (s : State) (i : TeamId) (f : Team → Team) : (s.modTeam i f).promoted = s.promoted := by unfold State.modTeam; split <;> rfl
@[simp] theorem State.modTeam_withdrawn (s : State) (i : TeamId) (f : Team → Team) : (s.modTeam i f).withdrawn = s.withdrawn := by unfold State.modTeam; split <;> rfl
@[simp] theorem State.modTeam_launches (s : State) (i : TeamId) (f : Team → Team) : (s.modTeam i f).launches = s.launches := by unfold State.modTeam; split <;> rfl
@[simp] theorem State.modTeam_clusters (s : State) (i : TeamId) (f : Team → Team) : (s.modTeam i f).clusters = s.clusters := by unfold State.modTeam; split <;> rfl
@[simp] theorem State.modTeam_nextId (s : State) (i : TeamId) (f : Team → Team) : (s.modTeam i f).nextId = s.nextId := by unfold State.modTeam; split <;> rfl
@[simp] theorem State.modTeam_groups (s : State) (i : TeamId) (f : Team → Team) : (s.modTeam i f).groups = s.groups := by unfold State.modTeam; split <;> rfl
@[simp] theorem State.modTeam_threads (s : State) (i : TeamId) (f : Team → Team) : (s.modTeam i f).threads = s.threads := by unfold State.modTeam; split <;> rfl
@[simp] theorem State.modTeam_cores (s : State) (i : TeamId) (f : Team → Team) : (s.modTeam i f).cores = s.cores := by unfold State.modTeam; split <;> rfl
@[simp] theorem State.modTeam_saved (s : State) (i : TeamId) (f : Team → Team) : (s.modTeam i f).saved = s.saved := by unfold State.modTeam; split <;> rfl
@[simp] theorem State.modTeam_triggers (s : State) (i : TeamId) (f : Team → Team) : (s.modTeam i f).triggers = s.triggers := by unfold State.modTeam; split <;> rfl
@[simp] theorem State.modTeam_cut (s : State) (i : TeamId) (f : Team → Team) : (s.modTeam i f).cut = s.cut := by unfold State.modTeam; split <;> rfl
@[simp] theorem State.modTeam_service (s : State) (i : TeamId) (f : Team → Team) : (s.modTeam i f).service = s.service := by unfold State.modTeam; split <;> rfl
@[simp] theorem State.modTeam_faultSeq (s : State) (i : TeamId) (f : Team → Team) : (s.modTeam i f).faultSeq = s.faultSeq := by unfold State.modTeam; split <;> rfl
@[simp] theorem State.modTeam_buffer (s : State) (i : TeamId) (f : Team → Team) : (s.modTeam i f).buffer = s.buffer := by unfold State.modTeam; split <;> rfl
@[simp] theorem State.modTeam_net (s : State) (i : TeamId) (f : Team → Team) : (s.modTeam i f).net = s.net := by unfold State.modTeam; split <;> rfl
@[simp] theorem State.modTeam_tlb (s : State) (i : TeamId) (f : Team → Team) : (s.modTeam i f).tlb = s.tlb := by unfold State.modTeam; split <;> rfl
@[simp] theorem State.modTeam_walks (s : State) (i : TeamId) (f : Team → Team) : (s.modTeam i f).walks = s.walks := by unfold State.modTeam; split <;> rfl
@[simp] theorem State.modTeam_scopeRec (s : State) (i : TeamId) (f : Team → Team) : (s.modTeam i f).scopeRec = s.scopeRec := by unfold State.modTeam; split <;> rfl
@[simp] theorem State.modTeam_recent (s : State) (i : TeamId) (f : Team → Team) : (s.modTeam i f).recent = s.recent := by unfold State.modTeam; split <;> rfl
@[simp] theorem State.modTeam_handles (s : State) (i : TeamId) (f : Team → Team) : (s.modTeam i f).handles = s.handles := by unfold State.modTeam; split <;> rfl
@[simp] theorem State.modTeam_homes (s : State) (i : TeamId) (f : Team → Team) : (s.modTeam i f).homes = s.homes := by unfold State.modTeam; split <;> rfl
@[simp] theorem State.modTeam_moves (s : State) (i : TeamId) (f : Team → Team) : (s.modTeam i f).moves = s.moves := by unfold State.modTeam; split <;> rfl
@[simp] theorem State.modTeam_asks (s : State) (i : TeamId) (f : Team → Team) : (s.modTeam i f).asks = s.asks := by unfold State.modTeam; split <;> rfl
@[simp] theorem State.modTeam_windows (s : State) (i : TeamId) (f : Team → Team) : (s.modTeam i f).windows = s.windows := by unfold State.modTeam; split <;> rfl
@[simp] theorem State.modTeam_dbg (s : State) (i : TeamId) (f : Team → Team) : (s.modTeam i f).dbg = s.dbg := by unfold State.modTeam; split <;> rfl
@[simp] theorem State.modTeam_dbgdata (s : State) (i : TeamId) (f : Team → Team) : (s.modTeam i f).dbgdata = s.dbgdata := by unfold State.modTeam; split <;> rfl
@[simp] theorem State.modTeam_hostLines (s : State) (i : TeamId) (f : Team → Team) : (s.modTeam i f).hostLines = s.hostLines := by unfold State.modTeam; split <;> rfl
@[simp] theorem State.modTeam_counted (s : State) (i : TeamId) (f : Team → Team) : (s.modTeam i f).counted = s.counted := by unfold State.modTeam; split <;> rfl

/-! ### State.modGroup -/

@[simp] theorem State.modGroup_agenda (s : State) (i : GroupId) (f : Group → Group) : (s.modGroup i f).agenda = s.agenda := by unfold State.modGroup; split <;> rfl
@[simp] theorem State.modGroup_cur (s : State) (i : GroupId) (f : Group → Group) : (s.modGroup i f).cur = s.cur := by unfold State.modGroup; split <;> rfl
@[simp] theorem State.modGroup_stamp (s : State) (i : GroupId) (f : Group → Group) : (s.modGroup i f).stamp = s.stamp := by unfold State.modGroup; split <;> rfl
@[simp] theorem State.modGroup_issue (s : State) (i : GroupId) (f : Group → Group) : (s.modGroup i f).issue = s.issue := by unfold State.modGroup; split <;> rfl
@[simp] theorem State.modGroup_out (s : State) (i : GroupId) (f : Group → Group) : (s.modGroup i f).out = s.out := by unfold State.modGroup; split <;> rfl
@[simp] theorem State.modGroup_mem (s : State) (i : GroupId) (f : Group → Group) : (s.modGroup i f).mem = s.mem := by unfold State.modGroup; split <;> rfl
@[simp] theorem State.modGroup_hist (s : State) (i : GroupId) (f : Group → Group) : (s.modGroup i f).hist = s.hist := by unfold State.modGroup; split <;> rfl
@[simp] theorem State.modGroup_cist (s : State) (i : GroupId) (f : Group → Group) : (s.modGroup i f).cist = s.cist := by unfold State.modGroup; split <;> rfl
@[simp] theorem State.modGroup_poison (s : State) (i : GroupId) (f : Group → Group) : (s.modGroup i f).poison = s.poison := by unfold State.modGroup; split <;> rfl
@[simp] theorem State.modGroup_boot (s : State) (i : GroupId) (f : Group → Group) : (s.modGroup i f).boot = s.boot := by unfold State.modGroup; split <;> rfl
@[simp] theorem State.modGroup_flash (s : State) (i : GroupId) (f : Group → Group) : (s.modGroup i f).flash = s.flash := by unfold State.modGroup; split <;> rfl
@[simp] theorem State.modGroup_mailbox (s : State) (i : GroupId) (f : Group → Group) : (s.modGroup i f).mailbox = s.mailbox := by unfold State.modGroup; split <;> rfl
@[simp] theorem State.modGroup_mgmt (s : State) (i : GroupId) (f : Group → Group) : (s.modGroup i f).mgmt = s.mgmt := by unfold State.modGroup; split <;> rfl
@[simp] theorem State.modGroup_own (s : State) (i : GroupId) (f : Group → Group) : (s.modGroup i f).own = s.own := by unfold State.modGroup; split <;> rfl
@[simp] theorem State.modGroup_errs (s : State) (i : GroupId) (f : Group → Group) : (s.modGroup i f).errs = s.errs := by unfold State.modGroup; split <;> rfl
@[simp] theorem State.modGroup_ports (s : State) (i : GroupId) (f : Group → Group) : (s.modGroup i f).ports = s.ports := by unfold State.modGroup; split <;> rfl
@[simp] theorem State.modGroup_tables (s : State) (i : GroupId) (f : Group → Group) : (s.modGroup i f).tables = s.tables := by unfold State.modGroup; split <;> rfl
@[simp] theorem State.modGroup_jinval (s : State) (i : GroupId) (f : Group → Group) : (s.modGroup i f).jinval = s.jinval := by unfold State.modGroup; split <;> rfl
@[simp] theorem State.modGroup_qres (s : State) (i : GroupId) (f : Group → Group) : (s.modGroup i f).qres = s.qres := by unfold State.modGroup; split <;> rfl
@[simp] theorem State.modGroup_queues (s : State) (i : GroupId) (f : Group → Group) : (s.modGroup i f).queues = s.queues := by unfold State.modGroup; split <;> rfl
@[simp] theorem State.modGroup_cursors (s : State) (i : GroupId) (f : Group → Group) : (s.modGroup i f).cursors = s.cursors := by unfold State.modGroup; split <;> rfl
@[simp] theorem State.modGroup_promoted (s : State) (i : GroupId) (f : Group → Group) : (s.modGroup i f).promoted = s.promoted := by unfold State.modGroup; split <;> rfl
@[simp] theorem State.modGroup_withdrawn (s : State) (i : GroupId) (f : Group → Group) : (s.modGroup i f).withdrawn = s.withdrawn := by unfold State.modGroup; split <;> rfl
@[simp] theorem State.modGroup_launches (s : State) (i : GroupId) (f : Group → Group) : (s.modGroup i f).launches = s.launches := by unfold State.modGroup; split <;> rfl
@[simp] theorem State.modGroup_clusters (s : State) (i : GroupId) (f : Group → Group) : (s.modGroup i f).clusters = s.clusters := by unfold State.modGroup; split <;> rfl
@[simp] theorem State.modGroup_nextId (s : State) (i : GroupId) (f : Group → Group) : (s.modGroup i f).nextId = s.nextId := by unfold State.modGroup; split <;> rfl
@[simp] theorem State.modGroup_teams (s : State) (i : GroupId) (f : Group → Group) : (s.modGroup i f).teams = s.teams := by unfold State.modGroup; split <;> rfl
@[simp] theorem State.modGroup_threads (s : State) (i : GroupId) (f : Group → Group) : (s.modGroup i f).threads = s.threads := by unfold State.modGroup; split <;> rfl
@[simp] theorem State.modGroup_cores (s : State) (i : GroupId) (f : Group → Group) : (s.modGroup i f).cores = s.cores := by unfold State.modGroup; split <;> rfl
@[simp] theorem State.modGroup_saved (s : State) (i : GroupId) (f : Group → Group) : (s.modGroup i f).saved = s.saved := by unfold State.modGroup; split <;> rfl
@[simp] theorem State.modGroup_triggers (s : State) (i : GroupId) (f : Group → Group) : (s.modGroup i f).triggers = s.triggers := by unfold State.modGroup; split <;> rfl
@[simp] theorem State.modGroup_cut (s : State) (i : GroupId) (f : Group → Group) : (s.modGroup i f).cut = s.cut := by unfold State.modGroup; split <;> rfl
@[simp] theorem State.modGroup_service (s : State) (i : GroupId) (f : Group → Group) : (s.modGroup i f).service = s.service := by unfold State.modGroup; split <;> rfl
@[simp] theorem State.modGroup_faultSeq (s : State) (i : GroupId) (f : Group → Group) : (s.modGroup i f).faultSeq = s.faultSeq := by unfold State.modGroup; split <;> rfl
@[simp] theorem State.modGroup_buffer (s : State) (i : GroupId) (f : Group → Group) : (s.modGroup i f).buffer = s.buffer := by unfold State.modGroup; split <;> rfl
@[simp] theorem State.modGroup_net (s : State) (i : GroupId) (f : Group → Group) : (s.modGroup i f).net = s.net := by unfold State.modGroup; split <;> rfl
@[simp] theorem State.modGroup_tlb (s : State) (i : GroupId) (f : Group → Group) : (s.modGroup i f).tlb = s.tlb := by unfold State.modGroup; split <;> rfl
@[simp] theorem State.modGroup_walks (s : State) (i : GroupId) (f : Group → Group) : (s.modGroup i f).walks = s.walks := by unfold State.modGroup; split <;> rfl
@[simp] theorem State.modGroup_scopeRec (s : State) (i : GroupId) (f : Group → Group) : (s.modGroup i f).scopeRec = s.scopeRec := by unfold State.modGroup; split <;> rfl
@[simp] theorem State.modGroup_recent (s : State) (i : GroupId) (f : Group → Group) : (s.modGroup i f).recent = s.recent := by unfold State.modGroup; split <;> rfl
@[simp] theorem State.modGroup_handles (s : State) (i : GroupId) (f : Group → Group) : (s.modGroup i f).handles = s.handles := by unfold State.modGroup; split <;> rfl
@[simp] theorem State.modGroup_homes (s : State) (i : GroupId) (f : Group → Group) : (s.modGroup i f).homes = s.homes := by unfold State.modGroup; split <;> rfl
@[simp] theorem State.modGroup_moves (s : State) (i : GroupId) (f : Group → Group) : (s.modGroup i f).moves = s.moves := by unfold State.modGroup; split <;> rfl
@[simp] theorem State.modGroup_asks (s : State) (i : GroupId) (f : Group → Group) : (s.modGroup i f).asks = s.asks := by unfold State.modGroup; split <;> rfl
@[simp] theorem State.modGroup_windows (s : State) (i : GroupId) (f : Group → Group) : (s.modGroup i f).windows = s.windows := by unfold State.modGroup; split <;> rfl
@[simp] theorem State.modGroup_dbg (s : State) (i : GroupId) (f : Group → Group) : (s.modGroup i f).dbg = s.dbg := by unfold State.modGroup; split <;> rfl
@[simp] theorem State.modGroup_dbgdata (s : State) (i : GroupId) (f : Group → Group) : (s.modGroup i f).dbgdata = s.dbgdata := by unfold State.modGroup; split <;> rfl
@[simp] theorem State.modGroup_hostLines (s : State) (i : GroupId) (f : Group → Group) : (s.modGroup i f).hostLines = s.hostLines := by unfold State.modGroup; split <;> rfl
@[simp] theorem State.modGroup_counted (s : State) (i : GroupId) (f : Group → Group) : (s.modGroup i f).counted = s.counted := by unfold State.modGroup; split <;> rfl

/-! ### Thread.retire -/

@[simp] theorem Thread.retire_lane (t : Thread) (a : Addr) : (t.retire a).lane = t.lane := rfl
@[simp] theorem Thread.retire_slot (t : Thread) (a : Addr) : (t.retire a).slot = t.slot := rfl
@[simp] theorem Thread.retire_regs (t : Thread) (a : Addr) : (t.retire a).regs = t.regs := rfl
@[simp] theorem Thread.retire_v (t : Thread) (a : Addr) : (t.retire a).v = t.v := rfl
@[simp] theorem Thread.retire_x (t : Thread) (a : Addr) : (t.retire a).x = t.x := rfl
@[simp] theorem Thread.retire_c (t : Thread) (a : Addr) : (t.retire a).c = t.c := rfl
@[simp] theorem Thread.retire_m (t : Thread) (a : Addr) : (t.retire a).m = t.m := rfl
@[simp] theorem Thread.retire_f (t : Thread) (a : Addr) : (t.retire a).f = t.f := rfl
@[simp] theorem Thread.retire_q (t : Thread) (a : Addr) : (t.retire a).q = t.q := rfl
@[simp] theorem Thread.retire_pc (t : Thread) (a : Addr) : (t.retire a).pc = a := rfl
@[simp] theorem Thread.retire_tstat (t : Thread) (a : Addr) : (t.retire a).tstat = t.tstat := rfl
@[simp] theorem Thread.retire_tsav (t : Thread) (a : Addr) : (t.retire a).tsav = t.tsav := rfl
@[simp] theorem Thread.retire_thdl (t : Thread) (a : Addr) : (t.retire a).thdl = t.thdl := rfl
@[simp] theorem Thread.retire_thdlHi (t : Thread) (a : Addr) : (t.retire a).thdlHi = t.thdlHi := rfl
@[simp] theorem Thread.retire_tcause (t : Thread) (a : Addr) : (t.retire a).tcause = t.tcause := rfl
@[simp] theorem Thread.retire_tepc (t : Thread) (a : Addr) : (t.retire a).tepc = t.tepc := rfl
@[simp] theorem Thread.retire_tepcHi (t : Thread) (a : Addr) : (t.retire a).tepcHi = t.tepcHi := rfl
@[simp] theorem Thread.retire_tval (t : Thread) (a : Addr) : (t.retire a).tval = t.tval := rfl
@[simp] theorem Thread.retire_tvalHi (t : Thread) (a : Addr) : (t.retire a).tvalHi = t.tvalHi := rfl
@[simp] theorem Thread.retire_tlog (t : Thread) (a : Addr) : (t.retire a).tlog = t.tlog := rfl
@[simp] theorem Thread.retire_srseed (t : Thread) (a : Addr) : (t.retire a).srseed = t.srseed := rfl
@[simp] theorem Thread.retire_gen (t : Thread) (a : Addr) : (t.retire a).gen = t.gen := rfl
@[simp] theorem Thread.retire_nret (t : Thread) (a : Addr) : (t.retire a).nret = t.nret + 1 := rfl
@[simp] theorem Thread.retire_ncycHi (t : Thread) (a : Addr) : (t.retire a).ncycHi = t.ncycHi := rfl
@[simp] theorem Thread.retire_nretHi (t : Thread) (a : Addr) : (t.retire a).nretHi = t.nretHi := rfl
@[simp] theorem Thread.retire_hints (t : Thread) (a : Addr) : (t.retire a).hints = [] := rfl
@[simp] theorem Thread.retire_log (t : Thread) (a : Addr) : (t.retire a).log = t.log := rfl
@[simp] theorem Thread.retire_kept (t : Thread) (a : Addr) : (t.retire a).kept = t.kept := rfl
@[simp] theorem Thread.retire_pend08 (t : Thread) (a : Addr) : (t.retire a).pend08 = t.pend08 := rfl
@[simp] theorem Thread.retire_pend0D (t : Thread) (a : Addr) : (t.retire a).pend0D = t.pend0D := rfl
@[simp] theorem Thread.retire_pend14 (t : Thread) (a : Addr) : (t.retire a).pend14 = t.pend14 := rfl
@[simp] theorem Thread.retire_pend15 (t : Thread) (a : Addr) : (t.retire a).pend15 = t.pend15 := rfl
@[simp] theorem Thread.retire_mismatch (t : Thread) (a : Addr) : (t.retire a).mismatch = t.mismatch := rfl
@[simp] theorem Thread.retire_latch (t : Thread) (a : Addr) : (t.retire a).latch = t.latch := rfl
@[simp] theorem Thread.retire_wait (t : Thread) (a : Addr) : (t.retire a).wait = .run := rfl
@[simp] theorem Thread.retire_view (t : Thread) (a : Addr) : (t.retire a).view = t.view := rfl
@[simp] theorem Thread.retire_next (t : Thread) (a : Addr) : (t.retire a).next = t.next := rfl
@[simp] theorem Thread.retire_wrote (t : Thread) (a : Addr) : (t.retire a).wrote = t.wrote := rfl
@[simp] theorem Thread.retire_reads (t : Thread) (a : Addr) : (t.retire a).reads = t.reads := rfl
@[simp] theorem Thread.retire_fences (t : Thread) (a : Addr) : (t.retire a).fences = t.fences := rfl
@[simp] theorem Thread.retire_traps (t : Thread) (a : Addr) : (t.retire a).traps = t.traps := rfl

/-! ### Thread.setReg -/

@[simp] theorem Thread.setReg_lane (t : Thread) (n : Nat) (v : Word) : (t.setReg n v).lane = t.lane := rfl
@[simp] theorem Thread.setReg_slot (t : Thread) (n : Nat) (v : Word) : (t.setReg n v).slot = t.slot := rfl
@[simp] theorem Thread.setReg_regs (t : Thread) (n : Nat) (v : Word) : (t.setReg n v).regs = t.regs := rfl
@[simp] theorem Thread.setReg_v (t : Thread) (n : Nat) (v : Word) : (t.setReg n v).v = t.v.set n v := rfl
@[simp] theorem Thread.setReg_x (t : Thread) (n : Nat) (v : Word) : (t.setReg n v).x = t.x := rfl
@[simp] theorem Thread.setReg_c (t : Thread) (n : Nat) (v : Word) : (t.setReg n v).c = t.c := rfl
@[simp] theorem Thread.setReg_m (t : Thread) (n : Nat) (v : Word) : (t.setReg n v).m = t.m := rfl
@[simp] theorem Thread.setReg_f (t : Thread) (n : Nat) (v : Word) : (t.setReg n v).f = t.f := rfl
@[simp] theorem Thread.setReg_q (t : Thread) (n : Nat) (v : Word) : (t.setReg n v).q = t.q := rfl
@[simp] theorem Thread.setReg_pc (t : Thread) (n : Nat) (v : Word) : (t.setReg n v).pc = t.pc := rfl
@[simp] theorem Thread.setReg_tstat (t : Thread) (n : Nat) (v : Word) : (t.setReg n v).tstat = t.tstat := rfl
@[simp] theorem Thread.setReg_tsav (t : Thread) (n : Nat) (v : Word) : (t.setReg n v).tsav = t.tsav := rfl
@[simp] theorem Thread.setReg_thdl (t : Thread) (n : Nat) (v : Word) : (t.setReg n v).thdl = t.thdl := rfl
@[simp] theorem Thread.setReg_thdlHi (t : Thread) (n : Nat) (v : Word) : (t.setReg n v).thdlHi = t.thdlHi := rfl
@[simp] theorem Thread.setReg_tcause (t : Thread) (n : Nat) (v : Word) : (t.setReg n v).tcause = t.tcause := rfl
@[simp] theorem Thread.setReg_tepc (t : Thread) (n : Nat) (v : Word) : (t.setReg n v).tepc = t.tepc := rfl
@[simp] theorem Thread.setReg_tepcHi (t : Thread) (n : Nat) (v : Word) : (t.setReg n v).tepcHi = t.tepcHi := rfl
@[simp] theorem Thread.setReg_tval (t : Thread) (n : Nat) (v : Word) : (t.setReg n v).tval = t.tval := rfl
@[simp] theorem Thread.setReg_tvalHi (t : Thread) (n : Nat) (v : Word) : (t.setReg n v).tvalHi = t.tvalHi := rfl
@[simp] theorem Thread.setReg_tlog (t : Thread) (n : Nat) (v : Word) : (t.setReg n v).tlog = t.tlog := rfl
@[simp] theorem Thread.setReg_srseed (t : Thread) (n : Nat) (v : Word) : (t.setReg n v).srseed = t.srseed := rfl
@[simp] theorem Thread.setReg_gen (t : Thread) (n : Nat) (v : Word) : (t.setReg n v).gen = t.gen := rfl
@[simp] theorem Thread.setReg_nret (t : Thread) (n : Nat) (v : Word) : (t.setReg n v).nret = t.nret := rfl
@[simp] theorem Thread.setReg_ncycHi (t : Thread) (n : Nat) (v : Word) : (t.setReg n v).ncycHi = t.ncycHi := rfl
@[simp] theorem Thread.setReg_nretHi (t : Thread) (n : Nat) (v : Word) : (t.setReg n v).nretHi = t.nretHi := rfl
@[simp] theorem Thread.setReg_hints (t : Thread) (n : Nat) (v : Word) : (t.setReg n v).hints = t.hints := rfl
@[simp] theorem Thread.setReg_log (t : Thread) (n : Nat) (v : Word) : (t.setReg n v).log = t.log := rfl
@[simp] theorem Thread.setReg_kept (t : Thread) (n : Nat) (v : Word) : (t.setReg n v).kept = t.kept := rfl
@[simp] theorem Thread.setReg_pend08 (t : Thread) (n : Nat) (v : Word) : (t.setReg n v).pend08 = t.pend08 := rfl
@[simp] theorem Thread.setReg_pend0D (t : Thread) (n : Nat) (v : Word) : (t.setReg n v).pend0D = t.pend0D := rfl
@[simp] theorem Thread.setReg_pend14 (t : Thread) (n : Nat) (v : Word) : (t.setReg n v).pend14 = t.pend14 := rfl
@[simp] theorem Thread.setReg_pend15 (t : Thread) (n : Nat) (v : Word) : (t.setReg n v).pend15 = t.pend15 := rfl
@[simp] theorem Thread.setReg_mismatch (t : Thread) (n : Nat) (v : Word) : (t.setReg n v).mismatch = t.mismatch := rfl
@[simp] theorem Thread.setReg_latch (t : Thread) (n : Nat) (v : Word) : (t.setReg n v).latch = t.latch := rfl
@[simp] theorem Thread.setReg_wait (t : Thread) (n : Nat) (v : Word) : (t.setReg n v).wait = t.wait := rfl
@[simp] theorem Thread.setReg_view (t : Thread) (n : Nat) (v : Word) : (t.setReg n v).view = t.view := rfl
@[simp] theorem Thread.setReg_next (t : Thread) (n : Nat) (v : Word) : (t.setReg n v).next = t.next := rfl
@[simp] theorem Thread.setReg_wrote (t : Thread) (n : Nat) (v : Word) : (t.setReg n v).wrote = t.wrote := rfl
@[simp] theorem Thread.setReg_reads (t : Thread) (n : Nat) (v : Word) : (t.setReg n v).reads = t.reads := rfl
@[simp] theorem Thread.setReg_fences (t : Thread) (n : Nat) (v : Word) : (t.setReg n v).fences = t.fences := rfl
@[simp] theorem Thread.setReg_traps (t : Thread) (n : Nat) (v : Word) : (t.setReg n v).traps = t.traps := rfl

/-! ### Thread.setPair -/

@[simp] theorem Thread.setPair_lane (t : Thread) (n : Nat) (v : Dword) : (t.setPair n v).lane = t.lane := rfl
@[simp] theorem Thread.setPair_slot (t : Thread) (n : Nat) (v : Dword) : (t.setPair n v).slot = t.slot := rfl
@[simp] theorem Thread.setPair_regs (t : Thread) (n : Nat) (v : Dword) : (t.setPair n v).regs = t.regs := rfl
@[simp] theorem Thread.setPair_v (t : Thread) (n : Nat) (v : Dword) : (t.setPair n v).v = (t.v.set n (v.extractLsb' 0 32)).set (n + 1) (v.extractLsb' 32 32) := rfl
@[simp] theorem Thread.setPair_x (t : Thread) (n : Nat) (v : Dword) : (t.setPair n v).x = t.x := rfl
@[simp] theorem Thread.setPair_c (t : Thread) (n : Nat) (v : Dword) : (t.setPair n v).c = t.c := rfl
@[simp] theorem Thread.setPair_m (t : Thread) (n : Nat) (v : Dword) : (t.setPair n v).m = t.m := rfl
@[simp] theorem Thread.setPair_f (t : Thread) (n : Nat) (v : Dword) : (t.setPair n v).f = t.f := rfl
@[simp] theorem Thread.setPair_q (t : Thread) (n : Nat) (v : Dword) : (t.setPair n v).q = t.q := rfl
@[simp] theorem Thread.setPair_pc (t : Thread) (n : Nat) (v : Dword) : (t.setPair n v).pc = t.pc := rfl
@[simp] theorem Thread.setPair_tstat (t : Thread) (n : Nat) (v : Dword) : (t.setPair n v).tstat = t.tstat := rfl
@[simp] theorem Thread.setPair_tsav (t : Thread) (n : Nat) (v : Dword) : (t.setPair n v).tsav = t.tsav := rfl
@[simp] theorem Thread.setPair_thdl (t : Thread) (n : Nat) (v : Dword) : (t.setPair n v).thdl = t.thdl := rfl
@[simp] theorem Thread.setPair_thdlHi (t : Thread) (n : Nat) (v : Dword) : (t.setPair n v).thdlHi = t.thdlHi := rfl
@[simp] theorem Thread.setPair_tcause (t : Thread) (n : Nat) (v : Dword) : (t.setPair n v).tcause = t.tcause := rfl
@[simp] theorem Thread.setPair_tepc (t : Thread) (n : Nat) (v : Dword) : (t.setPair n v).tepc = t.tepc := rfl
@[simp] theorem Thread.setPair_tepcHi (t : Thread) (n : Nat) (v : Dword) : (t.setPair n v).tepcHi = t.tepcHi := rfl
@[simp] theorem Thread.setPair_tval (t : Thread) (n : Nat) (v : Dword) : (t.setPair n v).tval = t.tval := rfl
@[simp] theorem Thread.setPair_tvalHi (t : Thread) (n : Nat) (v : Dword) : (t.setPair n v).tvalHi = t.tvalHi := rfl
@[simp] theorem Thread.setPair_tlog (t : Thread) (n : Nat) (v : Dword) : (t.setPair n v).tlog = t.tlog := rfl
@[simp] theorem Thread.setPair_srseed (t : Thread) (n : Nat) (v : Dword) : (t.setPair n v).srseed = t.srseed := rfl
@[simp] theorem Thread.setPair_gen (t : Thread) (n : Nat) (v : Dword) : (t.setPair n v).gen = t.gen := rfl
@[simp] theorem Thread.setPair_nret (t : Thread) (n : Nat) (v : Dword) : (t.setPair n v).nret = t.nret := rfl
@[simp] theorem Thread.setPair_ncycHi (t : Thread) (n : Nat) (v : Dword) : (t.setPair n v).ncycHi = t.ncycHi := rfl
@[simp] theorem Thread.setPair_nretHi (t : Thread) (n : Nat) (v : Dword) : (t.setPair n v).nretHi = t.nretHi := rfl
@[simp] theorem Thread.setPair_hints (t : Thread) (n : Nat) (v : Dword) : (t.setPair n v).hints = t.hints := rfl
@[simp] theorem Thread.setPair_log (t : Thread) (n : Nat) (v : Dword) : (t.setPair n v).log = t.log := rfl
@[simp] theorem Thread.setPair_kept (t : Thread) (n : Nat) (v : Dword) : (t.setPair n v).kept = t.kept := rfl
@[simp] theorem Thread.setPair_pend08 (t : Thread) (n : Nat) (v : Dword) : (t.setPair n v).pend08 = t.pend08 := rfl
@[simp] theorem Thread.setPair_pend0D (t : Thread) (n : Nat) (v : Dword) : (t.setPair n v).pend0D = t.pend0D := rfl
@[simp] theorem Thread.setPair_pend14 (t : Thread) (n : Nat) (v : Dword) : (t.setPair n v).pend14 = t.pend14 := rfl
@[simp] theorem Thread.setPair_pend15 (t : Thread) (n : Nat) (v : Dword) : (t.setPair n v).pend15 = t.pend15 := rfl
@[simp] theorem Thread.setPair_mismatch (t : Thread) (n : Nat) (v : Dword) : (t.setPair n v).mismatch = t.mismatch := rfl
@[simp] theorem Thread.setPair_latch (t : Thread) (n : Nat) (v : Dword) : (t.setPair n v).latch = t.latch := rfl
@[simp] theorem Thread.setPair_wait (t : Thread) (n : Nat) (v : Dword) : (t.setPair n v).wait = t.wait := rfl
@[simp] theorem Thread.setPair_view (t : Thread) (n : Nat) (v : Dword) : (t.setPair n v).view = t.view := rfl
@[simp] theorem Thread.setPair_next (t : Thread) (n : Nat) (v : Dword) : (t.setPair n v).next = t.next := rfl
@[simp] theorem Thread.setPair_wrote (t : Thread) (n : Nat) (v : Dword) : (t.setPair n v).wrote = t.wrote := rfl
@[simp] theorem Thread.setPair_reads (t : Thread) (n : Nat) (v : Dword) : (t.setPair n v).reads = t.reads := rfl
@[simp] theorem Thread.setPair_fences (t : Thread) (n : Nat) (v : Dword) : (t.setPair n v).fences = t.fences := rfl
@[simp] theorem Thread.setPair_traps (t : Thread) (n : Nat) (v : Dword) : (t.setPair n v).traps = t.traps := rfl

/-! ### Thread.setStream -/

@[simp] theorem Thread.setStream_lane (t : Thread) (k : Nat) (q : Option Stream) : (t.setStream k q).lane = t.lane := rfl
@[simp] theorem Thread.setStream_slot (t : Thread) (k : Nat) (q : Option Stream) : (t.setStream k q).slot = t.slot := rfl
@[simp] theorem Thread.setStream_regs (t : Thread) (k : Nat) (q : Option Stream) : (t.setStream k q).regs = t.regs := rfl
@[simp] theorem Thread.setStream_v (t : Thread) (k : Nat) (q : Option Stream) : (t.setStream k q).v = t.v := rfl
@[simp] theorem Thread.setStream_x (t : Thread) (k : Nat) (q : Option Stream) : (t.setStream k q).x = t.x := rfl
@[simp] theorem Thread.setStream_c (t : Thread) (k : Nat) (q : Option Stream) : (t.setStream k q).c = t.c := rfl
@[simp] theorem Thread.setStream_m (t : Thread) (k : Nat) (q : Option Stream) : (t.setStream k q).m = t.m := rfl
@[simp] theorem Thread.setStream_f (t : Thread) (k : Nat) (q : Option Stream) : (t.setStream k q).f = t.f := rfl
@[simp] theorem Thread.setStream_q (t : Thread) (k : Nat) (q : Option Stream) : (t.setStream k q).q = t.q.set k q := rfl
@[simp] theorem Thread.setStream_pc (t : Thread) (k : Nat) (q : Option Stream) : (t.setStream k q).pc = t.pc := rfl
@[simp] theorem Thread.setStream_tstat (t : Thread) (k : Nat) (q : Option Stream) : (t.setStream k q).tstat = t.tstat := rfl
@[simp] theorem Thread.setStream_tsav (t : Thread) (k : Nat) (q : Option Stream) : (t.setStream k q).tsav = t.tsav := rfl
@[simp] theorem Thread.setStream_thdl (t : Thread) (k : Nat) (q : Option Stream) : (t.setStream k q).thdl = t.thdl := rfl
@[simp] theorem Thread.setStream_thdlHi (t : Thread) (k : Nat) (q : Option Stream) : (t.setStream k q).thdlHi = t.thdlHi := rfl
@[simp] theorem Thread.setStream_tcause (t : Thread) (k : Nat) (q : Option Stream) : (t.setStream k q).tcause = t.tcause := rfl
@[simp] theorem Thread.setStream_tepc (t : Thread) (k : Nat) (q : Option Stream) : (t.setStream k q).tepc = t.tepc := rfl
@[simp] theorem Thread.setStream_tepcHi (t : Thread) (k : Nat) (q : Option Stream) : (t.setStream k q).tepcHi = t.tepcHi := rfl
@[simp] theorem Thread.setStream_tval (t : Thread) (k : Nat) (q : Option Stream) : (t.setStream k q).tval = t.tval := rfl
@[simp] theorem Thread.setStream_tvalHi (t : Thread) (k : Nat) (q : Option Stream) : (t.setStream k q).tvalHi = t.tvalHi := rfl
@[simp] theorem Thread.setStream_tlog (t : Thread) (k : Nat) (q : Option Stream) : (t.setStream k q).tlog = t.tlog := rfl
@[simp] theorem Thread.setStream_srseed (t : Thread) (k : Nat) (q : Option Stream) : (t.setStream k q).srseed = t.srseed := rfl
@[simp] theorem Thread.setStream_gen (t : Thread) (k : Nat) (q : Option Stream) : (t.setStream k q).gen = t.gen := rfl
@[simp] theorem Thread.setStream_nret (t : Thread) (k : Nat) (q : Option Stream) : (t.setStream k q).nret = t.nret := rfl
@[simp] theorem Thread.setStream_ncycHi (t : Thread) (k : Nat) (q : Option Stream) : (t.setStream k q).ncycHi = t.ncycHi := rfl
@[simp] theorem Thread.setStream_nretHi (t : Thread) (k : Nat) (q : Option Stream) : (t.setStream k q).nretHi = t.nretHi := rfl
@[simp] theorem Thread.setStream_hints (t : Thread) (k : Nat) (q : Option Stream) : (t.setStream k q).hints = t.hints := rfl
@[simp] theorem Thread.setStream_log (t : Thread) (k : Nat) (q : Option Stream) : (t.setStream k q).log = t.log := rfl
@[simp] theorem Thread.setStream_kept (t : Thread) (k : Nat) (q : Option Stream) : (t.setStream k q).kept = t.kept := rfl
@[simp] theorem Thread.setStream_pend08 (t : Thread) (k : Nat) (q : Option Stream) : (t.setStream k q).pend08 = t.pend08 := rfl
@[simp] theorem Thread.setStream_pend0D (t : Thread) (k : Nat) (q : Option Stream) : (t.setStream k q).pend0D = t.pend0D := rfl
@[simp] theorem Thread.setStream_pend14 (t : Thread) (k : Nat) (q : Option Stream) : (t.setStream k q).pend14 = t.pend14 := rfl
@[simp] theorem Thread.setStream_pend15 (t : Thread) (k : Nat) (q : Option Stream) : (t.setStream k q).pend15 = t.pend15 := rfl
@[simp] theorem Thread.setStream_mismatch (t : Thread) (k : Nat) (q : Option Stream) : (t.setStream k q).mismatch = t.mismatch := rfl
@[simp] theorem Thread.setStream_latch (t : Thread) (k : Nat) (q : Option Stream) : (t.setStream k q).latch = t.latch := rfl
@[simp] theorem Thread.setStream_wait (t : Thread) (k : Nat) (q : Option Stream) : (t.setStream k q).wait = t.wait := rfl
@[simp] theorem Thread.setStream_view (t : Thread) (k : Nat) (q : Option Stream) : (t.setStream k q).view = t.view := rfl
@[simp] theorem Thread.setStream_next (t : Thread) (k : Nat) (q : Option Stream) : (t.setStream k q).next = t.next := rfl
@[simp] theorem Thread.setStream_wrote (t : Thread) (k : Nat) (q : Option Stream) : (t.setStream k q).wrote = t.wrote := rfl
@[simp] theorem Thread.setStream_reads (t : Thread) (k : Nat) (q : Option Stream) : (t.setStream k q).reads = t.reads := rfl
@[simp] theorem Thread.setStream_fences (t : Thread) (k : Nat) (q : Option Stream) : (t.setStream k q).fences = t.fences := rfl
@[simp] theorem Thread.setStream_traps (t : Thread) (k : Nat) (q : Option Stream) : (t.setStream k q).traps = t.traps := rfl

/-! ### Thread.trapEntry -/

@[simp] theorem Thread.trapEntry_lane (t : Thread) (c : Nat) (e : Addr) (v : Dword) (l : Word) : (t.trapEntry c e v l).lane = t.lane := rfl
@[simp] theorem Thread.trapEntry_slot (t : Thread) (c : Nat) (e : Addr) (v : Dword) (l : Word) : (t.trapEntry c e v l).slot = t.slot := rfl
@[simp] theorem Thread.trapEntry_regs (t : Thread) (c : Nat) (e : Addr) (v : Dword) (l : Word) : (t.trapEntry c e v l).regs = t.regs := rfl
@[simp] theorem Thread.trapEntry_v (t : Thread) (c : Nat) (e : Addr) (v : Dword) (l : Word) : (t.trapEntry c e v l).v = t.v := rfl
@[simp] theorem Thread.trapEntry_x (t : Thread) (c : Nat) (e : Addr) (v : Dword) (l : Word) : (t.trapEntry c e v l).x = t.x := rfl
@[simp] theorem Thread.trapEntry_c (t : Thread) (c : Nat) (e : Addr) (v : Dword) (l : Word) : (t.trapEntry c e v l).c = t.c := rfl
@[simp] theorem Thread.trapEntry_m (t : Thread) (c : Nat) (e : Addr) (v : Dword) (l : Word) : (t.trapEntry c e v l).m = t.m := rfl
@[simp] theorem Thread.trapEntry_f (t : Thread) (c : Nat) (e : Addr) (v : Dword) (l : Word) : (t.trapEntry c e v l).f = t.f := rfl
@[simp] theorem Thread.trapEntry_q (t : Thread) (c : Nat) (e : Addr) (v : Dword) (l : Word) : (t.trapEntry c e v l).q = t.q := rfl
@[simp] theorem Thread.trapEntry_pc (t : Thread) (c : Nat) (e : Addr) (v : Dword) (l : Word) : (t.trapEntry c e v l).pc = t.handler := rfl
@[simp] theorem Thread.trapEntry_tstat (t : Thread) (c : Nat) (e : Addr) (v : Dword) (l : Word) : (t.trapEntry c e v l).tstat = (t.tstat ||| 1) &&& ~~~(0x82 : Word) := rfl
@[simp] theorem Thread.trapEntry_tsav (t : Thread) (c : Nat) (e : Addr) (v : Dword) (l : Word) : (t.trapEntry c e v l).tsav = t.tstat := rfl
@[simp] theorem Thread.trapEntry_thdl (t : Thread) (c : Nat) (e : Addr) (v : Dword) (l : Word) : (t.trapEntry c e v l).thdl = t.thdl := rfl
@[simp] theorem Thread.trapEntry_thdlHi (t : Thread) (c : Nat) (e : Addr) (v : Dword) (l : Word) : (t.trapEntry c e v l).thdlHi = t.thdlHi := rfl
@[simp] theorem Thread.trapEntry_tcause (t : Thread) (c : Nat) (e : Addr) (v : Dword) (l : Word) : (t.trapEntry c e v l).tcause = BitVec.ofNat 32 c := rfl
@[simp] theorem Thread.trapEntry_tepc (t : Thread) (c : Nat) (e : Addr) (v : Dword) (l : Word) : (t.trapEntry c e v l).tepc = e.extractLsb' 0 32 := rfl
@[simp] theorem Thread.trapEntry_tepcHi (t : Thread) (c : Nat) (e : Addr) (v : Dword) (l : Word) : (t.trapEntry c e v l).tepcHi = e.extractLsb' 32 16 := rfl
@[simp] theorem Thread.trapEntry_tval (t : Thread) (c : Nat) (e : Addr) (v : Dword) (l : Word) : (t.trapEntry c e v l).tval = v.extractLsb' 0 32 := rfl
@[simp] theorem Thread.trapEntry_tvalHi (t : Thread) (c : Nat) (e : Addr) (v : Dword) (l : Word) : (t.trapEntry c e v l).tvalHi = v.extractLsb' 32 32 := rfl
@[simp] theorem Thread.trapEntry_tlog (t : Thread) (c : Nat) (e : Addr) (v : Dword) (l : Word) : (t.trapEntry c e v l).tlog = l := rfl
@[simp] theorem Thread.trapEntry_srseed (t : Thread) (c : Nat) (e : Addr) (v : Dword) (l : Word) : (t.trapEntry c e v l).srseed = t.srseed := rfl
@[simp] theorem Thread.trapEntry_gen (t : Thread) (c : Nat) (e : Addr) (v : Dword) (l : Word) : (t.trapEntry c e v l).gen = t.gen := rfl
@[simp] theorem Thread.trapEntry_nret (t : Thread) (c : Nat) (e : Addr) (v : Dword) (l : Word) : (t.trapEntry c e v l).nret = t.nret := rfl
@[simp] theorem Thread.trapEntry_ncycHi (t : Thread) (c : Nat) (e : Addr) (v : Dword) (l : Word) : (t.trapEntry c e v l).ncycHi = t.ncycHi := rfl
@[simp] theorem Thread.trapEntry_nretHi (t : Thread) (c : Nat) (e : Addr) (v : Dword) (l : Word) : (t.trapEntry c e v l).nretHi = t.nretHi := rfl
@[simp] theorem Thread.trapEntry_hints (t : Thread) (c : Nat) (e : Addr) (v : Dword) (l : Word) : (t.trapEntry c e v l).hints = [] := rfl
@[simp] theorem Thread.trapEntry_log (t : Thread) (c : Nat) (e : Addr) (v : Dword) (l : Word) : (t.trapEntry c e v l).log = t.log := rfl
@[simp] theorem Thread.trapEntry_kept (t : Thread) (c : Nat) (e : Addr) (v : Dword) (l : Word) : (t.trapEntry c e v l).kept = t.kept := rfl
@[simp] theorem Thread.trapEntry_pend08 (t : Thread) (c : Nat) (e : Addr) (v : Dword) (l : Word) : (t.trapEntry c e v l).pend08 = t.pend08 := rfl
@[simp] theorem Thread.trapEntry_pend0D (t : Thread) (c : Nat) (e : Addr) (v : Dword) (l : Word) : (t.trapEntry c e v l).pend0D = t.pend0D := rfl
@[simp] theorem Thread.trapEntry_pend14 (t : Thread) (c : Nat) (e : Addr) (v : Dword) (l : Word) : (t.trapEntry c e v l).pend14 = t.pend14 := rfl
@[simp] theorem Thread.trapEntry_pend15 (t : Thread) (c : Nat) (e : Addr) (v : Dword) (l : Word) : (t.trapEntry c e v l).pend15 = t.pend15 := rfl
@[simp] theorem Thread.trapEntry_mismatch (t : Thread) (c : Nat) (e : Addr) (v : Dword) (l : Word) : (t.trapEntry c e v l).mismatch = t.mismatch := rfl
@[simp] theorem Thread.trapEntry_latch (t : Thread) (c : Nat) (e : Addr) (v : Dword) (l : Word) : (t.trapEntry c e v l).latch = t.latch := rfl
@[simp] theorem Thread.trapEntry_wait (t : Thread) (c : Nat) (e : Addr) (v : Dword) (l : Word) : (t.trapEntry c e v l).wait = .run := rfl
@[simp] theorem Thread.trapEntry_view (t : Thread) (c : Nat) (e : Addr) (v : Dword) (l : Word) : (t.trapEntry c e v l).view = t.view := rfl
@[simp] theorem Thread.trapEntry_next (t : Thread) (c : Nat) (e : Addr) (v : Dword) (l : Word) : (t.trapEntry c e v l).next = t.next := rfl
@[simp] theorem Thread.trapEntry_wrote (t : Thread) (c : Nat) (e : Addr) (v : Dword) (l : Word) : (t.trapEntry c e v l).wrote = t.wrote := rfl
@[simp] theorem Thread.trapEntry_reads (t : Thread) (c : Nat) (e : Addr) (v : Dword) (l : Word) : (t.trapEntry c e v l).reads = t.reads := rfl
@[simp] theorem Thread.trapEntry_fences (t : Thread) (c : Nat) (e : Addr) (v : Dword) (l : Word) : (t.trapEntry c e v l).fences = t.fences := rfl
@[simp] theorem Thread.trapEntry_traps (t : Thread) (c : Nat) (e : Addr) (v : Dword) (l : Word) : (t.trapEntry c e v l).traps = t.traps + 1 := rfl

/-! ### Thread.setCond -/

@[simp] theorem Thread.setCond_lane (t : Thread) (k : BitVec 3) (b : Bool) : (t.setCond k b).lane = t.lane := by unfold Thread.setCond; split <;> rfl
@[simp] theorem Thread.setCond_slot (t : Thread) (k : BitVec 3) (b : Bool) : (t.setCond k b).slot = t.slot := by unfold Thread.setCond; split <;> rfl
@[simp] theorem Thread.setCond_regs (t : Thread) (k : BitVec 3) (b : Bool) : (t.setCond k b).regs = t.regs := by unfold Thread.setCond; split <;> rfl
@[simp] theorem Thread.setCond_v (t : Thread) (k : BitVec 3) (b : Bool) : (t.setCond k b).v = t.v := by unfold Thread.setCond; split <;> rfl
@[simp] theorem Thread.setCond_x (t : Thread) (k : BitVec 3) (b : Bool) : (t.setCond k b).x = t.x := by unfold Thread.setCond; split <;> rfl
@[simp] theorem Thread.setCond_m (t : Thread) (k : BitVec 3) (b : Bool) : (t.setCond k b).m = t.m := by unfold Thread.setCond; split <;> rfl
@[simp] theorem Thread.setCond_f (t : Thread) (k : BitVec 3) (b : Bool) : (t.setCond k b).f = t.f := by unfold Thread.setCond; split <;> rfl
@[simp] theorem Thread.setCond_q (t : Thread) (k : BitVec 3) (b : Bool) : (t.setCond k b).q = t.q := by unfold Thread.setCond; split <;> rfl
@[simp] theorem Thread.setCond_pc (t : Thread) (k : BitVec 3) (b : Bool) : (t.setCond k b).pc = t.pc := by unfold Thread.setCond; split <;> rfl
@[simp] theorem Thread.setCond_tstat (t : Thread) (k : BitVec 3) (b : Bool) : (t.setCond k b).tstat = t.tstat := by unfold Thread.setCond; split <;> rfl
@[simp] theorem Thread.setCond_tsav (t : Thread) (k : BitVec 3) (b : Bool) : (t.setCond k b).tsav = t.tsav := by unfold Thread.setCond; split <;> rfl
@[simp] theorem Thread.setCond_thdl (t : Thread) (k : BitVec 3) (b : Bool) : (t.setCond k b).thdl = t.thdl := by unfold Thread.setCond; split <;> rfl
@[simp] theorem Thread.setCond_thdlHi (t : Thread) (k : BitVec 3) (b : Bool) : (t.setCond k b).thdlHi = t.thdlHi := by unfold Thread.setCond; split <;> rfl
@[simp] theorem Thread.setCond_tcause (t : Thread) (k : BitVec 3) (b : Bool) : (t.setCond k b).tcause = t.tcause := by unfold Thread.setCond; split <;> rfl
@[simp] theorem Thread.setCond_tepc (t : Thread) (k : BitVec 3) (b : Bool) : (t.setCond k b).tepc = t.tepc := by unfold Thread.setCond; split <;> rfl
@[simp] theorem Thread.setCond_tepcHi (t : Thread) (k : BitVec 3) (b : Bool) : (t.setCond k b).tepcHi = t.tepcHi := by unfold Thread.setCond; split <;> rfl
@[simp] theorem Thread.setCond_tval (t : Thread) (k : BitVec 3) (b : Bool) : (t.setCond k b).tval = t.tval := by unfold Thread.setCond; split <;> rfl
@[simp] theorem Thread.setCond_tvalHi (t : Thread) (k : BitVec 3) (b : Bool) : (t.setCond k b).tvalHi = t.tvalHi := by unfold Thread.setCond; split <;> rfl
@[simp] theorem Thread.setCond_tlog (t : Thread) (k : BitVec 3) (b : Bool) : (t.setCond k b).tlog = t.tlog := by unfold Thread.setCond; split <;> rfl
@[simp] theorem Thread.setCond_srseed (t : Thread) (k : BitVec 3) (b : Bool) : (t.setCond k b).srseed = t.srseed := by unfold Thread.setCond; split <;> rfl
@[simp] theorem Thread.setCond_gen (t : Thread) (k : BitVec 3) (b : Bool) : (t.setCond k b).gen = t.gen := by unfold Thread.setCond; split <;> rfl
@[simp] theorem Thread.setCond_nret (t : Thread) (k : BitVec 3) (b : Bool) : (t.setCond k b).nret = t.nret := by unfold Thread.setCond; split <;> rfl
@[simp] theorem Thread.setCond_ncycHi (t : Thread) (k : BitVec 3) (b : Bool) : (t.setCond k b).ncycHi = t.ncycHi := by unfold Thread.setCond; split <;> rfl
@[simp] theorem Thread.setCond_nretHi (t : Thread) (k : BitVec 3) (b : Bool) : (t.setCond k b).nretHi = t.nretHi := by unfold Thread.setCond; split <;> rfl
@[simp] theorem Thread.setCond_hints (t : Thread) (k : BitVec 3) (b : Bool) : (t.setCond k b).hints = t.hints := by unfold Thread.setCond; split <;> rfl
@[simp] theorem Thread.setCond_log (t : Thread) (k : BitVec 3) (b : Bool) : (t.setCond k b).log = t.log := by unfold Thread.setCond; split <;> rfl
@[simp] theorem Thread.setCond_kept (t : Thread) (k : BitVec 3) (b : Bool) : (t.setCond k b).kept = t.kept := by unfold Thread.setCond; split <;> rfl
@[simp] theorem Thread.setCond_pend08 (t : Thread) (k : BitVec 3) (b : Bool) : (t.setCond k b).pend08 = t.pend08 := by unfold Thread.setCond; split <;> rfl
@[simp] theorem Thread.setCond_pend0D (t : Thread) (k : BitVec 3) (b : Bool) : (t.setCond k b).pend0D = t.pend0D := by unfold Thread.setCond; split <;> rfl
@[simp] theorem Thread.setCond_pend14 (t : Thread) (k : BitVec 3) (b : Bool) : (t.setCond k b).pend14 = t.pend14 := by unfold Thread.setCond; split <;> rfl
@[simp] theorem Thread.setCond_pend15 (t : Thread) (k : BitVec 3) (b : Bool) : (t.setCond k b).pend15 = t.pend15 := by unfold Thread.setCond; split <;> rfl
@[simp] theorem Thread.setCond_mismatch (t : Thread) (k : BitVec 3) (b : Bool) : (t.setCond k b).mismatch = t.mismatch := by unfold Thread.setCond; split <;> rfl
@[simp] theorem Thread.setCond_latch (t : Thread) (k : BitVec 3) (b : Bool) : (t.setCond k b).latch = t.latch := by unfold Thread.setCond; split <;> rfl
@[simp] theorem Thread.setCond_wait (t : Thread) (k : BitVec 3) (b : Bool) : (t.setCond k b).wait = t.wait := by unfold Thread.setCond; split <;> rfl
@[simp] theorem Thread.setCond_view (t : Thread) (k : BitVec 3) (b : Bool) : (t.setCond k b).view = t.view := by unfold Thread.setCond; split <;> rfl
@[simp] theorem Thread.setCond_next (t : Thread) (k : BitVec 3) (b : Bool) : (t.setCond k b).next = t.next := by unfold Thread.setCond; split <;> rfl
@[simp] theorem Thread.setCond_wrote (t : Thread) (k : BitVec 3) (b : Bool) : (t.setCond k b).wrote = t.wrote := by unfold Thread.setCond; split <;> rfl
@[simp] theorem Thread.setCond_reads (t : Thread) (k : BitVec 3) (b : Bool) : (t.setCond k b).reads = t.reads := by unfold Thread.setCond; split <;> rfl
@[simp] theorem Thread.setCond_fences (t : Thread) (k : BitVec 3) (b : Bool) : (t.setCond k b).fences = t.fences := by unfold Thread.setCond; split <;> rfl
@[simp] theorem Thread.setCond_traps (t : Thread) (k : BitVec 3) (b : Bool) : (t.setCond k b).traps = t.traps := by unfold Thread.setCond; split <;> rfl

/-! ### Thread.setMask -/

@[simp] theorem Thread.setMask_lane (t : Thread) (g : BitVec 3) (w : Nat) (m : Dword) : (t.setMask g w m).lane = t.lane := by unfold Thread.setMask; split <;> rfl
@[simp] theorem Thread.setMask_slot (t : Thread) (g : BitVec 3) (w : Nat) (m : Dword) : (t.setMask g w m).slot = t.slot := by unfold Thread.setMask; split <;> rfl
@[simp] theorem Thread.setMask_regs (t : Thread) (g : BitVec 3) (w : Nat) (m : Dword) : (t.setMask g w m).regs = t.regs := by unfold Thread.setMask; split <;> rfl
@[simp] theorem Thread.setMask_v (t : Thread) (g : BitVec 3) (w : Nat) (m : Dword) : (t.setMask g w m).v = t.v := by unfold Thread.setMask; split <;> rfl
@[simp] theorem Thread.setMask_x (t : Thread) (g : BitVec 3) (w : Nat) (m : Dword) : (t.setMask g w m).x = t.x := by unfold Thread.setMask; split <;> rfl
@[simp] theorem Thread.setMask_c (t : Thread) (g : BitVec 3) (w : Nat) (m : Dword) : (t.setMask g w m).c = t.c := by unfold Thread.setMask; split <;> rfl
@[simp] theorem Thread.setMask_f (t : Thread) (g : BitVec 3) (w : Nat) (m : Dword) : (t.setMask g w m).f = t.f := by unfold Thread.setMask; split <;> rfl
@[simp] theorem Thread.setMask_q (t : Thread) (g : BitVec 3) (w : Nat) (m : Dword) : (t.setMask g w m).q = t.q := by unfold Thread.setMask; split <;> rfl
@[simp] theorem Thread.setMask_pc (t : Thread) (g : BitVec 3) (w : Nat) (m : Dword) : (t.setMask g w m).pc = t.pc := by unfold Thread.setMask; split <;> rfl
@[simp] theorem Thread.setMask_tstat (t : Thread) (g : BitVec 3) (w : Nat) (m : Dword) : (t.setMask g w m).tstat = t.tstat := by unfold Thread.setMask; split <;> rfl
@[simp] theorem Thread.setMask_tsav (t : Thread) (g : BitVec 3) (w : Nat) (m : Dword) : (t.setMask g w m).tsav = t.tsav := by unfold Thread.setMask; split <;> rfl
@[simp] theorem Thread.setMask_thdl (t : Thread) (g : BitVec 3) (w : Nat) (m : Dword) : (t.setMask g w m).thdl = t.thdl := by unfold Thread.setMask; split <;> rfl
@[simp] theorem Thread.setMask_thdlHi (t : Thread) (g : BitVec 3) (w : Nat) (m : Dword) : (t.setMask g w m).thdlHi = t.thdlHi := by unfold Thread.setMask; split <;> rfl
@[simp] theorem Thread.setMask_tcause (t : Thread) (g : BitVec 3) (w : Nat) (m : Dword) : (t.setMask g w m).tcause = t.tcause := by unfold Thread.setMask; split <;> rfl
@[simp] theorem Thread.setMask_tepc (t : Thread) (g : BitVec 3) (w : Nat) (m : Dword) : (t.setMask g w m).tepc = t.tepc := by unfold Thread.setMask; split <;> rfl
@[simp] theorem Thread.setMask_tepcHi (t : Thread) (g : BitVec 3) (w : Nat) (m : Dword) : (t.setMask g w m).tepcHi = t.tepcHi := by unfold Thread.setMask; split <;> rfl
@[simp] theorem Thread.setMask_tval (t : Thread) (g : BitVec 3) (w : Nat) (m : Dword) : (t.setMask g w m).tval = t.tval := by unfold Thread.setMask; split <;> rfl
@[simp] theorem Thread.setMask_tvalHi (t : Thread) (g : BitVec 3) (w : Nat) (m : Dword) : (t.setMask g w m).tvalHi = t.tvalHi := by unfold Thread.setMask; split <;> rfl
@[simp] theorem Thread.setMask_tlog (t : Thread) (g : BitVec 3) (w : Nat) (m : Dword) : (t.setMask g w m).tlog = t.tlog := by unfold Thread.setMask; split <;> rfl
@[simp] theorem Thread.setMask_srseed (t : Thread) (g : BitVec 3) (w : Nat) (m : Dword) : (t.setMask g w m).srseed = t.srseed := by unfold Thread.setMask; split <;> rfl
@[simp] theorem Thread.setMask_gen (t : Thread) (g : BitVec 3) (w : Nat) (m : Dword) : (t.setMask g w m).gen = t.gen := by unfold Thread.setMask; split <;> rfl
@[simp] theorem Thread.setMask_nret (t : Thread) (g : BitVec 3) (w : Nat) (m : Dword) : (t.setMask g w m).nret = t.nret := by unfold Thread.setMask; split <;> rfl
@[simp] theorem Thread.setMask_ncycHi (t : Thread) (g : BitVec 3) (w : Nat) (m : Dword) : (t.setMask g w m).ncycHi = t.ncycHi := by unfold Thread.setMask; split <;> rfl
@[simp] theorem Thread.setMask_nretHi (t : Thread) (g : BitVec 3) (w : Nat) (m : Dword) : (t.setMask g w m).nretHi = t.nretHi := by unfold Thread.setMask; split <;> rfl
@[simp] theorem Thread.setMask_hints (t : Thread) (g : BitVec 3) (w : Nat) (m : Dword) : (t.setMask g w m).hints = t.hints := by unfold Thread.setMask; split <;> rfl
@[simp] theorem Thread.setMask_log (t : Thread) (g : BitVec 3) (w : Nat) (m : Dword) : (t.setMask g w m).log = t.log := by unfold Thread.setMask; split <;> rfl
@[simp] theorem Thread.setMask_kept (t : Thread) (g : BitVec 3) (w : Nat) (m : Dword) : (t.setMask g w m).kept = t.kept := by unfold Thread.setMask; split <;> rfl
@[simp] theorem Thread.setMask_pend08 (t : Thread) (g : BitVec 3) (w : Nat) (m : Dword) : (t.setMask g w m).pend08 = t.pend08 := by unfold Thread.setMask; split <;> rfl
@[simp] theorem Thread.setMask_pend0D (t : Thread) (g : BitVec 3) (w : Nat) (m : Dword) : (t.setMask g w m).pend0D = t.pend0D := by unfold Thread.setMask; split <;> rfl
@[simp] theorem Thread.setMask_pend14 (t : Thread) (g : BitVec 3) (w : Nat) (m : Dword) : (t.setMask g w m).pend14 = t.pend14 := by unfold Thread.setMask; split <;> rfl
@[simp] theorem Thread.setMask_pend15 (t : Thread) (g : BitVec 3) (w : Nat) (m : Dword) : (t.setMask g w m).pend15 = t.pend15 := by unfold Thread.setMask; split <;> rfl
@[simp] theorem Thread.setMask_mismatch (t : Thread) (g : BitVec 3) (w : Nat) (m : Dword) : (t.setMask g w m).mismatch = t.mismatch := by unfold Thread.setMask; split <;> rfl
@[simp] theorem Thread.setMask_latch (t : Thread) (g : BitVec 3) (w : Nat) (m : Dword) : (t.setMask g w m).latch = t.latch := by unfold Thread.setMask; split <;> rfl
@[simp] theorem Thread.setMask_wait (t : Thread) (g : BitVec 3) (w : Nat) (m : Dword) : (t.setMask g w m).wait = t.wait := by unfold Thread.setMask; split <;> rfl
@[simp] theorem Thread.setMask_view (t : Thread) (g : BitVec 3) (w : Nat) (m : Dword) : (t.setMask g w m).view = t.view := by unfold Thread.setMask; split <;> rfl
@[simp] theorem Thread.setMask_next (t : Thread) (g : BitVec 3) (w : Nat) (m : Dword) : (t.setMask g w m).next = t.next := by unfold Thread.setMask; split <;> rfl
@[simp] theorem Thread.setMask_wrote (t : Thread) (g : BitVec 3) (w : Nat) (m : Dword) : (t.setMask g w m).wrote = t.wrote := by unfold Thread.setMask; split <;> rfl
@[simp] theorem Thread.setMask_reads (t : Thread) (g : BitVec 3) (w : Nat) (m : Dword) : (t.setMask g w m).reads = t.reads := by unfold Thread.setMask; split <;> rfl
@[simp] theorem Thread.setMask_fences (t : Thread) (g : BitVec 3) (w : Nat) (m : Dword) : (t.setMask g w m).fences = t.fences := by unfold Thread.setMask; split <;> rfl
@[simp] theorem Thread.setMask_traps (t : Thread) (g : BitVec 3) (w : Nat) (m : Dword) : (t.setMask g w m).traps = t.traps := by unfold Thread.setMask; split <;> rfl

/-! ### Looking up -/

@[simp] theorem AMap.get?_set_self {α β : Type} [DecidableEq α] (m : AMap α β) (a : α) (b : β) : AMap.get? (AMap.set m a b) a = some b := by
  induction m with
  | nil => simp [AMap.set, AMap.get?]
  | cons p r ih =>
    obtain ⟨k, v⟩ := p
    by_cases h : a = k <;> simp [AMap.set, AMap.get?, h] at ih ⊢ <;> exact ih

theorem AMap.get?_set_other {α β : Type} [DecidableEq α] (m : AMap α β) {a c : α} (b : β) (h : c ≠ a) :
    AMap.get? (AMap.set m a b) c = AMap.get? m c := by
  induction m with
  | nil => simp [AMap.set, AMap.get?, h]
  | cons p r ih =>
    obtain ⟨k, v⟩ := p
    by_cases h1 : a = k
    · subst h1; simp [AMap.set, AMap.get?, h]
    · by_cases h2 : c = k <;> simp [AMap.set, AMap.get?, h1, h2] <;> exact ih

@[simp] theorem State.thread?_setThread (s : State) (i : ThreadId) (t : Thread) : (s.setThread i t).thread? i = some t :=
  AMap.get?_set_self s.threads i t

theorem State.thread?_setThread_other (s : State) {i j : ThreadId} (t : Thread) (h : j ≠ i) : (s.setThread i t).thread? j = s.thread? j :=
  AMap.get?_set_other s.threads t h

@[simp] theorem State.core_setCore (s : State) (c : Nat) (k : Core) : (s.setCore c k).core c = k := by
  simp [State.core, AMap.getD]

@[simp] theorem State.queue_setQueue (s : State) (q : Nat) (v : Queue) : (s.setQueue q v).queue q = v := by
  simp [State.queue, AMap.getD]

end Sys2Proof.Machine
end

