-- ==== Sys2Proof/Tests/Slice0.lean ====
section
/-! SUPPORT. Tests: words decode, ill-formed terms are refused, results of single steps, and for every statement states and
operands that meet its premises. -/
namespace Sys2Proof.Tests
open Sys2Proof.Machine Sys2Proof.Claims

set_option maxRecDepth 20000

/-! ### Helpers -/

/-- A device with one team of one group on core 0 and one thread, at 0x100000 with K = 1, whose first registers are given. -/
def base (rs : List Word) : State :=
  (State.reset.harness 0x100000).modThread ⟨0, 0, 0, 0⟩ (fun t => { t with v := rs ++ t.v.drop rs.length })

/-- That device with its thread changed. -/
def put (f : Thread → Thread) (s : State) : State := s.modThread ⟨0, 0, 0, 0⟩ f

/-- Its thread. -/
def th (s : State) : Thread := (s.thread? ⟨0, 0, 0, 0⟩).getD (Thread.start 0 0 128 [] 0x100000 true)

/-- As it issues a switch point. -/
def cm (s : State) : Thread := { th s with wait := .committed }

theorem iss {s : State} {w : Word} {sw : Bool} {v : Thread}
    (h : (s.thread? s.cur).bind (fun u => s.issuing s.cur u w sw) = some v) : Issues s w sw v := by
  cases hu : s.thread? s.cur with
  | none => simp [hu] at h
  | some u => exact ⟨u, hu, by simpa [hu] using h⟩

theorem cl {c : Ctx} (h : (c.flag.isNone && !c.stall && !c.starve) = true) : Clean c := by
  simp only [Bool.and_eq_true, Option.isNone_iff_eq_none, Bool.not_eq_true'] at h
  exact ⟨h.1.1, h.1.2, h.2⟩

theorem can {s : State} (h : (Memory.wf s.mem && Memory.wf s.mgmt && Memory.wf s.tables && Memory.wf s.cist
    && Memory.wf s.mailbox.rmbuf && s.flash.slots.all Memory.wf) = true) : Canonical s := by
  simp only [Bool.and_eq_true, List.all_eq_true] at h
  exact ⟨h.1.1.1.1.1, h.1.1.1.1.2, h.1.1.1.2, h.1.1.2, h.1.2, h.2⟩

theorem pairOf {α β : Type} (p : α × β) : p = (p.1, p.2) := rfl

theorem someOf {α : Type} {o : Option α} (h : o.isSome = true) : o = some (o.get h) := by simp

/-- A write stream with one element that is appended and not performed. -/
def wq : Stream := { base := 0x200000, space := .gl, size := 4, write := true, dims := 0, counts := [4, 1, 1, 1], strides := [1, 0, 0, 0], next := 1,
                     fetched := 0, fifo := [], appended := [{ addr := 0x200000, value := 7, stamp := 0, issue := 0 }], flags := 0, kernel := true, stamp := 0 }
/-- Registers that hold the descriptor of a stream. -/
def strm : State := base [0x200000, 0, 0x22, 4, 1, 0, 0, 0]

/-- A device whose one thread waits at a cross-lane instruction with its own bit as mask. -/
def xl (op : XOp) : State := put (fun t => { t with wait := .xlane op 1 t.x }) (base [])
theorem only {P : Nat → Prop} (h : P 0) : ∀ j ∈ [0], P j := by
  intro j hj
  rw [List.mem_singleton.1 hj]
  exact h

theorem its {P : Thread → Prop} {o : Option Thread} {t : Thread} (h : o = some t) (k : P t) : ∀ u, o = some u → P u := by
  intro u hu
  rw [h] at hu
  exact Option.some.inj hu ▸ k

theorem each {P : Nat → Prop} (h0 : P 0) (h : ∀ k, P (k + 1)) : ∀ j, P j := by
  intro j
  cases j with
  | zero => exact h0
  | succ k => exact h k

theorem one {f : Nat → Option (List Nat)} (ps : List Nat) (h : ∀ k, f (k + 1) = none) (h0 : f 0 = some ps := by decide) :
    ∀ j qs, f j = some qs → qs = ps := by
  intro j qs hj
  cases j with
  | zero => rw [h0] at hj; exact (Option.some.inj hj).symm
  | succ k => rw [h k] at hj; cases hj

theorem addrGl {a : RegField} {off : BitVec 8} {n : Nat} {c : Ctx} : Addressed .gl a off n c
    ((block a 2 2 c).2.th.pair (block a 2 2 c).1 + BitVec.ofInt 64 (c.hs.immS off.toNat 8 * n)) (block a 2 2 c).2 :=
  ⟨(block a 2 2 c).1, (if_pos rfl).mpr ⟨pairOf _, rfl⟩⟩

theorem addrOff {sp : Space} {a : RegField} {off : BitVec 8} {n : Nat} {c : Ctx} (h : sp ≠ .gl := by decide) : Addressed sp a off n c
    (((block a 1 1 c).2.th.reg (block a 1 1 c).1 + BitVec.ofInt 32 (c.hs.immS off.toNat 8 * n)).setWidth 64) (block a 1 1 c).2 :=
  ⟨(block a 1 1 c).1, (if_neg h).mpr ⟨pairOf _, rfl⟩⟩

/-- A device with its team changed. -/
def tm (f : Team → Team) (s : State) : State := s.modTeam ⟨0, 0⟩ f

/-- Several writes of little-endian numbers: address, bytes, value. -/
def ws (m : Memory) (l : List (Nat × Nat × Nat)) : Memory := l.foldl (fun m x => Memory.writeLE m x.1 x.2.1 x.2.2) m

/-- A device with memory written. -/
def wm (l : List (Nat × Nat × Nat)) (s : State) : State := { s with mem := ws s.mem l }

/-- A device with management registers written. -/
def wr0 (l : List (Nat × Nat × Nat)) (s : State) : State := { s with mgmt := ws s.mgmt l }

theorem lone {s : State} {p : ThreadId × Thread} (h : s.threads = [p]) {P : ThreadId → Thread → Prop} (k : P p.1 p.2) :
    ∀ i t, s.thread? i = some t → P i t := by
  intro i t ht
  rw [State.thread?, h] at ht
  simp only [AMap.get?] at ht
  split at ht
  · rename_i e
    cases ht
    exact e ▸ k
  · cases ht

/-- A device with tables in force written. -/
def wg (l : List (Nat × Nat × Nat)) (s : State) : State := { s with tables := ws s.tables l }

/-- A device with its transport changed. -/
def nt (f : Net → Net) (s : State) : State := { s with net := f s.net }

/-- A device with a job of four ranks that it is rank 0 of: rank 1 is member 1 of its pod, rank 2 lies over Ethernet. Counters are at 0x310000 and
reduction groups at 0x300000. -/
def job (s : State) : State :=
  { s with
    mgmt := ws s.mgmt [(0x40000, 4, 1), (0x4000C, 4, 4), (0x40010, 4, 5), (0x40024, 4, 0x310000), (0x4002C, 4, 0x300000)]
    tables := ws [] [(0x50000, 32, 0x100051000000000000001), (0x50020, 32, 0x61008000000000002), (0x80000, 4, 0xC0000000),
                     (0x80100, 4, 0x80000000)] }

/-- An accepted store of the thread that is not performed yet. -/
def bs (o : Order) : BufStore :=
  { thread := ⟨0, 0, 0, 0⟩, stamp := 0, issue := 0, kernel := true, access := .store .gl 0x200000 4 o .dev 7, parts := [(.mem 0x200000 0x200000 0x3F, 4)], done := [] }

/-- An entry of the operand log. -/
def le (a : Access) (st : EntryState) : LogEntry := { index := 0, stamp := 0, issue := 0, word := 0, hints := [], kernel := true, access := a, state := st, fill := true }

/-- A second group of the team, whose member receives what the first group's sends. -/
def duo : State :=
  let s := base []
  let a : Thread := { th s with wait := .send (Enc.rsend 0 0 4 0) 0 4 1 }
  let b : Thread := { th s with log := [le (.rrecv 0 4 1) .pending] }
  { s with threads := [(⟨0, 0, 0, 0⟩, a), (⟨0, 0, 1, 0⟩, b)], groups := s.groups ++ s.groups.map (fun p => (⟨0, 0, 1⟩, p.2)) }

/-- A group that is its own receiver. -/
def solo : State := put (fun t => { t with wait := .send (Enc.rsend 0 0 4 0) 0 4 1, log := [le (.rrecv 0 6 1) .pending] }) (base [0, 0, 0, 0, 9])

/-- A device whose scratchpad holds, at 0x100, the descriptor of a chain of one element and one word, `add v0, v0, v8`. -/
def chn (rs : List Word) : State :=
  wm [(scratchPa 0 0x110, 4, 1), (scratchPa 0 0x114, 2, 1), (scratchPa 0 0x116, 1, 1), (scratchPa 0 0x140, 4, (Enc.add 0 0 0 8).toNat)] (base rs)

/-- A device whose scratchpad holds, at 0x100, a copy request of 64 bytes from offset 0x200 to 0x300. -/
def cpy (rs : List Word) : State := wm [(scratchPa 0 0x100, 8, 0x200), (scratchPa 0 0x108, 8, 0x300), (scratchPa 0 0x118, 4, 64)] (base rs)

/-- A signature of a thread for an `mzero`. -/
def sg (m : Nat) : Signature :=
  { thread := ⟨0, 0, 0, m⟩, word := Enc.mzero 0 0 0, op := .mzero 0, scaleA := 0, scaleB := 0, kernel := true, task := none }

/-- A device whose convergence register 0 is declared for two members of its group, with signatures; the second member is live or has exited. -/
def cv (two : Bool) (sigs : List Signature) (rs : List Word) : State :=
  let s := tm (fun t => { t with conv := [{ declared := some ([(0, 3)], none), sigs := sigs, offered := none }] }) (base rs)
  { s with threads := s.threads ++ [(⟨0, 0, 0, 1⟩, { th s with wait := if two then .run else .exited })] }

/-- A device in a boot stage, served in stage 6, that master 0 owns. -/
def srv (stage : BitVec 4) : State :=
  { State.reset with boot := { State.reset.boot with stage := stage, ready := decide (stage = 6), linkUp := true }
                     own := { State.reset.own with valid := true } }

/-- A device whose queue 0 runs with one command, whose fields are given, in a state. -/
def cq (l : List (Nat × Nat × Nat)) (st : CmdState) (s : State) : State :=
  s.setQueue 0 { Queue.atReset with mode := .running, cmds := [{ seq := 1, bytes := Memory.read (ws [] l) 0 64, spawn := none, state := st, number := 1 }] }

/-- The same as a command of `spawn`. -/
def spawned (s : State) : State := s.setQueue 0 { s.queue 0 with cmds := (s.queue 0).cmds.map (fun c => { c with spawn := some true }) }

/-- The header of a launch. -/
def hdr : Header :=
  { width := 8, teamg := 1, clw := 1, clh := 1, regs := 32, slice := 0, shared := 0, cistern := 0, gregs := 0, tiles := 0, idem := true
    pair := false, pin := false, excl := false, svcring := false, budget := 0, pincore := 0, sva := 0 }

/-- A launch of queue 0. -/
def lch : Launch :=
  { queue := 0, seq := 1, asid := 0, entry := 0x100000, header := hdr, words := [], gx := 1, gy := 1, gz := 1, next := 0, returned := [], ended := 0
    faulted := 0 }

theorem someOf2 {α β : Type} {o : Option (α × β)} (h : o.isSome = true) : o = some ((o.get h).1, (o.get h).2) := by
  cases o with
  | none => cases h
  | some x => rfl

theorem someOf4 {α β γ δ : Type} {o : Option (α × β × γ × δ)} (h : o.isSome = true) :
    o = some ((o.get h).1, (o.get h).2.1, (o.get h).2.2.1, (o.get h).2.2.2) := by
  cases o with
  | none => cases h
  | some x => rfl

theorem onlyOf {α : Type} {l : List α} {g : α} {P : α → Prop} (h : l = [g]) : ∀ x ∈ l, x ≠ g → P x := by
  subst h
  exact fun x m n => absurd (List.mem_singleton.mp m) n

theorem briefWaits {s : State} {l : List GroupId} (h : l.all (fun g => (s.group? g).all (fun v => v.waited < 4096)) = true) :
    ∀ g ∈ l, s.ready g = true → ∀ v, s.group? g = some v → v.waited < 4096 := fun g m _ v e => by
  have := List.all_eq_true.mp h g m
  simpa [e] using this

/-- A device whose only core with work is changed. -/
def ck (f : Core → Core) (s : State) : State := s.modCore 0 f

/-- A device with a launch of queue 0 that has two clusters to place, with more header fields set. -/
def rdy (f : Header → Header) : State :=
  { srv 6 with
    launches := [(1, { lch with gx := 2, header := f hdr })]
    mgmt := ws resetRegisters [(0x200000, 4, 0xC001), (0x200008, 4, 0x44)] }

/-- A cut is under way. -/
def stopping (s : State) : State := { s with cut := { s.cut with stopping := true } }

/-- The device is stopped. -/
def isCut (s : State) : State := { s with cut := { s.cut with isStopped := true, save := true } }

/-- A batch of a service ring of die 0 at 0x400000, for member 0. -/
def sb (kind : Nat) (slot : Option Nat) : ServiceBatch :=
  { group := ⟨0, 0, 0⟩, home := ⟨0, 0⟩, kind := kind, die := 0, asid := 0
    calls := [{ member := 0, number := 5, args := [], addr := 0, access := 0, dst := 4 }], opened := 0, closed := true, slot := slot
    engine := .join 0 1 }

/-- A device with that batch, whose slot 63 is answered with a word. -/
def svcDev (b : ServiceBatch) (w0 : Nat) (w : Wait) : State :=
  { put (fun t => { t with wait := w }) (wm [(slotPa 4 63 + 16, 4, 2), (slotPa 4 63 + 2112, 4, w0)] (base [])) with
    service := { rings := [(0, 4, 63, 0)], batches := [b] } }

/-- A second group with one thread that waits for its turn. -/
def pendg (f : Core → Core) (s : State) : State :=
  let g : GroupId := ⟨0, 0, 1⟩
  ({ s with
    groups := s.groups ++ (s.group? ⟨0, 0, 0⟩).toList.map (fun x => (g, x))
    threads := s.threads ++ [(memberOf g 0, th s)] } : State).modCore 0 (fun k => f { k with pending := [g] })

/-- A second group that has waited ready for some issues. -/
def waited (n : Nat) : State := (pendg (fun k => k) (base [])).modGroup ⟨0, 0, 1⟩ (fun v => { v with waited := n })

/-- A copy request of 64 bytes from global memory to the scratchpad. -/
def cr (raw : Nat) (started : Bool) : CopyReq :=
  { thread := ⟨0, 0, 0, 0⟩, stamp := 0, asid := 0, kernel := true, raw := raw, started := started, cuts := [(0, 64)], pieces := [0], drained := false, tag := 1 }

/-- A request: spaces, length, destination, source. -/
def raw (dsp ssp len dst src : Nat) : Nat := ((dsp * 8 + ssp) * 2 ^ 56 + len) * 2 ^ 192 + dst * 2 ^ 64 + src

/-- A chain of one element with the operation words given. -/
def chd (src dst spaces : Nat) (ops : List Nat) : Chain :=
  { thread := ⟨0, 0, 0, 0⟩, stamp := 0, asid := 0, kernel := true, seed := 0, fmts := []
    desc := Memory.read (ws [] ([(0, 8, src), (8, 8, dst), (16, 4, 1), (22, 1, ops.length), (23, 1, spaces)] ++ ops.zipIdx.map (fun p => (64 + 4 * p.2, 4, p.1)))) 0 96
    pending := [0], tag := 1 }

/-- A stream of one element at 0x200000. -/
def str (w : Bool) : Stream :=
  { base := 0x200000, space := .gl, size := 4, write := w, dims := 0, counts := [1, 1, 1, 1], strides := [4, 0, 0, 0], next := 0, fetched := 0, fifo := []
    appended := [], flags := 0, kernel := false, stamp := 0 }

/-- A reservation at offset 0. -/
def rv : Reservation := { record := 0, fmtA := 0, fmtB := 0, fmtS := 0, freeing := none }

/-- A matrix operation of the team. -/
def mo (op : SigOp) (started : Bool) (ssb : List Byte) : MatrixOp :=
  { team := ⟨0, 0⟩, stamp := 1, asid := 0, op := op, words := [0], signers := [⟨0, 0, 0, 0⟩], scales := [], resvA := none, resvB := none
    kernel := true, paired := none, started := started, ssb := ssb, number := 0, flow := false }

/-- A device in a job, whose region 0 lies at 0x200000 and may be read, written, signalled to, and used by atomics and reductions, and whose
reduction group 0 has four positions. -/
def net (n : Net) : State :=
  let e := 1 * 2 ^ 16 + 4 * 2 ^ 98 + 0x400 * 2 ^ 128 + 0x1000 * 2 ^ 192
  let s := job (wm [(0x300000, 64, e), (0x310008, 8, 1)] ((srv 6).flatTables))
  { s with
    tables := ws s.tables [(0x41000, 32, 0x3F * 2 ^ 128 + 0x100000 * 2 ^ 64 + 0x200000), (0x40100, 4, 9), (0x2000000, 64, e), (0x3000008, 8, 1)]
    ports := [(0, .up), (18, .up)], net := n }

/-- Accesses to 0x200000 are held: a host CPU has the line. -/
def keep (s : State) : State := { s with hostLines := [0x8000] }

/-- The transport at reset. -/
def n0 : Net := State.reset.net

/-- A packet of rank 2. -/
def pk (psn : Word) (k : PacketKind) : Packet :=
  { source := 2, psn := psn, job := 0, region := 0, offset := 0, key := 9, msg := 0, msgOff := 0, msgLen := 4, trimmed := false, kind := k }

/-- A message of 4 bytes to rank 2. -/
def ms (b : MsgBody) : Message :=
  { number := 1, home := ⟨0, 0⟩, stamp := 0, thread := ⟨0, 0, 0, 0⟩, kernel := true, asid := 0, rank := 2, gaddr := 0, len := 4, body := b, sent := 0
    acked := 0, pod := false }

/-- Its packet. -/
def wp (sends : Nat) (acked : Bool) : WinPacket := { rank := 2, psn := 7, msg := 1, off := 0, path := 0, sends := sends, acked := acked }

/-- The transport with both. -/
def nw (m : Message) (w : WinPacket) : Net := { n0 with messages := [m], window := [w] }

/-- A thread with one load waiting in its log. -/
def ldr (ps : List (Place × Nat × Option (List Byte))) (s : State) : State :=
  s.setThread ⟨0, 0, 0, 0⟩ { th s with log := [le (.load .gl 0x8000800000000000 4 .plain .dev 4) (.sent ps)] }

/-- A thread with one element of a read stream waiting. -/
def elr (ps : List (Place × Nat × Option (List Byte))) (s : State) : State :=
  s.setThread ⟨0, 0, 0, 0⟩ { th s with q := [some { str false with arriving := ps }] }

/-- A reduction packet of one word at position 0. -/
def rp (psn : Word) (gen : Byte) : ReductionPacket :=
  { source := 2, psn := psn, job := 0, key := 9, gid := 0, gen := gen, home := 0, op := 0, first := 0, last := 3, elem := 0x3FF, data := [1] }

/-- A pod request. -/
def pr (k : PodKind) (key : Word) : PodRequest := { member := 1, port := 0, region := 0, offset := 0xFFFFC, key := key, signalled := false, kind := k }

/-- A flush of member 1 for a user. -/
def fl (u : List (ThreadId × Nat)) : Net := { n0 with flushes := [{ member := 1, users := u }] }

/-- A device served in stage 6 with more management registers. -/
def mg (l : List (Nat × Nat × Nat)) : State := { srv 6 with mgmt := ws resetRegisters l }

/-- The debugger's target: the group of the device of these tests, its lane 0. -/
def dt (dflt : Bool) : DebugTarget := { master := 0, core := 0, team := 0, grp := 0, lane := 0, dflt := dflt }

/-- Its owner and a halted group. -/
def dg (halted : Bool) (s : State) : State :=
  { s.modGroup ⟨0, 0, 0⟩ (fun g => { g with halted := halted }) with boot := (srv 6).boot, own := (srv 6).own }

/-- What a processed block puts out. -/
def outOf : BlockResult → Option (List Byte × Bool)
  | .out z t => some (z, t)
  | .fail _ => none

theorem outIs {r : BlockResult} (h : (outOf r).isSome = true) : r = .out ((outOf r).get h).1 ((outOf r).get h).2 := by
  cases r with
  | out z t => rfl
  | fail st => cases h

/-- A block of zeros that transform window 0 holds whole. -/
def whole : AMap Nat Byte := (List.range 4096).map (fun i => (i, 0))

/-- A device with it, and with the descriptor of the window. -/
def blk (d : Nat) : State := { mg [(0x10000, 64, d)] with windows := [(0, { held := [(0, whole)], counts := [] })] }

/-- A halted group whose first member is at a cross-lane instruction of the first two members, of which the second is elsewhere. -/
def apart : State :=
  let s := { dg true (base []) with mem := (wm [(0x100000, 4, 0x58000000)] State.reset.flatTables).mem }
  let t := { th s with m := List.replicate 8 3 }
  { s with threads := [(⟨0, 0, 0, 0⟩, t), (⟨0, 0, 0, 1⟩, { t with lane := 1, pc := 0x200000 })] }

/-- The next state of an outcome. -/
def nextOf : Host.Outcome State Fault Refusal → Option State
  | .next t => some t
  | _ => none

theorem nextIs {o : Host.Outcome State Fault Refusal} (h : (nextOf o).isSome = true) : o = .next ((nextOf o).get h) := by
  cases o with
  | next t => rfl
  | _ => cases h

/-- A thread about to run a word in memory. -/
def stepping (w : Word) (l : List Turn) : State :=
  { wm [(0x100000, 4, w.toNat)] ((State.reset.flatTables).harness 0x100000) with agenda := l }


/-! ### Ill-formed terms are refused -/

/-- Selector codes that no row assigns (R257, R258, R272, R300, R306). -/
theorem test_ill_formed_selectors :
    ([.cmp 0 11 0 4 5, .cmpi 0 15 0 4 1, .ldLn 0 5 4 5 0, .stLn 0 7 4 5 0, .ldCo 0 7 4 5 0, .stCo 0 7 4 5 0, .ldCl 0 7 4 5 0, .stCl 0 7 4 5 0,
      .ldCh 0 7 4 5 0, .stCh 0 7 4 5 0, .atomAdd 0 7 0 0 4 6, .atomAnd 0 7 0 0 4 6, .atomOr 0 7 0 0 4 6, .atomXor 0 7 0 0 4 6, .atomMinI 0 7 0 0 4 6,
      .atomMaxI 0 7 0 0 4 6, .atomMinN 0 7 0 0 4 6, .atomMaxN 0 7 0 0 4 6, .atomSwap 0 7 0 0 4 6, .atomCas 0 7 0 0 4 6, .atomFadd 0 7 0 0 4 6,
      .agreeAll 0 7 0 1 0 0, .agreeAny 0 7 0 6 0 0, .agreeSame 0 7 0 3 0 0, .combAdd 0 7 4 5 2, .combMin 0 7 4 5 3, .combMax 0 7 4 5 3,
      .scanAdd 0 7 4 5 2, .arrive 0 0 1 1] : List Instr).all (fun i => !i.wf) = true := by decide

/-- The same rows with a code that is assigned. -/
theorem test_well_formed_selectors :
    ([.cmp 0 10 0 4 5, .cmpi 0 10 0 4 1, .ldLn 0 4 4 5 0, .stLn 0 4 4 5 0, .ldCo 0 6 4 5 0, .stCo 0 6 4 5 0, .ldGl 0 7 4 6 0, .stGl 0 7 4 6 0,
      .atomAdd 0 6 0 0 4 6, .atomCas 0 0 1 1 4 6, .agreeAll 0 7 0 0 0 0, .agreeAny 0 7 1 6 0 0, .combAdd 0 7 4 5 1, .combMin 0 7 4 5 2,
      .combMax 0 7 4 5 2, .scanAdd 0 7 4 5 1, .arrive 0 0 63 0, .arrive 0 0 0 1] : List Instr).all Instr.wf = true := by decide

/-- Masters, registers, ports, queues and slots beyond the last (R36, R38, R81, R83, R84). -/
theorem test_ill_formed_registers :
    ([.powerCapWrite 8 0, .registerWrite 8 0 4 0, .registerWrite 0 0x2000000 4 0, .registerWrite 0 0 3 0, .mailboxErase 0 2, .mailboxWrite 8 0,
      .mailboxVerify 0 2, .mailboxRestart 8, .portEnable 0 26 1, .portDisable 8 0 0, .portTrainingDone 26 true, .portLinkLoss 26, .claim 0 8 0 1,
      .requestHandover 8 0 0 1, .acceptHandover 0 8 0 1, .release 8 0 0 1, .masterLinkDown 8, .jobEnable 8, .jobDisable 8, .jinval 8,
      .queueEnable 0 16384 1, .queueDisable 8 0 0, .commandDoorbell 16384 0, .completionDoorbell 16384 0, .spawnWindowStore 16384 true [],
      .spawnWindowStore 0 false (List.replicate 65 0), .queueReset 0 16384, .queueAdopt 8 0 0, .endReattach 8, .commandFetch 16384, .launch 16384 1,
      .wait 16384 1, .waitComplete 16384 1, .signal 16384 1, .copy 16384 1, .copyComplete 16384 1 false [], .nopCommand 16384 1,
      .launchComplete 16384 1, .completionWrite 16384, .pmapWrite 8 0, .cutStop 8, .cutStopSave 8, .cutResume 8,
      .transformWindowEnable 0 64 1, .linkLevelReplay 18] : List Instr).all (fun i => !i.wf) = true := by decide

/-- Cores, teams, groups, threads and what else events name, beyond the last (R13, R19, R28, R109, R111, R124). -/
theorem test_ill_formed_events :
    ([.coreFrequencyChange 4096 12, .coreFrequencyChange 0 11, .coreFrequencyChange 0 37, .l2HomeMove 4096 0, .l2HomeMove 0 8,
      .patrolScrub 0x1000000000000 .uncorrectable, .tierMoveStart (.handle 4096) false [], .tierMoveComplete 65536 0, .teamFlush ⟨4096, 0⟩, .teamSave ⟨0, 4⟩,
      .drainTimeout ⟨0, 4⟩, .parkSwap 4096, .issueSwap 4096, .serviceBatchTimeout ⟨0, 0, 32⟩ 0, .serviceBatchTimeout ⟨0, 0, 0⟩ 2, .serviceAnswer 16 0,
      .serviceAnswer 0 64, .translationWalk 16 0 ⟨0, none, false⟩, .translationWalk 0 65536 ⟨0, none, false⟩, .translationWalk 0 0 ⟨0x100000000, none, false⟩, .translationWalk 0 0 ⟨0, (some 4096), false⟩, .accessReturn ⟨0, 0, 0, 64⟩ (.entry 0) .none ⟨[], [], false⟩,
      .markerCommit ⟨0, 0, 32, 0⟩, .asyncErrorArrival ⟨0, 0, 0, 0⟩ 0x16 0, .groupFaultStop ⟨0, 4, 0, 0⟩, .pairTimeout ⟨0, 0⟩ 8, .copyRequestCheck 4096,
      .copyRequestDispatch 4096 0, .copyPieceComplete 4096 0 0 none .none, .dataflowDispatch 4096, .flumeElement 4096 0 0 .none, .matrixOpStart 4096,
      .matrixOpComplete 4096, .ssxChunkComplete 4096, .ssxStop 4096 [], .streamElementFetch ⟨0, 0, 0, 0⟩ 4 ⟨.none, []⟩, .tileWaitRelease ⟨4096, 0, 0, 0⟩,
      .counterWaitRelease ⟨4096, 0, 0, 0⟩, .bwaitRelease ⟨4096, 0, 0, 0⟩, .fenceComplete ⟨4096, 0, 0, 0⟩, .ssqWaitRelease ⟨4096, 0, 0, 0⟩,
      .tlbinvComplete ⟨4096, 0, 0, 0⟩, .parkExpire ⟨4096, 0, 0, 0⟩, .wfeTimeout ⟨4096, 0, 0, 0⟩, .podRequestTimeout ⟨4096, 0, 0, 0⟩ (.entry 0),
      .swapThresholdAdjust 4096 16, .swapThresholdAdjust 0 15, .swapThresholdAdjust 0 4097] : List Instr).all (fun i => !i.wf) = true := by decide

/-- Ranks, paths, groups of a reduction, host offsets and the debugger's target, beyond the last (R46, R47, R54, R94, R97, R207, R224). -/
theorem test_ill_formed_fabric :
    ([.packetSend 131072, .ackReceived 131072 0 0 [], .nackReceived 131072 0 1, .resendRequestReceived 131072 0, .retransmissionTimeout 131072 0,
      .ethernetResponse 131072 0 [], .pathProbe 0 512 0 true, .pathProbe 0 0 64 true, .reductionAbort 65536, .directApertureAccess 0x2000000000 1 none,
      .directApertureAccess 0xFFF 2 none, .transformWindowWrite 0x2000000000 [], .transformWindowWrite 0xFFF [0, 0], .transformBlockProcess 64 0 false,
      .transformBlockProcess 0 65536 false, .hostAtomicop 0 2 .swap 0 0, .congestionThresholdAdjust 0 512 0 0,
      .debugHalt { master := 8, core := 0, team := 0, grp := 0, lane := 0, dflt := false },
      .debugResume { master := 0, core := 4096, team := 0, grp := 0, lane := 0, dflt := false },
      .debugStep { master := 0, core := 0, team := 4, grp := 0, lane := 0, dflt := false },
      .debugRead { master := 0, core := 0, team := 0, grp := 32, lane := 0, dflt := false } 0,
      .debugWrite { master := 0, core := 0, team := 0, grp := 0, lane := 64, dflt := false } 0,
      .debugCatchOn { master := 8, core := 0, team := 0, grp := 0, lane := 0, dflt := true },
      .debugCatchOff { master := 8, core := 0, team := 0, grp := 0, lane := 0, dflt := true }] : List Instr).all (fun i => !i.wf) = true := by decide

/-- Packets and pod requests that no sender puts on a link: beyond the last rank, port, member or group, over 4,096 bytes, beyond their message, or
across a 256-byte block (R41, R42, R45, R46, R52). -/
theorem test_ill_formed_packets :
    ([.packetArrival { pk 0 (.read 4) with source := 131072 }, .packetArrival { pk 0 (.read 4) with port := 8 },
      .packetArrival { pk 0 (.read 4) with region := 64 }, .packetArrival { pk 0 (.read 4) with offset := 0x10000000000 },
      .packetArrival (pk 0 (.read 4097)), .packetArrival (pk 0 (.read 0)), .packetArrival (pk 0 (.atomic 11 false 0 0)),
      .packetArrival (pk 0 (.write [] false none)), .packetArrival { pk 0 (.write [1] false none) with msgOff := 4 },
      .podRequestArrival { pr (.read 4) 9 with member := 1152 }, .podRequestArrival { pr (.read 4) 9 with port := 18 },
      .podRequestArrival (pr (.read 5) 9), .podRequestArrival (pr (.write []) 9), .podRequestArrival { pr (.atomic 0 true 1 0 true) 9 with offset := 0xFC },
      .podRequestArrival (pr (.count 0 0) 9), .podRequestArrival { pr (.flush false) 9 with region := 64 },
      .reductionPacketArrival { rp 0 0 with gid := 65536 }, .reductionPacketArrival { rp 0 0 with op := 2 },
      .reductionPacketArrival { rp 0 0 with port := 26 }] : List Instr).all (fun i => !i.wf) = true := by decide

/-- The same at the last value that is in range. -/
theorem test_well_formed_packets :
    ([.packetArrival { pk 0 (.read 4096) with source := 131071, port := 7, region := 63, offset := 0xFFFFFFFFFF },
      .packetArrival { pk 0 (.write [1] false none) with msgOff := 3 }, .podRequestArrival { pr (.read 256) 9 with offset := 0xFF00, member := 1151, port := 17 },
      .podRequestArrival (pr (.atomic 0 false 1 0 true) 9), .podRequestArrival (pr (.count 0 1) 9), .podRequestArrival (pr (.flush true) 9),
      .reductionPacketArrival { rp 0 0 with gid := 65535, op := 1, port := 25 }] : List Instr).all Instr.wf = true := by decide

/-- The same at the last value that is in range. -/
theorem test_well_formed_events :
    ([.coreFrequencyChange 4095 36, .l2HomeMove 4095 7, .tierMoveStart (.handle 4095) false [], .registerWrite 7 0x1FFFFFF 1 0, .mailboxErase 7 1, .portLinkLoss 25,
      .claim 7 7 7 1, .commandFetch 16383, .spawnWindowStore 16383 true (List.replicate 64 0), .teamFlush ⟨4095, 3⟩, .serviceBatchTimeout ⟨4095, 3, 31⟩ 1,
      .serviceAnswer 15 63, .translationWalk 15 65535 ⟨0xFFFFFFFF, (some 4095), true⟩, .markerCommit ⟨4095, 3, 31, 63⟩, .asyncErrorArrival ⟨0, 0, 0, 0⟩ 0x15 0,
      .pairTimeout ⟨0, 0⟩ 7, .streamElementFetch ⟨0, 0, 0, 0⟩ 3 ⟨.none, []⟩, .packetSend 131071, .pathProbe 0 511 63 true, .reductionAbort 65535,
      .directApertureAccess 0x1FFFFFF000 4096 none, .hostAtomicop 0 16 .cas 0 0, .linkLevelReplay 17, .swapThresholdAdjust 0 4096] : List Instr).all
      Instr.wf = true := by decide

/-! ### Results of single steps, with the spec's own worked numbers -/

/-- The state after an instruction. -/
def run (i : Instr) (s : State) : State := match exec i s with
  | .next t => t
  | _ => s

/-- R269: the sum wraps. -/
theorem test_add_wraps : (th (run (.add 0 4 5 6) (base [0, 0, 0, 0, 9, 0xFFFFFFFF, 2]))).reg 4 = 1 := by decide

/-- R247: the pc moves on by 4 and nret counts one. -/
theorem test_add_retires :
    let t := th (run (.add 0 4 5 6) (base []))
    t.pc = 0x100004 ∧ t.nret = 1 := by decide

/-- A thread of 256 registers with v160 to v162 at 5, 9 and 2, and x1 at base 160, limit 8, mode 10 and an index (the example after R265). -/
def stack (index : Word) : State :=
  put (fun t => { t with regs := 256, v := List.replicate 160 0 ++ [5, 9, 2] ++ List.replicate 93 0
                         x := [0, 0x200008A0 + (index <<< 16), 0, 0, 0, 0, 0, 0] }) (base [])

/-- Two values are popped and their sum is pushed. -/
theorem test_stack_add :
    let t := th (run (.add 0 121 121 121) (stack 3))
    t.reg 161 = 11 ∧ t.reg 162 = 2 ∧ (t.x.getD 1 0).extractLsb' 16 8 = 2 := by decide

/-- The second pop of a stack of one raises index-bound with tval 0x1FF, and the index stays. -/
theorem test_stack_underflow :
    let t := th (run (.add 0 121 121 121) (put (fun t => { t with tstat := t.tstat ||| 2 }) (stack 1)))
    t.tcause = 0x03 ∧ t.tval = 0x1FF ∧ (t.x.getD 1 0).extractLsb' 16 8 = 1 ∧ t.reg 161 = 9 := by decide

/-- The example after R14: the global address of offset 0x1000 in region 2 of rank 5. -/
theorem test_global_address : gAddr 5 2 0x1000 = 0x8001420000001000 := by decide

/-- The example after R67: striping with s = 12 and c = 4. -/
theorem test_stripes :
    let s : State := { State.reset with tables := ws [] [(0x40104 + 8 * 2, 4, 12 + 4 * 64)] }
    s.unstripe 8 2 0x5FFC = (9, 0x1FFC) ∧ s.unstripe 8 2 0x6000 = (10, 0x1000) := by decide

/-- The example after R83: of two claims with one sequence number the first is accepted. -/
theorem test_claims :
    let s := run (.claim 2 2 2 7) { srv 6 with own := { State.reset.own with csq := 6 }, ports := [(0, .up), (18, .up)] }
    let t := run (.claim 0 0 0 7) s
    s.own.id = 2 ∧ s.own.csq = 7 ∧ t.own.results.getD 2 0 = 1 ∧ t.own.results.getD 0 0 = 2 ∧ t.own.id = 2 := by decide

/-- The example after R172: two arrivals of 64 bytes and an arm of 128, in both orders; the phase is bit 63. -/
theorem test_barrier_counts :
    let up := fun (v : Dword) (d : Int) => barUpdate v d false
    (up (up (up 0 (-64)) (-64)) 128).msb = true ∧ (up (up 0 (-64)) (-64)).msb = false ∧
    (up (up (up 0 128) (-64)) (-64)).msb = true := by decide

/-- The example after R216: `tret` with reserved bits in tsav, and with K asked for by a thread without it, raises bad-status. -/
theorem test_bad_status :
    let u : Thread := { th (base []) with tstat := 1, tsav := 0x102 }
    u.badStatus = true ∧ ({ u with tsav := 0x42 } : Thread).badStatus = false ∧
    ({ u with tsav := 0x42 } : Thread).trapReturn.tstat = 0x42 := by decide

/-- The example after R54: position 2 folded after the partial of positions 0 and 1 gives the home's own result. -/
theorem test_reduction_fold :
    let a := foldStep 0 1 0x3F800000 0x4B800000
    a = 0x4B800000 ∧ foldStep 0 1 (foldStep 0 1 a 0x3F800000) 0xCB800000 = 0 := by decide

/-- The example after R107: weights 2 and 1 give the decisions 9, 5, 5. -/
theorem test_round_robin :
    let go := fun defs cur => roundRobin (fun _ => 1) (fun q => if q = 5 then 2 else 1) [5, 9] 8 defs cur
    go [(5, 0), (9, 0)] 5 = some (9, [(5, 0), (9, 0)], 9) ∧ go [(5, 0), (9, 0)] 9 = some (5, [(5, 1), (9, 0)], 5) ∧
    go [(5, 1), (9, 0)] 5 = some (5, [(5, 0), (9, 0)], 5) := by decide

/-- The example after R116: where the actions of a victim's teams differ, a flush becomes a save. -/
theorem test_mixed_actions :
    mixedActions [(⟨0, 0⟩, .flush), (⟨1, 0⟩, .save)] = [(⟨0, 0⟩, .save), (⟨1, 0⟩, .save)] := by decide

/-- The example after R97: 256.0 converts to E4M3 as 0x78 and 480.0 saturates to 0x7E. -/
theorem test_e4m3 :
    convertDown ((th (base [])).fmt 0) 0 0 1 (val 0x4380 bfloat16) = some 0x78 ∧
    convertDown ((th (base [])).fmt 0) 0 0 0 (val 0x43F0 bfloat16) = some 0x7E := by decide

/-- The example after R22: the place of an address in HBM4, and the channel of the next granule. -/
theorem test_hbm_place : hbmChan 0x12345600 = 0x610 ∧ hbmPlace 0x12345600 = ⟨12, 16, 0x246, 0⟩ ∧ hbmChan 0x12345700 = 0x611 := by decide

/-- FIPS 197, 5.1.1: the S-box takes 0x53 to 0xED, and its inverse takes it back. -/
theorem test_s_box : subByte 0x53 = 0xED ∧ subByteInverse 0xED = 0x53 := by decide +kernel

/-- The LZ4 block format: a literal, and a match that overlaps itself. -/
theorem test_lz4 : lz4 [0x13, 0x61, 0x01, 0x00, 0x00] = some (List.replicate 8 0x61) := by decide +kernel

/-- RFC 1951, 3.2.4: a stored block. -/
theorem test_inflate_stored : inflate [0x01, 0x01, 0x00, 0xFE, 0xFF, 0x62] = some [0x62] := by decide +kernel

/-- R250: a word with no thread to run it is the model's own fault. -/
theorem test_no_thread : exec (.add 0 4 5 6) State.reset = .fault .noThread := rfl

/-- What `withFetchWord` stores is what `step` runs, as the issue of a gang. -/
theorem test_first_step : step (State.reset.withFetchWord 32 (Enc.add 0 4 5 6).toNat)
    = exec (.add 0 4 5 6) ((State.reset.withFetchWord 32 (Enc.add 0 4 5 6).toNat).beginTurn ⟨0, 0, 0⟩ [(0, [0])] true) := by rfl

/-- R248: a word of the table decodes to its instruction. -/
theorem test_first_word : decodeTableWord 32 (Enc.add 0 4 5 6).toNat = some (.add 0 4 5 6) := by decide

/-! ### Words of every row, written out from the spec's encodings, decode to it -/


/-- Major 0x01: the words of the encodings of R248, R256 to R259. -/
theorem test_decode_01 :
    decodeWord 0b1_0000010000_1111010_0010100_0110011 = some (.add 1 122 20 51) ∧
    decodeWord 0b0_0000010001_0001010_1101010_1000101 = some (.sub 0 10 106 69) ∧
    decodeWord 0b0_0000010010_0101111_1001011_0001000 = some (.mul 0 47 75 8) ∧
    decodeWord 0b0_0000010011_0000101_0001100_0111000 = some (.mulhI 0 5 12 56) ∧
    decodeWord 0b1_0000010100_0001001_0011111_0001100 = some (.mulhN 1 9 31 12) ∧
    decodeWord 0b1_0000010101_0001000_1101010_1001001 = some (.minI 1 8 106 73) ∧
    decodeWord 0b0_0000010110_1111010_0011101_1010001 = some (.maxI 0 122 29 81) ∧
    decodeWord 0b0_0000010111_1001010_1001011_0110011 = some (.minN 0 74 75 51) ∧
    decodeWord 0b0_0000011000_1111101_0011101_0000110 = some (.maxN 0 125 29 6) ∧
    decodeWord 0b0_0000011001_0100110_0110110_0010011 = some (.and 0 38 54 19) ∧
    decodeWord 0b0_0000011010_1001010_0101000_1001000 = some (.or 0 74 40 72) ∧
    decodeWord 0b0_0000011011_0001110_1001011_1001010 = some (.xor 0 14 75 74) ∧
    decodeWord 0b0_0000011100_0110000_0001101_1000111 = some (.andn 0 48 13 71) ∧
    decodeWord 0b0_0000011101_1001001_0001000_1010000 = some (.shl 0 73 8 80) ∧
    decodeWord 0b0_0000011110_1000000_1011000_1000101 = some (.shr 0 64 88 69) ∧
    decodeWord 0b1_0000011111_1100100_0101001_0111100 = some (.sar 1 100 41 60) := by
  decide

/-- Major 0x02: the words of the encodings of R248, R256 to R259. -/
theorem test_decode_02 :
    decodeWord 0b1_0000100000_0101111_0100111_0100000 = some (.rot 1 47 39 32) ∧
    decodeWord 0b0_0000100001_1011010_1100100_0100000 = some (.mad 0 90 100 32) ∧
    decodeWord 0b0_0000100010_1001010_0100111_0000000 = some (.clz 0 74 39) ∧
    decodeWord 0b1_0000100011_1110001_0101100_0000000 = some (.ctz 1 113 44) ∧
    decodeWord 0b1_0000100100_0100101_1001110_0000000 = some (.popc 1 37 78) ∧
    decodeWord 0b0_0000100101_0010000_1000010_0000000 = some (.brev 0 16 66) ∧
    decodeWord 0b1_0000100110_0010110_1100001_0101100 = some (.bfxI 1 22 97 44) ∧
    decodeWord 0b0_0000100111_1111000_0111111_0110110 = some (.bfxN 0 120 63 54) ∧
    decodeWord 0b0_0000101000_1111100_1010110_0001010 = some (.bfi 0 124 86 10) ∧
    decodeWord 0b1_0000101001_0101100_1011001_0101101 = some (.absd 1 44 89 45) ∧
    decodeWord 0b1_0000101010_1001011_1100111_0000000 = some (.sext8 1 75 103) ∧
    decodeWord 0b1_0000101011_0001001_1101100_0000000 = some (.sext16 1 9 108) ∧
    decodeWord 0b0_0000101100_1111001_0100011_0000000 = some (.zext8 0 121 35) ∧
    decodeWord 0b1_0000101101_1011010_1010110_0000000 = some (.zext16 1 90 86) ∧
    decodeWord 0b0_0000101110_0001000_1011110_1011010 = some (.mulwI 0 8 94 90) ∧
    decodeWord 0b1_0000101111_1010011_1001010_1011000 = some (.mulwN 1 83 74 88) := by
  decide

/-- Major 0x03: the words of the encodings of R248, R256 to R259. -/
theorem test_decode_03 :
    decodeWord 0b1_000011_1001_0000_110_0110010_1110010 = some (.cmp 1 9 6 50 114) := by
  decide

/-- Major 0x04: the words of the encodings of R248, R256 to R259. -/
theorem test_decode_04 :
    decodeWord 0b1_000100_0_100_0101110_0010110_1001111 = some (.sel 1 0 4 46 22 79) := by
  decide

/-- Major 0x05: the words of the encodings of R248, R256 to R259. -/
theorem test_decode_05 :
    decodeWord 0b0_000101_1000000_0001000_00110111111 = some (.addi 0 64 8 447) := by
  decide

/-- Major 0x06: the words of the encodings of R248, R256 to R259. -/
theorem test_decode_06 :
    decodeWord 0b1_000110_0010001_1011111_00111111100 = some (.andi 1 17 95 508) := by
  decide

/-- Major 0x07: the words of the encodings of R248, R256 to R259. -/
theorem test_decode_07 :
    decodeWord 0b1_000111_0110011_1110110_11011111001 = some (.ori 1 51 118 1785) := by
  decide

/-- Major 0x08: the words of the encodings of R248, R256 to R259. -/
theorem test_decode_08 :
    decodeWord 0b1_001000_0001011_0010110_01110011000 = some (.xori 1 11 22 920) := by
  decide

/-- Major 0x09: the words of the encodings of R248, R256 to R259. -/
theorem test_decode_09 :
    decodeWord 0b1_001001_1000111_0100100_00_111000101 = some (.shli 1 71 36 453) ∧
    decodeWord 0b0_001001_1101001_0111000_01_110111011 = some (.shri 0 105 56 443) ∧
    decodeWord 0b1_001001_1011011_0110110_10_111111010 = some (.sari 1 91 54 506) ∧
    decodeWord 0b1_001001_1011000_1110010_11_011000011 = some (.roti 1 88 114 195) := by
  decide

/-- Major 0x0A: the words of the encodings of R248, R256 to R259. -/
theorem test_decode_0A :
    decodeWord 0b0_001010_1010_001_0010111_00100110110 = some (.cmpi 0 10 1 23 310) := by
  decide

/-- Major 0x0B: the words of the encodings of R248, R256 to R259. -/
theorem test_decode_0B :
    decodeWord 0b0_001011_1010101_0011110_00000011001 = some (.muli 0 85 30 25) := by
  decide

/-- Major 0x0C: the words of the encodings of R248, R256 to R259. -/
theorem test_decode_0C :
    decodeWord 0b1_0011000000_1101011_1001100_0011000 = some (.padd8 1 107 76 24) ∧
    decodeWord 0b1_0011000001_0100101_0000001_0010011 = some (.psub8 1 37 1 19) ∧
    decodeWord 0b1_0011000010_1000101_0110000_1001111 = some (.paddsI8 1 69 48 79) ∧
    decodeWord 0b1_0011000011_1111010_0010001_1011001 = some (.paddsN8 1 122 17 89) ∧
    decodeWord 0b0_0011000100_0111011_1110100_1110000 = some (.psubsI8 0 59 116 112) ∧
    decodeWord 0b1_0011000101_0110011_0110100_0110011 = some (.psubsN8 1 51 52 51) ∧
    decodeWord 0b0_0011000110_0111110_1010010_0110100 = some (.pminI8 0 62 82 52) ∧
    decodeWord 0b0_0011000111_0011001_0001001_1111111 = some (.pmaxI8 0 25 9 127) ∧
    decodeWord 0b0_0011001000_0111001_0010101_0001111 = some (.pminN8 0 57 21 15) ∧
    decodeWord 0b1_0011001001_1001101_0000111_0001110 = some (.pmaxN8 1 77 7 14) ∧
    decodeWord 0b0_0011001010_1001001_0010100_1000101 = some (.pabsd8 0 73 20 69) ∧
    decodeWord 0b0_0011001011_1111010_0101111_1001111 = some (.pshl8 0 122 47 79) ∧
    decodeWord 0b0_0011001100_0001010_1110000_0011011 = some (.pshr8 0 10 112 27) ∧
    decodeWord 0b1_0011001101_0010100_1010010_0100001 = some (.psar8 1 20 82 33) ∧
    decodeWord 0b1_0011001110_1001110_0101111_0111101 = some (.pavgN8 1 78 47 61) ∧
    decodeWord 0b0_0011001111_0001111_1101101_0111111 = some (.pdot8 0 15 109 63) := by
  decide

/-- Major 0x0D: the words of the encodings of R248, R256 to R259. -/
theorem test_decode_0D :
    decodeWord 0b1_0011010000_0111110_0111110_0101000 = some (.padd16 1 62 62 40) ∧
    decodeWord 0b0_0011010001_0010011_0001110_1100000 = some (.psub16 0 19 14 96) ∧
    decodeWord 0b1_0011010010_1011111_0100010_0111110 = some (.paddsI16 1 95 34 62) ∧
    decodeWord 0b0_0011010011_1000011_0000011_0011011 = some (.paddsN16 0 67 3 27) ∧
    decodeWord 0b1_0011010100_0010011_1011001_1000110 = some (.psubsI16 1 19 89 70) ∧
    decodeWord 0b0_0011010101_1100010_1000100_0100111 = some (.psubsN16 0 98 68 39) ∧
    decodeWord 0b0_0011010110_1011010_1101101_0100010 = some (.pminI16 0 90 109 34) ∧
    decodeWord 0b1_0011010111_1110101_0010110_0101110 = some (.pmaxI16 1 117 22 46) ∧
    decodeWord 0b0_0011011000_1000101_1000110_1100100 = some (.pminN16 0 69 70 100) ∧
    decodeWord 0b1_0011011001_1010010_0011101_1001111 = some (.pmaxN16 1 82 29 79) ∧
    decodeWord 0b0_0011011010_1101000_0011111_1101001 = some (.pabsd16 0 104 31 105) ∧
    decodeWord 0b1_0011011011_1011111_1100111_0011110 = some (.pshl16 1 95 103 30) ∧
    decodeWord 0b0_0011011100_1000011_1000000_0101110 = some (.pshr16 0 67 64 46) ∧
    decodeWord 0b0_0011011101_1111111_0000100_1100110 = some (.psar16 0 127 4 102) ∧
    decodeWord 0b1_0011011110_0111101_0100010_0011001 = some (.pavgN16 1 61 34 25) ∧
    decodeWord 0b1_0011011111_0111010_1101000_1111000 = some (.pdot16 1 58 104 120) := by
  decide

/-- Major 0x0E: the words of the encodings of R248, R256 to R259. -/
theorem test_decode_0E :
    decodeWord 0b1_0011100000_1111011_1111101_0101111 = some (.addD 1 123 125 47) ∧
    decodeWord 0b0_0011100001_0011101_0001110_0011110 = some (.subD 0 29 14 30) ∧
    decodeWord 0b1_0011100010_0011010_0101100_0011011 = some (.shlD 1 26 44 27) ∧
    decodeWord 0b1_0011100011_1010000_1111111_1110100 = some (.shrD 1 80 127 116) ∧
    decodeWord 0b0_0011100100_0111110_1110101_1010100 = some (.sarD 0 62 117 84) ∧
    decodeWord 0b1_0011100101_1100111_1010011_0001011 = some (.addxI 1 103 83 11) ∧
    decodeWord 0b0_0011100110_1110101_0110010_1100101 = some (.addxN 0 117 50 101) ∧
    decodeWord 0b0_0011100111_0111110_1110010_0010111 = some (.andD 0 62 114 23) ∧
    decodeWord 0b1_0011101000_1100110_1010010_0101011 = some (.orD 1 102 82 43) ∧
    decodeWord 0b0_0011101001_1100111_1111010_1111101 = some (.xorD 0 103 122 125) := by
  decide

/-- Major 0x10: the words of the encodings of R248, R256 to R259. -/
theorem test_decode_10 :
    decodeWord 0b1_0100000000_0111100_0110100_1100000 = some (.fadd 1 60 52 96) ∧
    decodeWord 0b0_0100000001_1011101_0010101_0010110 = some (.fsub 0 93 21 22) ∧
    decodeWord 0b0_0100000010_0000100_0010100_1001100 = some (.fmul 0 4 20 76) ∧
    decodeWord 0b1_0100000011_1101000_1010100_0010011 = some (.ffma 1 104 84 19) ∧
    decodeWord 0b1_0100000100_1010101_1111000_0101101 = some (.fnma 1 85 120 45) ∧
    decodeWord 0b0_0100000101_1000111_1000111_0010001 = some (.fmin 0 71 71 17) ∧
    decodeWord 0b0_0100000110_0000010_1100111_1111101 = some (.fmax 0 2 103 125) ∧
    decodeWord 0b0_0100000111_1000100_1100000_0000000 = some (.fabs 0 68 96) ∧
    decodeWord 0b0_0100001000_0111000_1111111_0000000 = some (.fneg 0 56 127) ∧
    decodeWord 0b0_0100001001_1101010_1110000_0011100 = some (.fsgnj 0 106 112 28) := by
  decide

/-- Major 0x11: the words of the encodings of R248, R256 to R259. -/
theorem test_decode_11 :
    decodeWord 0b0_0100010000_0100001_0011100_0100110 = some (.faddF64 0 33 28 38) ∧
    decodeWord 0b0_0100010001_1100010_1001100_0101010 = some (.fsubF64 0 98 76 42) ∧
    decodeWord 0b1_0100010010_1000110_0110110_1101011 = some (.fmulF64 1 70 54 107) ∧
    decodeWord 0b0_0100010011_0001000_1110101_1011111 = some (.ffmaF64 0 8 117 95) ∧
    decodeWord 0b1_0100010100_1110011_0111011_1010101 = some (.fnmaF64 1 115 59 85) ∧
    decodeWord 0b1_0100010101_1101010_1110110_1110001 = some (.fminF64 1 106 118 113) ∧
    decodeWord 0b0_0100010110_1000101_0010100_1000100 = some (.fmaxF64 0 69 20 68) ∧
    decodeWord 0b0_0100010111_1110000_0111001_0000000 = some (.fabsF64 0 112 57) ∧
    decodeWord 0b0_0100011000_1001110_0000001_0000000 = some (.fnegF64 0 78 1) ∧
    decodeWord 0b0_0100011001_0010111_0010011_0111101 = some (.fsgnjF64 0 23 19 61) := by
  decide

/-- Major 0x12: the words of the encodings of R248, R256 to R259. -/
theorem test_decode_12 :
    decodeWord 0b0_010010_0_000_0101010_1011000_1000011 = some (.faddPk 0 0 42 88 67) ∧
    decodeWord 0b1_010010_0_001_1110010_1001000_0001000 = some (.fsubPk 1 0 114 72 8) ∧
    decodeWord 0b0_010010_0_010_0100100_0000110_1100011 = some (.fmulPk 0 0 36 6 99) ∧
    decodeWord 0b0_010010_1_011_1001000_0000100_1100010 = some (.ffmaPk 0 1 72 4 98) ∧
    decodeWord 0b0_010010_1_100_0101010_1001111_1111101 = some (.fnmaPk 0 1 42 79 125) ∧
    decodeWord 0b0_010010_1_101_0111010_1000010_1000101 = some (.fminPk 0 1 58 66 69) ∧
    decodeWord 0b1_010010_0_110_1011010_1000011_1110001 = some (.fmaxPk 1 0 90 67 113) ∧
    decodeWord 0b1_010010_0_111_1101100_0111010_0000000 = some (.fnegPk 1 0 108 58) := by
  decide

/-- Major 0x13: the words of the encodings of R248, R256 to R259. -/
theorem test_decode_13 :
    decodeWord 0b0_0100110000_0110110_0010000_0000000 = some (.frcp 0 54 16) ∧
    decodeWord 0b1_0100110001_0111001_0101001_0000000 = some (.frsq 1 57 41) ∧
    decodeWord 0b0_0100110010_1010110_0011111_0000000 = some (.fsqrt 0 86 31) ∧
    decodeWord 0b1_0100110011_0001010_0011100_0000000 = some (.fexp2 1 10 28) ∧
    decodeWord 0b1_0100110100_1100101_0010000_0000000 = some (.flog2 1 101 16) ∧
    decodeWord 0b0_0100110101_1111001_1011100_0000000 = some (.fsin 0 121 92) ∧
    decodeWord 0b1_0100110110_0010011_0100001_0000000 = some (.fcos 1 19 33) ∧
    decodeWord 0b0_0100110111_1111100_0111100_0000000 = some (.ftanh 0 124 60) ∧
    decodeWord 0b0_0100111000_1100000_1111010_0000000 = some (.fclass 0 96 122) := by
  decide

/-- Major 0x14: the words of the encodings of R248, R256 to R259. -/
theorem test_decode_14 :
    decodeWord 0b0_0101000_100_0000_100_0010101_1111111 = some (.fcmp 0 4 4 21 127) ∧
    decodeWord 0b0_0101001_010_0000_110_0111000_1000010 = some (.fcmpF64 0 2 6 56 66) := by
  decide

/-- Major 0x15: the words of the encodings of R248, R256 to R259. -/
theorem test_decode_15 :
    decodeWord 0b1_0101010000_0101100_0110110_0000000 = some (.cvtF32I32 1 44 54) ∧
    decodeWord 0b0_0101010001_0101110_0101001_0000000 = some (.cvtF32N32 0 46 41) ∧
    decodeWord 0b0_0101010010_1011101_0101111_0000000 = some (.cvtI32F32 0 93 47) ∧
    decodeWord 0b0_0101010011_0101100_1000111_0000000 = some (.cvtN32F32 0 44 71) ∧
    decodeWord 0b1_0101010100_0111001_1011011_0000000 = some (.cvtF64F32 1 57 91) ∧
    decodeWord 0b0_0101010101_0110010_0101011_0000000 = some (.cvtF32F64 0 50 43) ∧
    decodeWord 0b1_0101010110_1000010_1111011_0000000 = some (.cvtF64I32 1 66 123) ∧
    decodeWord 0b0_0101010111_0001111_1111111_0000000 = some (.cvtF64N32 0 15 127) ∧
    decodeWord 0b0_0101011000_1111101_1110001_0000000 = some (.cvtI32F64 0 125 113) ∧
    decodeWord 0b0_0101011001_0001011_0100010_0000000 = some (.cvtN32F64 0 11 34) ∧
    decodeWord 0b1_0101011010_0000110_1110100_0000000 = some (.cvtF32Bf16 1 6 116) ∧
    decodeWord 0b0_0101011011_0100011_1100001_0000000 = some (.cvtF32F16 0 35 97) ∧
    decodeWord 0b0_0101011100_1101001_0110111_0000000 = some (.cvtBf16F32 0 105 55) ∧
    decodeWord 0b1_0101011101_0110100_0010100_0000000 = some (.cvtF16F32 1 52 20) := by
  decide

/-- Major 0x16: the words of the encodings of R248, R256 to R259. -/
theorem test_decode_16 :
    decodeWord 0b1_010110_11_10_0001100_0100100_001_1101 = some (.cvtdn 1 3 2 12 36 1 13) := by
  decide

/-- Major 0x17: the words of the encodings of R248, R256 to R259. -/
theorem test_decode_17 :
    decodeWord 0b0_0101110000_0110111_1110011_001_0101 = some (.cvtup 0 55 115 1 5) := by
  decide

/-- Major 0x18: the words of the encodings of R248, R256 to R259. -/
theorem test_decode_18 :
    decodeWord 0b0_0110000000_1010010_0001100_0000000 = some (.mov 0 82 12) ∧
    decodeWord 0b1_0110000001_0001011_00000000000000 = some (.movcRead 1 11) ∧
    decodeWord 0b0_01100000010000000_0001001_0000001 = some (.movcWrite 0 9) ∧
    decodeWord 0b1_0110000010_1101111_00000000000_001 = some (.xget 1 111 1) ∧
    decodeWord 0b1_01100000110000_001_0000000_0101100 = some (.xset 1 1 44) ∧
    decodeWord 0b1_01100001000000_011_0000000_1010000 = some (.xadj 1 3 80) ∧
    decodeWord 0b0_0110000101_0000110_00000000000_101 = some (.fget 0 6 5) ∧
    decodeWord 0b0_01100001100000_001_0000000_1111101 = some (.fset 0 1 125) ∧
    decodeWord 0b0_0110000111_0100010_00000000000_001 = some (.mget 0 34 1) ∧
    decodeWord 0b0_01100010000000_010_0000000_1111000 = some (.mset 0 2 120) := by
  decide

/-- Major 0x19: the words of the encodings of R248, R256 to R259. -/
theorem test_decode_19 :
    decodeWord 0b1_011001_1010001_010011100001010100 = some (.movi 1 81 79956) := by
  decide

/-- Major 0x1A: the words of the encodings of R248, R256 to R259. -/
theorem test_decode_1A :
    decodeWord 0b0_011010_0100110_00000000_0111001001 = some (.csrr 0 38 457) ∧
    decodeWord 0b0_0110100000000_0100011_1_0101100100 = some (.csrw 0 35 356) := by
  decide

/-- Major 0x1B: the words of the encodings of R248, R256 to R259. -/
theorem test_decode_1B :
    decodeWord 0b0_01101100000_10_0000101_00000000000 = some (.sdef 0 2 5) ∧
    decodeWord 0b0_01101110000_01_000000000000000000 = some (.sstop 0 1) := by
  decide

/-- Major 0x1C: the words of the encodings of R248, R256 to R259. -/
theorem test_decode_1C :
    decodeWord 0b0_011100_1_010_111011110100010011001 = some (.br 0 1 2 1960089) := by
  decide

/-- Major 0x1D: the words of the encodings of R248, R256 to R259. -/
theorem test_decode_1D :
    decodeWord 0b1_01110100000000_00011011001101011 = some (.jmp 1 13931) ∧
    decodeWord 0b1_011101_1010101_1_01111110101110001 = some (.call 1 85 64881) := by
  decide

/-- Major 0x1E: the words of the encodings of R248, R256 to R259. -/
theorem test_decode_1E :
    decodeWord 0b1_01111000000000000_1111101_0000000 = some (.brx 1 125) ∧
    decodeWord 0b1_0111100001_1011001_0011100_0000000 = some (.callx 1 89 28) ∧
    decodeWord 0b0_01111000100000000_0101100_0000000 = some (.ret 0 44) := by
  decide

/-- Major 0x1F: the words of the encodings of R248, R256 to R259. -/
theorem test_decode_1F :
    decodeWord 0b0_0111110000000000000000000000000 = some (.nop 0) ∧
    decodeWord 0b0_0111110000100000000000000000000 = some (.exit 0) ∧
    decodeWord 0b1_0111110001000000000000000000000 = some (.yield 1) ∧
    decodeWord 0b1_011111000110000_1111101101011101 = some (.park 1 64349) ∧
    decodeWord 0b0_01111100100_11010110010001001110 = some (.brk 0 877646) ∧
    decodeWord 0b0_01111100101_01_01_1_011011100100011 = some (.bstr 0 1 1 1 14115) := by
  decide

/-- Major 0x20: the words of the encodings of R248, R256 to R259. -/
theorem test_decode_20 :
    decodeWord 0b0_100000_000_1010110_1101100_01100010 = some (.ldLn 0 0 86 108 98) := by
  decide

/-- Major 0x21: the words of the encodings of R248, R256 to R259. -/
theorem test_decode_21 :
    decodeWord 0b1_100001_001_1011001_0100110_00001100 = some (.stLn 1 1 89 38 12) := by
  decide

/-- Major 0x22: the words of the encodings of R248, R256 to R259. -/
theorem test_decode_22 :
    decodeWord 0b1_100010_001_0100011_0111010_00000001 = some (.ldCo 1 1 35 58 1) := by
  decide

/-- Major 0x23: the words of the encodings of R248, R256 to R259. -/
theorem test_decode_23 :
    decodeWord 0b1_100011_010_1111101_1111111_10001101 = some (.stCo 1 2 125 127 141) := by
  decide

/-- Major 0x24: the words of the encodings of R248, R256 to R259. -/
theorem test_decode_24 :
    decodeWord 0b1_100100_000_1111100_1110001_01010000 = some (.ldCl 1 0 124 113 80) := by
  decide

/-- Major 0x25: the words of the encodings of R248, R256 to R259. -/
theorem test_decode_25 :
    decodeWord 0b0_100101_001_0000001_0101011_01100010 = some (.stCl 0 1 1 43 98) := by
  decide

/-- Major 0x26: the words of the encodings of R248, R256 to R259. -/
theorem test_decode_26 :
    decodeWord 0b0_100110_010_1000001_1010100_00110100 = some (.ldCh 0 2 65 84 52) := by
  decide

/-- Major 0x27: the words of the encodings of R248, R256 to R259. -/
theorem test_decode_27 :
    decodeWord 0b0_100111_000_0001100_0100010_11010010 = some (.stCh 0 0 12 34 210) := by
  decide

/-- Major 0x28: the words of the encodings of R248, R256 to R259. -/
theorem test_decode_28 :
    decodeWord 0b0_101000_010_0110100_1001100_00001011 = some (.ldGl 0 2 52 76 11) := by
  decide

/-- Major 0x29: the words of the encodings of R248, R256 to R259. -/
theorem test_decode_29 :
    decodeWord 0b1_101001_001_0100111_0100111_10100010 = some (.stGl 1 1 39 39 162) := by
  decide

/-- Major 0x2A: the words of the encodings of R248, R256 to R259. -/
theorem test_decode_2A :
    decodeWord 0b0_10101000000_100_0_1_1100010_0101010_0 = some (.atomAdd 0 4 0 1 98 42) ∧
    decodeWord 0b1_10101000001_010_0_0_1101010_1101011_0 = some (.atomAnd 1 2 0 0 106 107) ∧
    decodeWord 0b1_10101000010_101_0_0_1101010_1011000_0 = some (.atomOr 1 5 0 0 106 88) ∧
    decodeWord 0b0_10101000011_000_0_0_1010010_0101111_0 = some (.atomXor 0 0 0 0 82 47) ∧
    decodeWord 0b0_10101000100_110_1_0_1010001_0000011_0 = some (.atomMinI 0 6 1 0 81 3) ∧
    decodeWord 0b0_10101000101_010_0_1_1100111_0001001_0 = some (.atomMaxI 0 2 0 1 103 9) ∧
    decodeWord 0b0_10101000110_100_0_1_0100001_1101000_0 = some (.atomMinN 0 4 0 1 33 104) ∧
    decodeWord 0b0_10101000111_010_0_0_0011110_1011111_0 = some (.atomMaxN 0 2 0 0 30 95) ∧
    decodeWord 0b1_10101001000_110_1_0_0111110_1110101_0 = some (.atomSwap 1 6 1 0 62 117) ∧
    decodeWord 0b1_10101001001_000_0_0_1001101_0010011_0 = some (.atomCas 1 0 0 0 77 19) ∧
    decodeWord 0b1_10101001010_101_1_0_0000010_0111110_0 = some (.atomFadd 1 5 1 0 2 62) := by
  decide

/-- Major 0x2B: the words of the encodings of R248, R256 to R259. -/
theorem test_decode_2B :
    decodeWord 0b0_1010110000000000000000000000000 = some (.fence 0) ∧
    decodeWord 0b1_1010110000100000000000000000000 = some (.drainNt 1) ∧
    decodeWord 0b1_10101100010_1111101_0000000000000 = some (.pflush 1 125) ∧
    decodeWord 0b0_10101100011_1011001_0011100_000000 = some (.cwait 0 89 28) ∧
    decodeWord 0b1_10101100100_0100110_1011011_000000 = some (.cadd 1 38 91) ∧
    decodeWord 0b1_10101100101_0111100_0111100_000000 = some (.cpoll 1 60 60) ∧
    decodeWord 0b1_10101100110_1100011_0000000000000 = some (.wsig 1 99) ∧
    decodeWord 0b0_10101100111_1110011_0000000000000 = some (.wred 0 115) := by
  decide

/-- Major 0x2C: the words of the encodings of R248, R256 to R259. -/
theorem test_decode_2C :
    decodeWord 0b0_1011000000_011_1111110_0001011_1111 = some (.pickK 0 3 126 11 15) ∧
    decodeWord 0b1_1011000001_001_0100110_0111011_0010 = some (.pickR 1 1 38 59 2) ∧
    decodeWord 0b1_1011000010_011_0110010_0011011_1111 = some (.pickXor 1 3 50 27 15) ∧
    decodeWord 0b0_1011000011_001_1001011_0001100_0011 = some (.pickAdd 0 1 75 12 3) ∧
    decodeWord 0b1_1011000100_011_0010001_1001110_1110 = some (.pickSub 1 3 17 78 14) ∧
    decodeWord 0b1_1011000101_001_0000_110_0000000_0110 = some (.census 1 1 6 6) ∧
    decodeWord 0b0_1011000110_100_0000_100_0110011_000_0 = some (.kin 0 4 4 51 0) ∧
    decodeWord 0b0_1011000111_001_1_110_100_0000000_0111 = some (.agreeAll 0 1 1 6 4 7) ∧
    decodeWord 0b1_1011001000_110_1_100_011_0000000_0111 = some (.agreeAny 1 6 1 4 3 7) ∧
    decodeWord 0b1_1011001001_001_1_001_011_0000000_1101 = some (.agreeSame 1 1 1 1 3 13) ∧
    decodeWord 0b1_1011001010_111_0110011_0010000_00_01 = some (.combAdd 1 7 51 16 1) ∧
    decodeWord 0b0_1011001011_110_0100110_0100001_00_01 = some (.combMin 0 6 38 33 1) ∧
    decodeWord 0b0_1011001100_100_0110010_1110000_00_01 = some (.combMax 0 4 50 112 1) ∧
    decodeWord 0b0_1011001101_011_1110111_0110111_00_01 = some (.scanAdd 0 3 119 55 1) ∧
    decodeWord 0b0_1011001110_011_000000000000000000 = some (.fenceGrp 0 3) := by
  decide

/-- Major 0x2D: the words of the encodings of R248, R256 to R259. -/
theorem test_decode_2D :
    decodeWord 0b0_10110100000_0000111_0000000000000 = some (.xiss 0 7) ∧
    decodeWord 0b1_10110100001_1011_1111000_00101_0000 = some (.rsend 1 11 120 5) ∧
    decodeWord 0b0_10110100010_0101_0111000_10001_0000 = some (.rrecv 0 5 56 17) ∧
    decodeWord 0b1_10110100011_0100_110010_0000000000 = some (.bar 1 4 50) ∧
    decodeWord 0b1_10110100100_1101_0000000000000000 = some (.barCl 1 13) ∧
    decodeWord 0b1_10110100101_1111_000010_0_000000000 = some (.arrive 1 15 2 0) ∧
    decodeWord 0b0_10110100110_110_0001011_0000000000 = some (.gdef 0 6 11) := by
  decide

/-- Major 0x2E: the words of the encodings of R248, R256 to R259. -/
theorem test_decode_2E :
    decodeWord 0b0_10111000000_11101111_0_10111011100 = some (.tdef 0 239 1500) ∧
    decodeWord 0b1_10111000000_01110100_1_1001111_0000 = some (.tdefReg 1 116 79) ∧
    decodeWord 0b0_10111000001_10100101_000000000000 = some (.tfree 0 165) ∧
    decodeWord 0b1_10111000010_01111101_0000111_00000 = some (.tstate 1 125 7) ∧
    decodeWord 0b0_10111000011_0010110_01111001_00000 = some (.kick 0 22 121) ∧
    decodeWord 0b1_101110001000_0101100_0100101_00000 = some (.barm 1 44 37) ∧
    decodeWord 0b1_101110001001_01000010_1011111_0000 = some (.barmT 1 66 95) ∧
    decodeWord 0b1_101110001010_0110100_1010100_00000 = some (.bwait 1 52 84) ∧
    decodeWord 0b0_101110001011_01001110_0111110_0000 = some (.bwaitT 0 78 62) ∧
    decodeWord 0b1_10111000110_0010000_0000000000000 = some (.task 1 16) ∧
    decodeWord 0b0_10111000111_1010011_0000000000000 = some (.chain 0 83) := by
  decide

/-- Major 0x2F: the words of the encodings of R248, R256 to R259. -/
theorem test_decode_2F :
    decodeWord 0b0_10111100000_0010_0011011_000000000 = some (.cres 0 2 27) ∧
    decodeWord 0b1_10111100001_1001_0000000000000000 = some (.crel 1 9) ∧
    decodeWord 0b0_10111100010_100_1110101_0000000000 = some (.mldb 0 4 117) ∧
    decodeWord 0b1_10111100011_111_0111010_0110111_01_0 = some (.mma 1 7 58 55 1 0) ∧
    decodeWord 0b0_10111100100_001_0010111_0101100_11_0 = some (.mmap 0 1 23 44 3 0) ∧
    decodeWord 0b1_10111100101_010_0110_0000000000000 = some (.mzero 1 2 6) ∧
    decodeWord 0b1_10111100110_111_1001001_0000000000 = some (.mst 1 7 73) ∧
    decodeWord 0b0_10111100111_1111_0000011_1100000_00 = some (.mrd 0 15 3 96) := by
  decide

/-- Major 0x30: the words of the encodings of R248, R256 to R259. -/
theorem test_decode_30 :
    decodeWord 0b1_11000000000_100_0110101_0000000000 = some (.ssx 1 4 53) ∧
    decodeWord 0b0_11000000001_0110001_0100011_1_00000 = some (.ssq 0 49 35 1) := by
  decide

/-- Major 0x31: the words of the encodings of R248, R256 to R259. -/
theorem test_decode_31 :
    decodeWord 0b0_11000100000_1000000_0100100_000000 = some (.rhset 0 64 36) ∧
    decodeWord 0b1_11000100001_0010001_1011000_000000 = some (.rhpri 1 17 88) ∧
    decodeWord 0b0_11000100010_0001100_0000000000000 = some (.rhdem 0 12) ∧
    decodeWord 0b1_11000100011_1110011_0100000_000000 = some (.pref 1 115 32) := by
  decide

/-- Major 0x32: the words of the encodings of R248, R256 to R259. -/
theorem test_decode_32 :
    decodeWord 0b1_11001000000_0110100_1010010101011 = some (.svc 1 52 5291) ∧
    decodeWord 0b1_11001000001_01101111_1111011_00000 = some (.trap 1 111 123) ∧
    decodeWord 0b1_1100100001000000000000000000000 = some (.tret 1) ∧
    decodeWord 0b0_11001000011_0010001_0000101_000000 = some (.spawn 0 17 5) ∧
    decodeWord 0b1_11001000100_1011011_1100010_000000 = some (.cacheopClean 1 91 98) ∧
    decodeWord 0b1_11001000100_1111100_1001100_000001 = some (.cacheopEv1 1 124 76) ∧
    decodeWord 0b1_11001000100_0000001_0001010_000010 = some (.cacheopEv2 1 1 10) ∧
    decodeWord 0b1_11001000100_1111000_1110111_000011 = some (.cacheopPod 1 120 119) ∧
    decodeWord 0b1_11001000101_1111101_0111010_000000 = some (.tlbinv 1 125 58) ∧
    decodeWord 0b0_11001000110_1100101_0000000000000 = some (.wfe 0 101) := by
  decide

/-- Major 0x3E: the words of the encodings of R248, R256 to R259. -/
theorem test_decode_3E :
    decodeWord 0b0111110000_0001101111101010011101 = some (.hintImm 457373) ∧
    decodeWord 0b0111110001_0011100101001010111111 = some (.hintOpi 938687) ∧
    decodeWord 0b01111100100000000000000000000_010 = some (.hintScope 2) ∧
    decodeWord 0b01111100110000000000000000_01_0_111 = some (.hintRnd 1 0 7) ∧
    decodeWord 0b0111110100000000000000000_110_11_11 = some (.hintCache 6 3 3) ∧
    decodeWord 0b0111110101000000000000000_1101101 = some (.hintAdd 109) := by
  decide

/-! ### States and operands that meet the premises of the statements -/

/-- States and operands that meet the premises of `TwoSourceResults`. -/
theorem test_premises_TwoSourceResults :
    ∃ i acc d a b f, TwoSources i acc d a b f ∧ ∃ s : State, ∃ v word x y l c1 c2 c3, encode? i = some word ∧ Issues s word false v ∧ src a (begin s v
      word acc) = (x, c1) ∧ srcB b c1 = (y, c2) ∧ dst d c2 = (l, c3) ∧ Clean c3 :=
  ⟨(.add 0 4 5 6), _, _, _, _, _, (by constructor), (base []), (th (base [])), _, _, _, _, _, _, _, rfl, iss (by decide), pairOf _, pairOf _, pairOf _,
      cl (by decide)⟩

/-- States and operands that meet the premises of `OneSourceResults`. -/
theorem test_premises_OneSourceResults :
    ∃ i acc d a f, OneSource i acc d a f ∧ ∃ s : State, ∃ v word x l c1 c2, encode? i = some word ∧ Issues s word false v ∧ src a (begin s v word acc)
      = (x, c1) ∧ dst d c1 = (l, c2) ∧ Clean c2 :=
  ⟨(.clz 0 4 5), _, _, _, _, (by constructor), (base []), (th (base [])), _, _, _, _, _, rfl, iss (by decide), pairOf _, pairOf _, cl (by decide)⟩

/-- States and operands that meet the premises of `ImmediateResults`. -/
theorem test_premises_ImmediateResults :
    ∃ i d a f, Immediate i d a f ∧ ∃ s : State, ∃ v word x l c1 c2, encode? i = some word ∧ Issues s word false v ∧ src a (begin s v word .immOnly) = (x,
      c1) ∧ dst d c1 = (l, c2) ∧ Clean c2 :=
  ⟨(.addi 0 4 5 6), _, _, _, (by constructor), (base []), (th (base [])), _, _, _, _, _, rfl, iss (by decide), pairOf _, pairOf _, cl (by decide)⟩

/-- States and operands that meet the premises of `OldDestinationResults`. -/
theorem test_premises_OldDestinationResults :
    (∃ i acc d a b f, WithOld i acc d a b f ∧ ∃ s : State, ∃ v word x y c1 c2, encode? i = some word ∧ Issues s word false v ∧ src a (begin s v word acc)
      = (x, c1) ∧ srcB b c1 = (y, c2) ∧ ∃ l e c3 c4, (HintSet.of v.hints).add = none ∧ dst d c2 = (l, c3) ∧ rdDst l c3 = (e, c4) ∧ Clean c4) ∧
    (∃ i acc d a b f, WithOld i acc d a b f ∧ ∃ s : State, ∃ v word x y c1 c2, encode? i = some word ∧ Issues s word false v ∧ src a (begin s v word
      acc) = (x, c1) ∧ srcB b c1 = (y, c2) ∧ ∃ fe l e c3 c4, (HintSet.of v.hints).add = some fe ∧ acc.add = true ∧ src fe c2 = (e, c3) ∧ dst d c3
      = (l, c4) ∧ Clean c4) :=
  ⟨⟨(.mad 0 4 5 6), _, _, _, _, _, (by constructor), (base []), (th (base [])), _, _, _, _, _, rfl, iss (by decide), pairOf _, pairOf _, _, _, _, _,
      (by decide), pairOf _, pairOf _, cl (by decide)⟩,
    ⟨(.mad 0 4 5 6), _, _, _, _, _, (by constructor), (put (fun t => { t with hints := [.add 9] }) (base [])),
      (th (put (fun t => { t with hints := [.add 9] }) (base []))), _, _, _, _, _, rfl, iss (by decide), pairOf _, pairOf _, 9, _, _, _, _,
      (by decide), (by decide), pairOf _, pairOf _, cl (by decide)⟩⟩

/-- States and operands that meet the premises of `PairResults`. -/
theorem test_premises_PairResults :
    (∃ i acc d a b f, TwoPairs i acc d a b f ∧ ∃ s : State, ∃ v word x y l c1 c2 c3, encode? i = some word ∧ Issues s word false v ∧ srcP a (begin s v
      word acc) = (x, c1) ∧ srcP b c1 = (y, c2) ∧ dstP d c2 = (l, c3) ∧ Clean c3) ∧
    (∃ i d a b f, PairAndWord i d a b f ∧ ∃ s : State, ∃ v word x y l c1 c2 c3, encode? i = some word ∧ Issues s word false v ∧ srcP a (begin s v
      word .nothing) = (x, c1) ∧ src b c1 = (y, c2) ∧ dstP d c2 = (l, c3) ∧ Clean c3) ∧
    (∃ i acc d a f, WordToPair i acc d a f ∧ ∃ s : State, ∃ v word x l c1 c2, encode? i = some word ∧ Issues s word false v ∧ src a (begin s v word
      acc) = (x, c1) ∧ dstP d c1 = (l, c2) ∧ Clean c2) ∧
    (∃ s : State, ∃ v w d a b x y l c1 c2 c3, src a c1 = (x, c2) ∧ srcB b c2 = (y, c3) ∧ Clean (dstP d c3).2 ∧ (dstP d c3).1 = l ∧ c1 = begin s
      v (Enc.mulwI w d a b) .opiOnly ∧ Issues s (Enc.mulwI w d a b) false v) ∧
    (∃ s : State, ∃ v w d a b x y l c1 c2 c3, src a c1 = (x, c2) ∧ srcB b c2 = (y, c3) ∧ Clean (dstP d c3).2 ∧ (dstP d c3).1 = l ∧ c1 = begin s
      v (Enc.mulwN w d a b) .opiOnly ∧ Issues s (Enc.mulwN w d a b) false v) ∧
    (∃ s : State, ∃ v w d a x l c1 c2 c3, srcP a c1 = (x, c2) ∧ dstP d c2 = (l, c3) ∧ Clean c3 ∧ c1 = begin s v (Enc.fabsF64 w d a) .rndOnly ∧ Issues
      s (Enc.fabsF64 w d a) false v) ∧
    (∃ s : State, ∃ v w d a x l c1 c2 c3, srcP a c1 = (x, c2) ∧ dstP d c2 = (l, c3) ∧ Clean c3 ∧ c1 = begin s v (Enc.fnegF64 w d a) .rndOnly ∧ Issues
      s (Enc.fnegF64 w d a) false v) :=
  ⟨⟨(.addD 0 4 6 8), _, _, _, _, _, (by constructor), (base []), (th (base [])), _, _, _, _, _, _, _, rfl, iss (by decide), pairOf _, pairOf _,
      pairOf _, cl (by decide)⟩,
    ⟨(.shlD 0 4 6 8), _, _, _, _, (by constructor), (base []), (th (base [])), _, _, _, _, _, _, _, rfl, iss (by decide), pairOf _, pairOf _,
      pairOf _, cl (by decide)⟩,
    ⟨(.cvtF64F32 0 4 5), _, _, _, _, (by constructor), (base []), (th (base [])), _, _, _, _, _, rfl, iss (by decide), pairOf _, pairOf _,
      cl (by decide)⟩,
    ⟨(base []), (th (base [])), 0, 4, 5, 6, _, _, _, _, _, _, pairOf _, pairOf _, cl (by decide), rfl, rfl, iss (by decide)⟩,
    ⟨(base []), (th (base [])), 0, 4, 5, 6, _, _, _, _, _, _, pairOf _, pairOf _, cl (by decide), rfl, rfl, iss (by decide)⟩,
    ⟨(base []), (th (base [])), 0, 4, 6, _, _, _, _, _, pairOf _, pairOf _, cl (by decide), rfl, iss (by decide)⟩,
    ⟨(base []), (th (base [])), 0, 4, 6, _, _, _, _, _, pairOf _, pairOf _, cl (by decide), rfl, iss (by decide)⟩⟩

/-- States and operands that meet the premises of `CompareResults`. -/
theorem test_premises_CompareResults :
    (∃ i c a b f, Compares i c a b f ∧ ∃ s : State, ∃ v word x y c1 c2, encode? i = some word ∧ Issues s word false v ∧ src a (begin s v word .nothing)
      = (x, c1) ∧ src b c1 = (y, c2) ∧ Clean c2) ∧
    (∃ w k c a b, ∃ s : State, ∃ v x y c1 c2, Issues s (Enc.fcmpF64 w k c a b) false v ∧ srcP a (begin s v (Enc.fcmpF64 w k c a b) .nothing) = (x,
      c1) ∧ srcP b c1 = (y, c2) ∧ Clean c2) ∧
    (∃ w k c a i, ∃ s : State, ∃ v x c1, Issues s (Enc.cmpi w k c a i) false v ∧ src a (begin s v (Enc.cmpi w k c a i) .immOnly) = (x, c1) ∧ Clean
      c1) ∧
    (∃ w t c d a b, ∃ s : State, ∃ v x y l c1 c2 c3, Issues s (Enc.sel w t c d a b) false v ∧ src a (begin s v (Enc.sel w t c d a b) .nothing) = (x,
      c1) ∧ src b c1 = (y, c2) ∧ dst d c2 = (l, c3) ∧ Clean c3) :=
  ⟨⟨(.cmp 0 9 7 5 6), _, _, _, _, (by constructor), (base []), (th (base [])), _, _, _, _, _, rfl, iss (by decide), pairOf _, pairOf _, cl (by decide)⟩,
    ⟨0, 15, 7, 4, 6, (base []), (th (base [])), _, _, _, _, iss (by decide), pairOf _, pairOf _, cl (by decide)⟩,
    ⟨0, 0, 0, 5, 0, (base []), (th (base [])), _, _, iss (by decide), pairOf _, cl (by decide)⟩,
    ⟨0, 1, 7, 4, 5, 6, (base []), (th (base [])), _, _, _, _, _, _, iss (by decide), pairOf _, pairOf _, pairOf _, cl (by decide)⟩⟩

/-- States and operands that meet the premises of `RoundingResults`. -/
theorem test_premises_RoundingResults :
    (∃ i d a b f, Rounds32 i d a b f ∧ ∃ s : State, ∃ v word x y l m r c1 c2 c3 c4, encode? i = some word ∧ Issues s word false v ∧ src a (begin s v word
      { Accepts.rndOnly with opi := true }) = (x, c1) ∧ srcB b c1 = (y, c2) ∧ dst d c2 = (l, c3) ∧ Clean c3 ∧ (modeOf c3).1 = m ∧ draw m c3 = (r,
      c4)) ∧
    (∃ i d a b f, Rounds64 i d a b f ∧ ∃ s : State, ∃ v word x y l m r c1 c2 c3 c4, encode? i = some word ∧ Issues s word false v ∧ srcP a (begin s v
      word .rndOnly) = (x, c1) ∧ srcP b c1 = (y, c2) ∧ dstP d c2 = (l, c3) ∧ Clean c3 ∧ (modeOf c3).1 = m ∧ draw m c3 = (r, c4)) ∧
    (∃ i t d a b f, RoundsPk i t d a b f ∧ ∃ s : State, ∃ v word x y l m r0 r1 c1 c2 c3 c4 c5, encode? i = some word ∧ Issues s word false v ∧ src
      a (begin s v word { Accepts.rndOnly with opi := true }) = (x, c1) ∧ srcB b c1 = (y, c2) ∧ dst d c2 = (l, c3) ∧ Clean c3 ∧ (modeOf c3).1 = m ∧
      draw m c3 = (r0, c4) ∧ draw m c4 = (r1, c5)) ∧
    (∃ w d a, ∃ s : State, ∃ v x l m r c1 c2 c3, Issues s (Enc.fsqrt w d a) false v ∧ src a (begin s v (Enc.fsqrt w d a) .rndOnly) = (x, c1) ∧ dst d
      c1 = (l, c2) ∧ Clean c2 ∧ (modeOf c2).1 = m ∧ draw m c2 = (r, c3)) :=
  ⟨⟨(.fadd 0 4 5 6), _, _, _, _, (by constructor), (base []), (th (base [])), _, _, _, _, _, _, _, _, _, _, rfl, iss (by decide), pairOf _, pairOf _,
      pairOf _, cl (by decide), rfl, pairOf _⟩,
    ⟨(.fmulF64 0 4 6 8), _, _, _, _, (by constructor), (base []), (th (base [])), _, _, _, _, _, _, _, _, _, _, rfl, iss (by decide), pairOf _,
      pairOf _, pairOf _, cl (by decide), rfl, pairOf _⟩,
    ⟨(.fsubPk 0 1 4 5 6), _, _, _, _, _, (by constructor), (base []), (th (base [])), _, _, _, _, _, _, _, _, _, _, _, _, rfl, iss (by decide),
      pairOf _, pairOf _, pairOf _, cl (by decide), rfl, pairOf _, pairOf _⟩,
    ⟨0, 4, 5, (base []), (th (base [])), _, _, _, _, _, _, _, iss (by decide), pairOf _, pairOf _, cl (by decide), rfl, pairOf _⟩⟩

/-- States and operands that meet the premises of `FusedResults`. -/
theorem test_premises_FusedResults :
    (∃ s : State, ∃ v w d a b x y p m r c1 c2 c3 c4 c5, src a c1 = (x, c2) ∧ srcB b c2 = (y, c3) ∧ addend d c3 = (p, c4) ∧ Clean c4 ∧ (modeOf c4).1 = m ∧
      draw m c4 = (r, c5) ∧ c1 = begin s v (Enc.ffma w d a b) { Accepts.rndOnly with opi := true, add := true } ∧ Issues s (Enc.ffma w d a b) false
      v) ∧
    (∃ s : State, ∃ v w d a b x y p m r c1 c2 c3 c4 c5, src a c1 = (x, c2) ∧ srcB b c2 = (y, c3) ∧ addend d c3 = (p, c4) ∧ Clean c4 ∧ (modeOf c4).1 =
      m ∧ draw m c4 = (r, c5) ∧ c1 = begin s v (Enc.fnma w d a b) { Accepts.rndOnly with opi := true, add := true } ∧ Issues s (Enc.fnma w d a b)
      false v) ∧
    (∃ s : State, ∃ v w d a b x y p m r c1 c2 c3 c4 c5, srcP a c1 = (x, c2) ∧ srcP b c2 = (y, c3) ∧ addendP d c3 = (p, c4) ∧ Clean c4 ∧ (modeOf c4).1
      = m ∧ draw m c4 = (r, c5) ∧ c1 = begin s v (Enc.ffmaF64 w d a b) { Accepts.rndOnly with add := true } ∧ Issues s (Enc.ffmaF64 w d a b) false v)
      ∧
    (∃ s : State, ∃ v w d a b x y p m r c1 c2 c3 c4 c5, srcP a c1 = (x, c2) ∧ srcP b c2 = (y, c3) ∧ addendP d c3 = (p, c4) ∧ Clean c4 ∧ (modeOf c4).1
      = m ∧ draw m c4 = (r, c5) ∧ c1 = begin s v (Enc.fnmaF64 w d a b) { Accepts.rndOnly with add := true } ∧ Issues s (Enc.fnmaF64 w d a b) false v)
      ∧
    (∃ s : State, ∃ v w t d a b x y p m r0 r1 c1 c2 c3 c4 c5 c6, src a c1 = (x, c2) ∧ srcB b c2 = (y, c3) ∧ addend d c3 = (p, c4) ∧ Clean c4
      ∧ (modeOf c4).1 = m ∧ draw m c4 = (r0, c5) ∧ draw m c5 = (r1, c6) ∧ ∃ minus hi lo, hi = roundVal (pkFmt t) m r1 (fusedVal minus
      m (val (x.extractLsb' 16 16).toNat (pkFmt t)) (val (y.extractLsb' 16 16).toNat (pkFmt t)) (val (p.2.extractLsb' 16 16).toNat (pkFmt t))) ∧ lo =
      roundVal (pkFmt t) m r0 (fusedVal minus m (val (x.extractLsb' 0 16).toNat (pkFmt t)) (val (y.extractLsb' 0 16).toNat (pkFmt
      t)) (val (p.2.extractLsb' 0 16).toNat (pkFmt t))) ∧ minus = false ∧ c1 = begin s v (Enc.ffmaPk w t d a b)
      { Accepts.rndOnly with opi := true, add := true } ∧ Issues s (Enc.ffmaPk w t d a b) false v) ∧
    (∃ s : State, ∃ v w t d a b x y p m r0 r1 c1 c2 c3 c4 c5 c6, src a c1 = (x, c2) ∧ srcB b c2 = (y, c3) ∧ addend d c3 = (p, c4) ∧ Clean c4
      ∧ (modeOf c4).1 = m ∧ draw m c4 = (r0, c5) ∧ draw m c5 = (r1, c6) ∧ ∃ minus hi lo, hi = roundVal (pkFmt t) m r1 (fusedVal minus
      m (val (x.extractLsb' 16 16).toNat (pkFmt t)) (val (y.extractLsb' 16 16).toNat (pkFmt t)) (val (p.2.extractLsb' 16 16).toNat (pkFmt t))) ∧ lo =
      roundVal (pkFmt t) m r0 (fusedVal minus m (val (x.extractLsb' 0 16).toNat (pkFmt t)) (val (y.extractLsb' 0 16).toNat (pkFmt
      t)) (val (p.2.extractLsb' 0 16).toNat (pkFmt t))) ∧ minus = true ∧ c1 = begin s v (Enc.fnmaPk w t d a b)
      { Accepts.rndOnly with opi := true, add := true } ∧ Issues s (Enc.fnmaPk w t d a b) false v) :=
  ⟨⟨(base []), (th (base [])), 0, 4, 5, 6, _, _, _, _, _, _, _, _, _, _, pairOf _, pairOf _, pairOf _, cl (by decide), rfl, pairOf _, rfl,
      iss (by decide)⟩,
    ⟨(base []), (th (base [])), 0, 4, 5, 6, _, _, _, _, _, _, _, _, _, _, pairOf _, pairOf _, pairOf _, cl (by decide), rfl, pairOf _, rfl,
      iss (by decide)⟩,
    ⟨(base []), (th (base [])), 0, 4, 6, 8, _, _, _, _, _, _, _, _, _, _, pairOf _, pairOf _, pairOf _, cl (by decide), rfl, pairOf _, rfl,
      iss (by decide)⟩,
    ⟨(base []), (th (base [])), 0, 4, 6, 8, _, _, _, _, _, _, _, _, _, _, pairOf _, pairOf _, pairOf _, cl (by decide), rfl, pairOf _, rfl,
      iss (by decide)⟩,
    ⟨(base []), (th (base [])), 0, 0, 4, 5, 6, _, _, _, _, _, _, _, _, _, _, _, _, pairOf _, pairOf _, pairOf _, cl (by decide), rfl, pairOf _,
      pairOf _, _, _, _, rfl, rfl, rfl, rfl, iss (by decide)⟩,
    ⟨(base []), (th (base [])), 0, 1, 4, 5, 6, _, _, _, _, _, _, _, _, _, _, _, _, pairOf _, pairOf _, pairOf _, cl (by decide), rfl, pairOf _,
      pairOf _, _, _, _, rfl, rfl, rfl, rfl, iss (by decide)⟩⟩

/-- States and operands that meet the premises of `ConversionResults`. -/
theorem test_premises_ConversionResults :
    (∃ s : State, ∃ v w d a x l m r c1 c2 c3 c4, src a c1 = (x, c2) ∧ dst d c2 = (l, c3) ∧ Clean c3 ∧ (modeOf c3).1 = m ∧ draw m c3 = (r, c4) ∧ c1 =
      begin s v (Enc.cvtF32I32 w d a) .rndOnly ∧ Issues s (Enc.cvtF32I32 w d a) false v) ∧
    (∃ s : State, ∃ v w d a x l m r c1 c2 c3 c4, src a c1 = (x, c2) ∧ dst d c2 = (l, c3) ∧ Clean c3 ∧ (modeOf c3).1 = m ∧ draw m c3 = (r, c4) ∧ c1 =
      begin s v (Enc.cvtF32N32 w d a) .rndOnly ∧ Issues s (Enc.cvtF32N32 w d a) false v) ∧
    (∃ i d a f own, Down32 i d a f own ∧ ∃ s : State, ∃ v word x l m o r c1 c2 c3, encode? i = some word ∧ Issues s word false v ∧ src a (begin s v
      word .rndPolicy) = (x, c1) ∧ dst d c1 = (l, c2) ∧ Clean c2 ∧ (modeOf c2).1 = m ∧ (policyOf own c2).1 = o ∧ draw m c2 = (r, c3) ∧ ∃ z,
      convertDown f m r o (val x.toNat binary32) = some z) ∧
    (∃ i d a f own, Down32 i d a f own ∧ ∃ s : State, ∃ v word x l m o r c1 c2 c3, encode? i = some word ∧ Issues s word false v ∧ src a (begin s v
      word .rndPolicy) = (x, c1) ∧ dst d c1 = (l, c2) ∧ Clean c2 ∧ (modeOf c2).1 = m ∧ (policyOf own c2).1 = o ∧ draw m c2 = (r, c3) ∧ convertDown f
      m r o (val x.toNat binary32) = none ∧ v.log = [] ∧ s.deliver s.cur v = none) ∧
    (∃ i d a f own, Down64 i d a f own ∧ ∃ s : State, ∃ v word x l m o r c1 c2 c3, encode? i = some word ∧ Issues s word false v ∧ srcP a (begin s v
      word .rndPolicy) = (x, c1) ∧ dst d c1 = (l, c2) ∧ Clean c2 ∧ (modeOf c2).1 = m ∧ (policyOf own c2).1 = o ∧ draw m c2 = (r, c3) ∧ ∃ z,
      convertDown f m r o (val x.toNat binary64) = some z) ∧
    (∃ i d a f own, Down64 i d a f own ∧ ∃ s : State, ∃ v word x l m o r c1 c2 c3, encode? i = some word ∧ Issues s word false v ∧ srcP a (begin s v
      word .rndPolicy) = (x, c1) ∧ dst d c1 = (l, c2) ∧ Clean c2 ∧ (modeOf c2).1 = m ∧ (policyOf own c2).1 = o ∧ draw m c2 = (r, c3) ∧ convertDown f
      m r o (val x.toNat binary64) = none ∧ v.log = [] ∧ s.deliver s.cur v = none) ∧
    (∃ s : State, ∃ v w o k d a f j x l old m r c1 c2 c3 c4, Issues s (Enc.cvtdn w o k d a f j) false v ∧ j.toNat < 32 / (v.fmt f).container ∧ src
      a (begin s v (Enc.cvtdn w o k d a f j) .nothing) = (x, c1) ∧ dst d c1 = (l, c2) ∧ rdDst l c2 = (old, c3) ∧ Clean c3 ∧ m = (if k = 0 then 0 else
      if k = 1 then 1 else if k = 2 then 5 else v.rnd.toNat) ∧ draw m c3 = (r, c4) ∧ ∃ z, convertDown (v.fmt f) m r o.toNat (val x.toNat binary32) =
      some z) ∧
    (∃ s : State, ∃ v w o k d a f j x l old m r c1 c2 c3 c4, Issues s (Enc.cvtdn w o k d a f j) false v ∧ j.toNat < 32 / (v.fmt f).container ∧ src
      a (begin s v (Enc.cvtdn w o k d a f j) .nothing) = (x, c1) ∧ dst d c1 = (l, c2) ∧ rdDst l c2 = (old, c3) ∧ Clean c3 ∧ m = (if k = 0 then 0 else
      if k = 1 then 1 else if k = 2 then 5 else v.rnd.toNat) ∧ draw m c3 = (r, c4) ∧ convertDown (v.fmt f) m r o.toNat (val x.toNat binary32) = none
      ∧ v.log = [] ∧ s.deliver s.cur v = none) ∧
    (∃ s : State, ∃ v w d a f j x l m r c1 c2 c3, Issues s (Enc.cvtup w d a f j) false v ∧ j.toNat < 32 / (v.fmt f).container ∧ src a (begin s
      v (Enc.cvtup w d a f j) .rndOnly) = (x, c1) ∧ dst d c1 = (l, c2) ∧ Clean c2 ∧ (modeOf c2).1 = m ∧ draw m c2 = (r, c3)) :=
  ⟨⟨(base []), (th (base [])), 0, 4, 5, _, _, _, _, _, _, _, _, pairOf _, pairOf _, cl (by decide), rfl, pairOf _, rfl, iss (by decide)⟩,
    ⟨(base []), (th (base [])), 0, 4, 5, _, _, _, _, _, _, _, _, pairOf _, pairOf _, cl (by decide), rfl, pairOf _, rfl, iss (by decide)⟩,
    ⟨(.cvtI32F32 0 4 5), _, _, _, _, (by constructor), (base []), (th (base [])), _, _, _, _, _, _, _, _, _, rfl, iss (by decide), pairOf _,
      pairOf _, cl (by decide), rfl, rfl, pairOf _, _, someOf (by decide)⟩,
    ⟨(.cvtI32F32 0 4 5), _, _, _, _, (by constructor), (put (fun t => { t with hints := [.rnd 3 1 0] }) (base [0, 0, 0, 0, 0, 0x7F800000])),
      (th (put (fun t => { t with hints := [.rnd 3 1 0] }) (base [0, 0, 0, 0, 0, 0x7F800000]))), _, _, _, _, _, _, _, _, _, rfl, iss (by decide),
      pairOf _, pairOf _, cl (by decide), rfl, rfl, pairOf _, (by decide), (by decide), (by decide)⟩,
    ⟨(.cvtI32F64 0 4 6), _, _, _, _, (by constructor), (base []), (th (base [])), _, _, _, _, _, _, _, _, _, rfl, iss (by decide), pairOf _,
      pairOf _, cl (by decide), rfl, rfl, pairOf _, _, (someOf (by decide +kernel))⟩,
    ⟨(.cvtI32F64 0 4 6), _, _, _, _, (by constructor), (put (fun t => { t with hints := [.rnd 3 1 0] }) (base [0, 0, 0, 0, 0, 0, 0, 0x7FF00000])),
      (th (put (fun t => { t with hints := [.rnd 3 1 0] }) (base [0, 0, 0, 0, 0, 0, 0, 0x7FF00000]))), _, _, _, _, _, _, _, _, _, rfl,
      iss (by decide), pairOf _, pairOf _, cl (by decide), rfl, rfl, pairOf _, (by decide +kernel), (by decide), (by decide)⟩,
    ⟨(base []), (th (base [])), 0, 0, 0, 4, 5, 7, 0, _, _, _, _, _, _, _, _, _, iss (by decide), (by decide), pairOf _, pairOf _, pairOf _,
      cl (by decide), rfl, pairOf _, _, someOf (by decide)⟩,
    ⟨(base [0, 0, 0, 0, 0, 0x7F800000]), (th (base [0, 0, 0, 0, 0, 0x7F800000])), 0, 3, 0, 4, 5, 5, 0, _, _, _, _, _, _, _, _, _, iss (by decide),
      (by decide), pairOf _, pairOf _, pairOf _, cl (by decide), rfl, pairOf _, (by decide), (by decide), (by decide)⟩,
    ⟨(base []), (th (base [])), 0, 4, 5, 0, 1, _, _, _, _, _, _, _, iss (by decide), (by decide), pairOf _, pairOf _, cl (by decide), rfl, pairOf _⟩⟩

/-- States and operands that meet the premises of `MoveResults`. -/
theorem test_premises_MoveResults :
    (∃ s : State, ∃ v w d i l c1, Issues s (Enc.movi w d i) false v ∧ dst d (begin s v (Enc.movi w d i) .immOnly) = (l, c1) ∧ Clean c1) ∧
    (∃ s : State, ∃ v w d k l c1, Issues s (Enc.xget w d k) false v ∧ dst d (begin s v (Enc.xget w d k) .nothing) = (l, c1) ∧ Clean c1) ∧
    (∃ s : State, ∃ v w k b y c1, Issues s (Enc.xset w k b) false v ∧ srcB b (begin s v (Enc.xset w k b) .opiOnly) = (y, c1) ∧ Clean c1) ∧
    (∃ s : State, ∃ v w k b y c1 u z, Issues s (Enc.xadj w k b) false v ∧ srcB b (begin s v (Enc.xadj w k b) .opiOnly) = (y, c1) ∧ Clean c1 ∧
      c1.th.x.getD k.toNat 0 = u ∧ z = u.extractLsb' 24 8 ++ (u.extractLsb' 16 8 + y.extractLsb' 0 8) ++ u.extractLsb' 0 16) ∧
    (∃ s : State, ∃ v w d f l c1, Issues s (Enc.fget w d f) false v ∧ dst d (begin s v (Enc.fget w d f) .nothing) = (l, c1) ∧ Clean c1) ∧
    (∃ s : State, ∃ v w f b y c1, Issues s (Enc.fset w f b) false v ∧ srcB b (begin s v (Enc.fset w f b) .opiOnly) = (y, c1) ∧ Clean c1 ∧ fmtLegal y
      = true) ∧
    (∃ s : State, ∃ v w f b y c1, Issues s (Enc.fset w f b) false v ∧ srcB b (begin s v (Enc.fset w f b) .opiOnly) = (y, c1) ∧ Clean c1 ∧ fmtLegal y
      = false ∧ v.log = [] ∧ s.deliver s.cur v = none) ∧
    (∃ s : State, ∃ v w d g l c1, Issues s (Enc.mget w d g) false v ∧ dstP d (begin s v (Enc.mget w d g) .nothing) = (l, c1) ∧ Clean c1) ∧
    (∃ s : State, ∃ v w g b, Issues s (Enc.mset w g b) false v ∧ ∃ y c1, (HintSet.of v.hints).opi = none ∧ srcP b (begin s v (Enc.mset w g b)
      .opiOnly) = (y, c1) ∧ Clean c1) ∧
    (∃ s : State, ∃ v w g b, Issues s (Enc.mset w g b) false v ∧ ∃ p, (HintSet.of v.hints).opi = some p ∧ b = 0 ∧ Clean (begin s v (Enc.mset w g b)
      .opiOnly)) :=
  ⟨⟨(base []), (th (base [])), 0, 4, 0x3FFFF, _, _, iss (by decide), pairOf _, cl (by decide)⟩,
    ⟨(base []), (th (base [])), 0, 4, 7, _, _, iss (by decide), pairOf _, cl (by decide)⟩,
    ⟨(base []), (th (base [])), 0, 0, 6, _, _, iss (by decide), pairOf _, cl (by decide)⟩,
    ⟨(base []), (th (base [])), 0, 7, 6, _, _, _, _, iss (by decide), pairOf _, cl (by decide), rfl, rfl⟩,
    ⟨(base []), (th (base [])), 0, 4, 7, _, _, iss (by decide), pairOf _, cl (by decide)⟩,
    ⟨(base [0, 0, 0, 0, 0, 0x000A0E98]), (th (base [0, 0, 0, 0, 0, 0x000A0E98])), 0, 7, 5, _, _, iss (by decide), pairOf _, cl (by decide),
      (by decide)⟩,
    ⟨(base []), (th (base [])), 0, 7, 6, _, _, iss (by decide), pairOf _, cl (by decide), (by decide), (by decide), (by decide)⟩,
    ⟨(base []), (th (base [])), 0, 4, 7, _, _, iss (by decide), pairOf _, cl (by decide)⟩,
    ⟨(base []), (th (base [])), 0, 0, 6, iss (by decide), _, _, (by decide), pairOf _, cl (by decide)⟩,
    ⟨(put (fun t => { t with hints := [.opi 1] }) (base [])), (th (put (fun t => { t with hints := [.opi 1] }) (base []))), 0, 6, 0, iss (by decide),
      1, (by decide), (by decide), cl (by decide)⟩⟩

/-- States and operands that meet the premises of `StatusRegisterResults`. -/
theorem test_premises_StatusRegisterResults :
    (∃ s : State, ∃ v w d n l c1, Issues s (Enc.csrr w d n) false v ∧ dst d (begin s v (Enc.csrr w d n) .immOnly) = (l, c1) ∧ Clean c1 ∧ (HintSet.of
      v.hints).imms.all (fun p => decide (p = 0)) = true ∧ ∃ x t, csrValue s s.cur v n.toNat = some (x, t)) ∧
    (∃ s : State, ∃ v w d n l c1, Issues s (Enc.csrr w d n) false v ∧ dst d (begin s v (Enc.csrr w d n) .immOnly) = (l, c1) ∧ Clean c1 ∧ (HintSet.of
      v.hints).imms.all (fun p => decide (p = 0)) = true ∧ csrValue s s.cur v n.toNat = none ∧ v.log = [] ∧ s.deliver s.cur v = none) ∧
    (∃ s : State, ∃ v w a n x c1, Issues s (Enc.csrw w a n) false v ∧ src a (begin s v (Enc.csrw w a n) .immOnly) = (x, c1) ∧ Clean c1 ∧ (HintSet.of
      v.hints).imms.all (fun p => decide (p = 0)) = true ∧ ∃ t, csrWrite c1.th n.toNat x = some t ∧ n ≠ 0x016) ∧
    (∃ s : State, ∃ v w a n x c1, Issues s (Enc.csrw w a n) false v ∧ src a (begin s v (Enc.csrw w a n) .immOnly) = (x, c1) ∧ Clean c1 ∧ (HintSet.of
      v.hints).imms.all (fun p => decide (p = 0)) = true ∧ n = 0x016) ∧
    (∃ s : State, ∃ v w a n x c1, Issues s (Enc.csrw w a n) false v ∧ src a (begin s v (Enc.csrw w a n) .immOnly) = (x, c1) ∧ Clean c1 ∧ (HintSet.of
      v.hints).imms.all (fun p => decide (p = 0)) = true ∧ csrWrite c1.th n.toNat x = none ∧ v.log = [] ∧ s.deliver s.cur v = none) :=
  ⟨⟨(base []), (th (base [])), 0, 4, 0x000, _, _, iss (by decide), pairOf _, cl (by decide), (by decide), 0, (th (base [])), (by decide)⟩,
    ⟨(base []), (th (base [])), 0, 4, 0x7FF, _, _, iss (by decide), pairOf _, cl (by decide), (by decide), (by decide), (by decide), (by decide)⟩,
    ⟨(base []), (th (base [])), 0, 5, 0x001, _, _, iss (by decide), pairOf _, cl (by decide), (by decide), _, someOf (by decide), (by decide)⟩,
    ⟨(base []), (th (base [])), 0, 5, 0x016, _, _, iss (by decide), pairOf _, cl (by decide), (by decide), (by decide)⟩,
    ⟨(base []), (th (base [])), 0, 5, 0x7FF, _, _, iss (by decide), pairOf _, cl (by decide), (by decide), (by decide), (by decide), (by decide)⟩⟩

/-- States and operands that meet the premises of `HintWords`. -/
theorem test_premises_HintWords :
    ∃ s : State, ∃ u : Thread, s.thread? s.cur = some u ∧ u.wait.issues = true ∧ ∃ i : Instr, ∃ h : Hint, ((∃ p, i = .hintImm p ∧ h = .imm p) ∨ (∃ p, i =
      .hintOpi p ∧ h = .opi p) ∨ (∃ c, i = .hintScope c ∧ h = .scope c) ∨ (∃ o p r, i = .hintRnd o p r ∧ h = .rnd o p r) ∨ (∃ z b a, i = .hintCache z
      b a ∧ h = .cache z b a) ∨ (∃ e, i = .hintAdd e ∧ h = .add e)) :=
  ⟨(base []), (th (base [])), (by decide), (by decide), (.hintAdd 9), (.add 9), by simp⟩

/-- States and operands that meet the premises of `StreamInstructions`. -/
theorem test_premises_StreamInstructions :
    (∃ s : State, ∃ v w q a n c1, Issues s (Enc.sdef w q a) false v ∧ block a 8 8 (begin s v (Enc.sdef w q a) .immOnly) = (n, c1) ∧ (HintSet.of
      v.hints).imms.all (fun p => decide (p = 0)) = true ∧ Clean c1 ∧ descBad (fun i => c1.th.reg (n + i)) = false ∧ s.undrained s.cur c1.th q.toNat
      = false) ∧
    (∃ s : State, ∃ v w q a n c1, Issues s (Enc.sdef w q a) false v ∧ block a 8 8 (begin s v (Enc.sdef w q a) .immOnly) = (n, c1) ∧ (HintSet.of
      v.hints).imms.all (fun p => decide (p = 0)) = true ∧ Clean c1 ∧ descBad (fun i => c1.th.reg (n + i)) = true ∧ v.log = [] ∧ s.deliver s.cur v =
      none) ∧
    (∃ s : State, ∃ v w q, Issues s (Enc.sstop w q) false v ∧ Clean (begin s v (Enc.sstop w q) .immOnly) ∧ (HintSet.of v.hints).imms.all (fun p =>
      decide (p = 0)) = true ∧ s.undrained s.cur v q.toNat = false) ∧
    (∃ s : State, ∃ v w q, Issues s (Enc.sstop w q) false v ∧ Clean (begin s v (Enc.sstop w q) .immOnly) ∧ (HintSet.of v.hints).imms.all (fun p =>
      decide (p = 0)) = true ∧ s.undrained s.cur v q.toNat = true) ∧
    (∃ s : State, ∃ v w q k t f, Issues s (Enc.bstr w q k t f) false v ∧ Clean (begin s v (Enc.bstr w q k t f) .nothing) ∧ ∃ m, v.stream q.toNat =
      some m ∧ (m.flags.getLsbD k.toNat = decide (t = 1) → (direct v f).extractLsb' 48 16 = 0)) ∧
    (∃ s : State, ∃ v w q k t f, Issues s (Enc.bstr w q k t f) false v ∧ Clean (begin s v (Enc.bstr w q k t f) .nothing) ∧ ∃ m, v.stream q.toNat =
      some m ∧ m.flags.getLsbD k.toNat = decide (t = 1) ∧ (direct v f).extractLsb' 48 16 ≠ 0 ∧ v.log = [] ∧ s.deliver s.cur v = none) ∧
    (∃ s : State, ∃ v w q k t f, Issues s (Enc.bstr w q k t f) false v ∧ Clean (begin s v (Enc.bstr w q k t f) .nothing) ∧ v.stream q.toNat = none ∧
      v.log = [] ∧ s.deliver s.cur v = none) :=
  ⟨⟨strm, (th strm), 0, 0, 0, _, _, iss (by decide), pairOf _, (by decide), cl (by decide), (by decide), (by decide)⟩,
    ⟨(base [0, 0, 0xFFFFFFFF]), (th (base [0, 0, 0xFFFFFFFF])), 0, 3, 0, _, _, iss (by decide), pairOf _, (by decide), cl (by decide), (by decide),
      (by decide), (by decide)⟩,
    ⟨(base []), (th (base [])), 0, 0, iss (by decide), cl (by decide), (by decide), (by decide)⟩,
    ⟨(put (fun t => { t with q := [none, some wq, none, none] }) (base [])),
      (th (put (fun t => { t with q := [none, some wq, none, none] }) (base []))), 0, 1, iss (by decide), cl (by decide), (by decide), (by decide)⟩,
    ⟨(put (fun t => { t with q := [none, some wq, none, none] }) (base [])),
      (th (put (fun t => { t with q := [none, some wq, none, none] }) (base []))), 0, 1, 3, 1, 0, iss (by decide), cl (by decide), wq, (by decide),
      (by decide)⟩,
    ⟨(put (fun t => { t with pc := 0, q := [none, some wq, none, none] }) (base [])),
      (th (put (fun t => { t with pc := 0, q := [none, some wq, none, none] }) (base []))), 0, 1, 0, 0, -1, iss (by decide), cl (by decide), wq,
      (by decide), (by decide), (by decide), (by decide), (by decide)⟩,
    ⟨(base []), (th (base [])), 0, 0, 0, 0, 0, iss (by decide), cl (by decide), (by decide), (by decide), (by decide)⟩⟩

/-- States and operands that meet the premises of `Branches`. -/
theorem test_premises_Branches :
    (∃ s : State, ∃ v w t c f, Issues s (Enc.br w t c f) false v ∧ Clean (begin s v (Enc.br w t c f) .nothing) ∧ v.cond c = decide (t = 0)) ∧
    (∃ s : State, ∃ v w t c f, Issues s (Enc.br w t c f) false v ∧ Clean (begin s v (Enc.br w t c f) .nothing) ∧ v.cond c = decide (t = 1) ∧ (direct
      v f).extractLsb' 48 16 = 0) ∧
    (∃ s : State, ∃ v w t c f, Issues s (Enc.br w t c f) false v ∧ Clean (begin s v (Enc.br w t c f) .nothing) ∧ v.cond c = decide (t = 1) ∧ (direct
      v f).extractLsb' 48 16 ≠ 0 ∧ v.log = [] ∧ s.deliver s.cur v = none) ∧
    (∃ s : State, ∃ v w f, Issues s (Enc.jmp w f) false v ∧ Clean (begin s v (Enc.jmp w f) .nothing) ∧ (direct v f).extractLsb' 48 16 = 0) ∧
    (∃ s : State, ∃ v w f, Issues s (Enc.jmp w f) false v ∧ Clean (begin s v (Enc.jmp w f) .nothing) ∧ (direct v f).extractLsb' 48 16 ≠ 0 ∧ v.log =
      [] ∧ s.deliver s.cur v = none) ∧
    (∃ s : State, ∃ v w d f l c1, Issues s (Enc.call w d f) false v ∧ dstP d (begin s v (Enc.call w d f) .nothing) = (l, c1) ∧ Clean c1 ∧ ∃
      c2, (direct v f).extractLsb' 48 16 = 0 ∧ (wrp l ((v.pc + 4).setWidth 64) c1).2 = c2) ∧
    (∃ s : State, ∃ v w d f l c1, Issues s (Enc.call w d f) false v ∧ dstP d (begin s v (Enc.call w d f) .nothing) = (l, c1) ∧ Clean c1 ∧ (direct v
      f).extractLsb' 48 16 ≠ 0 ∧ v.log = [] ∧ s.deliver s.cur v = none) ∧
    (∃ s : State, ∃ v w a x c1 c2, srcP a c1 = (x, c2) ∧ Clean c2 ∧ c1 = begin s v (Enc.brx w a) .nothing ∧ Issues s (Enc.brx w a) false v ∧
      x.extractLsb' 48 16 = 0) ∧
    (∃ s : State, ∃ v w a x c1 c2, srcP a c1 = (x, c2) ∧ Clean c2 ∧ c1 = begin s v (Enc.ret w a) .nothing ∧ Issues s (Enc.ret w a) false v ∧
      x.extractLsb' 48 16 = 0) ∧
    (∃ s : State, ∃ v w a x c1 c2, srcP a c1 = (x, c2) ∧ Clean c2 ∧ x.extractLsb' 48 16 ≠ 0 ∧ v.log = [] ∧ s.deliver s.cur v = none ∧ c1 = begin s
      v (Enc.brx w a) .nothing ∧ Issues s (Enc.brx w a) false v) ∧
    (∃ s : State, ∃ v w a x c1 c2, srcP a c1 = (x, c2) ∧ Clean c2 ∧ x.extractLsb' 48 16 ≠ 0 ∧ v.log = [] ∧ s.deliver s.cur v = none ∧ c1 = begin s
      v (Enc.ret w a) .nothing ∧ Issues s (Enc.ret w a) false v) ∧
    (∃ s : State, ∃ v w d a x l c1 c2, Issues s (Enc.callx w d a) false v ∧ srcP a (begin s v (Enc.callx w d a) .nothing) = (x, c1) ∧ dstP d c1 = (l,
      c2) ∧ Clean c2 ∧ ∃ c3, x.extractLsb' 48 16 = 0 ∧ (wrp l ((v.pc + 4).setWidth 64) c2).2 = c3) ∧
    (∃ s : State, ∃ v w d a x l c1 c2, Issues s (Enc.callx w d a) false v ∧ srcP a (begin s v (Enc.callx w d a) .nothing) = (x, c1) ∧ dstP d c1 = (l,
      c2) ∧ Clean c2 ∧ x.extractLsb' 48 16 ≠ 0 ∧ v.log = [] ∧ s.deliver s.cur v = none) :=
  ⟨⟨(base []), (th (base [])), 0, 0, 7, 0x3FFFF, iss (by decide), cl (by decide), (by decide)⟩,
    ⟨(base []), (th (base [])), 0, 1, 7, 1, iss (by decide), cl (by decide), (by decide), (by decide)⟩,
    ⟨(put (fun t => { t with pc := 0 }) (base [])), (th (put (fun t => { t with pc := 0 }) (base []))), 0, 1, 7, -1, iss (by decide), cl (by decide),
      (by decide), (by decide), (by decide), (by decide)⟩,
    ⟨(base []), (th (base [])), 0, 1, iss (by decide), cl (by decide), (by decide)⟩,
    ⟨(put (fun t => { t with pc := 0 }) (base [])), (th (put (fun t => { t with pc := 0 }) (base []))), 0, -1, iss (by decide), cl (by decide),
      (by decide), (by decide), (by decide)⟩,
    ⟨(base []), (th (base [])), 0, 4, 1, _, _, iss (by decide), pairOf _, cl (by decide), _, (by decide), rfl⟩,
    ⟨(put (fun t => { t with pc := 0 }) (base [])), (th (put (fun t => { t with pc := 0 }) (base []))), 0, 4, -1, _, _, iss (by decide), pairOf _,
      cl (by decide), (by decide), (by decide), (by decide)⟩,
    ⟨(base []), (th (base [])), 0, 4, _, _, _, pairOf _, cl (by decide), rfl, iss (by decide), (by decide)⟩,
    ⟨(base []), (th (base [])), 0, 4, _, _, _, pairOf _, cl (by decide), rfl, iss (by decide), (by decide)⟩,
    ⟨(base [0,0,0,0,0,0x00010000]), (th (base [0,0,0,0,0,0x00010000])), 0, 4, _, _, _, pairOf _, cl (by decide), (by decide), (by decide),
      (by decide), rfl, iss (by decide)⟩,
    ⟨(base [0,0,0,0,0,0x80000000]), (th (base [0,0,0,0,0,0x80000000])), 0, 4, _, _, _, pairOf _, cl (by decide), (by decide), (by decide),
      (by decide), rfl, iss (by decide)⟩,
    ⟨(base []), (th (base [])), 0, 8, 6, _, _, _, _, iss (by decide), pairOf _, pairOf _, cl (by decide), _, (by decide), rfl⟩,
    ⟨(base [0,0,0,0,0,0,0,0x00010000]), (th (base [0,0,0,0,0,0,0,0x00010000])), 0, 8, 6, _, _, _, _, iss (by decide), pairOf _, pairOf _,
      cl (by decide), (by decide), (by decide), (by decide)⟩⟩

/-- States and operands that meet the premises of `ThreadControl`. -/
theorem test_premises_ThreadControl :
    (∃ s : State, ∃ v w, Issues s (Enc.nop w) false v ∧ Clean (begin s v (Enc.nop w) .nothing)) ∧
    (∃ s : State, ∃ v w, Issues s (Enc.yield w) false v ∧ Clean (begin s v (Enc.yield w) .nothing)) ∧
    (∃ s : State, ∃ v w n, Issues s (Enc.park w n) true v ∧ Clean (begin s v (Enc.park w n) .immOnly) ∧ (HintSet.of v.hints).immU n.toNat 16 = 0) ∧
    (∃ s : State, ∃ v w n, Issues s (Enc.park w n) true v ∧ Clean (begin s v (Enc.park w n) .immOnly) ∧ (HintSet.of v.hints).immU n.toNat 16 ≠ 0) ∧
    (∃ s : State, ∃ v w n, Issues s (Enc.brk w n) false v ∧ Clean (begin s v (Enc.brk w n) .nothing) ∧ v.log = [] ∧ s.catching s.cur = false ∧
      s.deliver s.cur v = none) ∧
    (∃ s : State, ∃ v w n, Issues s (Enc.brk w n) false v ∧ Clean (begin s v (Enc.brk w n) .nothing) ∧ v.log = [] ∧ s.catching s.cur = true ∧ ∃
      r, (s.setThread s.cur { v with wait := .run }).modGroup s.cur.group (fun g => { g with halted := true }) = r) :=
  ⟨⟨(base []), (th (base [])), 0, iss (by decide), cl (by decide)⟩,
    ⟨(base []), (th (base [])), 0, iss (by decide), cl (by decide)⟩,
    ⟨(base []), (cm (base [])), 0, 0, iss (by decide), cl (by decide), (by decide)⟩,
    ⟨(base []), (cm (base [])), 0, 0xFFFF, iss (by decide), cl (by decide), (by decide)⟩,
    ⟨(base []), (th (base [])), 0, 1, iss (by decide), cl (by decide), (by decide), (by decide), (by decide)⟩,
    ⟨((base []).modGroup ⟨0, 0, 0⟩ (fun g => { g with catching := true })), (th ((base []).modGroup ⟨0, 0,
      0⟩ (fun g => { g with catching := true }))), 0, 1, iss (by decide), cl (by decide), (by decide), (by decide), _, rfl⟩⟩

/-- States and operands that meet the premises of `LaneArrival`. -/
theorem test_premises_LaneArrival :
    (∃ s : State, ∃ v i acc sw m op c word, Arrives s v i acc sw m op c ∧ encode? i = some word ∧ Issues s word sw v ∧ Clean c ∧ (s.maskReg s.cur v
      m).getLsbD s.cur.mem = true) ∧
    (∃ s : State, ∃ v i acc sw m op c word, Arrives s v i acc sw m op c ∧ encode? i = some word ∧ Issues s word sw v ∧ Clean c ∧ (s.maskReg s.cur v
      m).getLsbD s.cur.mem = false ∧ v.log = [] ∧ s.deliver s.cur v = none) :=
  ⟨⟨(base []), (th (base [])), (.pickK 0 7 4 5 3), _, _, 7, _, _, (Enc.pickK 0 7 4 5 3), (Arrives.pickK _ _ _ _ _ _ _ _ _ (pairOf _) (pairOf _)), rfl,
      iss (by decide), cl (by decide), (by decide)⟩,
    ⟨(base []), (th (base [])), (.census 0 0 6 9), _, _, 0, _, _, (Enc.census 0 0 6 9), (Arrives.census _ _ _ _), rfl, iss (by decide),
      cl (by decide), (by decide), (by decide), (by decide)⟩⟩

/-- States and operands that meet the premises of `LaneCompletion`. -/
theorem test_premises_LaneCompletion :
    ∃ s : State, ∃ v i acc sw m op c word g ps p t, Arrives s v i acc sw m op c ∧ encode? i = some word ∧ Issues s word sw v ∧ Clean c ∧ (s.maskReg s.cur
      v m).getLsbD s.cur.mem = true ∧ s.group? s.cur.group = some g ∧ g.halted = false ∧ g.fault = none ∧ p = (atLanes s v c op (s.maskReg s.cur v
      m)).laneLand s.cur.group ∧ p.laneReady s.cur.group s.cur.mem = some ps ∧ (∀ j qs, p.laneReady s.cur.group j = some qs → qs = ps) ∧ t =
      p.laneExecute s.cur.group ps ∧ (∀ j, t.laneReady s.cur.group j = none) ∧ t.laneDeadlock s.cur.group = false :=
  ⟨(base []), (cm (base [])), (.fenceGrp 0 7), .nothing, true, 7, .fenceGrp, _, (Enc.fenceGrp 0 7), _, [0],
      ((atLanes (base []) (cm (base [])) (begin (base []) (cm (base [])) (Enc.fenceGrp 0 7) .nothing) .fenceGrp 1).laneLand ⟨0, 0, 0⟩), _,
      (Arrives.fenceGrp _ _), rfl, iss (by decide), cl (by decide), (by decide), rfl, (by decide), (by decide), rfl, rfl, one _ (fun k => rfl), rfl,
      each (by decide) (fun k => rfl), (by decide)⟩

/-- States and operands that meet the premises of `LaneResults`. -/
theorem test_premises_LaneResults :
    (∃ s : State, ∃ g : GroupId, ∃ ps : List Nat, ps.Nodup ∧ (∀ j ∈ ps, ∀ u, s.thread? (memberOf g j) = some u → u.stepping = false ∧
      s.staysPut (memberOf g j) u = false) ∧ ∃ i ∈ ps, ∃ t, s.thread? (memberOf g i) = some t ∧ ∃ r, (s.laneExecute g ps).thread? (memberOf g i) =
      some r ∧ ∃ d a n u, s.laneOp g i = .pickK d a n ∧ n ∈ ps ∧ s.thread? (memberOf g n) = some u) ∧
    (∃ s : State, ∃ g : GroupId, ∃ ps : List Nat, ps.Nodup ∧ (∀ j ∈ ps, ∀ u, s.thread? (memberOf g j) = some u → u.stepping = false ∧
      s.staysPut (memberOf g j) u = false) ∧ ∃ i ∈ ps, ∃ t, s.thread? (memberOf g i) = some t ∧ ∃ r, (s.laneExecute g ps).thread? (memberOf g i) =
      some r ∧ ∃ d a n, s.laneOp g i = .pickK d a n ∧ n ∉ ps) ∧
    (∃ s : State, ∃ g : GroupId, ∃ ps : List Nat, ps.Nodup ∧ (∀ j ∈ ps, ∀ u, s.thread? (memberOf g j) = some u → u.stepping = false ∧
      s.staysPut (memberOf g j) u = false) ∧ ∃ i ∈ ps, ∃ t, s.thread? (memberOf g i) = some t ∧ ∃ r, (s.laneExecute g ps).thread? (memberOf g i) =
      some r ∧ ∃ d a k, s.laneOp g i = .pickR d a k ∧ (t.reg k).toNat ∉ ps) ∧
    (∃ s : State, ∃ g : GroupId, ∃ ps : List Nat, ps.Nodup ∧ (∀ j ∈ ps, ∀ u, s.thread? (memberOf g j) = some u → u.stepping = false ∧
      s.staysPut (memberOf g j) u = false) ∧ ∃ i ∈ ps, ∃ t, s.thread? (memberOf g i) = some t ∧ ∃ r, (s.laneExecute g ps).thread? (memberOf g i) =
      some r ∧ ∃ d a n, s.laneOp g i = .pickXor d a n ∧ i ^^^ n ∉ ps) ∧
    (∃ s : State, ∃ g : GroupId, ∃ ps : List Nat, ps.Nodup ∧ (∀ j ∈ ps, ∀ u, s.thread? (memberOf g j) = some u → u.stepping = false ∧
      s.staysPut (memberOf g j) u = false) ∧ ∃ i ∈ ps, ∃ t, s.thread? (memberOf g i) = some t ∧ ∃ r, (s.laneExecute g ps).thread? (memberOf g i) =
      some r ∧ ∃ d a n, s.laneOp g i = .pickAdd d a n ∧ (i + n) % s.gwidth g ∉ ps) ∧
    (∃ s : State, ∃ g : GroupId, ∃ ps : List Nat, ps.Nodup ∧ (∀ j ∈ ps, ∀ u, s.thread? (memberOf g j) = some u → u.stepping = false ∧
      s.staysPut (memberOf g j) u = false) ∧ ∃ i ∈ ps, ∃ t, s.thread? (memberOf g i) = some t ∧ ∃ r, (s.laneExecute g ps).thread? (memberOf g i) =
      some r ∧ ∃ d a n, ∃ j : Nat, s.laneOp g i = .pickSub d a n ∧ ((j : Nat) : Int) = ((i : Int) - n) % (s.gwidth g : Int) ∧ j ∉ ps) ∧
    (∃ s : State, ∃ g : GroupId, ∃ ps : List Nat, ps.Nodup ∧ (∀ j ∈ ps, ∀ u, s.thread? (memberOf g j) = some u → u.stepping = false ∧
      s.staysPut (memberOf g j) u = false) ∧ ∃ i ∈ ps, ∃ t, s.thread? (memberOf g i) = some t ∧ ∃ r, (s.laneExecute g ps).thread? (memberOf g i) =
      some r ∧ ∃ d a k u, s.laneOp g i = .pickR d a k ∧ (t.reg k).toNat ∈ ps ∧ s.thread? (memberOf g (t.reg k).toNat) = some u) ∧
    (∃ s : State, ∃ g : GroupId, ∃ ps : List Nat, ps.Nodup ∧ (∀ j ∈ ps, ∀ u, s.thread? (memberOf g j) = some u → u.stepping = false ∧
      s.staysPut (memberOf g j) u = false) ∧ ∃ i ∈ ps, ∃ t, s.thread? (memberOf g i) = some t ∧ ∃ r, (s.laneExecute g ps).thread? (memberOf g i) =
      some r ∧ ∃ d a n u, s.laneOp g i = .pickXor d a n ∧ i ^^^ n ∈ ps ∧ s.thread? (memberOf g (i ^^^ n)) = some u) ∧
    (∃ s : State, ∃ g : GroupId, ∃ ps : List Nat, ps.Nodup ∧ (∀ j ∈ ps, ∀ u, s.thread? (memberOf g j) = some u → u.stepping = false ∧
      s.staysPut (memberOf g j) u = false) ∧ ∃ i ∈ ps, ∃ t, s.thread? (memberOf g i) = some t ∧ ∃ r, (s.laneExecute g ps).thread? (memberOf g i) =
      some r ∧ ∃ d a n u, s.laneOp g i = .pickAdd d a n ∧ (i + n) % s.gwidth g ∈ ps ∧ s.thread? (memberOf g ((i + n) % s.gwidth g)) = some u) ∧
    (∃ s : State, ∃ g : GroupId, ∃ ps : List Nat, ps.Nodup ∧ (∀ j ∈ ps, ∀ u, s.thread? (memberOf g j) = some u → u.stepping = false ∧
      s.staysPut (memberOf g j) u = false) ∧ ∃ i ∈ ps, ∃ t, s.thread? (memberOf g i) = some t ∧ ∃ r, (s.laneExecute g ps).thread? (memberOf g i) =
      some r ∧ ∃ d a n u, ∃ j : Nat, s.laneOp g i = .pickSub d a n ∧ ((j : Nat) : Int) = ((i : Int) - n) % (s.gwidth g : Int) ∧ j ∈ ps ∧
      s.thread? (memberOf g j) = some u) ∧
    (∃ s : State, ∃ g : GroupId, ∃ ps : List Nat, ps.Nodup ∧ (∀ j ∈ ps, ∀ u, s.thread? (memberOf g j) = some u → u.stepping = false ∧
      s.staysPut (memberOf g j) u = false) ∧ ∃ i ∈ ps, ∃ t, s.thread? (memberOf g i) = some t ∧ ∃ r, (s.laneExecute g ps).thread? (memberOf g i) =
      some r ∧ s.laneOp g i ≠ .fenceGrp) ∧
    (∃ s : State, ∃ g : GroupId, ∃ ps : List Nat, ps.Nodup ∧ (∀ j ∈ ps, ∀ u, s.thread? (memberOf g j) = some u → u.stepping = false ∧
      s.staysPut (memberOf g j) u = false) ∧ ∃ i ∈ ps, ∃ t, s.thread? (memberOf g i) = some t ∧ ∃ r, (s.laneExecute g ps).thread? (memberOf g i) =
      some r ∧ s.laneOp g i = .fenceGrp ∧ ∃ u v, u = { t with view := t.view.join (s.laneView g ps) } ∧ v = s.fenceView (memberOf g i) u .grp) :=
  ⟨⟨(xl (.pickK 4 5 0)), ⟨0, 0, 0⟩, [0], (by decide), only (its rfl ⟨by decide, (by decide)⟩), 0, (by decide), (th (xl (.pickK 4 5 0))), (by decide),
      (th (State.laneExecute (xl (.pickK 4 5 0)) ⟨0, 0, 0⟩ [0])), (by decide), 4, 5, 0, (th (xl (.pickK 4 5 0))), (by decide), (by decide),
      (by decide)⟩,
    ⟨(xl (.pickK 4 5 7)), ⟨0, 0, 0⟩, [0], (by decide), only (its rfl ⟨by decide, (by decide)⟩), 0, (by decide), (th (xl (.pickK 4 5 7))),
      (by decide), (th (State.laneExecute (xl (.pickK 4 5 7)) ⟨0, 0, 0⟩ [0])), (by decide), 4, 5, 7, (by decide), (by decide)⟩,
    ⟨(put (fun t => { t with wait := .xlane (.pickR 4 5 6) 1 t.x }) (base [0, 0, 0, 0, 0, 0, 1])), ⟨0, 0, 0⟩, [0], (by decide),
      only (its rfl ⟨by decide, (by decide)⟩), 0, (by decide), (th (put (fun t => { t with wait := .xlane (.pickR 4 5 6) 1 t.x }) (base [0, 0, 0, 0,
      0, 0, 1]))), (by decide), (th (State.laneExecute (put (fun t => { t with wait := .xlane (.pickR 4 5 6) 1 t.x }) (base [0, 0, 0, 0, 0, 0,
      1])) ⟨0, 0, 0⟩ [0])), (by decide), 4, 5, 6, (by decide), (by decide)⟩,
    ⟨(xl (.pickXor 4 5 1)), ⟨0, 0, 0⟩, [0], (by decide), only (its rfl ⟨by decide, (by decide)⟩), 0, (by decide), (th (xl (.pickXor 4 5 1))),
      (by decide), (th (State.laneExecute (xl (.pickXor 4 5 1)) ⟨0, 0, 0⟩ [0])), (by decide), 4, 5, 1, (by decide), (by decide)⟩,
    ⟨(xl (.pickAdd 4 5 1)), ⟨0, 0, 0⟩, [0], (by decide), only (its rfl ⟨by decide, (by decide)⟩), 0, (by decide), (th (xl (.pickAdd 4 5 1))),
      (by decide), (th (State.laneExecute (xl (.pickAdd 4 5 1)) ⟨0, 0, 0⟩ [0])), (by decide), 4, 5, 1, (by decide), (by decide)⟩,
    ⟨(xl (.pickSub 4 5 1)), ⟨0, 0, 0⟩, [0], (by decide), only (its rfl ⟨by decide, (by decide)⟩), 0, (by decide), (th (xl (.pickSub 4 5 1))),
      (by decide), (th (State.laneExecute (xl (.pickSub 4 5 1)) ⟨0, 0, 0⟩ [0])), (by decide), 4, 5, 1, 7, (by decide), (by decide), (by decide)⟩,
    ⟨(xl (.pickR 4 5 6)), ⟨0, 0, 0⟩, [0], (by decide), only (its rfl ⟨by decide, (by decide)⟩), 0, (by decide), (th (xl (.pickR 4 5 6))),
      (by decide), (th (State.laneExecute (xl (.pickR 4 5 6)) ⟨0, 0, 0⟩ [0])), (by decide), 4, 5, 6, (th (xl (.pickR 4 5 6))), (by decide),
      (by decide), (by decide)⟩,
    ⟨(xl (.pickXor 4 5 0)), ⟨0, 0, 0⟩, [0], (by decide), only (its rfl ⟨by decide, (by decide)⟩), 0, (by decide), (th (xl (.pickXor 4 5 0))),
      (by decide), (th (State.laneExecute (xl (.pickXor 4 5 0)) ⟨0, 0, 0⟩ [0])), (by decide), 4, 5, 0, (th (xl (.pickXor 4 5 0))), (by decide),
      (by decide), (by decide)⟩,
    ⟨(xl (.pickAdd 4 5 8)), ⟨0, 0, 0⟩, [0], (by decide), only (its rfl ⟨by decide, (by decide)⟩), 0, (by decide), (th (xl (.pickAdd 4 5 8))),
      (by decide), (th (State.laneExecute (xl (.pickAdd 4 5 8)) ⟨0, 0, 0⟩ [0])), (by decide), 4, 5, 8, (th (xl (.pickAdd 4 5 8))), (by decide),
      (by decide), (by decide)⟩,
    ⟨(xl (.pickSub 4 5 8)), ⟨0, 0, 0⟩, [0], (by decide), only (its rfl ⟨by decide, (by decide)⟩), 0, (by decide), (th (xl (.pickSub 4 5 8))),
      (by decide), (th (State.laneExecute (xl (.pickSub 4 5 8)) ⟨0, 0, 0⟩ [0])), (by decide), 4, 5, 8, (th (xl (.pickSub 4 5 8))), 0, (by decide),
      (by decide), (by decide), (by decide)⟩,
    ⟨(xl (.pickK 4 5 0)), ⟨0, 0, 0⟩, [0], (by decide), only (its rfl ⟨by decide, (by decide)⟩), 0, (by decide), (th (xl (.pickK 4 5 0))),
      (by decide), (th (State.laneExecute (xl (.pickK 4 5 0)) ⟨0, 0, 0⟩ [0])), (by decide), (by decide)⟩,
    ⟨(xl (.fenceGrp)), ⟨0, 0, 0⟩, [0], (by decide), only (its rfl ⟨by decide, (by decide)⟩), 0, (by decide), (th (xl (.fenceGrp))), (by decide),
      (th (State.laneExecute (xl (.fenceGrp)) ⟨0, 0, 0⟩ [0])), (by decide), (by decide), (th (xl (.fenceGrp))), _, (by decide), rfl⟩⟩

/-- States and operands that meet the premises of `LaneVotes`. -/
theorem test_premises_LaneVotes :
    (∃ s : State, ∃ g : GroupId, ∃ ps : List Nat, ∃ ops : Nat → XOp, ∃ i : Nat, ∃ vote : Nat → Bool, (∀ j ∈ ps, ∃ u, s.thread? (memberOf g j) = some u ∧
      vote j = (u.cond ((ops j).predicate.extractLsb' 0 3) != (ops j).predicate.getLsbD 3)) ∧ ∃ r p, ops i = .census r p) ∧
    (∃ s : State, ∃ g : GroupId, ∃ ps : List Nat, ∃ ops : Nat → XOp, ∃ i : Nat, ∃ vote : Nat → Bool, (∀ j ∈ ps, ∃ u, s.thread? (memberOf g j) = some
      u ∧ vote j = (u.cond ((ops j).predicate.extractLsb' 0 3) != (ops j).predicate.getLsbD 3)) ∧ ∃ r c p, ops i = .agreeAll false r c p) ∧
    (∃ s : State, ∃ g : GroupId, ∃ ps : List Nat, ∃ ops : Nat → XOp, ∃ i : Nat, ∃ vote : Nat → Bool, (∀ j ∈ ps, ∃ u, s.thread? (memberOf g j) = some
      u ∧ vote j = (u.cond ((ops j).predicate.extractLsb' 0 3) != (ops j).predicate.getLsbD 3)) ∧ ∃ r c p, ops i = .agreeAny false r c p) ∧
    (∃ s : State, ∃ g : GroupId, ∃ ps : List Nat, ∃ ops : Nat → XOp, ∃ i : Nat, ∃ vote : Nat → Bool, (∀ j ∈ ps, ∃ u, s.thread? (memberOf g j) = some
      u ∧ vote j = (u.cond ((ops j).predicate.extractLsb' 0 3) != (ops j).predicate.getLsbD 3)) ∧ ∃ r c p, ops i = .agreeSame false r c p) ∧
    (∃ s : State, ∃ g : GroupId, ∃ ps : List Nat, ∃ ops : Nat → XOp, ∃ i : Nat, ∃ vote : Nat → Bool, (∀ j ∈ ps, ∃ u, s.thread? (memberOf g j) = some
      u ∧ vote j = (u.cond ((ops j).predicate.extractLsb' 0 3) != (ops j).predicate.getLsbD 3)) ∧ ∃ r c p, ops i = .agreeAll true r c p) ∧
    (∃ s : State, ∃ g : GroupId, ∃ ps : List Nat, ∃ ops : Nat → XOp, ∃ i : Nat, ∃ vote : Nat → Bool, (∀ j ∈ ps, ∃ u, s.thread? (memberOf g j) = some
      u ∧ vote j = (u.cond ((ops j).predicate.extractLsb' 0 3) != (ops j).predicate.getLsbD 3)) ∧ ∃ r c p, ops i = .agreeAny true r c p) ∧
    (∃ s : State, ∃ g : GroupId, ∃ ps : List Nat, ∃ ops : Nat → XOp, ∃ i : Nat, ∃ vote : Nat → Bool, (∀ j ∈ ps, ∃ u, s.thread? (memberOf g j) = some
      u ∧ vote j = (u.cond ((ops j).predicate.extractLsb' 0 3) != (ops j).predicate.getLsbD 3)) ∧ ∃ r c p, ops i = .agreeSame true r c p) :=
  ⟨⟨(base []), ⟨0, 0, 0⟩, [0], (fun _ => .census 6 0), 0, (fun _ => false), only ⟨th (base []), (by decide), (by decide)⟩, _, _, rfl⟩,
    ⟨(base []), ⟨0, 0, 0⟩, [0], (fun _ => .agreeAll false 0 7 0), 0, (fun _ => false), only ⟨th (base []), (by decide), (by decide)⟩, _, _, _, rfl⟩,
    ⟨(base []), ⟨0, 0, 0⟩, [0], (fun _ => .agreeAny false 0 7 0), 0, (fun _ => false), only ⟨th (base []), (by decide), (by decide)⟩, _, _, _, rfl⟩,
    ⟨(base []), ⟨0, 0, 0⟩, [0], (fun _ => .agreeSame false 0 7 0), 0, (fun _ => false), only ⟨th (base []), (by decide), (by decide)⟩, _, _, _, rfl⟩,
    ⟨(base []), ⟨0, 0, 0⟩, [0], (fun _ => .agreeAll true 6 7 0), 0, (fun _ => false), only ⟨th (base []), (by decide), (by decide)⟩, _, _, _, rfl⟩,
    ⟨(base []), ⟨0, 0, 0⟩, [0], (fun _ => .agreeAny true 6 7 0), 0, (fun _ => false), only ⟨th (base []), (by decide), (by decide)⟩, _, _, _, rfl⟩,
    ⟨(base []), ⟨0, 0, 0⟩, [0], (fun _ => .agreeSame true 6 7 0), 0, (fun _ => false), only ⟨th (base []), (by decide), (by decide)⟩, _, _, _, rfl⟩⟩

/-- States and operands that meet the premises of `LaneReductions`. -/
theorem test_premises_LaneReductions :
    (∃ s : State, ∃ g : GroupId, ∃ ps : List Nat, ∃ ops : Nat → XOp, ∃ i : Nat, ∃ value : Nat → Word, i ∈ ps ∧ (∀ j ∈ ps, ∃ u, s.thread? (memberOf g j) =
      some u ∧ value j = u.reg (ops j).source) ∧ ∃ d a k, ops i = .combAdd d a k ∧ k ≠ 1) ∧
    (∃ s : State, ∃ g : GroupId, ∃ ps : List Nat, ∃ ops : Nat → XOp, ∃ i : Nat, ∃ value : Nat → Word, i ∈ ps ∧ (∀ j ∈ ps, ∃ u, s.thread? (memberOf g
      j) = some u ∧ value j = u.reg (ops j).source) ∧ ∃ d a k, ops i = .scanAdd d a k ∧ k ≠ 1) ∧
    (∃ s : State, ∃ g : GroupId, ∃ ps : List Nat, ∃ ops : Nat → XOp, ∃ i : Nat, ∃ value : Nat → Word, i ∈ ps ∧ (∀ j ∈ ps, ∃ u, s.thread? (memberOf g
      j) = some u ∧ value j = u.reg (ops j).source) ∧ ∃ d a, ops i = .combAdd d a 1) ∧
    (∃ s : State, ∃ g : GroupId, ∃ ps : List Nat, ∃ ops : Nat → XOp, ∃ i : Nat, ∃ value : Nat → Word, i ∈ ps ∧ (∀ j ∈ ps, ∃ u, s.thread? (memberOf g
      j) = some u ∧ value j = u.reg (ops j).source) ∧ ∃ d a, ops i = .combMin d a 0) ∧
    (∃ s : State, ∃ g : GroupId, ∃ ps : List Nat, ∃ ops : Nat → XOp, ∃ i : Nat, ∃ value : Nat → Word, i ∈ ps ∧ (∀ j ∈ ps, ∃ u, s.thread? (memberOf g
      j) = some u ∧ value j = u.reg (ops j).source) ∧ ∃ d a, ops i = .combMax d a 0) ∧
    (∃ s : State, ∃ g : GroupId, ∃ ps : List Nat, ∃ ops : Nat → XOp, ∃ i : Nat, ∃ value : Nat → Word, i ∈ ps ∧ (∀ j ∈ ps, ∃ u, s.thread? (memberOf g
      j) = some u ∧ value j = u.reg (ops j).source) ∧ ∃ d a, ops i = .combMin d a 1) ∧
    (∃ s : State, ∃ g : GroupId, ∃ ps : List Nat, ∃ ops : Nat → XOp, ∃ i : Nat, ∃ value : Nat → Word, i ∈ ps ∧ (∀ j ∈ ps, ∃ u, s.thread? (memberOf g
      j) = some u ∧ value j = u.reg (ops j).source) ∧ ∃ d a, ops i = .combMax d a 1) ∧
    (∃ s : State, ∃ g : GroupId, ∃ ps : List Nat, ∃ ops : Nat → XOp, ∃ i : Nat, ∃ value : Nat → Word, i ∈ ps ∧ (∀ j ∈ ps, ∃ u, s.thread? (memberOf g
      j) = some u ∧ value j = u.reg (ops j).source) ∧ ∃ d a first rest, ps.map value = first :: rest ∧ ops i = .combMin d a 2) ∧
    (∃ s : State, ∃ g : GroupId, ∃ ps : List Nat, ∃ ops : Nat → XOp, ∃ i : Nat, ∃ value : Nat → Word, i ∈ ps ∧ (∀ j ∈ ps, ∃ u, s.thread? (memberOf g
      j) = some u ∧ value j = u.reg (ops j).source) ∧ ∃ d a first rest, ps.map value = first :: rest ∧ ops i = .combMax d a 2) ∧
    (∃ s : State, ∃ g : GroupId, ∃ ps : List Nat, ∃ ops : Nat → XOp, ∃ i : Nat, ∃ value : Nat → Word, i ∈ ps ∧ (∀ j ∈ ps, ∃ u, s.thread? (memberOf g
      j) = some u ∧ value j = u.reg (ops j).source) ∧ ∃ d a l, ops i = .scanAdd d a 1 ∧ l = (ps.filter (fun j => decide (j ≤ i))).map value) ∧
    (∃ s : State, ∃ g : GroupId, ∃ ps : List Nat, ∃ ops : Nat → XOp, ∃ i : Nat, ∃ value : Nat → Word, i ∈ ps ∧ (∀ j ∈ ps, ∃ u, s.thread? (memberOf g
      j) = some u ∧ value j = u.reg (ops j).source) ∧ ∃ r a, ops i = .kin r a false) ∧
    (∃ s : State, ∃ g : GroupId, ∃ ps : List Nat, ∃ ops : Nat → XOp, ∃ i : Nat, ∃ value : Nat → Word, i ∈ ps ∧ (∀ j ∈ ps, ∃ u, s.thread? (memberOf g
      j) = some u ∧ value j = u.reg (ops j).source) ∧ ∃ r a, ∃ wide : Nat → Dword, ops i = .kin r a true ∧ (∀ j ∈ ps, ∃ u, s.thread? (memberOf g j) =
      some u ∧ wide j = u.pair (ops j).source)) :=
  ⟨⟨(base []), ⟨0, 0, 0⟩, [0], (fun _ => .combAdd 4 5 0), 0, (fun _ => 0), (by decide), only ⟨th (base []), (by decide), (by decide)⟩, _, _, 0, rfl,
      (by decide)⟩,
    ⟨(base []), ⟨0, 0, 0⟩, [0], (fun _ => .scanAdd 4 5 0), 0, (fun _ => 0), (by decide), only ⟨th (base []), (by decide), (by decide)⟩, _, _, 0, rfl,
      (by decide)⟩,
    ⟨(base []), ⟨0, 0, 0⟩, [0], (fun _ => .combAdd 4 5 1), 0, (fun _ => 0), (by decide), only ⟨th (base []), (by decide), (by decide)⟩, _, _, rfl⟩,
    ⟨(base []), ⟨0, 0, 0⟩, [0], (fun _ => .combMin 4 5 0), 0, (fun _ => 0), (by decide), only ⟨th (base []), (by decide), (by decide)⟩, _, _, rfl⟩,
    ⟨(base []), ⟨0, 0, 0⟩, [0], (fun _ => .combMax 4 5 0), 0, (fun _ => 0), (by decide), only ⟨th (base []), (by decide), (by decide)⟩, _, _, rfl⟩,
    ⟨(base []), ⟨0, 0, 0⟩, [0], (fun _ => .combMin 4 5 1), 0, (fun _ => 0), (by decide), only ⟨th (base []), (by decide), (by decide)⟩, _, _, rfl⟩,
    ⟨(base []), ⟨0, 0, 0⟩, [0], (fun _ => .combMax 4 5 1), 0, (fun _ => 0), (by decide), only ⟨th (base []), (by decide), (by decide)⟩, _, _, rfl⟩,
    ⟨(base []), ⟨0, 0, 0⟩, [0], (fun _ => .combMin 4 5 2), 0, (fun _ => 0), (by decide), only ⟨th (base []), (by decide), (by decide)⟩, 4, 5, _, _,
      rfl, (by decide)⟩,
    ⟨(base []), ⟨0, 0, 0⟩, [0], (fun _ => .combMax 4 5 2), 0, (fun _ => 0), (by decide), only ⟨th (base []), (by decide), (by decide)⟩, 4, 5, _, _,
      rfl, (by decide)⟩,
    ⟨(base []), ⟨0, 0, 0⟩, [0], (fun _ => .scanAdd 4 5 1), 0, (fun _ => 0), (by decide), only ⟨th (base []), (by decide), (by decide)⟩, 4, 5, [0],
      rfl, (by decide)⟩,
    ⟨(base []), ⟨0, 0, 0⟩, [0], (fun _ => .kin 6 5 false), 0, (fun _ => 0), (by decide), only ⟨th (base []), (by decide), (by decide)⟩, _, _, rfl⟩,
    ⟨(base []), ⟨0, 0, 0⟩, [0], (fun _ => .kin 6 4 true), 0, (fun _ => 0), (by decide), only ⟨th (base []), (by decide), (by decide)⟩, 6, 4,
      (fun _ => 0), rfl, (only ⟨th (base []), (by decide), (by decide)⟩)⟩⟩

/-- States and operands that meet the premises of `SharedAccesses`. -/
theorem test_premises_SharedAccesses :
    (∃ i space o d a f, SharedLoad i space o d a f ∧ ∃ s : State, ∃ v word n addr k c1 c2, encode? i = some word ∧ Issues s word false v ∧
      Sized (HintSet.of v.hints) o n ∧ opIllegal space o = false ∧ cacheBad (HintSet.of v.hints) (decide (o = 7)) = false ∧ Addressed space a f
      n (begin s v word (memAccepts space)) addr c1 ∧ dstDeferred d (max 1 (n / 4)) (max 1 (n / 4)) c1 = (k, c2) ∧ Clean c2 ∧ AddressOk s space addr
      n (decide (o = 5 ∨ o = 6)) ∧ Room v) ∧
    (∃ i space o d a f, SharedLoad i space o d a f ∧ ∃ s : State, ∃ v word n addr k c1 c2, encode? i = some word ∧ Issues s word false v ∧
      Sized (HintSet.of v.hints) o n ∧ opIllegal space o = false ∧ cacheBad (HintSet.of v.hints) (decide (o = 7)) = false ∧ Addressed space a f
      n (begin s v word (memAccepts space)) addr c1 ∧ dstDeferred d (max 1 (n / 4)) (max 1 (n / 4)) c1 = (k, c2) ∧ Clean c2 ∧ AddressOk s space addr
      n (decide (o = 5 ∨ o = 6)) ∧ Room v) ∧
    (∃ i space o d a f, SharedStore i space o d a f ∧ ∃ s : State, ∃ v word n addr x c1 c2, encode? i = some word ∧ Issues s word false v ∧
      Sized (HintSet.of v.hints) o n ∧ opIllegal space o = false ∧ cacheBad (HintSet.of v.hints) (decide (o = 7)) = false ∧ Addressed space a f
      n (begin s v word (memAccepts space)) addr c1 ∧ srcSized d n c1 = (x, c2) ∧ Clean c2 ∧ AddressOk s space addr n (decide (o = 5 ∨ o = 6)) ∧ Room
      v) ∧
    (∃ i space o d a f, SharedStore i space o d a f ∧ ∃ s : State, ∃ v word n addr x c1 c2, encode? i = some word ∧ Issues s word false v ∧
      Sized (HintSet.of v.hints) o n ∧ opIllegal space o = false ∧ cacheBad (HintSet.of v.hints) (decide (o = 7)) = false ∧ Addressed space a f
      n (begin s v word (memAccepts space)) addr c1 ∧ srcSized d n c1 = (x, c2) ∧ Clean c2 ∧ AddressOk s space addr n (decide (o = 5 ∨ o = 6)) ∧ Room
      v) :=
  ⟨⟨(.ldCo 0 2 4 5 0), _, _, _, _, _, (by constructor), (base [0, 0, 0, 0, 0, 0xFFFC]), (th (base [0, 0, 0, 0, 0, 0xFFFC])), _, 4, _, _, _, _, rfl,
      iss (by decide), (by simp [Sized]), (by decide), (by decide), addrOff, pairOf _, cl (by decide), (by unfold AddressOk; decide),
      (by unfold Room; decide)⟩,
    ⟨(.ldGl 0 6 8 6 0x80), _, _, _, _, _, (by constructor), (base [0, 0, 0, 0, 0, 0, 0x200000]), (th (base [0, 0, 0, 0, 0, 0, 0x200000])), _, 8, _,
      _, _, _, rfl, iss (by decide), (by simp [Sized]), (by decide), (by decide), addrGl, pairOf _, cl (by decide), (by unfold AddressOk; decide),
      (by unfold Room; decide)⟩,
    ⟨(.stCh 0 3 4 5 0), _, _, _, _, _, (by constructor), (base [0, 0, 0, 0, 0, 0x3FFFFFF8]), (th (base [0, 0, 0, 0, 0, 0x3FFFFFF8])), _, 8, _, _, _,
      _, rfl, iss (by decide), (by simp [Sized]), (by decide), (by decide), addrOff, pairOf _, cl (by decide), (by unfold AddressOk; decide),
      (by unfold Room; decide)⟩,
    ⟨(.stGl 0 7 8 6 0), _, _, _, _, _, (by constructor), (base [0, 0, 0, 0, 0, 0, 0x200001]), (th (base [0, 0, 0, 0, 0, 0, 0x200001])), _, 4, _, _,
      _, _, rfl, iss (by decide), (.inr (.inr (.inr (.inr (.inr (.inr (.inr ⟨rfl, .inl ⟨by decide, rfl⟩⟩))))))), (by decide), (by decide), addrGl,
      pairOf _, cl (by decide), (by unfold AddressOk; decide), (by unfold Room; decide)⟩⟩

/-- States and operands that meet the premises of `LaneAccesses`. -/
theorem test_premises_LaneAccesses :
    (∃ s : State, ∃ v w o d a f n addr l c1 c2, Issues s (Enc.ldLn w o d a f) false v ∧ Sized (HintSet.of v.hints) o n ∧ o.toNat < 5 ∧ Addressed .ln a f
      n (begin s v (Enc.ldLn w o d a f) .immOnly) addr c1 ∧ dstSized d n c1 = (l, c2) ∧ Clean c2 ∧ AddressOk s .ln addr n false ∧ c2.laneHeld addr n
      = false) ∧
    (∃ s : State, ∃ v w o d a f n addr x c1 c2, Issues s (Enc.stLn w o d a f) false v ∧ Sized (HintSet.of v.hints) o n ∧ o.toNat < 5 ∧ Addressed .ln
      a f n (begin s v (Enc.stLn w o d a f) .immOnly) addr c1 ∧ srcSized d n c1 = (x, c2) ∧ Clean c2 ∧ AddressOk s .ln addr n false ∧ c2.laneHeld
      addr n = false) :=
  ⟨⟨(tm (fun t => { t with slice := 512 }) ((base [0, 0, 0, 0, 0, 0x1F0]).modGroup ⟨0, 0, 0⟩ (fun g => { g with slice := 512 }))),
      (th (tm (fun t => { t with slice := 512 }) ((base [0, 0, 0, 0, 0, 0x1F0]).modGroup ⟨0, 0, 0⟩ (fun g => { g with slice := 512 })))), 0, 4, 8, 5,
      0, 16, _, _, _, _, iss (by decide), (by simp [Sized]), (by decide), addrOff, pairOf _, cl (by decide), (by unfold AddressOk; decide),
      (by decide)⟩,
    ⟨(tm (fun t => { t with slice := 512 }) ((base [0, 0, 0, 0, 0, 0x1F0]).modGroup ⟨0, 0, 0⟩ (fun g => { g with slice := 512 }))),
      (th (tm (fun t => { t with slice := 512 }) ((base [0, 0, 0, 0, 0, 0x1F0]).modGroup ⟨0, 0, 0⟩ (fun g => { g with slice := 512 })))), 0, 4, 8, 5,
      0, 16, _, _, _, _, iss (by decide), (by simp [Sized]), (by decide), addrOff, pairOf _, cl (by decide), (by unfold AddressOk; decide),
      (by decide)⟩⟩

/-- States and operands that meet the premises of `LaneStoreFrame`. -/
theorem test_premises_LaneStoreFrame :
    ∃ s : State, ∃ v w o d a f n addr x c1 c2, Canonical s ∧ Issues s (Enc.stLn w o d a f) false v ∧ v.stepping = false ∧ Sized (HintSet.of v.hints) o n
      ∧ o.toNat < 5 ∧ Addressed .ln a f n (begin s v (Enc.stLn w o d a f) .immOnly) addr c1 ∧ srcSized d n c1 = (x, c2) ∧ Clean c2 ∧ AddressOk s .ln
      addr n false ∧ c2.laneHeld addr n = false :=
  ⟨(tm (fun t => { t with slice := 512 }) ((base [0, 0, 0, 0, 0, 0x1F0]).modGroup ⟨0, 0, 0⟩ (fun g => { g with slice := 512 }))),
      (th (tm (fun t => { t with slice := 512 }) ((base [0, 0, 0, 0, 0, 0x1F0]).modGroup ⟨0, 0, 0⟩ (fun g => { g with slice := 512 })))), 0, 4, 8, 5,
      0, 16, _, _, _, _, can (by decide), iss (by decide), (by decide), (by simp [Sized]), (by decide), addrOff, pairOf _, cl (by decide),
      (by unfold AddressOk; decide), (by decide)⟩

/-- States and operands that meet the premises of `Atomics`. -/
theorem test_premises_Atomics :
    (∃ i op sc z r d a, Atomic i op sc z r d a ∧ ∃ s : State, ∃ v word k n c1, encode? i = some word ∧ Issues s word false v ∧ cacheBad (HintSet.of
      v.hints) false = false ∧ block a 2 2 (begin s v word { Accepts.nothing with cache := true }) = (k, c1) ∧ n = (if z = 1 then 8 else 4) ∧ ∃
      scope, Scope.ofCode sc = some scope ∧ AddressOk s .gl (c1.th.pair k) n true ∧ Room v ∧ ∃ m e c2, m = (if z = 1 then 2 else 1) * (if op = .cas
      then 2 else 1) ∧ (r = 1 ∨ op = .cas) ∧ (if r = 1 then dstDeferred d m m c1 else block d m m c1) = (e, c2) ∧ Clean c2) ∧
    (∃ i op sc z r d a, Atomic i op sc z r d a ∧ ∃ s : State, ∃ v word k n c1, encode? i = some word ∧ Issues s word false v ∧ cacheBad (HintSet.of
      v.hints) false = false ∧ block a 2 2 (begin s v word { Accepts.nothing with cache := true }) = (k, c1) ∧ n = (if z = 1 then 8 else 4) ∧ ∃
      scope, Scope.ofCode sc = some scope ∧ AddressOk s .gl (c1.th.pair k) n true ∧ Room v ∧ ∃ m e c2, m = (if z = 1 then 2 else 1) * (if op = .cas
      then 2 else 1) ∧ (r = 1 ∨ op = .cas) ∧ (if r = 1 then dstDeferred d m m c1 else block d m m c1) = (e, c2) ∧ Clean c2) ∧
    (∃ i op sc z r d a, Atomic i op sc z r d a ∧ ∃ s : State, ∃ v word k n c1, encode? i = some word ∧ Issues s word false v ∧ cacheBad (HintSet.of
      v.hints) false = false ∧ block a 2 2 (begin s v word { Accepts.nothing with cache := true }) = (k, c1) ∧ n = (if z = 1 then 8 else 4) ∧ ∃
      scope, Scope.ofCode sc = some scope ∧ AddressOk s .gl (c1.th.pair k) n true ∧ Room v ∧ ∃ x c2, r = 0 ∧ op ≠ .cas ∧ srcSized d n c1 = (x, c2) ∧
      Clean c2) :=
  ⟨⟨(.atomAdd 0 6 1 1 4 6), _, _, _, _, _, _, (by constructor), (base [0, 0, 0, 0, 0, 0, 0x200000]), (th (base [0, 0, 0, 0, 0, 0, 0x200000])), _, _, _,
      _, rfl, iss (by decide), (by decide), pairOf _, rfl, .glb, (by decide), (by unfold AddressOk; decide), (by unfold Room; decide), _, _, _, rfl,
      (by decide), (pairOf _), cl (by decide)⟩,
    ⟨(.atomCas 0 6 0 0 4 6), _, _, _, _, _, _, (by constructor), (base [0, 0, 0, 0, 0, 0, 0x200004]), (th (base [0, 0, 0, 0, 0, 0, 0x200004])), _, _,
      _, _, rfl, iss (by decide), (by decide), pairOf _, rfl, .glb, (by decide), (by unfold AddressOk; decide), (by unfold Room; decide), _, _, _,
      rfl, (by decide), (pairOf _), cl (by decide)⟩,
    ⟨(.atomSwap 0 0 0 0 4 6), _, _, _, _, _, _, (by constructor), (base [0, 0, 0, 0, 0, 0, 0x200004]), (th (base [0, 0, 0, 0, 0, 0, 0x200004])), _,
      _, _, _, rfl, iss (by decide), (by decide), pairOf _, rfl, .grp, (by decide), (by unfold AddressOk; decide), (by unfold Room; decide), _, _,
      rfl, (by decide), pairOf _, cl (by decide)⟩⟩

/-- States and operands that meet the premises of `MisalignedAccess`. -/
theorem test_premises_MisalignedAccess :
    (∃ i space o d a f, SharedLoad i space o d a f ∧ ∃ s : State, ∃ v word n addr k c1 c2, encode? i = some word ∧ Issues s word false v ∧
      Sized (HintSet.of v.hints) o n ∧ opIllegal space o = false ∧ cacheBad (HintSet.of v.hints) (decide (o = 7)) = false ∧ Addressed space a f
      n (begin s v word (memAccepts space)) addr c1 ∧ dstDeferred d (max 1 (n / 4)) (max 1 (n / 4)) c1 = (k, c2) ∧ Clean c2 ∧ (space = .gl → (o = 5 ∨
      o = 6) ∧ addr.msb = false) ∧ addr.toNat % n ≠ 0 ∧ v.log = [] ∧ s.deliver s.cur v = none) ∧
    (∃ i space o d a f, SharedLoad i space o d a f ∧ ∃ s : State, ∃ v word n addr k c1 c2, encode? i = some word ∧ Issues s word false v ∧
      Sized (HintSet.of v.hints) o n ∧ opIllegal space o = false ∧ cacheBad (HintSet.of v.hints) (decide (o = 7)) = false ∧ Addressed space a f
      n (begin s v word (memAccepts space)) addr c1 ∧ dstDeferred d (max 1 (n / 4)) (max 1 (n / 4)) c1 = (k, c2) ∧ Clean c2 ∧ (space = .gl → (o = 5 ∨
      o = 6) ∧ addr.msb = false) ∧ addr.toNat % n ≠ 0 ∧ v.log = [] ∧ s.deliver s.cur v = none) ∧
    (∃ i space o d a f, SharedStore i space o d a f ∧ ∃ s : State, ∃ v word n addr x c1 c2, encode? i = some word ∧ Issues s word false v ∧
      Sized (HintSet.of v.hints) o n ∧ opIllegal space o = false ∧ cacheBad (HintSet.of v.hints) (decide (o = 7)) = false ∧ Addressed space a f
      n (begin s v word (memAccepts space)) addr c1 ∧ srcSized d n c1 = (x, c2) ∧ Clean c2 ∧ (space = .gl → (o = 5 ∨ o = 6) ∧ addr.msb = false) ∧
      addr.toNat % n ≠ 0 ∧ v.log = [] ∧ s.deliver s.cur v = none) ∧
    (∃ i space o d a f, SharedStore i space o d a f ∧ ∃ s : State, ∃ v word n addr x c1 c2, encode? i = some word ∧ Issues s word false v ∧
      Sized (HintSet.of v.hints) o n ∧ opIllegal space o = false ∧ cacheBad (HintSet.of v.hints) (decide (o = 7)) = false ∧ Addressed space a f
      n (begin s v word (memAccepts space)) addr c1 ∧ srcSized d n c1 = (x, c2) ∧ Clean c2 ∧ (space = .gl → (o = 5 ∨ o = 6) ∧ addr.msb = false) ∧
      addr.toNat % n ≠ 0 ∧ v.log = [] ∧ s.deliver s.cur v = none) ∧
    (∃ i op sc z r d a, Atomic i op sc z r d a ∧ ∃ s : State, ∃ v word k n c1 m c2, encode? i = some word ∧ Issues s word false v ∧
      cacheBad (HintSet.of v.hints) false = false ∧ block a 2 2 (begin s v word { Accepts.nothing with cache := true }) = (k, c1) ∧ n = (if z = 1
      then 8 else 4) ∧ (∃ scope, Scope.ofCode sc = some scope) ∧ m = (if z = 1 then 2 else 1) * (if op = .cas then 2 else 1) ∧ ((r = 1 ∧ ∃ e,
      dstDeferred d m m c1 = (e, c2)) ∨ (r = 0 ∧ op = .cas ∧ ∃ e, block d m m c1 = (e, c2)) ∨ (r = 0 ∧ op ≠ .cas ∧ ∃ x, srcSized d n c1 = (x, c2))) ∧
      Clean c2 ∧ (c1.th.pair k).msb = false ∧ (c1.th.pair k).toNat % n ≠ 0 ∧ v.log = [] ∧ s.deliver s.cur v = none) ∧
    (∃ i op sc z r d a, Atomic i op sc z r d a ∧ ∃ s : State, ∃ v word k n c1 m c2, encode? i = some word ∧ Issues s word false v ∧
      cacheBad (HintSet.of v.hints) false = false ∧ block a 2 2 (begin s v word { Accepts.nothing with cache := true }) = (k, c1) ∧ n = (if z = 1
      then 8 else 4) ∧ (∃ scope, Scope.ofCode sc = some scope) ∧ m = (if z = 1 then 2 else 1) * (if op = .cas then 2 else 1) ∧ ((r = 1 ∧ ∃ e,
      dstDeferred d m m c1 = (e, c2)) ∨ (r = 0 ∧ op = .cas ∧ ∃ e, block d m m c1 = (e, c2)) ∨ (r = 0 ∧ op ≠ .cas ∧ ∃ x, srcSized d n c1 = (x, c2))) ∧
      Clean c2 ∧ (c1.th.pair k).msb = false ∧ (c1.th.pair k).toNat % n ≠ 0 ∧ v.log = [] ∧ s.deliver s.cur v = none) ∧
    (∃ i op sc z r d a, Atomic i op sc z r d a ∧ ∃ s : State, ∃ v word k n c1 m c2, encode? i = some word ∧ Issues s word false v ∧
      cacheBad (HintSet.of v.hints) false = false ∧ block a 2 2 (begin s v word { Accepts.nothing with cache := true }) = (k, c1) ∧ n = (if z = 1
      then 8 else 4) ∧ (∃ scope, Scope.ofCode sc = some scope) ∧ m = (if z = 1 then 2 else 1) * (if op = .cas then 2 else 1) ∧ ((r = 1 ∧ ∃ e,
      dstDeferred d m m c1 = (e, c2)) ∨ (r = 0 ∧ op = .cas ∧ ∃ e, block d m m c1 = (e, c2)) ∨ (r = 0 ∧ op ≠ .cas ∧ ∃ x, srcSized d n c1 = (x, c2))) ∧
      Clean c2 ∧ (c1.th.pair k).msb = false ∧ (c1.th.pair k).toNat % n ≠ 0 ∧ v.log = [] ∧ s.deliver s.cur v = none) :=
  ⟨⟨(.ldCl 0 2 4 5 0), _, _, _, _, _, (by constructor), (base [0, 0, 0, 0, 0, 1]), (th (base [0, 0, 0, 0, 0, 1])), _, 4, _, _, _, _, rfl,
      iss (by decide), (by simp [Sized]), (by decide), (by decide), addrOff, pairOf _, cl (by decide), (fun h => absurd h (by decide)), (by decide),
      (by decide), (by decide)⟩,
    ⟨(.ldGl 0 6 4 6 0), _, _, _, _, _, (by constructor), (base [0, 0, 0, 0, 0, 0, 0x200001]), (th (base [0, 0, 0, 0, 0, 0, 0x200001])), _, 8, _, _,
      _, _, rfl, iss (by decide), (by simp [Sized]), (by decide), (by decide), addrGl, pairOf _, cl (by decide), (fun _ => ⟨.inr rfl, (by decide)⟩),
      (by decide), (by decide), (by decide)⟩,
    ⟨(.stCo 0 2 4 5 0), _, _, _, _, _, (by constructor), (base [0, 0, 0, 0, 0, 3]), (th (base [0, 0, 0, 0, 0, 3])), _, 4, _, _, _, _, rfl,
      iss (by decide), (by simp [Sized]), (by decide), (by decide), addrOff, pairOf _, cl (by decide), (fun h => absurd h (by decide)), (by decide),
      (by decide), (by decide)⟩,
    ⟨(.stGl 0 5 4 6 0), _, _, _, _, _, (by constructor), (base [0, 0, 0, 0, 0, 0, 0x200002]), (th (base [0, 0, 0, 0, 0, 0, 0x200002])), _, 4, _, _,
      _, _, rfl, iss (by decide), (by simp [Sized]), (by decide), (by decide), addrGl, pairOf _, cl (by decide), (fun _ => ⟨.inl rfl, (by decide)⟩),
      (by decide), (by decide), (by decide)⟩,
    ⟨(.atomMaxN 0 3 1 1 4 6), _, _, _, _, _, _, (by constructor), (base [0, 0, 0, 0, 0, 0, 0x200004]), (th (base [0, 0, 0, 0, 0, 0, 0x200004])), _,
      _, _, _, _, _, rfl, iss (by decide), (by decide), pairOf _, rfl, ⟨.dev, (by decide)⟩, rfl, (.inl ⟨rfl, _, pairOf _⟩), cl (by decide),
      (by decide), (by decide), (by decide), (by decide)⟩,
    ⟨(.atomCas 0 3 0 0 4 6), _, _, _, _, _, _, (by constructor), (base [0, 0, 0, 0, 0, 0, 0x200002]), (th (base [0, 0, 0, 0, 0, 0, 0x200002])), _, _,
      _, _, _, _, rfl, iss (by decide), (by decide), pairOf _, rfl, ⟨.dev, (by decide)⟩, rfl, (.inr (.inl ⟨rfl, (by decide), _, pairOf _⟩)),
      cl (by decide), (by decide), (by decide), (by decide), (by decide)⟩,
    ⟨(.atomAdd 0 3 0 0 4 6), _, _, _, _, _, _, (by constructor), (base [0, 0, 0, 0, 0, 0, 0x200001]), (th (base [0, 0, 0, 0, 0, 0, 0x200001])), _, _,
      _, _, _, _, rfl, iss (by decide), (by decide), pairOf _, rfl, ⟨.dev, (by decide)⟩, rfl, (.inr (.inr ⟨rfl, (by decide), _, pairOf _⟩)),
      cl (by decide), (by decide), (by decide), (by decide), (by decide)⟩⟩

/-- States and operands that meet the premises of `FencesAndDrains`. -/
theorem test_premises_FencesAndDrains :
    (∃ s : State, ∃ v w scope p, Issues s (Enc.fence w) true v ∧ Clean (begin s v (Enc.fence w) .scopeOnly) ∧ scope = (HintSet.of v.hints).scopeOr .dev ∧
      p = (s.pardon s.cur).setThread s.cur { v with wait := .fence scope s.stamp } ∧ GoesOn p ∧ p.doneBefore s.cur s.stamp = true ∧ p.releaseReady
      s.stamp scope (some s.cur) = true ∧ NoFlush p) ∧
    (∃ s : State, ∃ v w scope p, Issues s (Enc.fence w) true v ∧ Clean (begin s v (Enc.fence w) .scopeOnly) ∧ scope = (HintSet.of v.hints).scopeOr
      .dev ∧ p = (s.pardon s.cur).setThread s.cur { v with wait := .fence scope s.stamp } ∧ GoesOn p ∧ p.doneBefore s.cur s.stamp = true ∧
      p.releaseReady s.stamp scope (some s.cur) = true ∧ ¬ NoFlush p) ∧
    (∃ s : State, ∃ v w scope p, Issues s (Enc.fence w) true v ∧ Clean (begin s v (Enc.fence w) .scopeOnly) ∧ scope = (HintSet.of v.hints).scopeOr
      .dev ∧ p = (s.pardon s.cur).setThread s.cur { v with wait := .fence scope s.stamp } ∧ GoesOn p ∧ p.doneBefore s.cur s.stamp = true ∧
      p.releaseReady s.stamp scope (some s.cur) = false) ∧
    (∃ s : State, ∃ v w scope p, Issues s (Enc.fence w) true v ∧ Clean (begin s v (Enc.fence w) .scopeOnly) ∧ scope = (HintSet.of v.hints).scopeOr
      .dev ∧ p = (s.pardon s.cur).setThread s.cur { v with wait := .fence scope s.stamp } ∧ GoesOn p ∧ p.doneBefore s.cur s.stamp = false) ∧
    (∃ s : State, ∃ v w p, Issues s (Enc.drainNt w) true v ∧ Clean (begin s v (Enc.drainNt w) .nothing) ∧ p = (s.pardon s.cur).setThread s.cur
      { v with wait := .drain } ∧ GoesOn p ∧ s.buffer.any (fun b => decide (b.thread = s.cur) && b.access.nonTemporal) = true) ∧
    (∃ s : State, ∃ v w p, Issues s (Enc.drainNt w) true v ∧ Clean (begin s v (Enc.drainNt w) .nothing) ∧ p = (s.pardon s.cur).setThread s.cur
      { v with wait := .drain } ∧ GoesOn p ∧ s.buffer.any (fun b => decide (b.thread = s.cur) && b.access.nonTemporal) = false ∧ ∃ t u, p.awaited
      s.cur s.stamp true = t :: u) ∧
    (∃ s : State, ∃ v w p, Issues s (Enc.drainNt w) true v ∧ Clean (begin s v (Enc.drainNt w) .nothing) ∧ p = (s.pardon s.cur).setThread s.cur
      { v with wait := .drain } ∧ GoesOn p ∧ s.buffer.any (fun b => decide (b.thread = s.cur) && b.access.nonTemporal) = false ∧ p.awaited s.cur
      s.stamp true = [] ∧ s.net.messages.any (fun m => m.unacked s.cur s.stamp true) = false ∧ NoFlush p) ∧
    (∃ s : State, ∃ v w a x c1, Issues s (Enc.pflush w a) true v ∧ src a (begin s v (Enc.pflush w a) .nothing) = (x, c1) ∧ Clean c1 ∧ x.extractLsb'
      17 15 = 0 ∧ (x.extractLsb' 0 17).toNat = s.selfrank) ∧
    (∃ s : State, ∃ v w a x c1, Issues s (Enc.pflush w a) true v ∧ src a (begin s v (Enc.pflush w a) .nothing) = (x, c1) ∧ Clean c1 ∧ x.extractLsb'
      17 15 = 0 ∧ ∃ m p, (x.extractLsb' 0 17).toNat ≠ s.selfrank ∧ s.rankCheck (s.asidOf s.cur.teamId) (x.extractLsb' 0 17).toNat = some (.pod m) ∧ p
      = s.setThread s.cur { c1.th with wait := .pflush (x.extractLsb' 0 17).toNat m s.stamp false } ∧ GoesOn p ∧ p.allSent s.stamp (fun q => match q
      with | .pod _ k _ _ => decide (k = m) | _ => false) = true ∧ p.podWaiting s.stamp (some m) = false ∧ p.net.flushes.any (fun f => f.member == m)
      = false) :=
  ⟨⟨(base []), (cm (base [])), 0, _, _, iss (by decide), cl (by decide), rfl, rfl, ⟨_, someOf (by decide), (by decide)⟩, (by decide), (by decide),
      (by unfold NoFlush; decide)⟩,
    ⟨(nt (fun n => { n with flushes := [{ member := 1, users := [(⟨0, 0, 0, 0⟩, 0)] }] }) (base [])),
      (cm (nt (fun n => { n with flushes := [{ member := 1, users := [(⟨0, 0, 0, 0⟩, 0)] }] }) (base []))), 0, _, _, iss (by decide), cl (by decide),
      rfl, rfl, ⟨_, someOf (by decide), (by decide)⟩, (by decide), (by decide), (by unfold NoFlush; decide)⟩,
    ⟨(nt (fun n => { n with tracked := [{ member := 1, stamp := 0, thread := ⟨0, 0, 0, 1⟩, own := true, nt := false, covered := false }] }) ({ put (fun t => { t with hints := [.scope 5] }) (base []) with stamp := 1 })), (cm (nt (fun n => { n with tracked := [{ member := 1, stamp := 0, thread := ⟨0, 0, 0, 1⟩, own := true, nt := false, covered := false }] }) ({ put (fun t => { t with hints := [.scope 5] }) (base []) with stamp := 1 }))), 0, _, _, iss (by decide), cl (by decide), rfl, rfl, ⟨_, someOf (by decide), (by decide)⟩, (by decide), (by decide)⟩,
    ⟨({ base [] with buffer := [bs .plain], stamp := 1 }), (cm ({ base [] with buffer := [bs .plain], stamp := 1 })), 0, _, _, iss (by decide),
      cl (by decide), rfl, rfl, ⟨_, someOf (by decide), (by decide)⟩, (by decide)⟩,
    ⟨({ base [] with buffer := [bs .nt], stamp := 1 }), (cm ({ base [] with buffer := [bs .nt], stamp := 1 })), 0, _, iss (by decide),
      cl (by decide), rfl, ⟨_, someOf (by decide), (by decide)⟩, (by decide)⟩,
    ⟨(nt (fun n => { n with tracked := [{ member := 1, stamp := 0, thread := ⟨0, 0, 0, 0⟩, own := true, nt := true, covered := false }] }) ({ base [] with stamp := 1 })), (cm (nt (fun n => { n with tracked := [{ member := 1, stamp := 0, thread := ⟨0, 0, 0, 0⟩, own := true, nt := true, covered := false }] }) ({ base [] with stamp := 1 }))), 0, _, iss (by decide), cl (by decide), rfl, ⟨_, someOf (by decide), (by decide)⟩, (by decide), { member := 1, stamp := 0, thread := ⟨0, 0, 0, 0⟩, own := true, nt := true, covered := false }, [], (by decide)⟩,
    ⟨(base []), (cm (base [])), 0, _, iss (by decide), cl (by decide), rfl, ⟨_, someOf (by decide), (by decide)⟩, (by decide), (by decide),
      (by decide), (by unfold NoFlush; decide)⟩,
    ⟨(base []), (cm (base [])), 0, 5, _, _, iss (by decide), pairOf _, cl (by decide), (by decide), (by decide)⟩,
    ⟨(job (base [0, 0, 0, 0, 0, 1])), (cm (job (base [0, 0, 0, 0, 0, 1]))), 0, 5, _, _, iss (by decide +kernel), pairOf _, cl (by decide +kernel),
      (by decide +kernel), 1, _, (by decide +kernel), (by decide +kernel), rfl, ⟨_, someOf (by decide +kernel), (by decide +kernel)⟩,
      (by decide +kernel), (by decide +kernel), (by decide +kernel)⟩⟩

/-- States and operands that meet the premises of `CounterInstructions`. -/
theorem test_premises_CounterInstructions :
    (∃ s : State, ∃ v w c n x y c1 c2 scope, Issues s (Enc.cwait w c n) true v ∧ src c (begin s v (Enc.cwait w c n) .scopeOnly) = (x, c1) ∧ srcP n c1
      = (y, c2) ∧ Clean c2 ∧ x.extractLsb' 16 16 = 0 ∧ scope = (HintSet.of v.hints).scopeOr .dev ∧ ∃ p, p = s.setThread s.cur
      { c2.th with wait := .counter (x.extractLsb' 0 16).toNat y scope } ∧ GoesOn p ∧ y.toNat ≤ s.ctrValue (x.extractLsb' 0 16).toNat) ∧
    (∃ s : State, ∃ v w c n x y c1 c2 scope, Issues s (Enc.cwait w c n) true v ∧ src c (begin s v (Enc.cwait w c n) .scopeOnly) = (x, c1) ∧ srcP n c1
      = (y, c2) ∧ Clean c2 ∧ x.extractLsb' 16 16 = 0 ∧ scope = (HintSet.of v.hints).scopeOr .dev ∧ ∃ p, p = s.setThread s.cur
      { c2.th with wait := .counter (x.extractLsb' 0 16).toNat y scope } ∧ GoesOn p ∧ s.ctrValue (x.extractLsb' 0 16).toNat < y.toNat) ∧
    (∃ s : State, ∃ v w c n x y c1 c2, Issues s (Enc.cadd w c n) false v ∧ src c (begin s v (Enc.cadd w c n) .scopeOnly) = (x, c1) ∧ srcP n c1 = (y,
      c2) ∧ Clean c2 ∧ Room v ∧ x.extractLsb' 16 16 = 0) ∧
    (∃ s : State, ∃ v w d c x k c1 c2, Issues s (Enc.cpoll w d c) false v ∧ src c (begin s v (Enc.cpoll w d c) .nothing) = (x, c1) ∧ x.extractLsb' 16
      16 = 0 ∧ dstDeferred d 2 2 c1 = (k, c2) ∧ Clean c2 ∧ Room v) :=
  ⟨⟨(job (base [0, 0, 0, 0, 0xFFFF])), (cm (job (base [0, 0, 0, 0, 0xFFFF]))), 0, 4, 6, _, _, _, _, _, iss (by decide +kernel), pairOf _, pairOf _,
      cl (by decide +kernel), (by decide +kernel), rfl, _, rfl, ⟨_, someOf (by decide +kernel), (by decide +kernel)⟩, (by decide +kernel)⟩,
    ⟨(job (base [0, 0, 0, 0, 0xFFFF, 0, 1])), (cm (job (base [0, 0, 0, 0, 0xFFFF, 0, 1]))), 0, 4, 6, _, _, _, _, _, iss (by decide +kernel),
      pairOf _, pairOf _, cl (by decide +kernel), (by decide +kernel), rfl, _, rfl, ⟨_, someOf (by decide +kernel), (by decide +kernel)⟩,
      (by decide +kernel)⟩,
    ⟨(base []), (th (base [])), 0, 4, 6, _, _, _, _, iss (by decide), pairOf _, pairOf _, cl (by decide), (by unfold Room; decide), (by decide)⟩,
    ⟨(base []), (th (base [])), 0, 4, 5, _, _, _, _, iss (by decide), pairOf _, (by decide), pairOf _, cl (by decide), (by unfold Room; decide)⟩⟩

/-- States and operands that meet the premises of `SignalsAndContributions`. -/
theorem test_premises_SignalsAndContributions :
    (∃ s : State, ∃ v w a k c1, ∃ source dest : Dword, Issues s (Enc.wsig w a) false v ∧ block a 8 8 (begin s v (Enc.wsig w a) .nothing) = (k, c1) ∧
      Clean c1 ∧ Room v ∧ source = c1.th.reg (k + 1) ++ c1.th.reg k ∧ dest = c1.th.reg (k + 3) ++ c1.th.reg (k + 2) ∧ (c1.th.reg (k + 5)).extractLsb'
      16 16 = 0 ∧ (c1.th.reg (k + 6)).extractLsb' 17 15 = 0 ∧ c1.th.reg (k + 7) = 0 ∧ 0 < (c1.th.reg (k + 4)).toNat ∧ (c1.th.reg (k + 4)).toNat ≤ 2 ^
      24 ∧ source.extractLsb' 48 16 = 0 ∧ dest.msb = true ∧ s.straddles dest (c1.th.reg (k + 4)).toNat = false ∧ s.globalOk (s.asidOf s.cur.teamId)
      dest (c1.th.reg (k + 4)).toNat = true) ∧
    (∃ s : State, ∃ v w a k c1, ∃ source : Dword, ∃ gid e, Issues s (Enc.wred w a) false v ∧ block a 4 4 (begin s v (Enc.wred w a) .nothing) = (k,
      c1) ∧ Clean c1 ∧ Room v ∧ source = c1.th.reg (k + 1) ++ c1.th.reg k ∧ gid = ((c1.th.reg (k + 2)).extractLsb' 0 16).toNat ∧ e = s.groupEntry gid
      ∧ (c1.th.reg (k + 2)).extractLsb' 16 16 = 0 ∧ (c1.th.reg (k + 3)).extractLsb' 17 15 = 0 ∧ source.toNat % 4 = 0 ∧ source.extractLsb' 48 16 = 0 ∧
      bits e 17 17 = 1 ∧ (s.rankCheck (s.asidOf s.cur.teamId) (bits e 97 81)).isSome = true ∧ stripeOk (s.stripe (bits e 165 160)) = true ∧
      s.straddles (BitVec.ofNat 64 (gAddr (bits e 97 81) (bits e 165 160) (bits e 231 192))) (4 * bits e 151 128) = false ∧ ∃ c2, c2 = logged
      c1 (.wred source gid (BitVec.ofNat 8 (bits e 25 18)) (if (c1.th.reg (k + 3)).getLsbD 16 then some ((c1.th.reg (k + 3)).extractLsb' 0 16).toNat
      else none))) :=
  ⟨⟨(job (base [0x200000, 0, 0, 0x80004000, 0x01000000, 0xFFFF, 0x1FFFF, 0])), (th (job (base [0x200000, 0, 0, 0x80004000, 0x01000000, 0xFFFF, 0x1FFFF,
      0]))), 0, 0, _, _, _, _, iss (by decide +kernel), pairOf _, cl (by decide +kernel), (by unfold Room; decide), rfl, rfl, (by decide +kernel),
      (by decide +kernel), (by decide +kernel), (by decide +kernel), (by decide +kernel), (by decide +kernel), (by decide +kernel),
      (by decide +kernel), (by decide +kernel)⟩,
    ⟨(wg [(0x2000000, 64, 0x200000000000000020000)] (job (base [0x200000, 0, 0, 0x1FFFF]))), (th (wg [(0x2000000, 64,
      0x200000000000000020000)] (job (base [0x200000, 0, 0, 0x1FFFF])))), 0, 0, _, _, _, _, _, iss (by decide +kernel), pairOf _,
      cl (by decide +kernel), (by unfold Room; decide), rfl, rfl, rfl, (by decide +kernel), (by decide +kernel), (by decide +kernel),
      (by decide +kernel), (by decide +kernel), (by decide +kernel), (by decide +kernel), (by decide +kernel), _, rfl⟩⟩

/-- States and operands that meet the premises of `TurnoutInstructions`. -/
theorem test_premises_TurnoutInstructions :
    (∃ s : State, ∃ v w slot b n k c1, Issues s (Enc.rsend w slot b n) true v ∧ block b 1 (n.toNat + 1) (begin s v (Enc.rsend w slot b n) .nothing) = (k,
      c1) ∧ Clean c1) ∧
    (∃ s : State, ∃ v w slot b n k c1, Issues s (Enc.rrecv w slot b n) false v ∧ dstDeferred b 1 (n.toNat + 1) (begin s v (Enc.rrecv w slot b n)
      .nothing) = (k, c1) ∧ Clean c1 ∧ Room v) :=
  ⟨⟨(base []), (cm (base [])), 0, 15, 4, 7, _, _, iss (by decide), pairOf _, cl (by decide)⟩,
    ⟨(base []), (th (base [])), 0, 0, 4, 0, _, _, iss (by decide +kernel), pairOf _, cl (by decide +kernel), (by unfold Room; decide)⟩⟩

/-- States and operands that meet the premises of `TurnoutTransfer`. -/
theorem test_premises_TurnoutTransfer :
    (∃ s : State, ∃ id : TeamId, ∃ slot : Nat, ∃ team : Team, ∃ v : Turnout, ∃ a b : Nat, ∃ n : Nat, s.team? id = some team ∧ team.turnouts[slot]? = some
      v ∧ s.turnoutSide id v.sender (fun g => s.sendPresent g slot) = some a ∧ s.turnoutSide id v.receiver (fun g => s.recvPresent g slot) = some b
      ∧ (∀ m ∈ s.turnoutCounts (groupOf id a) (groupOf id b) slot, m = n) ∧ (∀ i ∈ s.members (groupOf id a), ∀ t, s.thread? (memberOf (groupOf id a)
      i) = some t → t.stepping = false ∧ s.staysPut (memberOf (groupOf id a) i) t = false) ∧ a ≠ b ∧ ∃ i t w k, i ∈ s.members (groupOf id a) ∧
      s.thread? (memberOf (groupOf id a) i) = some t ∧ t.wait = .send w slot k n) ∧
    (∃ s : State, ∃ id : TeamId, ∃ slot : Nat, ∃ team : Team, ∃ v : Turnout, ∃ a b : Nat, ∃ n : Nat, s.team? id = some team ∧ team.turnouts[slot]? =
      some v ∧ s.turnoutSide id v.sender (fun g => s.sendPresent g slot) = some a ∧ s.turnoutSide id v.receiver (fun g => s.recvPresent g slot) =
      some b ∧ (∀ m ∈ s.turnoutCounts (groupOf id a) (groupOf id b) slot, m = n) ∧ (∀ i ∈ s.members (groupOf id a), ∀ t, s.thread? (memberOf (groupOf
      id a) i) = some t → t.stepping = false ∧ s.staysPut (memberOf (groupOf id a) i) t = false) ∧ ∃ i t e base m values, i ∈ s.members (groupOf id
      b) ∧ s.thread? (memberOf (groupOf id b) i) = some t ∧ s.recvOf (memberOf (groupOf id b) i) slot = some (e, base, m)
      ∧ ((s.sendOf (memberOf (groupOf id a) i) slot = none ∧ values = []) ∨ ∃ w k u, s.sendOf (memberOf (groupOf id a) i) slot = some (w, k, n) ∧
      s.thread? (memberOf (groupOf id a) i) = some u ∧ values = (List.range n).map (fun j => (base + j, u.reg (k + j)))) ∧ a ≠ b) ∧
    (∃ s : State, ∃ id : TeamId, ∃ slot : Nat, ∃ team : Team, ∃ v : Turnout, ∃ a b : Nat, ∃ n : Nat, s.team? id = some team ∧ team.turnouts[slot]? =
      some v ∧ s.turnoutSide id v.sender (fun g => s.sendPresent g slot) = some a ∧ s.turnoutSide id v.receiver (fun g => s.recvPresent g slot) =
      some b ∧ (∀ m ∈ s.turnoutCounts (groupOf id a) (groupOf id b) slot, m = n) ∧ (∀ i ∈ s.members (groupOf id a), ∀ t, s.thread? (memberOf (groupOf
      id a) i) = some t → t.stepping = false ∧ s.staysPut (memberOf (groupOf id a) i) t = false) ∧ ∃ i t e base m values, i ∈ s.members (groupOf id
      b) ∧ s.thread? (memberOf (groupOf id b) i) = some t ∧ s.recvOf (memberOf (groupOf id b) i) slot = some (e, base, m)
      ∧ ((s.sendOf (memberOf (groupOf id a) i) slot = none ∧ values = []) ∨ ∃ w k u, s.sendOf (memberOf (groupOf id a) i) slot = some (w, k, n) ∧
      s.thread? (memberOf (groupOf id a) i) = some u ∧ values = (List.range n).map (fun j => (base + j, u.reg (k + j)))) ∧ a = b) :=
  ⟨⟨duo, ⟨0, 0⟩, 0, _, _, 0, 1, 1, rfl, rfl, (by decide), (by decide), (by decide), (by decide), (by decide), 0, (th duo), (Enc.rsend 0 0 4 0), 4,
      (by decide), (by decide), (by decide)⟩,
    ⟨duo, ⟨0, 0⟩, 0, _, _, 0, 1, 1, rfl, rfl, (by decide), (by decide), (by decide), (by decide), 0, ((duo.thread? ⟨0, 0, 1,
      0⟩).getD (th (base []))), (le (.rrecv 0 4 1) .pending), 4, 1, _, (by decide), (by decide), (by decide), (.inr ⟨Enc.rsend 0 0 4 0, 4, th duo,
      rfl, rfl, rfl⟩), (by decide)⟩,
    ⟨solo, ⟨0, 0⟩, 0, _, _, 0, 0, 1, rfl, rfl, (by decide), (by decide), (by decide), (by decide), 0, (th solo), (le (.rrecv 0 6 1) .pending), 6, 1,
      _, (by decide), (by decide), (by decide), (.inr ⟨Enc.rsend 0 0 4 0, 4, th solo, rfl, rfl, rfl⟩), (by decide)⟩⟩

/-- States and operands that meet the premises of `BarrierInstructions`. -/
theorem test_premises_BarrierInstructions :
    (∃ s : State, ∃ v i word sw cl b n park, encode? i = some word ∧ ((∃ w m, i = .bar w b m ∧ cl = false ∧ n = m.toNat ∧ park = some (Wait.bar b.toNat)
      ∧ sw = true) ∨ (∃ w, i = .barCl w b ∧ cl = true ∧ n = 0 ∧ park = some (Wait.barCl b.toNat) ∧ sw = true) ∨ (∃ w m, i = .arrive w b m 0 ∧ cl =
      false ∧ n = m.toNat ∧ park = none ∧ sw = false) ∨ (∃ w, i = .arrive w b 0 1 ∧ cl = true ∧ n = 0 ∧ park = none ∧ sw = false)) ∧ Issues s word sw
      v ∧ Clean (begin s v word .nothing) ∧ ∃ team x y p, s.team? s.cur.teamId = some team ∧ n ≤ team.groups ∧ s.barrier? s.cur.teamId cl b.toNat =
      some x ∧ x.reached.any (fun r => decide (r.1 = s.cur)) = false ∧ x.full (s.barrierGroups s.cur.teamId cl) = false ∧ (x.n = none ∨ x.n = some n)
      ∧ y = { x with n := some n, reached := x.reached ++ [(s.cur, s.stamp)] } ∧ ∃ wt, park = some wt ∧ p = ((s.pardon s.cur).setBarrier s.cur.teamId
      cl b.toNat y).setThread s.cur { v with wait := wt }) ∧
    (∃ s : State, ∃ v i word sw cl b n park, encode? i = some word ∧ ((∃ w m, i = .bar w b m ∧ cl = false ∧ n = m.toNat ∧ park = some (Wait.bar
      b.toNat) ∧ sw = true) ∨ (∃ w, i = .barCl w b ∧ cl = true ∧ n = 0 ∧ park = some (Wait.barCl b.toNat) ∧ sw = true) ∨ (∃ w m, i = .arrive w b m 0
      ∧ cl = false ∧ n = m.toNat ∧ park = none ∧ sw = false) ∨ (∃ w, i = .arrive w b 0 1 ∧ cl = true ∧ n = 0 ∧ park = none ∧ sw = false)) ∧ Issues s
      word sw v ∧ Clean (begin s v word .nothing) ∧ ∃ team x y p, s.team? s.cur.teamId = some team ∧ n ≤ team.groups ∧ s.barrier? s.cur.teamId cl
      b.toNat = some x ∧ x.reached.any (fun r => decide (r.1 = s.cur)) = false ∧ x.full (s.barrierGroups s.cur.teamId cl) = false ∧ (x.n = none ∨ x.n
      = some n) ∧ y = { x with n := some n, reached := x.reached ++ [(s.cur, s.stamp)] } ∧ park = none ∧ p
      = ({ begin s v word .nothing with s := (s.pardon s.cur).setBarrier s.cur.teamId cl b.toNat y } : Ctx).retired v.stepping) :=
  ⟨⟨(base []), (cm (base [])), (.bar 0 15 1), _, true, false, 15, 1, (some (.bar 15)), rfl, (.inl ⟨0, 1, (by decide)⟩), iss (by decide),
      cl (by decide), _, _, _, _, rfl, (by decide), rfl, (by decide), (by decide), (by decide), rfl, (.bar 15), rfl, rfl⟩,
    ⟨(base []), (th (base [])), (.arrive 0 0 0 1), _, false, true, 0, 0, none, rfl, (.inr (.inr (.inr ⟨0, (by decide)⟩))), iss (by decide),
      cl (by decide), _, _, _, _, rfl, (by decide), rfl, (by decide), (by decide), (by decide), rfl, rfl, rfl⟩⟩

/-- States and operands that meet the premises of `BarrierSecondArrival`. -/
theorem test_premises_BarrierSecondArrival :
    ∃ s : State, ∃ v w b m x team, Issues s (Enc.bar w b m) true v ∧ Clean (begin s v (Enc.bar w b m) .nothing) ∧ s.team? s.cur.teamId = some team ∧
      m.toNat ≤ team.groups ∧ s.barrier? s.cur.teamId false b.toNat = some x ∧ x.reached.any (fun r => decide (r.1 = s.cur)) = true :=
  ⟨(tm (fun t => { t with bars := [{ n := some 1, reached := [(⟨0, 0, 0, 0⟩, 0)], arrived := [] }] }) (base [])),
      (cm (tm (fun t => { t with bars := [{ n := some 1, reached := [(⟨0, 0, 0, 0⟩, 0)], arrived := [] }] }) (base []))), 0, 0, 1, _, _,
      iss (by decide), cl (by decide), someOf (by decide), (by decide), someOf (by decide), (by decide)⟩

/-- States and operands that meet the premises of `BarrierPhase`. -/
theorem test_premises_BarrierPhase :
    (∃ s : State, ∃ id : TeamId, ∃ k : Nat, ∃ b b' : Barrier, s.barrier? id false k = some b ∧ b.n.isSome = true ∧ b' = s.noteArrivals b (s.barrierGroups
      id false) ∧ b'.full (s.barrierGroups id false) = true ∧ s.arrivalsDone b' = true ∧ (s.threads.map (fun p => p.1)).Nodup ∧ (∀ i t, s.thread? i =
      some t → i.teamId = id → t.wait = .bar k → i.group ∈ b'.arrived → t.stepping = false ∧ s.staysPut i t = false) ∧ ∃ i t, s.thread? i = some t ∧
      i.teamId = id ∧ t.wait = .bar k ∧ i.group ∈ b'.arrived) ∧
    (∃ s : State, ∃ id : TeamId, ∃ k : Nat, ∃ b b' : Barrier, s.barrier? id false k = some b ∧ b.n.isSome = true ∧ b' = s.noteArrivals
      b (s.barrierGroups id false) ∧ b'.full (s.barrierGroups id false) = true ∧ s.arrivalsDone b' = true ∧ (s.threads.map (fun p => p.1)).Nodup ∧ (∀
      i t, s.thread? i = some t → i.teamId = id → t.wait = .bar k → i.group ∈ b'.arrived → t.stepping = false ∧ s.staysPut i t = false) ∧ ∃ i :
      ThreadId, i.teamId ≠ id) ∧
    (∃ s : State, ∃ id : TeamId, ∃ k : Nat, ∃ b b' : Barrier, s.barrier? id false k = some b ∧ b.n.isSome = true ∧ b' = s.noteArrivals
      b (s.barrierGroups id false) ∧ b'.full (s.barrierGroups id false) = true ∧ s.arrivalsDone b' = true ∧ (s.threads.map (fun p => p.1)).Nodup ∧ (∀
      i t, s.thread? i = some t → i.teamId = id → t.wait = .bar k → i.group ∈ b'.arrived → t.stepping = false ∧ s.staysPut i t = false) ∧ ∃
      x, (s.barrierStep id false k).barrier? id false k = some x) :=
  ⟨⟨(tm (fun t => { t with bars := [{ n := some 1, reached := [(⟨0, 0, 0, 0⟩, 0)], arrived := [] }] }) (put (fun t => { t with wait := .bar 0 }) (base []))), ⟨0, 0⟩, 0, _, _, someOf (by decide), (by decide), rfl, (by decide), (by decide), (by decide), (lone rfl (fun _ _ _ => ⟨by decide, (by decide)⟩)), ⟨0, 0, 0, 0⟩, (th (tm (fun t => { t with bars := [{ n := some 1, reached := [(⟨0, 0, 0, 0⟩, 0)], arrived := [] }] }) (put (fun t => { t with wait := .bar 0 }) (base [])))), (by decide), (by decide), (by decide), (by decide)⟩,
    ⟨(tm (fun t => { t with bars := [{ n := some 1, reached := [(⟨0, 0, 0, 0⟩, 0)], arrived := [] }] }) (put (fun t => { t with wait := .bar 0 }) (base []))), ⟨0, 0⟩, 0, _, _, someOf (by decide), (by decide), rfl, (by decide), (by decide), (by decide), (lone rfl (fun _ _ _ => ⟨by decide, (by decide)⟩)), ⟨0, 1, 0, 0⟩, (by decide)⟩,
    ⟨(tm (fun t => { t with bars := [{ n := some 1, reached := [(⟨0, 0, 0, 0⟩, 0)], arrived := [] }] }) (put (fun t => { t with wait := .bar 0 }) (base []))), ⟨0, 0⟩, 0, _, _, someOf (by decide), (by decide), rfl, (by decide), (by decide), (by decide), (lone rfl (fun _ _ _ => ⟨by decide, (by decide)⟩)), _, someOf (by decide)⟩⟩

/-- States and operands that meet the premises of `TileInstructions`. -/
theorem test_premises_TileInstructions :
    (∃ s : State, ∃ v i word c1 value t, encode? i = some word ∧ Issues s word false v ∧ ((∃ w f, i = .tdef w t f ∧ c1 = begin s v word .immOnly ∧ value
      = (HintSet.of v.hints).immU f.toNat 11) ∨ (∃ w a x, i = .tdefReg w t a ∧ src a (begin s v word .nothing) = (x, c1) ∧ value = x.toNat)) ∧ Clean
      c1 ∧ value < 2 ^ 26 ∧ s.inRange s.cur .co (64 * (value % 8192)) (64 * (value / 8192 + 1)) = true ∧ t.toNat < s.tileCount s.cur.teamId ∧
      s.tileBusy s.cur.teamId t.toNat = false) ∧
    (∃ s : State, ∃ v i word c1 value t, encode? i = some word ∧ Issues s word false v ∧ ((∃ w f, i = .tdef w t f ∧ c1 = begin s v word .immOnly ∧
      value = (HintSet.of v.hints).immU f.toNat 11) ∨ (∃ w a x, i = .tdefReg w t a ∧ src a (begin s v word .nothing) = (x, c1) ∧ value = x.toNat)) ∧
      Clean c1 ∧ value < 2 ^ 26 ∧ s.inRange s.cur .co (64 * (value % 8192)) (64 * (value / 8192 + 1)) = true ∧ t.toNat < s.tileCount s.cur.teamId ∧
      s.tileBusy s.cur.teamId t.toNat = false) ∧
    (∃ s : State, ∃ v i word c1 value t, encode? i = some word ∧ Issues s word false v ∧ ((∃ w f, i = .tdef w t f ∧ c1 = begin s v word .immOnly ∧
      value = (HintSet.of v.hints).immU f.toNat 11) ∨ (∃ w a x, i = .tdefReg w t a ∧ src a (begin s v word .nothing) = (x, c1) ∧ value = x.toNat)) ∧
      Clean c1 ∧ value < 2 ^ 26 ∧ s.inRange s.cur .co (64 * (value % 8192)) (64 * (value / 8192 + 1)) = true ∧ t.toNat < s.tileCount s.cur.teamId ∧
      s.tileBusy s.cur.teamId t.toNat = true) ∧
    (∃ s : State, ∃ v i word c1 value t, encode? i = some word ∧ Issues s word false v ∧ ((∃ w f, i = .tdef w t f ∧ c1 = begin s v word .immOnly ∧
      value = (HintSet.of v.hints).immU f.toNat 11) ∨ (∃ w a x, i = .tdefReg w t a ∧ src a (begin s v word .nothing) = (x, c1) ∧ value = x.toNat)) ∧
      Clean c1 ∧ value < 2 ^ 26 ∧ s.inRange s.cur .co (64 * (value % 8192)) (64 * (value / 8192 + 1)) = true ∧ s.tileCount s.cur.teamId ≤ t.toNat ∧
      v.log = [] ∧ s.deliver s.cur v = none) ∧
    (∃ s : State, ∃ v w t x, Issues s (Enc.tfree w t) false v ∧ Clean (begin s v (Enc.tfree w t) .nothing) ∧ s.tile? s.cur.teamId t.toNat = some x ∧
      x.valid = true ∧ s.tileBusy s.cur.teamId t.toNat = false) ∧
    (∃ s : State, ∃ v w t x, Issues s (Enc.tfree w t) false v ∧ Clean (begin s v (Enc.tfree w t) .nothing) ∧ s.tile? s.cur.teamId t.toNat = some x ∧
      x.valid = false ∧ v.log = [] ∧ s.deliver s.cur v = none) ∧
    (∃ s : State, ∃ v w t d l c1 x, Issues s (Enc.tstate w t d) false v ∧ dst d (begin s v (Enc.tstate w t d) .nothing) = (l, c1) ∧ Clean c1 ∧
      s.tile? s.cur.teamId t.toNat = some x) :=
  ⟨⟨(base []), (th (base [])), (.tdef 0 15 0x3FF), _, _, _, 15, rfl, iss (by decide), (.inl ⟨0, 0x3FF, rfl, rfl, rfl⟩), cl (by decide), (by decide),
      (by decide), (by decide), (by decide)⟩,
    ⟨(base [0, 0, 0, 0, 0, 0x3FF]), (th (base [0, 0, 0, 0, 0, 0x3FF])), (.tdefReg 0 0 5), _, _, _, 0, rfl, iss (by decide), (.inr ⟨0, 5, _, rfl,
      pairOf _, rfl⟩), cl (by decide), (by decide), (by decide), (by decide), (by decide)⟩,
    ⟨(tm (fun t => { t with tiles := [{ valid := true, state := .filling, base := 0, bytes := 64, bar := 0 }] }) (base [])),
      (th (tm (fun t => { t with tiles := [{ valid := true, state := .filling, base := 0, bytes := 64, bar := 0 }] }) (base []))), (.tdef 0 0 0), _,
      _, _, 0, rfl, iss (by decide), (.inl ⟨0, 0, rfl, rfl, rfl⟩), cl (by decide), (by decide), (by decide), (by decide), (by decide)⟩,
    ⟨(base []), (th (base [])), (.tdef 0 16 0), _, _, _, 16, rfl, iss (by decide), (.inl ⟨0, 0, rfl, rfl, rfl⟩), cl (by decide), (by decide),
      (by decide), (by decide), (by decide), (by decide)⟩,
    ⟨(tm (fun t => { t with tiles := [{ valid := true, state := .ready, base := 0, bytes := 64, bar := 0 }] }) (base [])),
      (th (tm (fun t => { t with tiles := [{ valid := true, state := .ready, base := 0, bytes := 64, bar := 0 }] }) (base []))), 0, 0, _,
      iss (by decide), cl (by decide), rfl, (by decide), (by decide)⟩,
    ⟨(base []), (th (base [])), 0, 15, _, iss (by decide), cl (by decide), rfl, (by decide), (by decide), (by decide)⟩,
    ⟨(tm (fun t => { t with tiles := List.replicate 256 { valid := false, state := .empty, base := 0, bytes := 0, bar := 0 } }) (base [])),
      (th (tm (fun t => { t with tiles := List.replicate 256 { valid := false, state := .empty, base := 0, bytes := 0, bar := 0 } }) (base []))), 0,
      255, 4, _, _, _, iss (by decide), pairOf _, cl (by decide), rfl⟩⟩

/-- States and operands that meet the premises of `BarrierObjectInstructions`. -/
theorem test_premises_BarrierObjectInstructions :
    (∃ s : State, ∃ v w a b k c1 e c2, Issues s (Enc.barm w a b) false v ∧ block a 1 1 (begin s v (Enc.barm w a b) .nothing) = (k, c1) ∧ src b c1 = (e,
      c2) ∧ Clean c1 ∧ Clean c2 ∧ (c1.th.reg k).toNat % 8 = 0 ∧ s.inRange s.cur .co (c1.th.reg k).toNat 8 = true ∧ Room v) ∧
    (∃ s : State, ∃ v w t b e c1 x, Issues s (Enc.barmT w t b) false v ∧ src b (begin s v (Enc.barmT w t b) .nothing) = (e, c1) ∧ Clean c1 ∧ t.toNat
      < s.tileCount s.cur.teamId ∧ s.tile? s.cur.teamId t.toNat = some x ∧ x.valid = true ∧ Room v) ∧
    (∃ s : State, ∃ v w a b k c1 y c2 p, Issues s (Enc.bwait w a b) true v ∧ block a 1 1 (begin s v (Enc.bwait w a b) .nothing) = (k, c1) ∧ src b c1
      = (y, c2) ∧ Clean c1 ∧ Clean c2 ∧ (c1.th.reg k).toNat % 8 = 0 ∧ s.inRange s.cur .co (c1.th.reg k).toNat 8 = true ∧ p = s.setThread s.cur
      { c2.th with wait := .bwait (.object s.cur.teamId (c1.th.reg k).toNat) (y.getLsbD 0) } ∧ (s.barValue (.object s.cur.teamId (c1.th.reg
      k).toNat)).getLsbD 63 ≠ y.getLsbD 0) ∧
    (∃ s : State, ∃ v w a b k c1 y c2 p, Issues s (Enc.bwait w a b) true v ∧ block a 1 1 (begin s v (Enc.bwait w a b) .nothing) = (k, c1) ∧ src b c1
      = (y, c2) ∧ Clean c1 ∧ Clean c2 ∧ (c1.th.reg k).toNat % 8 = 0 ∧ s.inRange s.cur .co (c1.th.reg k).toNat 8 = true ∧ p = s.setThread s.cur
      { c2.th with wait := .bwait (.object s.cur.teamId (c1.th.reg k).toNat) (y.getLsbD 0) } ∧ (s.barValue (.object s.cur.teamId (c1.th.reg
      k).toNat)).getLsbD 63 = y.getLsbD 0) ∧
    (∃ s : State, ∃ v w t b y c1 x p, Issues s (Enc.bwaitT w t b) true v ∧ src b (begin s v (Enc.bwaitT w t b) .nothing) = (y, c1) ∧ Clean c1 ∧
      t.toNat < s.tileCount s.cur.teamId ∧ s.tile? s.cur.teamId t.toNat = some x ∧ x.valid = true ∧ p = s.setThread s.cur
      { c1.th with wait := .bwait (.tile s.cur.teamId t.toNat) (y.getLsbD 0) } ∧ x.bar.getLsbD 63 ≠ y.getLsbD 0) ∧
    (∃ s : State, ∃ v w t b y c1 x p, Issues s (Enc.bwaitT w t b) true v ∧ src b (begin s v (Enc.bwaitT w t b) .nothing) = (y, c1) ∧ Clean c1 ∧
      t.toNat < s.tileCount s.cur.teamId ∧ s.tile? s.cur.teamId t.toNat = some x ∧ x.valid = true ∧ p = s.setThread s.cur
      { c1.th with wait := .bwait (.tile s.cur.teamId t.toNat) (y.getLsbD 0) } ∧ x.bar.getLsbD 63 = y.getLsbD 0) :=
  ⟨⟨(base [0, 0, 0, 0, 0, 0xFFF8]), (th (base [0, 0, 0, 0, 0, 0xFFF8])), 0, 5, 6, _, _, _, _, iss (by decide), pairOf _, pairOf _, cl (by decide),
      cl (by decide), (by decide), (by decide), (by unfold Room; decide)⟩,
    ⟨(tm (fun t => { t with tiles := [{ valid := true, state := .ready, base := 0, bytes := 64, bar := 0 }] }) (base [])),
      (th (tm (fun t => { t with tiles := [{ valid := true, state := .ready, base := 0, bytes := 64, bar := 0 }] }) (base []))), 0, 0, 6, _, _, _,
      iss (by decide), pairOf _, cl (by decide), (by decide), rfl, (by decide), (by unfold Room; decide)⟩,
    ⟨(base [0, 0, 0, 0, 0, 0, 1]), (cm (base [0, 0, 0, 0, 0, 0, 1])), 0, 5, 6, _, _, _, _, _, iss (by decide), pairOf _, pairOf _, cl (by decide),
      cl (by decide), (by decide), (by decide), rfl, (by decide)⟩,
    ⟨(base []), (cm (base [])), 0, 5, 6, _, _, _, _, _, iss (by decide), pairOf _, pairOf _, cl (by decide), cl (by decide), (by decide),
      (by decide), rfl, (by decide)⟩,
    ⟨(tm (fun t => { t with tiles := [{ valid := true, state := .ready, base := 0, bytes := 64, bar := 1#64 <<< 63 }] }) (base [])),
      (cm (tm (fun t => { t with tiles := [{ valid := true, state := .ready, base := 0, bytes := 64, bar := 1#64 <<< 63 }] }) (base []))), 0, 0, 6,
      _, _, _, _, iss (by decide), pairOf _, cl (by decide), (by decide), rfl, (by decide), rfl, (by decide)⟩,
    ⟨(tm (fun t => { t with tiles := [{ valid := true, state := .ready, base := 0, bytes := 64, bar := 0 }] }) (base [])),
      (cm (tm (fun t => { t with tiles := [{ valid := true, state := .ready, base := 0, bytes := 64, bar := 0 }] }) (base []))), 0, 0, 6, _, _, _, _,
      iss (by decide), pairOf _, cl (by decide), (by decide), rfl, (by decide), rfl, (by decide)⟩⟩

/-- States and operands that meet the premises of `CopyAndChainStarts`. -/
theorem test_premises_CopyAndChainStarts :
    (∃ s : State, ∃ v w a n k c1 x, Issues s (Enc.kick w a n) true v ∧ block a 1 1 (begin s v (Enc.kick w a n) .nothing) = (k, c1) ∧ Clean c1 ∧ x =
      c1.th.reg k ∧ x.toNat % 32 = 0 ∧ s.inRange s.cur .co x.toNat (32 * (n.toNat + 1)) = true ∧ (s.core s.cur.core).batches.length < 16) ∧
    (∃ s : State, ∃ v w a n k c1 x, Issues s (Enc.kick w a n) true v ∧ block a 1 1 (begin s v (Enc.kick w a n) .nothing) = (k, c1) ∧ Clean c1 ∧ x =
      c1.th.reg k ∧ x.toNat % 32 ≠ 0 ∧ v.log = [] ∧ s.deliver s.cur v = none) ∧
    (∃ s : State, ∃ v w a k c1 x ch, Issues s (Enc.chain w a) true v ∧ block a 1 1 (begin s v (Enc.chain w a) .nothing) = (k, c1) ∧ Clean c1 ∧ x =
      c1.th.reg k ∧ x.toNat % 128 = 0 ∧ s.inRange s.cur .co x.toNat 128 = true ∧ s.doneBefore s.cur s.stamp = true ∧ ch = c1.chainAt x.toNat ∧
      chainOk ch = true ∧ s.canOwn s.cur.core (chainRange ch) = true) ∧
    (∃ s : State, ∃ v w a k c1 x ch, Issues s (Enc.chain w a) true v ∧ block a 1 1 (begin s v (Enc.chain w a) .nothing) = (k, c1) ∧ Clean c1 ∧ x =
      c1.th.reg k ∧ x.toNat % 128 = 0 ∧ s.inRange s.cur .co x.toNat 128 = true ∧ s.doneBefore s.cur s.stamp = true ∧ ch = c1.chainAt x.toNat ∧
      chainOk ch = false) :=
  ⟨⟨(base [0, 0, 0, 0, 0, 0x100]), (cm (base [0, 0, 0, 0, 0, 0x100])), 0, 5, 31, _, _, _, iss (by decide), pairOf _, cl (by decide), rfl, (by decide),
      (by decide), (by decide)⟩,
    ⟨(base [0, 0, 0, 0, 0, 0x10]), (cm (base [0, 0, 0, 0, 0, 0x10])), 0, 5, 0, _, _, _, iss (by decide), pairOf _, cl (by decide), rfl, (by decide),
      (by decide), (by decide)⟩,
    ⟨(chn [0, 0, 0, 0, 0, 0x100]), (cm (chn [0, 0, 0, 0, 0, 0x100])), 0, 5, _, _, _, _, iss (by decide), pairOf _, cl (by decide), rfl, (by decide),
      (by decide), (by decide), rfl, (by decide +kernel), (by decide +kernel)⟩,
    ⟨(base [0, 0, 0, 0, 0, 0x100]), (cm (base [0, 0, 0, 0, 0, 0x100])), 0, 5, _, _, _, _, iss (by decide), pairOf _, cl (by decide), rfl,
      (by decide), (by decide), (by decide), rfl, (by decide)⟩⟩

/-- States and operands that meet the premises of `TaskInstruction`. -/
theorem test_premises_TaskInstruction :
    (∃ s : State, ∃ v w a n c1, Issues s (Enc.task w a) true v ∧ block a 4 4 (begin s v (Enc.task w a) .nothing) = (n, c1) ∧ Clean c1 ∧ (c1.th.reg
      n).extractLsb' 2 30 = 0 ∧ (c1.th.reg (n + 3)).extractLsb' 13 19 = 0 ∧ ∃ tiles : TaskTiles, tiles.inputs = ((List.range 4).filter (fun j
      => (c1.th.reg (n + 3)).getLsbD (9 + j))).map (fun j => ((c1.th.reg (n + 2)).extractLsb' (8 * j) 8).toNat) ∧ tiles.out = (if (c1.th.reg (n +
      3)).getLsbD 8 then some ((c1.th.reg (n + 3)).extractLsb' 0 8).toNat else none) ∧ (∀ t ∈ tiles.inputs ++ tiles.out.toList, ∃ x, s.tile?
      s.cur.teamId t = some x ∧ x.valid = true) ∧ (c1.th.reg n).toNat = 0 ∧ ∃ off r req, off = (c1.th.reg (n + 1)).toNat ∧ off % 32 = 0 ∧ s.inRange
      s.cur .co off 32 = true ∧ (s.core s.cur.core).flow.length < 64 ∧ s.doneBefore s.cur s.stamp = true ∧ r = s.read (s.coPa s.cur.teamId off) 32
      ∧ (rqTileDst r = true → tiles.out = some (rqTile r)) ∧ s.rqOk s.cur.teamId r = true ∧ req = CopyReq.mk s.cur s.stamp (s.asidOf s.cur.teamId)
      c1.th.kernel r true (s.rqPieces r) (List.range (s.rqPieces r).length) false s.nextId c1.th.sofar ∧ s.canOwn s.cur.core req.ranges = true) ∧
    (∃ s : State, ∃ v w a n c1, Issues s (Enc.task w a) true v ∧ block a 4 4 (begin s v (Enc.task w a) .nothing) = (n, c1) ∧ Clean c1 ∧ (c1.th.reg
      n).extractLsb' 2 30 = 0 ∧ (c1.th.reg (n + 3)).extractLsb' 13 19 = 0 ∧ ∃ tiles : TaskTiles, tiles.inputs = ((List.range 4).filter (fun j
      => (c1.th.reg (n + 3)).getLsbD (9 + j))).map (fun j => ((c1.th.reg (n + 2)).extractLsb' (8 * j) 8).toNat) ∧ tiles.out = (if (c1.th.reg (n +
      3)).getLsbD 8 then some ((c1.th.reg (n + 3)).extractLsb' 0 8).toNat else none) ∧ (∀ t ∈ tiles.inputs ++ tiles.out.toList, ∃ x, s.tile?
      s.cur.teamId t = some x ∧ x.valid = true) ∧ (c1.th.reg n).toNat = 1 ∧ ∃ off ch, off = (c1.th.reg (n + 1)).toNat ∧ off % 128 = 0 ∧ s.inRange
      s.cur .co off 128 = true ∧ (s.core s.cur.core).flow.length < 64 ∧ s.doneBefore s.cur s.stamp = true ∧ ch = c1.chainAt off ∧ chainOk ch = true ∧
      s.canOwn s.cur.core (chainRange ch) = true) ∧
    (∃ s : State, ∃ v w a n c1, Issues s (Enc.task w a) true v ∧ block a 4 4 (begin s v (Enc.task w a) .nothing) = (n, c1) ∧ Clean c1 ∧ (c1.th.reg
      n).extractLsb' 2 30 = 0 ∧ (c1.th.reg (n + 3)).extractLsb' 13 19 = 0 ∧ ∃ tiles : TaskTiles, tiles.inputs = ((List.range 4).filter (fun j
      => (c1.th.reg (n + 3)).getLsbD (9 + j))).map (fun j => ((c1.th.reg (n + 2)).extractLsb' (8 * j) 8).toNat) ∧ tiles.out = (if (c1.th.reg (n +
      3)).getLsbD 8 then some ((c1.th.reg (n + 3)).extractLsb' 0 8).toNat else none) ∧ (∀ t ∈ tiles.inputs ++ tiles.out.toList, ∃ x, s.tile?
      s.cur.teamId t = some x ∧ x.valid = true) ∧ (c1.th.reg n).toNat = 2 ∧ ∃ g op x y quad c2 team r pairs k after, TaskSigns s c1
      tiles (c1.th.reg (n + 1)) g op x y quad c2 ∧ Clean c2 ∧ s.team? s.cur.teamId = some team ∧ team.conv[g.toNat]? = some r ∧ r.declared =
      some (pairs, k) ∧ pairs.any (fun p => decide (p.1 = s.cur.grp) && p.2.getLsbD s.cur.mem) = true ∧ r.sigs.any (fun z => decide (z.thread =
      s.cur)) = false ∧ after = signed s g.toNat r (Enc.task w a) op x y c2.th (some quad) ∧ after.convTry s.cur.teamId g.toNat (some s.cur) =
      .waiting ∧ after.setSigned s.cur.teamId pairs (signing s r (Enc.task w a) op x y c2.th (some quad)) = false) ∧
    (∃ s : State, ∃ v w a n c1, Issues s (Enc.task w a) true v ∧ block a 4 4 (begin s v (Enc.task w a) .nothing) = (n, c1) ∧ Clean c1 ∧ (c1.th.reg
      n).extractLsb' 2 30 = 0 ∧ (c1.th.reg (n + 3)).extractLsb' 13 19 = 0 ∧ ∃ tiles : TaskTiles, tiles.inputs = ((List.range 4).filter (fun j
      => (c1.th.reg (n + 3)).getLsbD (9 + j))).map (fun j => ((c1.th.reg (n + 2)).extractLsb' (8 * j) 8).toNat) ∧ tiles.out = (if (c1.th.reg (n +
      3)).getLsbD 8 then some ((c1.th.reg (n + 3)).extractLsb' 0 8).toNat else none) ∧ (∀ t ∈ tiles.inputs ++ tiles.out.toList, ∃ x, s.tile?
      s.cur.teamId t = some x ∧ x.valid = true) ∧ (c1.th.reg n).toNat = 2 ∧ ∃ g op x y quad c2 team r pairs k after, TaskSigns s c1
      tiles (c1.th.reg (n + 1)) g op x y quad c2 ∧ Clean c2 ∧ s.team? s.cur.teamId = some team ∧ team.conv[g.toNat]? = some r ∧ r.declared =
      some (pairs, k) ∧ pairs.any (fun p => decide (p.1 = s.cur.grp) && p.2.getLsbD s.cur.mem) = true ∧ r.sigs.any (fun z => decide (z.thread =
      s.cur)) = false ∧ after = signed s g.toNat r (Enc.task w a) op x y c2.th (some quad) ∧ after.convTry s.cur.teamId g.toNat (some s.cur) =
      .waiting ∧ after.setSigned s.cur.teamId pairs (signing s r (Enc.task w a) op x y c2.th (some quad)) = true) ∧
    (∃ s : State, ∃ v w a n c1, Issues s (Enc.task w a) true v ∧ block a 4 4 (begin s v (Enc.task w a) .nothing) = (n, c1) ∧ Clean c1 ∧ (c1.th.reg
      n).extractLsb' 2 30 = 0 ∧ (c1.th.reg (n + 3)).extractLsb' 13 19 = 0 ∧ ∃ tiles : TaskTiles, tiles.inputs = ((List.range 4).filter (fun j
      => (c1.th.reg (n + 3)).getLsbD (9 + j))).map (fun j => ((c1.th.reg (n + 2)).extractLsb' (8 * j) 8).toNat) ∧ tiles.out = (if (c1.th.reg (n +
      3)).getLsbD 8 then some ((c1.th.reg (n + 3)).extractLsb' 0 8).toNat else none) ∧ (∀ t ∈ tiles.inputs ++ tiles.out.toList, ∃ x, s.tile?
      s.cur.teamId t = some x ∧ x.valid = true) ∧ (c1.th.reg n).toNat = 2 ∧ ∃ g op x y quad c2 team r pairs k after, TaskSigns s c1
      tiles (c1.th.reg (n + 1)) g op x y quad c2 ∧ Clean c2 ∧ s.team? s.cur.teamId = some team ∧ team.conv[g.toNat]? = some r ∧ r.declared =
      some (pairs, k) ∧ pairs.any (fun p => decide (p.1 = s.cur.grp) && p.2.getLsbD s.cur.mem) = true ∧ r.sigs.any (fun z => decide (z.thread =
      s.cur)) = false ∧ after = signed s g.toNat r (Enc.task w a) op x y c2.th (some quad) ∧ ∃ t, after.convTry s.cur.teamId g.toNat (some s.cur) =
      .issued t) :=
  ⟨⟨(cpy [0, 0x100, 0, 0]), (cm (cpy [0, 0x100, 0, 0])), 0, 0, _, _, iss (by decide), pairOf _, cl (by decide), (by decide), (by decide), ⟨[], none⟩,
      (by decide), (by decide), (fun t ht => absurd ht (by simp)), (by decide), _, _, _, rfl, (by decide), (by decide), (by decide), (by decide),
      rfl, (fun h => absurd h (by decide)), (by decide), rfl, (by decide)⟩,
    ⟨(chn [1, 0x100, 0, 0]), (cm (chn [1, 0x100, 0, 0])), 0, 0, _, _, iss (by decide), pairOf _, cl (by decide), (by decide), (by decide), ⟨[],
      none⟩, (by decide), (by decide), (fun t ht => absurd ht (by simp)), (by decide), _, _, rfl, (by decide), (by decide), (by decide), (by decide),
      rfl, (by decide +kernel), (by decide)⟩,
    ⟨(cv true [] [2, Enc.mzero 0 0 0, 0, 0]), (cm (cv true [] [2, Enc.mzero 0 0 0, 0, 0])), 0, 0, _, _, iss (by decide), pairOf _, cl (by decide),
      (by decide), (by decide), ⟨[], none⟩, (by decide), (by decide), (fun t ht => absurd ht (by simp)), (by decide), 0, (.mzero 0), 0, 0, _, _, _,
      _, _, _, _, (TaskSigns.mzero 0 0), cl (by decide), rfl, rfl, rfl, (by decide), (by decide), rfl, (by decide), (by decide)⟩,
    ⟨((cv false [] [2, Enc.mzero 0 0 0, 0,
      0]).modCore 0 (fun k => { k with flow := List.replicate 64 { team := ⟨0, 0⟩, cmd := .chain { thread := ⟨0, 0, 0, 0⟩, stamp := 0, asid := 0, kernel := true, seed := 0, fmts := [], desc := [], pending := [], tag := 0 }, tiles := ⟨[], none⟩, running := true } })), (cm ((cv false [] [2, Enc.mzero 0 0 0, 0, 0]).modCore 0 (fun k => { k with flow := List.replicate 64 { team := ⟨0, 0⟩, cmd := .chain { thread := ⟨0, 0, 0, 0⟩, stamp := 0, asid := 0, kernel := true, seed := 0, fmts := [], desc := [], pending := [], tag := 0 }, tiles := ⟨[], none⟩, running := true } }))), 0, 0, _, _, iss (by decide), pairOf _, cl (by decide), (by decide), (by decide), ⟨[], none⟩, (by decide), (by decide), (fun t ht => absurd ht (by simp)), (by decide), 0, (.mzero 0), 0, 0, _, _, _, _, _, _, _, (TaskSigns.mzero 0 0), cl (by decide), rfl, rfl, rfl, (by decide), (by decide), rfl, (by decide), (by decide)⟩,
    ⟨(cv false [] [2, Enc.mzero 0 0 0, 0, 0]), (cm (cv false [] [2, Enc.mzero 0 0 0, 0, 0])), 0, 0, _, _, iss (by decide), pairOf _, cl (by decide),
      (by decide), (by decide), ⟨[], none⟩, (by decide), (by decide), (fun t ht => absurd ht (by simp)), (by decide), 0, (.mzero 0), 0, 0, _, _, _,
      _, _, _, _, (TaskSigns.mzero 0 0), cl (by decide), rfl, rfl, rfl, (by decide), (by decide), rfl, _, rfl⟩⟩

/-- States and operands that meet the premises of `ConvergenceDeclaration`. -/
theorem test_premises_ConvergenceDeclaration :
    (∃ s : State, ∃ v w g a n c1 team r, Issues s (Enc.gdef w g a) false v ∧ block a 4 4 (begin s v (Enc.gdef w g a) .nothing) = (n, c1) ∧ Clean c1 ∧
      s.team? s.cur.teamId = some team ∧ team.conv[g.toNat]? = some r ∧ (∃ i, i < 32 ∧ (c1.th.reg n).getLsbD i = true ∧ (c1.th.reg (n + 3) ++
      c1.th.reg (n + 2)).toNat % 2 ^ s.gwidth ⟨s.cur.core, s.cur.team, i⟩ ≠ 0) ∧ (c1.th.reg n).toNat < 2 ^ team.groups ∧ (c1.th.reg (n +
      1)).extractLsb' 16 16 = 0 ∧ r.sigs = []) ∧
    (∃ s : State, ∃ v w g a n c1 team r, Issues s (Enc.gdef w g a) false v ∧ block a 4 4 (begin s v (Enc.gdef w g a) .nothing) = (n, c1) ∧ Clean c1 ∧
      s.team? s.cur.teamId = some team ∧ team.conv[g.toNat]? = some r ∧ (∃ i, i < 32 ∧ (c1.th.reg n).getLsbD i = true ∧ (c1.th.reg (n + 3) ++
      c1.th.reg (n + 2)).toNat % 2 ^ s.gwidth ⟨s.cur.core, s.cur.team, i⟩ ≠ 0) ∧ (c1.th.reg n).toNat < 2 ^ team.groups ∧ (c1.th.reg (n +
      1)).extractLsb' 16 16 = 0 ∧ r.sigs ≠ [] ∧ v.log = [] ∧ s.deliver s.cur v = none) :=
  ⟨⟨(tm (fun t => { t with conv := [{ declared := none, sigs := [], offered := none }] }) (base [1, 0, 1, 0])),
      (th (tm (fun t => { t with conv := [{ declared := none, sigs := [], offered := none }] }) (base [1, 0, 1, 0]))), 0, 0, 0, _, _, _, _,
      iss (by decide), pairOf _, cl (by decide), rfl, rfl, ⟨0, (by decide), (by decide), (by decide)⟩, (by decide), (by decide), (by decide)⟩,
    ⟨(tm (fun t => { t with conv := [{ declared := none, sigs := [sg 0], offered := none }] }) (base [1, 0, 1, 0])),
      (th (tm (fun t => { t with conv := [{ declared := none, sigs := [sg 0], offered := none }] }) (base [1, 0, 1, 0]))), 0, 0, 0, _, _, _, _,
      iss (by decide), pairOf _, cl (by decide), rfl, rfl, ⟨0, (by decide), (by decide), (by decide)⟩, (by decide), (by decide), (by decide),
      (by decide), (by decide)⟩⟩

/-- States and operands that meet the premises of `Signing`. -/
theorem test_premises_Signing :
    (∃ s : State, ∃ v i g op x y c word, SignsFor s v i g op x y c ∧ encode? i = some word ∧ Issues s word false v ∧ Clean c ∧ ∃ team r, s.team?
      s.cur.teamId = some team ∧ team.conv[g.toNat]? = some r ∧ ∃ pairs k, r.declared = some (pairs, k) ∧ pairs.any (fun p => decide (p.1 =
      s.cur.grp) && p.2.getLsbD s.cur.mem) = true ∧ r.sigs.any (fun z => decide (z.thread = s.cur)) = false ∧ (signed s g.toNat r word op x y c.th
      none).convTry s.cur.teamId g.toNat (some s.cur) = .waiting) ∧
    (∃ s : State, ∃ v i g op x y c word, SignsFor s v i g op x y c ∧ encode? i = some word ∧ Issues s word false v ∧ Clean c ∧ ∃ team r, s.team?
      s.cur.teamId = some team ∧ team.conv[g.toNat]? = some r ∧ ∃ pairs k, r.declared = some (pairs, k) ∧ pairs.any (fun p => decide (p.1 =
      s.cur.grp) && p.2.getLsbD s.cur.mem) = true ∧ r.sigs.any (fun z => decide (z.thread = s.cur)) = false ∧ ∃ t, (signed s g.toNat r word op x y
      c.th none).convTry s.cur.teamId g.toNat (some s.cur) = .issued t) ∧
    (∃ s : State, ∃ v i g op x y c word, SignsFor s v i g op x y c ∧ encode? i = some word ∧ Issues s word false v ∧ Clean c ∧ ∃ team r, s.team?
      s.cur.teamId = some team ∧ team.conv[g.toNat]? = some r ∧ ∃ pairs k, r.declared = some (pairs, k) ∧ pairs.any (fun p => decide (p.1 =
      s.cur.grp) && p.2.getLsbD s.cur.mem) = true ∧ r.sigs.any (fun z => decide (z.thread = s.cur)) = false ∧ ∃ t, (signed s g.toNat r word op x y
      c.th none).convTry s.cur.teamId g.toNat (some s.cur) = .failed t ∧ v.log = [] ∧ s.deliver s.cur v = none) ∧
    (∃ s : State, ∃ v i g op x y c word, SignsFor s v i g op x y c ∧ encode? i = some word ∧ Issues s word false v ∧ Clean c ∧ ∃ team r, s.team?
      s.cur.teamId = some team ∧ team.conv[g.toNat]? = some r ∧ ∃ pairs k, r.declared = some (pairs, k) ∧ pairs.any (fun p => decide (p.1 =
      s.cur.grp) && p.2.getLsbD s.cur.mem) = true ∧ r.sigs.any (fun z => decide (z.thread = s.cur)) = true) ∧
    (∃ s : State, ∃ v i g op x y c word, SignsFor s v i g op x y c ∧ encode? i = some word ∧ Issues s word false v ∧ Clean c ∧ ∃ team r, s.team?
      s.cur.teamId = some team ∧ team.conv[g.toNat]? = some r ∧ (∀ pairs k, r.declared = some (pairs, k) → pairs.any (fun p => decide (p.1 =
      s.cur.grp) && p.2.getLsbD s.cur.mem) = false) ∧ v.log = [] ∧ s.deliver s.cur v = none) :=
  ⟨⟨(cv true [] []), (th (cv true [] [])), (.mzero 0 0 0), 0, (.mzero 0), 0, 0, _, (Enc.mzero 0 0 0), (SignsFor.mzero _ _ _), rfl, iss (by decide),
      cl (by decide), _, _, rfl, rfl, _, _, rfl, (by decide), (by decide), (by decide)⟩,
    ⟨(cv false [] []), (th (cv false [] [])), (.mzero 0 0 0), 0, (.mzero 0), 0, 0, _, (Enc.mzero 0 0 0), (SignsFor.mzero _ _ _), rfl,
      iss (by decide), cl (by decide), _, _, rfl, rfl, _, _, rfl, (by decide), (by decide), _, rfl⟩,
    ⟨(tm (fun t => { t with cistBytes := 0 }) (cv false [] [])), (th (tm (fun t => { t with cistBytes := 0 }) (cv false [] []))), (.mzero 0 0 0), 0,
      (.mzero 0), 0, 0, _, (Enc.mzero 0 0 0), (SignsFor.mzero _ _ _), rfl, iss (by decide), cl (by decide), _, _, rfl, rfl, _, _, rfl, (by decide),
      (by decide), _, rfl, (by decide), (by decide)⟩,
    ⟨(cv true [sg 0] []), (th (cv true [sg 0] [])), (.mzero 0 0 0), 0, (.mzero 0), 0, 0, _, (Enc.mzero 0 0 0), (SignsFor.mzero _ _ _), rfl,
      iss (by decide), cl (by decide), _, _, rfl, rfl, _, _, rfl, (by decide), (by decide)⟩,
    ⟨(base []), (th (base [])), (.mzero 0 0 0), 0, (.mzero 0), 0, 0, _, (Enc.mzero 0 0 0), (SignsFor.mzero _ _ _), rfl, iss (by decide),
      cl (by decide), _, _, rfl, rfl, (fun _ _ h => by cases h), (by decide), (by decide)⟩⟩

/-- States and operands that meet the premises of `OperationIssue`. -/
theorem test_premises_OperationIssue :
    (∃ s : State, ∃ id : TeamId, ∃ g : Nat, ∃ team : Team, ∃ r : ConvReg, ∃ pairs k x rest, s.team? id = some team ∧ team.conv[g]? = some r ∧ r.declared
      = some (pairs, k) ∧ r.sigs = x :: rest ∧ r.offered = none ∧ (∃ m ∈ s.setMembers id pairs, ∀ z ∈ r.sigs, z.thread ≠ m)) ∧
    (∃ s : State, ∃ id : TeamId, ∃ g : Nat, ∃ team : Team, ∃ r : ConvReg, ∃ pairs k x rest, s.team? id = some team ∧ team.conv[g]? = some r ∧
      r.declared = some (pairs, k) ∧ r.sigs = x :: rest ∧ r.offered = none ∧ (∀ m ∈ s.setMembers id pairs, ∃ z ∈ r.sigs, z.thread = m) ∧ (∀ z ∈
      r.sigs, z.op = x.op ∧ z.task = none) ∧ (∀ o n u, x.op ≠ .mmap o n u) ∧ (∀ o, x.op ≠ .ssx o) ∧ team.opOk (s.pairLaunch id) (s.ssbOf id x.op)
      x.op (s.rows r.sigs).length = true) :=
  ⟨⟨(cv true [sg 0] []), ⟨0, 0⟩, 0, _, _, [(0, 3)], none, (sg 0), [], rfl, rfl, rfl, rfl, rfl, ⟨⟨0, 0, 0, 1⟩, (by decide), (by decide)⟩⟩,
    ⟨(cv false [sg 0] []), ⟨0, 0⟩, 0, _, _, [(0, 3)], none, (sg 0), [], rfl, rfl, rfl, rfl, rfl, (by decide), (by decide),
      (fun o n u h => by cases h), (fun o h => by cases h), (by decide)⟩⟩

/-- States and operands that meet the premises of `ReservationsAndResults`. -/
theorem test_premises_ReservationsAndResults :
    (∃ s : State, ∃ v w k a n c1 team r, Issues s (Enc.cres w k a) false v ∧ block a 4 4 (begin s v (Enc.cres w k a) .nothing) = (n, c1) ∧ Clean c1 ∧
      s.team? s.cur.teamId = some team ∧ r = c1.th.regsValue n 4 ∧ bits r 81 64 = 0 ∧ bits r 111 98 = 0 ∧ bits r 127 114 = 0 ∧ bits r 31 0 % 256 = 0
      ∧ bits r 63 32 % 256 = 0 ∧ bits r 63 32 ≠ 0 ∧ bits r 31 0 + bits r 63 32 ≤ team.cistBytes) ∧
    (∃ s : State, ∃ v w k team r, Issues s (Enc.crel w k) false v ∧ Clean (begin s v (Enc.crel w k) .nothing) ∧ s.team? s.cur.teamId = some team ∧
      team.resv[k.toNat]? = some (some r) ∧ r.freeing = none ∧ s.naming s.cur.teamId k.toNat = []) ∧
    (∃ s : State, ∃ v w k team r, Issues s (Enc.crel w k) false v ∧ Clean (begin s v (Enc.crel w k) .nothing) ∧ s.team? s.cur.teamId = some team ∧
      team.resv[k.toNat]? = some (some r) ∧ r.freeing = none ∧ s.naming s.cur.teamId k.toNat ≠ []) ∧
    (∃ s : State, ∃ v w acc d a x k c1 c2 team, Issues s (Enc.mrd w acc d a) false v ∧ src a (begin s v (Enc.mrd w acc d a) .nothing) = (x, c1) ∧
      dstDeferred d 4 4 c1 = (k, c2) ∧ Clean c2 ∧ x.extractLsb' 12 20 = 0 ∧ (x.extractLsb' 6 6).toNat % 4 = 0 ∧ s.team? s.cur.teamId = some team ∧
      16384 * (acc.toNat + 1) ≤ team.cistBytes ∧ Room v) ∧
    (∃ s : State, ∃ v w d a k x r c1 c2, block a 1 1 (begin s v (Enc.ssq w d a x) .nothing) = (k, c1) ∧ Clean c1 ∧ (c1.th.reg k).toNat % 128 = 0 ∧
      s.inRange s.cur .co (c1.th.reg k).toNat 128 = true ∧ dstDeferred d 1 1 c1 = (r, c2) ∧ Clean c2 ∧ x = 0 ∧ Issues s (Enc.ssq w d a x) false v ∧
      Room v) ∧
    (∃ s : State, ∃ v w d a k x r c1 c2, block a 1 1 (begin s v (Enc.ssq w d a x) .nothing) = (k, c1) ∧ Clean c1 ∧ (c1.th.reg k).toNat % 128 = 0 ∧
      s.inRange s.cur .co (c1.th.reg k).toNat 128 = true ∧ dstDeferred d 1 1 c1 = (r, c2) ∧ Clean c2 ∧ ∃ p, x = 1 ∧ Issues s (Enc.ssq w d a x) true v
      ∧ p = s.setThread s.cur { c2.th with wait := .ssq (c1.th.reg k).toNat r } ∧ (s.ssqValue s.cur.teamId (c1.th.reg k).toNat).msb = true) ∧
    (∃ s : State, ∃ v w d a k x r c1 c2, block a 1 1 (begin s v (Enc.ssq w d a x) .nothing) = (k, c1) ∧ Clean c1 ∧ (c1.th.reg k).toNat % 128 = 0 ∧
      s.inRange s.cur .co (c1.th.reg k).toNat 128 = true ∧ dstDeferred d 1 1 c1 = (r, c2) ∧ Clean c2 ∧ ∃ p, x = 1 ∧ Issues s (Enc.ssq w d a x) true v
      ∧ p = s.setThread s.cur { c2.th with wait := .ssq (c1.th.reg k).toNat r } ∧ (s.ssqValue s.cur.teamId (c1.th.reg k).toNat).msb = false) :=
  ⟨⟨(base [0x100, 0xFF00, 0, 0]), (th (base [0x100, 0xFF00, 0, 0])), 0, 15, 0, _, _, _, _, iss (by decide), pairOf _, cl (by decide), rfl, rfl,
      (by decide), (by decide), (by decide), (by decide), (by decide), (by decide), (by decide)⟩,
    ⟨(tm (fun t => { t with resv := [some { record := 0, fmtA := 0, fmtB := 0, fmtS := 0, freeing := none }] }) (base [])),
      (th (tm (fun t => { t with resv := [some { record := 0, fmtA := 0, fmtB := 0, fmtS := 0, freeing := none }] }) (base []))), 0, 0, _, _,
      iss (by decide), cl (by decide), rfl, rfl, (by decide), (by decide)⟩,
    ⟨(tm (fun t => { t with resv := [some { record := 0, fmtA := 0, fmtB := 0, fmtS := 0, freeing := none }], conv := [{ declared := none, sigs := [{ sg 0 with op := .mldb 0 }], offered := none }] }) (base [])), (th (tm (fun t => { t with resv := [some { record := 0, fmtA := 0, fmtB := 0, fmtS := 0, freeing := none }], conv := [{ declared := none, sigs := [{ sg 0 with op := .mldb 0 }], offered := none }] }) (base []))), 0, 0, _, _, iss (by decide), cl (by decide), rfl, rfl, (by decide), (by decide)⟩,
    ⟨(base []), (th (base [])), 0, 3, 4, 5, _, _, _, _, _, iss (by decide), pairOf _, pairOf _, cl (by decide), (by decide), (by decide), rfl,
      (by decide), (by unfold Room; decide)⟩,
    ⟨(base []), (th (base [])), 0, 4, 5, _, 0, _, _, _, pairOf _, cl (by decide), (by decide), (by decide), pairOf _, cl (by decide), (by decide),
      iss (by decide), (by unfold Room; decide)⟩,
    ⟨(wm [(scratchPa 0 0x50, 4, 1)] (base [])), (cm (wm [(scratchPa 0 0x50, 4, 1)] (base []))), 0, 4, 5, _, 1, _, _, _, pairOf _, cl (by decide),
      (by decide), (by decide), pairOf _, cl (by decide), _, (by decide), iss (by decide), rfl, (by decide)⟩,
    ⟨(base []), (cm (base [])), 0, 4, 5, _, 1, _, _, _, pairOf _, cl (by decide), (by decide), (by decide), pairOf _, cl (by decide), _, (by decide),
      iss (by decide), rfl, (by decide)⟩⟩

/-- States and operands that meet the premises of `LoggedSystemInstructions`. -/
theorem test_premises_LoggedSystemInstructions :
    (∃ s : State, ∃ v w d a n k c1 c2, Issues s (Enc.rhset w d a) false v ∧ block a 4 4 (begin s v (Enc.rhset w d a) .nothing) = (n, c1) ∧ dstDeferred d
      1 1 c1 = (k, c2) ∧ Clean c2 ∧ ∃ base : Dword, base = c2.th.reg (n + 1) ++ c2.th.reg n ∧ base.toNat % 65536 = 0 ∧ base.toNat < 2 ^ 48 ∧
      c2.th.reg (n + 2) ≠ 0 ∧ (c2.th.reg (n + 3)).extractLsb' 5 27 = 0 ∧ Room v) ∧
    (∃ s : State, ∃ v w a b x y c1 c2, Issues s (Enc.rhpri w a b) false v ∧ src a (begin s v (Enc.rhpri w a b) .nothing) = (x, c1) ∧ Clean c1 ∧ src b
      c1 = (y, c2) ∧ Clean c2 ∧ y.extractLsb' 5 27 = 0 ∧ Room v ∧ OwnHandle s x) ∧
    (∃ s : State, ∃ v w a b x y c1 c2, Issues s (Enc.rhpri w a b) false v ∧ src a (begin s v (Enc.rhpri w a b) .nothing) = (x, c1) ∧ Clean c1 ∧ src b
      c1 = (y, c2) ∧ Clean c2 ∧ y.extractLsb' 5 27 = 0 ∧ Room v ∧ ¬ OwnHandle s x ∧ v.log = [] ∧ s.deliver s.cur v = none) ∧
    (∃ s : State, ∃ v w a x c1, Issues s (Enc.rhdem w a) false v ∧ src a (begin s v (Enc.rhdem w a) .nothing) = (x, c1) ∧ Clean c1 ∧ OwnHandle s x ∧
      Room v) ∧
    (∃ s : State, ∃ v w a b k y c1 c2, Issues s (Enc.pref w a b) false v ∧ block a 2 2 (begin s v (Enc.pref w a b) .nothing) = (k, c1) ∧ src b c1
      = (y, c2) ∧ Clean c2 ∧ Room v) ∧
    (∃ s : State, ∃ v w d a k r c1 c2 off q, Issues s (Enc.spawn w d a) false v ∧ block a 2 2 (begin s v (Enc.spawn w d a) .nothing) = (k, c1) ∧
      Clean c1 ∧ off = c1.th.reg k ∧ q = c1.th.reg (k + 1) ∧ off.toNat % 64 = 0 ∧ s.inRange s.cur .co off.toNat 64 = true ∧ dstDeferred d 1 1 c1
      = (r, c2) ∧ Clean c2 ∧ Room v) ∧
    (∃ i op a b, CacheOp i op a b ∧ ∃ s : State, ∃ v word k y c1 c2, encode? i = some word ∧ Issues s word false v ∧ block a 2 2 (begin s v word
      .nothing) = (k, c1) ∧ src b c1 = (y, c2) ∧ Clean c2 ∧ Room v) :=
  ⟨⟨(base [0, 1, 0x10000, 31]), (th (base [0, 1, 0x10000, 31])), 0, 4, 0, _, _, _, _, iss (by decide), pairOf _, pairOf _, cl (by decide), _, rfl,
      (by decide), (by decide), (by decide), (by decide), (by unfold Room; decide)⟩,
    ⟨({ base [] with handles := [(0, { asid := 0, base := 0, pages := 1, prio := 0, second := false })] }),
      (th ({ base [] with handles := [(0, { asid := 0, base := 0, pages := 1, prio := 0, second := false })] })), 0, 5, 6, _, _, _, _,
      iss (by decide), pairOf _, cl (by decide), pairOf _, cl (by decide), (by decide), (by unfold Room; decide), ⟨by decide, _, rfl, rfl⟩⟩,
    ⟨(base []), (th (base [])), 0, 5, 6, _, _, _, _, iss (by decide), pairOf _, cl (by decide), pairOf _, cl (by decide), (by decide),
      (by unfold Room; decide), (fun h => absurd h.2 (by decide)), (by decide), (by decide)⟩,
    ⟨({ base [] with handles := [(0, { asid := 0, base := 0, pages := 1, prio := 0, second := false })] }),
      (th ({ base [] with handles := [(0, { asid := 0, base := 0, pages := 1, prio := 0, second := false })] })), 0, 5, _, _, iss (by decide),
      pairOf _, cl (by decide), ⟨by decide, _, rfl, rfl⟩, (by unfold Room; decide)⟩,
    ⟨(base []), (th (base [])), 0, 6, 8, _, _, _, _, iss (by decide), pairOf _, pairOf _, cl (by decide), (by unfold Room; decide)⟩,
    ⟨(base [0, 0, 0, 0, 0, 0, 0xFFC0, 0xFFFFFFFF]), (th (base [0, 0, 0, 0, 0, 0, 0xFFC0, 0xFFFFFFFF])), 0, 4, 6, _, _, _, _, _, _, iss (by decide),
      pairOf _, cl (by decide), rfl, rfl, (by decide), (by decide), pairOf _, cl (by decide), (by unfold Room; decide)⟩,
    ⟨(.cacheopPod 0 6 8), _, _, _, (by constructor), (base []), (th (base [])), _, _, _, _, _, rfl, iss (by decide), pairOf _, pairOf _,
      cl (by decide), (by unfold Room; decide)⟩⟩

/-- States and operands that meet the premises of `TrapsAndServices`. -/
theorem test_premises_TrapsAndServices :
    (∃ s : State, ∃ v w a n m c1 number, Issues s (Enc.svc w a n) true v ∧ number = (HintSet.of v.hints).immU n.toNat 13 ∧ number < 2 ^ 16 ∧ block a 2
      6 (begin s v (Enc.svc w a n) .immOnly) = (m, c1) ∧ Clean c1) ∧
    (∃ s : State, ∃ v w c a x c1 k, Issues s (Enc.trap w c a) false v ∧ src a (begin s v (Enc.trap w c a) .nothing) = (x, c1) ∧ Clean c1 ∧
      Cause.ofCode c.toNat = some k ∧ k.untrappable = false ∧ v.log = [] ∧ s.deliver s.cur v = none) ∧
    (∃ s : State, ∃ v w, Issues s (Enc.tret w) true v ∧ Clean (begin s v (Enc.tret w) .nothing) ∧ v.handling = true ∧ v.badStatus = false) ∧
    (∃ s : State, ∃ v w, Issues s (Enc.tret w) true v ∧ Clean (begin s v (Enc.tret w) .nothing) ∧ v.handling = false ∧ v.log = [] ∧ s.deliver s.cur v
      = none) ∧
    (∃ s : State, ∃ v w a x c1, Issues s (Enc.wfe w a) true v ∧ src a (begin s v (Enc.wfe w a) .nothing) = (x, c1) ∧ Clean c1 ∧ v.latch = true) ∧
    (∃ s : State, ∃ v w a x c1, Issues s (Enc.wfe w a) true v ∧ src a (begin s v (Enc.wfe w a) .nothing) = (x, c1) ∧ Clean c1 ∧ v.latch = false) :=
  ⟨⟨(base []), (cm (base [])), 0, 0, 0x1FFF, _, _, _, iss (by decide), rfl, (by decide), pairOf _, cl (by decide)⟩,
    ⟨(base []), (th (base [])), 0, 1, 5, _, _, _, iss (by decide), pairOf _, cl (by decide), someOf (by decide), (by decide), (by decide),
      (by decide)⟩,
    ⟨(put (fun t => { t with tstat := 5, tsav := 4 }) (base [])), (cm (put (fun t => { t with tstat := 5, tsav := 4 }) (base []))), 0,
      iss (by decide), cl (by decide), (by decide), (by decide)⟩,
    ⟨(base []), (cm (base [])), 0, iss (by decide), cl (by decide), (by decide), (by decide), (by decide)⟩,
    ⟨(put (fun t => { t with latch := true }) (base [])), (cm (put (fun t => { t with latch := true }) (base []))), 0, 5, _, _, iss (by decide),
      pairOf _, cl (by decide), (by decide)⟩,
    ⟨(base []), (cm (base [])), 0, 5, _, _, iss (by decide), pairOf _, cl (by decide), (by decide)⟩⟩

/-- States and operands that meet the premises of `TlbInvalidationPrivilege`. -/
theorem test_premises_TlbInvalidationPrivilege :
    (∃ s : State, ∃ v w a b k x y c1 c2, Issues s (Enc.tlbinv w a b) true v ∧ block a 2 2 (begin s v (Enc.tlbinv w a b) .nothing) = (k, c1) ∧ x =
      c1.th.pair k ∧ src b c1 = (y, c2) ∧ Clean c2 ∧ v.kernel = true) ∧
    (∃ s : State, ∃ v w a b k x y c1 c2, Issues s (Enc.tlbinv w a b) true v ∧ block a 2 2 (begin s v (Enc.tlbinv w a b) .nothing) = (k, c1) ∧ x =
      c1.th.pair k ∧ src b c1 = (y, c2) ∧ Clean c2 ∧ v.kernel = false ∧ v.log = [] ∧ s.deliver s.cur v = none) :=
  ⟨⟨(base []), (cm (base [])), 0, 6, 8, _, _, _, _, _, iss (by decide), pairOf _, rfl, pairOf _, cl (by decide), (by decide)⟩,
    ⟨(put (fun t => { t with tstat := 0 }) (base [])), (cm (put (fun t => { t with tstat := 0 }) (base []))), 0, 6, 8, _, _, _, _, _,
      iss (by decide), pairOf _, rfl, pairOf _, cl (by decide), (by decide), (by decide), (by decide)⟩⟩

/-- States and operands that meet the premises of `ExitRemoves`. -/
theorem test_premises_ExitRemoves :
    (∃ s : State, ∃ v w, Issues s (Enc.exit w) true v ∧ Clean (begin s v (Enc.exit w) .nothing) ∧ s.storesLeft s.cur v = false) ∧
    (∃ s : State, ∃ v w, Issues s (Enc.exit w) true v ∧ Clean (begin s v (Enc.exit w) .nothing) ∧ s.storesLeft s.cur v = true) :=
  ⟨⟨(base []), { th (base []) with wait := .leaving }, 0, iss (by decide), cl (by decide), (by decide)⟩,
    ⟨(put (fun t => { t with q := [none, none, none, some wq] }) (base [])),
      { (th (put (fun t => { t with q := [none, none, none, some wq] }) (base []))).ordered with wait := .leaving }, 0, iss (by decide),
      cl (by decide), (by decide)⟩⟩

/-- States and operands that meet the premises of `ExecutesAWord`. -/
theorem test_premises_ExecutesAWord :
    (∃ s : State, ∃ v w f x c1 body r, Issues s (Enc.xiss w f) false v ∧ src f (begin s v (Enc.xiss w f) .nothing) = (x, c1) ∧ Clean c1 ∧ permittedWord x
      = some body ∧ r = (body { c1 with word := x, hs := HintSet.empty, flag := none, unknown := false }).2 ∧ r.flag = none ∧ r.stall = false ∧
      r.starve = false ∧ r.hold = none ∧ r.park = none ∧ r.late = none) ∧
    (∃ s : State, ∃ v w f d a b x y l c1 c2 c3 c4, Issues s (Enc.xiss w f) false v ∧ src f (begin s v (Enc.xiss w f) .nothing) = (Enc.add 0 d a b,
      c1) ∧ Clean c1 ∧ src a { c1 with word := Enc.add 0 d a b, hs := HintSet.empty, unknown := false } = (x, c2) ∧ src b c2 = (y, c3) ∧ dst d c3
      = (l, c4) ∧ Clean c4) ∧
    (∃ s : State, ∃ v w f x c1, Issues s (Enc.xiss w f) false v ∧ src f (begin s v (Enc.xiss w f) .nothing) = (x, c1) ∧ Clean c1 ∧ permittedWord x =
      none ∧ v.log = [] ∧ s.deliver s.cur v = none) :=
  ⟨⟨(base [0, 0, 0, 0, 0, Enc.add 0 4 6 7]), (th (base [0, 0, 0, 0, 0, Enc.add 0 4 6 7])), 0, 5, _, _, _, _, iss (by decide +kernel), pairOf _,
      cl (by decide +kernel), someOf (by decide +kernel), rfl, (by decide +kernel), (by decide +kernel), (by decide +kernel), (by decide +kernel),
      (by decide +kernel), (by decide +kernel)⟩,
    ⟨(base [0, 0, 0, 0, 0, Enc.add 0 4 6 7]), (th (base [0, 0, 0, 0, 0, Enc.add 0 4 6 7])), 0, 5, 4, 6, 7, _, _, _, (src 5 (begin (base [0, 0, 0, 0,
      0, Enc.add 0 4 6 7]) (th (base [0, 0, 0, 0, 0, Enc.add 0 4 6 7])) (Enc.xiss 0 5) .nothing)).2, _, _, _, iss (by decide),
      (Prod.ext (by decide) rfl), cl (by decide), pairOf _, pairOf _, pairOf _, cl (by decide)⟩,
    ⟨(base [0, 0, 0, 0, 0, 0xFFFFFFFF]), (th (base [0, 0, 0, 0, 0, 0xFFFFFFFF])), 0, 5, _, _, iss (by decide +kernel), pairOf _,
      cl (by decide +kernel), (by decide +kernel), (by decide +kernel), (by decide +kernel)⟩⟩

/-- States and operands that meet the premises of `ResetAndPower`. -/
theorem test_premises_ResetAndPower :
    (∃ s : State, s.boot.powered = true) ∧
    (∃ s : State, s.boot.linkUp = true) :=
  ⟨⟨(srv 0), (by decide)⟩,
    ⟨(srv 0), (by decide)⟩⟩

/-- States and operands that meet the premises of `BootStages`. -/
theorem test_premises_BootStages :
    (∃ s : State, s.boot.powered = true ∧ s.boot.stage = 0) ∧
    (∃ s : State, s.boot.powered = true ∧ s.boot.stage = 1) ∧
    (∃ s : State, s.boot.powered = true ∧ ∃ k next fallback, ((s.boot.stage = 2 ∧ k = 0 ∧ next = 4 ∧ fallback = 3) ∨ (s.boot.stage = 3 ∧ k = 1 ∧ next
      = 4 ∧ fallback = 15)) ∧ s.flash.check k ≠ 0) ∧
    (∃ s : State, s.boot.powered = true ∧ s.boot.stage = 4) ∧
    (∃ s : State, s.boot.powered = true ∧ ∃ c, s.boot.stage = 4 ∧ trainCode c = true) ∧
    (∃ s : State, s.boot.powered = true ∧ s.boot.stage = 5) :=
  ⟨⟨(srv 0), (by decide), (by decide)⟩,
    ⟨(srv 1), (by decide), (by decide)⟩,
    ⟨(srv 3), (by decide), 1, 4, 15, (.inr ⟨by decide, rfl, rfl, rfl⟩), (by decide)⟩,
    ⟨(srv 4), (by decide), (by decide)⟩,
    ⟨(srv 4), (by decide), 0x10, (by decide), (by decide)⟩,
    ⟨(srv 5), (by decide), (by decide)⟩⟩

/-- States and operands that meet the premises of `PowerAndMemoryEvents`. -/
theorem test_premises_PowerAndMemoryEvents :
    (∃ steps, 12 ≤ steps ∧ steps ≤ 36) ∧
    (∃ s : State, ∃ h die x, AMap.get? s.handles h = some x ∧ die < 8) ∧
    (∃ s : State, ∃ m, ∃ value : Word, Canonical s ∧ Owns s m ∧ 1500 ≤ bits value.toNat 12 0 ∧ bits value.toNat 12 0 ≤ 5000) ∧
    (∃ s : State, ∃ m, Stranger s m) ∧
    (∃ s : State, ∃ m, ¬ Reaches s m) ∧
    (∃ s : State, ∃ g, isProtected (g * 32) = true ∧ g ∉ s.poison) ∧
    (∃ s : State, ∃ what demote asid down p f, s.moveList what demote = some (asid, down, [p]) ∧ s.frameOk f p.block down = true) ∧
    (∃ s : State, ∃ k h, AMap.get? s.handles k = some h ∧ 15 ≤ h.prio) ∧
    (∃ s : State, ∃ asid page m e n src dst copied ea, Canonical s ∧ s.moves.find? (fun x => x.asid == asid && x.page == page) = some m ∧ s.walk
      asid (page * 65536) = some (e, m.block) ∧ n = (if m.block then 2 ^ 29 else 65536) ∧ m.page = page ∧ m.asid = asid ∧ src = m.src * 65536 ∧
      leafPa e m.block (page * 65536) = src ∧ dst = m.dst * 65536 ∧ copied = Memory.paste (Memory.clear s.mem dst n) dst (Memory.slice s.mem src n) ∧
      ea = ({ s with mem := copied } : State).entryPa asid (page * 65536) m.block) :=
  ⟨⟨12, (by decide), (by decide)⟩,
    ⟨({ State.reset with handles := [(4095, { asid := 0, base := 0, pages := 1, prio := 0, second := false })] }), 4095, 7, _, rfl, (by decide)⟩,
    ⟨(srv 6), 0, 5000, can (by decide), ⟨⟨by decide, (by decide)⟩, (by decide), (by decide)⟩, (by decide), (by decide)⟩,
    ⟨(srv 6), 1, ⟨⟨by decide, (by decide)⟩, (by decide)⟩⟩,
    ⟨State.reset, 0, (fun h => absurd h.2 (by decide))⟩,
    ⟨State.reset, 0, (by decide), (by decide)⟩,
    ⟨({ (srv 6).flatTables with mem := ws [] [(0, 8, 0x1001), (0x1000, 8, 0x10001), (0x10000, 8, 0x23F)] }), (.page 0 0), true, 0, true,
      { page := 0, block := true, entry := 0x23F }, 0x1000000, (by decide +kernel), (by decide +kernel)⟩,
    ⟨({ State.reset with handles := [(4095, { asid := 0, base := 0, pages := 1, prio := 15, second := false })] }), 4095, _, rfl, (by decide)⟩,
    ⟨({ (State.reset.flatTables) with moves := [{ asid := 0, page := 0, block := true, src := 0, dst := 0x4000, tier := 1 }] }), 0, 0, _, _, _, _, _,
      _, _, can (by decide +kernel), rfl, (by rfl), rfl, (by decide), (by decide), rfl, (by decide), rfl, rfl, rfl⟩⟩

/-- States and operands that meet the premises of `RegisterWrites`. -/
theorem test_premises_RegisterWrites :
    (∃ s : State, ∃ m, s.masterReaches m = false) ∧
    (∃ s : State, ∃ m off, s.masterReaches m = true ∧ s.served off = false) ∧
    (∃ s : State, ∃ m off, ownerArea off = true ∧ Stranger s m) ∧
    (∃ s : State, ∃ m off, ownerArea off = true ∧ Canonical s ∧ Owns s m ∧ off % 4 = 0 ∧ off ≠ 0x280048 ∧ wideOnly off = false) ∧
    (∃ s : State, ∃ m off, ∃ v : Dword, ∃ lo hi, ownerArea off = true ∧ Owns s m ∧ off % 8 = 0 ∧ off ≠ 0x280000 ∧ lo = v.toNat % 2 ^ 32 ∧ hi =
      v.toNat / 2 ^ 32 ∧ rowWord off = false ∧ rowWord (off + 4) = false) ∧
    (∃ s : State, ∃ m off, ∃ v : Dword, ∃ lo hi, ownerArea off = true ∧ Owns s m ∧ off % 8 = 0 ∧ off ≠ 0x280000 ∧ lo = v.toNat % 2 ^ 32 ∧ hi =
      v.toNat / 2 ^ 32 ∧ rowWord off = true ∧ rowWord (off + 4) = false) ∧
    (∃ s : State, ∃ m off, ∃ v : Dword, ∃ lo hi, ownerArea off = true ∧ Owns s m ∧ off % 8 = 0 ∧ off ≠ 0x280000 ∧ lo = v.toNat % 2 ^ 32 ∧ hi =
      v.toNat / 2 ^ 32 ∧ rowWord off = false ∧ rowWord (off + 4) = true) ∧
    (∃ s : State, ∃ m off, ∃ v : Dword, ∃ lo hi, ownerArea off = true ∧ Owns s m ∧ off % 8 = 0 ∧ off ≠ 0x280000 ∧ lo = v.toNat % 2 ^ 32 ∧ hi =
      v.toNat / 2 ^ 32 ∧ rowWord off = true ∧ rowWord (off + 4) = true) ∧
    (∃ s : State, ∃ m off size, ownerArea off = true ∧ Owns s m ∧ ¬ (off = 0x280000 ∧ size = 8) ∧ (size ≠ 4 ∧ size ≠ 8 ∨ off % size ≠ 0 ∨ size = 4 ∧
      wideOnly off = true)) ∧
    (∃ s : State, ∃ m off, Reaches s m ∧ ownerArea off = false ∧ ¬ (0x800 ≤ off ∧ off < 0x1000) ∧ ¬ (0x140 ≤ off ∧ off < 0x180)) ∧
    (∃ s : State, ∃ m, ∃ v : Dword, Owns s m ∧ (bits v.toNat 15 14 = 3 ∨ bits v.toNat 31 16 ≠ 0)) ∧
    (∃ s : State, ∃ m r size, ∃ v : Dword, Reaches s m ∧ r < 8 ∧ (size ≠ 8 ∨ bits v.toNat 63 40 ≠ 0 ∨ 3 < bits v.toNat 39 35)) ∧
    (∃ s : State, ∃ m, s.masterReaches m = true ∧ s.served 0x804 = true ∧ s.mailMaster m = true) :=
  ⟨⟨State.reset, 3, (by decide)⟩,
    ⟨State.reset, 0, 0x210, (by decide), (by decide)⟩,
    ⟨(srv 6), 1, 0x200, (by decide), ⟨⟨by decide, (by decide)⟩, (by decide)⟩⟩,
    ⟨(srv 6), 0, 0x210, (by decide), can (by decide), ⟨⟨by decide, (by decide)⟩, (by decide), (by decide)⟩, (by decide), (by decide), (by decide)⟩,
    ⟨(srv 6), 0, 0x200008, 0x500000001, _, _, (by decide), ⟨⟨by decide, (by decide)⟩, (by decide), (by decide)⟩, (by decide), (by decide), rfl, rfl,
      (by decide), (by decide)⟩,
    ⟨(srv 6), 0, 0x200000, 0x500000001, _, _, (by decide), ⟨⟨by decide, (by decide)⟩, (by decide), (by decide)⟩, (by decide), (by decide), rfl, rfl,
      (by decide), (by decide)⟩,
    ⟨(srv 6), 0, 0x40030, 0x500000001, _, _, (by decide), ⟨⟨by decide, (by decide)⟩, (by decide), (by decide)⟩, (by decide), (by decide), rfl, rfl,
      (by decide), (by decide)⟩,
    ⟨(srv 6), 0, 0x300, 0x500000001, _, _, (by decide), ⟨⟨by decide, (by decide)⟩, (by decide), (by decide)⟩, (by decide), (by decide), rfl, rfl,
      (by decide), (by decide)⟩,
    ⟨(srv 6), 0, 0x210, 2, (by decide), ⟨⟨by decide, (by decide)⟩, (by decide), (by decide)⟩, (by decide), (.inl (by decide))⟩,
    ⟨(srv 6), 0, 0x1000, ⟨by decide, (by decide)⟩, (by decide), (by decide), (by decide)⟩,
    ⟨(srv 6), 0, 0xC000, ⟨⟨by decide, (by decide)⟩, (by decide), (by decide)⟩, (.inl (by decide))⟩,
    ⟨(srv 6), 0, 7, 8, 0x2000000000, ⟨by decide, (by decide)⟩, (by decide), (.inr (.inr (by decide)))⟩,
    ⟨(srv 15), 1, (by decide), (by decide), (by decide)⟩⟩

/-- States and operands that meet the premises of `RegisterReads`. -/
theorem test_premises_RegisterReads :
    (∃ s : State, ∃ off, s.served off = false) ∧
    (∃ s : State, ∃ off, s.served off = true ∧ off % 4 = 0) ∧
    (∃ s : State, ∃ off, s.served off = true ∧ off % 8 = 0) ∧
    (∃ s : State, ∃ off, s.served off = true ∧ off % 2 = 0) ∧
    (∃ s : State, ∃ off, s.served off = true ∧ ∃ n, (n = 2 ∨ n = 4 ∨ n = 8 ∨ n = 64) ∧ off % n ≠ 0) ∧
    (∃ s : State, ∃ q, q < 16384 ∧ s.served (0x100000 + 64 * q) = true ∧ (∀ k, (s.queue q).word k < 2 ^ 32)) ∧
    (∃ s : State, ∃ k, k < 512 ∧ s.served (0x11000 + 4 * k) = true) ∧
    (∃ s : State, ∃ off, s.barsOpen = true ∧ (off % 4096 = 0x40 ∨ off % 4096 = 0x48)) ∧
    (∃ off, off % 4096 ≠ 0x40 ∧ off % 4096 ≠ 0x48 ∧ 64 ≤ off % 4096) ∧
    (∃ s : State, s.barsOpen = false) :=
  ⟨⟨State.reset, 0x210, (by decide)⟩,
    ⟨(srv 6), 0x210, (by decide), (by decide)⟩,
    ⟨(srv 6), 0x210, (by decide), (by decide)⟩,
    ⟨(srv 6), 0x212, (by decide), (by decide)⟩,
    ⟨(srv 6), 0x201, (by decide), 64, (.inr (.inr (.inr rfl))), (by decide)⟩,
    ⟨(srv 6), 16383, (by decide), (by decide),
      (fun k => by rcases k with _ | _ | _ | _ | _ | _ | _ | _ | _ | _ | _ | _ | _ | _ | k <;> first | decide | (show (0 : Nat) < _; decide))⟩,
    ⟨(srv 6), 511, (by decide), (by decide)⟩,
    ⟨(srv 6), 0x1048, (by decide), (.inr rfl)⟩,
    ⟨0x1080, (by decide), (by decide), (by decide)⟩,
    ⟨(srv 0), (by decide)⟩⟩

/-- States and operands that meet the premises of `MailboxCommands`. -/
theorem test_premises_MailboxCommands :
    (∃ s : State, ∃ m, Canonical s ∧ s.masterReaches m = true ∧ s.served 0x800 = true ∧ s.mailbox.busy = false ∧ s.mailMaster m = true ∧ ∃ k code, (code
      = 2 ∧ (67108864 ≤ s.mailbox.rmoff.toNat ∨ s.mailbox.rmoff.toNat % 1024 ≠ 0) ∨ code = 3 ∧ s.mailbox.rmoff.toNat < 67108864 ∧
      s.mailbox.rmoff.toNat % 1024 = 0 ∧ s.flash.written.contains (k, s.mailbox.rmoff.toNat / 1024) = true)) ∧
    (∃ s : State, ∃ m, Canonical s ∧ s.masterReaches m = true ∧ s.served 0x800 = true ∧ s.mailbox.busy = false ∧ s.mailMaster m = true ∧ ∃ k
      code, (code = 2 ∧ (67108864 ≤ s.mailbox.rmoff.toNat ∨ s.mailbox.rmoff.toNat % 1024 ≠ 0) ∨ code = 3 ∧ s.mailbox.rmoff.toNat < 67108864 ∧
      s.mailbox.rmoff.toNat % 1024 = 0 ∧ s.flash.written.contains (k, s.mailbox.rmoff.toNat / 1024) = true)) ∧
    (∃ s : State, ∃ m, Canonical s ∧ s.masterReaches m = true ∧ s.served 0x800 = true ∧ s.mailbox.busy = false ∧ s.mailMaster m = true ∧ ∃ k, k <
      s.flash.slots.length ∧ s.mailbox.rmoff.toNat < 67108864 ∧ s.mailbox.rmoff.toNat % 1024 = 0 ∧ s.flash.written.contains (k, s.mailbox.rmoff.toNat
      / 1024) = false) ∧
    (∃ s : State, ∃ m, Canonical s ∧ s.masterReaches m = true ∧ s.served 0x800 = true ∧ s.mailbox.busy = false ∧ s.mailMaster m = true ∧ s.boot.stage
      ≠ 15) ∧
    (∃ s : State, ∃ m, Canonical s ∧ s.masterReaches m = true ∧ s.served 0x800 = true ∧ s.mailbox.busy = false ∧ s.mailMaster m = true ∧ s.boot.stage
      = 15) ∧
    (∃ s : State, ∃ m, ∃ i : Instr, ((∃ k, i = .mailboxErase m k) ∨ (∃ k, i = .mailboxWrite m k) ∨ (∃ k, i = .mailboxVerify m k) ∨ i =
      .mailboxRestart m) ∧ s.masterReaches m = true ∧ s.served 0x800 = true ∧ s.mailbox.busy = true) ∧
    (∃ s : State, ∃ m, ∃ i : Instr, ((∃ k, i = .mailboxErase m k) ∨ (∃ k, i = .mailboxWrite m k) ∨ (∃ k, i = .mailboxVerify m k) ∨ i =
      .mailboxRestart m) ∧ s.masterReaches m = true ∧ s.served 0x800 = true ∧ s.mailbox.busy = false ∧ s.mailMaster m = false) ∧
    (∃ s : State, ∃ op code, s.mailbox.running = some (op, code)) :=
  ⟨⟨({ srv 15 with mailbox := { State.reset.mailbox with rmoff := 0x3FFFC01 } }), 0, can (by decide), (by decide), (by decide), (by decide),
      (by decide), 0, 2, (.inl ⟨rfl, .inr (by decide)⟩)⟩,
    ⟨({ srv 15 with flash := { State.reset.flash with written := [(1, 0)] } }), 0, can (by decide), (by decide), (by decide), (by decide),
      (by decide), 1, 3, (.inr ⟨rfl, (by decide), (by decide), (by decide)⟩)⟩,
    ⟨({ srv 15 with mailbox := { State.reset.mailbox with rmoff := 0x3FFFC00 } }), 0, can (by decide), (by decide), (by decide), (by decide),
      (by decide), 1, (by decide), (by decide), (by decide), (by decide)⟩,
    ⟨(srv 6), 0, can (by decide), (by decide), (by decide), (by decide), (by decide), (by decide)⟩,
    ⟨(srv 15), 0, can (by decide), (by decide), (by decide), (by decide), (by decide), (by decide)⟩,
    ⟨({ srv 15 with mailbox := { State.reset.mailbox with busy := true } }), 0, (.mailboxErase 0 0), (.inl ⟨0, rfl⟩), (by decide), (by decide),
      (by decide)⟩,
    ⟨(srv 6), 1, (.mailboxRestart 1), (.inr (.inr (.inr rfl))), (by decide), (by decide), (by decide), (by decide)⟩,
    ⟨({ srv 15 with mailbox := { State.reset.mailbox with running := some (.verify, 3) } }), .verify, 3, (by decide)⟩⟩

/-- States and operands that meet the premises of `FabricPorts`. -/
theorem test_premises_FabricPorts :
    (∃ s : State, ∃ m p, ∃ v : Word, Canonical s ∧ Owns s m ∧ p < 26 ∧ bits v.toNat 0 0 = 1 ∧ portReserved v.toNat = false ∧ badMode p (bits v.toNat 3 2)
      = false ∧ bits (s.reg32 (portOff p)) 0 0 = 0) ∧
    (∃ s : State, ∃ m p, ∃ v : Word, Canonical s ∧ Owns s m ∧ p < 26 ∧ bits v.toNat 0 0 = 0 ∧ portReserved v.toNat = false ∧ bits (s.reg32 (portOff
      p)) 0 0 = 1) ∧
    (∃ s : State, ∃ p, s.portEn p = true ∧ AMap.getD s.ports p .disabled = .training) ∧
    (∃ s : State, ∃ p, s.portEn p = true ∧ AMap.getD s.ports p .disabled = .failed) ∧
    (∃ s : State, ∃ p, s.portEn p = true ∧ (AMap.getD s.ports p .disabled = .disabled ∨ AMap.getD s.ports p .disabled = .up)) ∧
    (∃ s : State, ∃ p, p < 26 ∧ s.portEn p = true ∧ AMap.getD s.ports p .disabled = .up) ∧
    (∃ s : State, ∃ i : Instr, ∃ m p, ∃ v : Word, (i = .portEnable m p v ∨ i = .portDisable m p v) ∧ Stranger s m) ∧
    (∃ s : State, ∃ i : Instr, ∃ m p, ∃ v : Word, (i = .portEnable m p v ∨ i = .portDisable m p v) ∧ ¬ Reaches s m) :=
  ⟨⟨(srv 6), 0, 25, 5, can (by decide), ⟨⟨by decide, (by decide)⟩, (by decide), (by decide)⟩, (by decide), (by decide), (by decide), (by decide),
      (by decide)⟩,
    ⟨({ srv 6 with mgmt := ws resetRegisters [(portOff 0, 4, 1)], ports := [(0, .up)] }), 0, 0, 0, can (by decide), ⟨⟨by decide, (by decide)⟩,
      (by decide), (by decide)⟩, (by decide), (by decide), (by decide), (by decide)⟩,
    ⟨({ srv 6 with mgmt := ws resetRegisters [(portOff 25, 4, 1)], ports := [(25, .training)] }), 25, (by decide), (by decide)⟩,
    ⟨({ srv 6 with mgmt := ws resetRegisters [(portOff 25, 4, 1)], ports := [(25, .failed)] }), 25, (by decide), (by decide)⟩,
    ⟨({ srv 6 with mgmt := ws resetRegisters [(portOff 25, 4, 1)], ports := [(25, .up)] }), 25, (by decide), (.inr (by decide))⟩,
    ⟨({ srv 6 with mgmt := ws resetRegisters [(portOff 25, 4, 1)], ports := [(25, .up)] }), 25, (by decide), (by decide), (by decide)⟩,
    ⟨(srv 6), (.portDisable 1 0 0), 1, 0, 0, (.inr rfl), ⟨⟨by decide, (by decide)⟩, (by decide)⟩⟩,
    ⟨State.reset, (.portDisable 0 0 0), 0, 0, 0, (.inr rfl), (fun h => absurd h.2 (by decide))⟩⟩

/-- States and operands that meet the premises of `Ownership`. -/
theorem test_premises_Ownership :
    (∃ s : State, ∃ r, ∃ id : BitVec 3, ∃ seq : Word, Reaches s r ∧ id.toNat = r ∧ seq = s.own.csq + 1 ∧ s.own.valid = false) ∧
    (∃ s : State, ∃ r, ∃ id : BitVec 3, ∃ seq : Word, Reaches s r ∧ id.toNat = r ∧ seq = s.own.csq + 1 ∧ s.own.valid = true ∧ s.own.id ≠ r ∧
      s.own.reqValid = false) ∧
    (∃ s : State, ∃ r, ∃ id : BitVec 3, ∃ seq : Word, Reaches s r ∧ id.toNat = r ∧ seq = s.own.csq + 1 ∧ s.own.valid = true ∧ s.own.id = r ∧
      s.own.reqValid = true) ∧
    (∃ s : State, ∃ i : Instr, ∃ m r, ∃ id : BitVec 3, ∃ seq : Word, (i = .claim m r id seq ∨ i = .requestHandover m r id seq ∨ i = .acceptHandover m
      r id seq ∨ i = .release m r id seq) ∧ Reaches s m ∧ (m ≠ r ∨ id.toNat ≠ r)) ∧
    (∃ s : State, ∃ i : Instr, ∃ m r, ∃ id : BitVec 3, ∃ seq : Word, (i = .claim m r id seq ∨ i = .requestHandover m r id seq ∨ i = .acceptHandover m
      r id seq ∨ i = .release m r id seq) ∧ Reaches s m ∧ m = r ∧ id.toNat = r ∧ seq ≠ s.own.csq + 1) ∧
    (∃ s : State, ∃ m, (m ∈ hostMasters ∨ m = 1 ∨ ((m = 2 ∨ m = 3) ∧ s.linkIsUp (decide (m = 3)) = false))) :=
  ⟨⟨({ srv 6 with own := { State.reset.own with valid := false, id := 0, reqValid := false } }), 7, 7, 1, ⟨by decide, (by decide)⟩, (by decide),
      (by decide), (by decide)⟩,
    ⟨({ srv 6 with own := { State.reset.own with valid := true, id := 0, reqValid := false } }), 7, 7, 1, ⟨by decide, (by decide)⟩, (by decide),
      (by decide), (by decide), (by decide), (by decide)⟩,
    ⟨({ srv 6 with own := { State.reset.own with valid := true, id := 7, reqValid := true } }), 7, 7, 1, ⟨by decide, (by decide)⟩, (by decide),
      (by decide), (by decide), (by decide), (by decide)⟩,
    ⟨(srv 6), (.claim 0 1 0 1), 0, 1, 0, 1, (.inl rfl), ⟨by decide, (by decide)⟩, (.inl (by decide))⟩,
    ⟨(srv 6), (.release 0 0 0 0), 0, 0, 0, 0, (.inr (.inr (.inr rfl))), ⟨by decide, (by decide)⟩, (by decide), (by decide), (by decide)⟩,
    ⟨(srv 6), 3, (by decide)⟩⟩

/-- States and operands that meet the premises of `JobControl`. -/
theorem test_premises_JobControl :
    (∃ s : State, ∃ m, Canonical s ∧ Owns s m ∧ spillNeed s.nranks ≤ s.reg64 0x40040 ∧ s.reg64 0x40038 % 4096 = 0) ∧
    (∃ s : State, ∃ m, Canonical s ∧ Owns s m ∧ s.jobOn = false ∧ (s.reg64 0x40040 < spillNeed s.nranks ∨ s.reg64 0x40038 % 4096 ≠ 0)) ∧
    (∃ s : State, ∃ m, Canonical s ∧ Owns s m ∧ s.jobOn = false ∧ (s.reg64 0x40040 < spillNeed s.nranks ∨ s.reg64 0x40038 % 4096 ≠ 0)) ∧
    (∃ s : State, s.jinval = true) ∧
    (∃ s : State, Canonical s ∧ ∃ a, 0x40000 ≤ a ∧ a < 0xC0000) ∧
    (∃ s : State, Canonical s ∧ ∃ k, k < 0x400000) ∧
    (∃ s : State, Canonical s ∧ ∃ k, k < 0x100000) ∧
    (∃ s : State, ∃ i : Instr, ∃ m, (i = .jobEnable m ∨ i = .jobDisable m ∨ i = .jinval m) ∧ Stranger s m) ∧
    (∃ s : State, ∃ i : Instr, ∃ m, (i = .jobEnable m ∨ i = .jobDisable m ∨ i = .jinval m) ∧ ¬ Reaches s m) :=
  ⟨⟨({ srv 6 with mgmt := ws resetRegisters [(0x40040, 8, 0x8000000)] }), 0, can (by decide), ⟨⟨by decide, (by decide)⟩, (by decide), (by decide)⟩,
      (by decide), (by decide)⟩,
    ⟨({ srv 6 with mgmt := ws resetRegisters [(0x4000C, 4, 1), (0x40040, 8, 0x7FFFFFF)] }), 0, can (by decide), ⟨⟨by decide, (by decide)⟩,
      (by decide), (by decide)⟩, (by decide), (.inl (by decide))⟩,
    ⟨({ srv 6 with mgmt := ws resetRegisters [(0x40038, 8, 0x800), (0x40040, 8, 0x8000000)] }), 0, can (by decide), ⟨⟨by decide, (by decide)⟩,
      (by decide), (by decide)⟩, (by decide), (.inr (by decide))⟩,
    ⟨({ State.reset with jinval := true }), (by decide)⟩,
    ⟨State.reset, can (by decide), 0x40000, (by decide), (by decide)⟩,
    ⟨State.reset, can (by decide), 0x3FFFFF, (by decide)⟩,
    ⟨State.reset, can (by decide), 0xFFFFF, (by decide)⟩,
    ⟨(srv 6), (.jobEnable 1), 1, (.inl rfl), ⟨⟨by decide, (by decide)⟩, (by decide)⟩⟩,
    ⟨State.reset, (.jobEnable 0), 0, (.inl rfl), (fun h => absurd h.2 (by decide))⟩⟩

/-- States and operands that meet the premises of `QueueAdministration`. -/
theorem test_premises_QueueAdministration :
    (∃ s : State, ∃ m q, ∃ v : Word, Owns s m ∧ bits v.toNat 0 0 = 1 ∧ s.queueEn q = false ∧ s.queueCfgOk q v.toNat = true) ∧
    (∃ s : State, ∃ m q, ∃ v : Word, Owns s m ∧ bits v.toNat 0 0 = 1 ∧ s.queueEn q = false ∧ s.queueCfgOk q v.toNat = false) ∧
    (∃ s : State, ∃ m q, Owns s m ∧ ∃ i : Instr, ∃ out, ((∃ v, i = .queueDisable m q v ∧ bits v.toNat 0 0 = 0 ∧ s.queueEn q = true ∧ out = s.qres)
      ∨ (i = .queueReset m q ∧ out = 2) ∨ (∃ g, i = .queueAdopt m q g ∧ out = 2 ∧ ((s.queue q).gen ≠ g ∨ (s.queue q).mode = .disabled ∨ (s.queue
      q).mode = .error)))) ∧
    (∃ s : State, ∃ m q, Owns s m ∧ ((s.queue q).mode = .orphaned ∨ (s.queue q).mode = .running)) ∧
    (∃ s : State, ∃ m, Owns s m) ∧
    (∃ s : State, ∃ q, s.barsOpen = true ∧ (s.queue q).mode = .running) ∧
    (∃ s : State, ∃ q, ∃ b : List Byte, s.barsOpen = true ∧ s.unitStopped .queues = false ∧ b.length = 64 ∧ s.acceptsSpawn q b = true) ∧
    (∃ s : State, ∃ q, ∃ b : List Byte, s.barsOpen = true ∧ s.unitStopped .queues = false ∧ ∃ w : Bool, (w = false ∨ b.length ≠ 64 ∨ s.acceptsSpawn q
      b = false)) :=
  ⟨⟨({ srv 6 with mgmt := ws resetRegisters [(0x200008, 4, 0x44)] }), 0, 0, 1, ⟨⟨by decide, (by decide)⟩, (by decide), (by decide)⟩, (by decide),
      (by decide), (by decide)⟩,
    ⟨(srv 6), 0, 0, 1, ⟨⟨by decide, (by decide)⟩, (by decide), (by decide)⟩, (by decide), (by decide), (by decide)⟩,
    ⟨(srv 6), 0, 0, ⟨⟨by decide, (by decide)⟩, (by decide), (by decide)⟩, (.queueReset 0 0), 2, (.inr (.inl ⟨rfl, rfl⟩))⟩,
    ⟨((srv 6).setQueue 0 { Queue.atReset with mode := .orphaned }), 0, 0, ⟨⟨by decide, (by decide)⟩, (by decide), (by decide)⟩, (by decide)⟩,
    ⟨(srv 6), 0, ⟨⟨by decide, (by decide)⟩, (by decide), (by decide)⟩⟩,
    ⟨((srv 6).setQueue 0 { Queue.atReset with mode := .running }), 0, (by decide), (by decide)⟩,
    ⟨((srv 6).setQueue 0 { Queue.atReset with mode := .running }), 0, (Memory.read (ws [] [(0, 4, 1), (4, 1, 1)]) 0 64), (by decide), (by decide),
      (by decide), (by decide)⟩,
    ⟨(srv 6), 0, [], (by decide), (by decide), true, (.inr (.inl (by decide)))⟩⟩

/-- States and operands that meet the premises of `FetchAndCompletion`. -/
theorem test_premises_FetchAndCompletion :
    (∃ s : State, ∃ q pa b, s.mayFetch q = true ∧ pa = ringPa (s.sqDev q) (s.reg64 (0x200010 + 32 * q)) (64 * (s.queue q).sqhead) ∧ s.held pa 64 = false
      ∧ b = Memory.read s.mem pa 64 ∧ cmdSeq b = (s.queue q).nextexp) ∧
    (∃ s : State, ∃ q pa b, s.mayFetch q = true ∧ pa = ringPa (s.sqDev q) (s.reg64 (0x200010 + 32 * q)) (64 * (s.queue q).sqhead) ∧ s.held pa 64 =
      false ∧ b = Memory.read s.mem pa 64 ∧ cmdSeq b ≠ (s.queue q).nextexp) ∧
    (∃ s : State, ∃ q, ∃ seq : Word, ∃ status : Nat, ∃ result rest pa tail, Canonical s ∧ (s.queue q).waiting = (seq, status, result) :: rest
      ∧ ((s.queue q).mode = .orphaned → s.cqDev q = true) ∧ tail = ((s.queue q).cqtail + 1) % s.cqSize q ∧ tail ≠ (s.queue q).cqhead ∧ pa =
      ringPa (s.cqDev q) (s.reg64 (0x200018 + 32 * q)) (16 * (s.queue q).cqtail) ∧ s.held pa 16 = false) ∧
    (∃ v : Queue, ∃ seq : Word, v.donemap.getLsbD 0 = false ∧ seq = v.lastcomp + 1 ∧ v.donemap = 0) ∧
    (∃ v : Queue, ∃ seq : Word, v.donemap.getLsbD 0 = false ∧ ∃ k, 0 < k ∧ k < 32 ∧ seq = v.lastcomp + 1 + BitVec.ofNat 32 k) :=
  ⟨⟨(({ srv 6 with mgmt := ws resetRegisters [(0x200000, 4, 0xC001), (0x200008, 4, 0x44), (0x200010, 8, 0x10000)], mem := ws [] [(0x10000, 4, 1)] } : State).setQueue 0 { Queue.atReset with mode := .running, sqtail := 1 }), 0, _, _, (by decide), rfl, (by decide), rfl, (by decide)⟩,
    ⟨(({ srv 6 with mgmt := ws resetRegisters [(0x200000, 4, 0xC001), (0x200008, 4, 0x44), (0x200010, 8, 0x10000)], mem := ws [] [(0x10000, 4, 2)] } : State).setQueue 0 { Queue.atReset with mode := .running, sqtail := 1 }), 0, _, _, (by decide), rfl, (by decide), rfl, (by decide)⟩,
    ⟨(({ srv 6 with mgmt := ws resetRegisters [(0x200000, 4, 0xC001), (0x200008, 4, 0x44), (0x200018, 8, 0x10000)] } : State).setQueue 0 { Queue.atReset with mode := .running, cqtail := 15, cqhead := 1, waiting := [(1, 0, 7)] }), 0, 1, 0, 7, [], _, _, can (by decide), (by decide), (fun _ => by decide), rfl, (by decide), rfl, (by decide)⟩,
    ⟨Queue.atReset, 1, (by decide), (by decide), (by decide)⟩,
    ⟨Queue.atReset, 32, (by decide), 31, (by decide), (by decide), (by decide)⟩⟩

/-- States and operands that meet the premises of `QueueCommands`. -/
theorem test_premises_QueueCommands :
    (∃ s : State, ∃ q seq c, s.cmd? q seq = some c ∧ s.canStart q c = true ∧ s.cmdBad c.bytes = false ∧ cmdOp c.bytes = 2) ∧
    (∃ s : State, ∃ q seq c, s.cmd? q seq = some c ∧ s.canStart q c = true ∧ s.cmdBad c.bytes = false ∧ cmdOp c.bytes = 3) ∧
    (∃ s : State, ∃ q seq c, s.cmd? q seq = some c ∧ s.canStart q c = true ∧ s.cmdBad c.bytes = false ∧ cmdOp c.bytes = 4) ∧
    (∃ s : State, ∃ q seq c, s.cmd? q seq = some c ∧ s.canStart q c = true ∧ s.cmdBad c.bytes = false ∧ cmdOp c.bytes = 5) ∧
    (∃ s : State, ∃ q seq c, ∃ i : Instr, s.cmd? q seq = some c ∧ s.canStart q c = true ∧ s.cmdBad c.bytes = true ∧ ((i = .wait q seq ∧ cmdOp c.bytes
      = 2) ∨ (i = .signal q seq ∧ cmdOp c.bytes = 3) ∨ (i = .copy q seq ∧ cmdOp c.bytes = 4) ∨ (i = .nopCommand q seq ∧ (cmdOp c.bytes = 0 ∨ 5 ≤
      cmdOp c.bytes)) ∨ (i = .launch q seq ∧ cmdOp c.bytes = 1))) ∧
    (∃ s : State, ∃ q seq c, s.cmd? q seq = some c ∧ c.state = .running ∧ cmdOp c.bytes = 2 ∧ cmdField c.bytes 16 8 ≤ s.ctrValue (cmdField c.bytes 8
      2)) ∧
    (∃ s : State, ∃ q seq c, s.cmd? q seq = some c ∧ c.state = .running ∧ cmdOp c.bytes = 2 ∧ s.ctrValue (cmdField c.bytes 8 2) < cmdField c.bytes 16
      8) ∧
    (∃ s : State, ∃ q seq c x, s.cmd? q seq = some c ∧ c.state = .running ∧ cmdOp c.bytes = 4 ∧ x = copySides c.bytes ∧ s.held (copyPa x.srcDev
      x.src) x.len = false ∧ s.held (copyPa x.dstDev x.dst) x.len = false ∧ devRangeOk x.srcDev x.src x.len = true ∧ devRangeOk x.dstDev x.dst x.len
      = true ∧ s.poisonIn (copyPa x.srcDev x.src) x.len = false) ∧
    (∃ s : State, ∃ q seq c x, s.cmd? q seq = some c ∧ c.state = .running ∧ cmdOp c.bytes = 4 ∧ x = copySides c.bytes ∧ s.held (copyPa x.srcDev
      x.src) x.len = false ∧ s.held (copyPa x.dstDev x.dst) x.len = false ∧ ∃ failed, ((failed = true ∧ (x.srcDev && x.dstDev) = false) ∨ devRangeOk
      x.srcDev x.src x.len = false ∨ devRangeOk x.dstDev x.dst x.len = false ∨ s.poisonIn (copyPa x.srcDev x.src) x.len = true)) ∧
    (∃ s : State, ∃ q seq c x, s.cmd? q seq = some c ∧ c.state = .running ∧ cmdOp c.bytes = 4 ∧ x = copySides c.bytes ∧ (x.srcDev = false ∨ x.dstDev
      = false)) ∧
    (∃ s : State, ∃ id t k e b a n ord d r ps, s.thread? id = some t ∧ t.log.find? (fun e => e.index == k) = some e ∧ e.access = .load b a n ord d r
      ∧ e.state = .sent ps ∧ (∃ bus m, (Place.peer bus, m, none) ∈ ps)) :=
  ⟨⟨(cq [(0, 4, 1), (4, 1, 2)] .fetched (wg [(0x3000008, 8, 1)] ({ job (srv 6) with mem := ws [] [(0x310000, 8, 0)] }))), 0, 1, _, rfl, (by decide),
      (by decide), (by decide)⟩,
    ⟨(cq [(0, 4, 1), (4, 1, 3)] .fetched (wg [(0x3000008, 8, 1)] ({ job (srv 6) with mem := ws [] [(0x310000, 8, 0)] }))), 0, 1, _, rfl, (by decide),
      (by decide), (by decide)⟩,
    ⟨(cq [(0, 4, 1), (4, 1, 4), (24, 4, 64), (28, 1, 3)] .fetched (srv 6)), 0, 1, _, rfl, (by decide), (by decide), (by decide)⟩,
    ⟨(cq [(0, 4, 1), (4, 1, 5)] .fetched (srv 6)), 0, 1, _, rfl, (by decide), (by decide), (by decide)⟩,
    ⟨(cq [(0, 4, 1), (4, 1, 6)] .fetched (srv 6)), 0, 1, _, (.nopCommand 0 1), rfl, (by decide), (by decide), (.inr (.inr (.inr (.inl ⟨rfl,
      .inr (by decide)⟩))))⟩,
    ⟨(cq [(0, 4, 1), (4, 1, 2)] .running (wg [(0x3000008, 8, 1)] ({ job (srv 6) with mem := ws [] [(0x310000, 8, 0)] }))), 0, 1, _, rfl, (by decide),
      (by decide), (by decide)⟩,
    ⟨(cq [(0, 4, 1), (4, 1, 2), (16, 8, 1)] .running (wg [(0x3000008, 8, 1)] ({ job (srv 6) with mem := ws [] [(0x310000, 8, 0)] }))), 0, 1, _, rfl,
      (by decide), (by decide), (by decide)⟩,
    ⟨(cq [(0, 4, 1), (4, 1, 4), (24, 4, 64), (28, 1, 3)] .running (srv 6)), 0, 1, _, _, rfl, (by decide), (by decide), rfl, (by decide), (by decide),
      (by decide), (by decide), (by decide)⟩,
    ⟨(cq [(0, 4, 1), (4, 1, 4), (24, 4, 64), (28, 1, 2)] .running (srv 6)), 0, 1, _, _, rfl, (by decide), (by decide), rfl, (by decide), (by decide),
      true, (.inl ⟨rfl, (by decide)⟩)⟩,
    ⟨(cq [(0, 4, 1), (4, 1, 4), (24, 4, 64), (28, 1, 1)] .running (srv 6)), 0, 1, _, _, rfl, (by decide), (by decide), rfl, (.inr (by decide))⟩,
    ⟨(put (fun t => { t with log := [le (.load .gl 0x200000 4 .plain .dev 4) (.sent [(.peer 0x1000, 4, none)])] }) (base [])), ⟨0, 0, 0, 0⟩,
      (th (put (fun t => { t with log := [le (.load .gl 0x200000 4 .plain .dev 4) (.sent [(.peer 0x1000, 4, none)])] }) (base []))), 0, _, _, _, _,
      _, _, _, _, (by decide), rfl, rfl, rfl, ⟨0x1000, 4, (by decide)⟩⟩⟩

/-- States and operands that meet the premises of `Launches`. -/
theorem test_premises_Launches :
    (∃ s : State, ∃ q seq c, s.cmd? q seq = some c ∧ cmdOp c.bytes = 1 ∧ s.canStart q c = true ∧ s.cmdBad c.bytes = false ∧ cmdField c.bytes 14 2 ≠
      s.queueAsid q) ∧
    (∃ s : State, ∃ q seq c, s.cmd? q seq = some c ∧ cmdOp c.bytes = 1 ∧ s.canStart q c = true ∧ s.cmdBad c.bytes = false ∧ cmdField c.bytes 14 2 =
      s.queueAsid q ∧ s.headerAt (cmdField c.bytes 14 2) (cmdField c.bytes 8 6) = .refused) ∧
    (∃ s : State, ∃ q seq c, s.cmd? q seq = some c ∧ cmdOp c.bytes = 1 ∧ s.canStart q c = true ∧ s.cmdBad c.bytes = false ∧ ∃ b, cmdField c.bytes 14
      2 = s.queueAsid q ∧ s.headerAt (cmdField c.bytes 14 2) (cmdField c.bytes 8 6) = .ok b [] ∧ parseHeader b = none) ∧
    (∃ s : State, ∃ q seq c, s.cmd? q seq = some c ∧ cmdOp c.bytes = 1 ∧ s.canStart q c = true ∧ s.cmdBad c.bytes = false ∧ ∃ b, cmdField c.bytes 14
      2 = s.queueAsid q ∧ s.headerAt (cmdField c.bytes 14 2) (cmdField c.bytes 8 6) = .ok b [] ∧ ∃ h, parseHeader b = some h ∧ h.accepted (cmdField
      c.bytes 14 2) (cmdField c.bytes 56 2) (cmdField c.bytes 58 2) (cmdField c.bytes 60 2) = false) ∧
    (∃ s : State, ∃ q seq c, s.cmd? q seq = some c ∧ cmdOp c.bytes = 1 ∧ s.canStart q c = true ∧ s.cmdBad c.bytes = false ∧ ∃ b, cmdField c.bytes 14
      2 = s.queueAsid q ∧ s.headerAt (cmdField c.bytes 14 2) (cmdField c.bytes 8 6) = .ok b [] ∧ ∃ h, parseHeader b = some h ∧ h.accepted (cmdField
      c.bytes 14 2) (cmdField c.bytes 56 2) (cmdField c.bytes 58 2) (cmdField c.bytes 60 2) = true) ∧
    (∃ s : State, ∃ q seq c n l, ∃ u : State, ∃ status, s.cmd? q seq = some c ∧ c.state = .running ∧ s.launchOfCmd q seq = some (n, l) ∧ l.ended =
      l.gx * l.gy * l.gz ∧ s.launchStored n = true ∧ u = ({ s with launches := AMap.erase s.launches n } : State) ∧ status = (if l.faulted = 0 then 0
      else 5) ∧ u.joinAt q c status = .none) ∧
    (∃ s : State, ∃ q seq c n l, ∃ u : State, ∃ status, s.cmd? q seq = some c ∧ c.state = .running ∧ s.launchOfCmd q seq = some (n, l) ∧ l.ended =
      l.gx * l.gy * l.gz ∧ s.launchStored n = true ∧ u = ({ s with launches := AMap.erase s.launches n } : State) ∧ status = (if l.faulted = 0 then 0
      else 5) ∧ u.joinAt q c status = .count) ∧
    (∃ s : State, ∃ q seq c n l, ∃ u : State, ∃ status, s.cmd? q seq = some c ∧ c.state = .running ∧ s.launchOfCmd q seq = some (n, l) ∧ l.ended =
      l.gx * l.gy * l.gz ∧ s.launchStored n = true ∧ u = ({ s with launches := AMap.erase s.launches n } : State) ∧ status = (if l.faulted = 0 then 0
      else 5) ∧ ∃ pa, u.joinAt q c status = .add pa) ∧
    (∃ s : State, ∃ q seq c n l, s.cmd? q seq = some c ∧ c.state = .running ∧ s.launchOfCmd q seq = some (n, l) ∧ (l.ended ≠ l.gx * l.gy * l.gz ∨
      s.launchStored n = false)) :=
  ⟨⟨(cq [(0, 4, 1), (4, 1, 1), (8, 6, 0x100000), (56, 2, 1), (58, 2, 1), (60, 2, 1), (14, 2, 1)] .fetched (srv 6)), 0, 1, _, rfl, (by decide),
      (by decide), (by decide), (by decide)⟩,
    ⟨(cq [(0, 4, 1), (4, 1, 1), (8, 6, 0x100000), (56, 2, 1), (58, 2, 1), (60, 2, 1)] .fetched (wm [(0, 8, 0x1001), (0x1000, 8, 0x10001), (0x10000,
      8, 3)] (srv 6))), 0, 1, _, rfl, (by decide), (by decide), (by decide), (by decide), (by rfl)⟩,
    ⟨(cq [(0, 4, 1), (4, 1, 1), (8, 6, 0x100000), (56, 2, 1), (58, 2, 1), (60, 2, 1)] .fetched (srv 6).flatTables), 0, 1, _, rfl, (by decide),
      (by decide), (by decide), _, (by decide), (by rfl), (by decide)⟩,
    ⟨(cq [(0, 4, 1), (4, 1, 1), (8, 6, 0x100000), (56, 2, 1), (58, 2, 1), (60, 2, 1)] .fetched (wm [(0x100000, 8, 0x011101004C414748), (0x100015, 1,
      3)] (srv 6).flatTables)), 0, 1, _, rfl, (by decide), (by decide), (by decide), _, (by decide), (by rfl), { hdr with pair := true },
      (by decide), (by decide)⟩,
    ⟨(cq [(0, 4, 1), (4, 1, 1), (8, 6, 0x100000), (56, 2, 1), (58, 2, 1), (60, 2, 1)] .fetched (wm [(0x100000, 8, 0x011101004C414748), (0x100015, 1,
      1)] (srv 6).flatTables)), 0, 1, _, rfl, (by decide), (by decide), (by decide), _, (by decide), (by rfl), hdr, (by decide), (by decide)⟩,
    ⟨(cq [(0, 4, 1), (4, 1, 1)] .running ({ (srv 6) with launches := [(1, { lch with ended := 1 })] })), 0, 1, _, 1, _, _, 0, rfl, (by decide), rfl,
      (by decide), (by decide), rfl, (by decide), (by decide)⟩,
    ⟨(cq [(0, 4, 1), (4, 1, 1), (48, 8, 1)] .running ({ (srv 6) with launches := [(1, { lch with ended := 1 })] })), 0, 1, _, 1, _, _, 0, rfl,
      (by decide), rfl, (by decide), (by decide), rfl, (by decide), (by decide)⟩,
    ⟨(cq [(0, 4, 1), (4, 1, 1), (48, 8, 8)] .running ({ (srv 6) with launches := [(1, { lch with ended := 1 })] })), 0, 1, _, 1, _, _, 0, rfl,
      (by decide), rfl, (by decide), (by decide), rfl, (by decide), _, rfl⟩,
    ⟨(cq [(0, 4, 1), (4, 1, 1)] .running ({ (srv 6) with launches := [(1, { lch with ended := 0 })] })), 0, 1, _, 1, _, rfl, (by decide), rfl,
      (.inl (by decide))⟩⟩

/-- States and operands that meet the premises of `DispatchDecisions`. -/
theorem test_premises_DispatchDecisions :
    (∃ s : State, ∃ m, Owns s m) ∧
    (∃ s : State, s.unitStopped .queues = true) ∧
    (∃ s : State, ∃ b, s.unitStopped .queues = false ∧ b = s.beforeDecision ∧ ∃ q pos, b.promoted.find? (fun q => b.readyQueues.contains q) = some q
      ∧ b.placeOf q = some pos) ∧
    (∃ s : State, ∃ b, s.unitStopped .queues = false ∧ b = s.beforeDecision ∧ ∃ h hd hc hp q, ∃ defs : AMap Nat Nat, ∃ cur p pos,
      b.promoted.find? (fun q => b.readyQueues.contains q) = none ∧ b.choose b.readyQueues = some (h, hd, hc, hp) ∧ (b.placeOf h).isSome = true ∧
      b.choose (b.readyQueues.filter (fun q => (b.placeOf q).isSome)) = some (q, defs, cur, p) ∧ b.placeOf q = some pos) ∧
    (∃ s : State, ∃ b, s.unitStopped .queues = false ∧ b = s.beforeDecision ∧ b.readyQueues = []) ∧
    (∃ s : State, ∃ t q, ∃ v : Queue, exec .dispatchDecision s = .next t ∧ s.unitStopped .queues = false ∧ AMap.get? t.queues q = some v ∧ q ∉
      t.readyQueues) ∧
    (∃ cost : Nat → Nat, ∃ qs : List Nat, ∃ defs : AMap Nat Nat, ∃ cur k, k = AMap.getD defs cur 0 ∧ cur ∈ qs ∧ cost cur ≤ k) ∧
    (∃ cost : Nat → Nat, ∃ qs : List Nat, ∃ defs : AMap Nat Nat, ∃ cur n, (cur ∉ qs ∨ AMap.getD defs cur 0 < cost cur) ∧ n = nextAfter cur qs) ∧
    (∃ cost : Nat → Nat, ∃ qs : List Nat, ∃ defs : AMap Nat Nat, ∃ cur n, (cur ∉ qs ∨ AMap.getD defs cur 0 < cost cur) ∧ n = nextAfter cur qs) ∧
    (∃ cost : Nat → Nat, ∃ weight : Nat → Nat, ∃ qs : List Nat, ∃ fuel, ∃ defs : AMap Nat Nat, ∃ cur q d c, roundRobin cost weight qs fuel defs cur =
      some (q, d, c) ∧ ∃ x, x ≠ q) :=
  ⟨⟨(srv 6), 0, ⟨⟨by decide, (by decide)⟩, (by decide), (by decide)⟩⟩,
    ⟨({ State.reset with cut := { State.reset.cut with units := [.queues] } }), (by decide)⟩,
    ⟨({ rdy (fun h => h) with promoted := [0] }), _, (by decide), rfl, 0, _, (by decide), someOf (by decide)⟩,
    ⟨(rdy (fun h => h)), _, (by decide), rfl, _, _, _, _, _, _, _, _, _, (by decide), someOf4 (by decide), (by decide), someOf4 (by decide),
      someOf (by decide)⟩,
    ⟨State.reset, _, (by decide), rfl, (by decide)⟩,
    ⟨(State.reset.setQueue 0 Queue.atReset), (State.reset.setQueue 0 Queue.atReset).beforeDecision.zeroDeficits, 0, _, rfl, (by decide),
      someOf (by decide), (by decide)⟩,
    ⟨(fun _ => 1), [0], [(0, 1)], 0, _, rfl, (by decide), (by decide)⟩,
    ⟨(fun _ => 1), [0], [], 0, _, (.inr (by decide)), rfl⟩,
    ⟨(fun _ => 0), [1], [], 0, _, (.inl (by decide)), rfl⟩,
    ⟨(fun _ => 1), (fun _ => 1), [0], 2, [], 0, _, _, _, rfl, 1, (by decide)⟩⟩

/-- States and operands that meet the premises of `GroupStart`. -/
theorem test_premises_GroupStart :
    ∃ l : Launch, ∃ i : Nat, i < l.header.width :=
  ⟨{ lch with header := { hdr with width := 64 } }, 63, (by decide)⟩

/-- States and operands that meet the premises of `TeamsLeaveAndSwap`. -/
theorem test_premises_TeamsLeaveAndSwap :
    (∃ s : State, ∃ id v, s.team? id = some v ∧ v.ended = false ∧ v.action = some .flush ∧ s.clusterStopped v.cluster = true) ∧
    (∃ s : State, ∃ id v, s.team? id = some v ∧ v.ended = false ∧ v.action = some .save ∧ s.clusterStopped v.cluster = true ∧ s.areaUsed +
      s.contextBytes id v ≤ s.ctxlen) ∧
    (∃ s : State, ∃ id v, s.team? id = some v ∧ v.ended = false ∧ v.action = some .save ∧ s.clusterStopped v.cluster = true ∧ s.ctxlen < s.areaUsed +
      s.contextBytes id v) ∧
    (∃ s : State, ∃ id v, s.team? id = some v ∧ s.clusterStopped v.cluster = false) ∧
    (∃ s : State, ∃ id v since, s.team? id = some v ∧ v.action = some (.drain since) ∧ v.ended = false ∧ since + 2 ^ 22 ≤ v.ncyc) ∧
    (∃ s : State, ∃ id v since, s.team? id = some v ∧ v.action = some (.drain since) ∧ v.ended = false ∧ v.ncyc < since + 2 ^ 22) ∧
    (∃ s : State, ∃ core g v e, s.readyPending core = some e ∧ g ∈ (s.core core).active ∧ s.group? g = some v ∧ g.core = core ∧ (s.core core).swapT ≤
      v.parkedFor ∧ s.ready g = false ∧ (∀ h ∈ (s.core core).active, h ≠ g → ∀ w, s.group? h = some w → w.parkedFor < v.parkedFor)) ∧
    (∃ s : State, ∃ core g v e, s.readyPending core = some e ∧ g ∈ (s.core core).active ∧ s.group? g = some v ∧ g.core = core ∧ s.longWaiting core =
      true ∧ (∀ h ∈ (s.core core).active, h ≠ g → ∀ w, s.group? h = some w → w.issues < v.issues)) ∧
    (∃ s : State, ∃ core g v e, s.readyPending core = some e ∧ g ∈ (s.core core).active ∧ s.group? g = some v ∧ g.core = core ∧ (s.core core).swapped
      ≠ (s.core core).cycle ∧ ∃ h w, (h = g ∨ h = e) ∧ (s.exchange g).group? h = some w) ∧
    (∃ s : State, ∃ core g v e, s.readyPending core = some e ∧ g ∈ (s.core core).active ∧ s.group? g = some v ∧ g.core = core ∧ (s.core core).swapped
      = (s.core core).cycle) ∧
    (∃ s : State, ∃ core, (∀ g ∈ (s.core core).pending, s.ready g = true → ∀ v, s.group? g = some v → v.waited < 4096)) ∧
    (∃ n : Nat, 16 ≤ n ∧ n ≤ 4096) ∧
    (∃ n : Nat, 16 ≤ n ∧ n ≤ 4096) :=
  ⟨⟨(tm (fun t => { t with action := some .flush }) (base [])), ⟨0, 0⟩, _, someOf (by decide), (by decide), (by decide), (by decide)⟩,
    ⟨({ (tm (fun t => { t with action := some .save }) (base [])) with mgmt := ws resetRegisters [(0x280020, 8, 0xFFFFFFFFFF)] }), ⟨0, 0⟩, _,
      someOf (by decide), (by decide), (by decide), (by decide), (by decide)⟩,
    ⟨({ (tm (fun t => { t with action := some .save }) (base [])) with mgmt := ws resetRegisters [(0x280020, 8, 0x100)] }), ⟨0, 0⟩, _,
      someOf (by decide), (by decide), (by decide), (by decide), (by decide)⟩,
    ⟨(tm (fun t => { t with action := some .flush }) (put (fun t => { t with wait := .leaving }) (base []))), ⟨0, 0⟩, _, someOf (by decide),
      (by decide)⟩,
    ⟨(tm (fun t => { t with action := some (.drain 0), ncyc := 0x400000 }) (base [])), ⟨0, 0⟩, _, 0, someOf (by decide), (by decide), (by decide),
      (by decide)⟩,
    ⟨(tm (fun t => { t with action := some (.drain 0), ncyc := 0x3FFFFF }) (base [])), ⟨0, 0⟩, _, 0, someOf (by decide), (by decide), (by decide),
      (by decide)⟩,
    ⟨((pendg (fun k => { k with swapT := 16 }) (put (fun t => { t with wait := .park 100 }) (base []))).modGroup ⟨0, 0,
      0⟩ (fun g => { g with parkedFor := 16 }) |>.setThread (memberOf ⟨0, 0, 1⟩ 0) (th (base []))), 0, ⟨0, 0, 0⟩, _, _, someOf (by decide),
      (by decide), someOf (by decide), (by decide), (by decide), (by decide), onlyOf rfl⟩,
    ⟨(waited 4096), 0, ⟨0, 0, 0⟩, _, _, someOf (by decide), (by decide), someOf (by decide), (by decide), (by decide), onlyOf rfl⟩,
    ⟨(ck (fun k => { k with cycle := 1 }) (waited 0)), 0, ⟨0, 0, 0⟩, _, _, someOf (by decide), (by decide), someOf (by decide), (by decide),
      (by decide), ⟨0, 0, 1⟩, _, (.inr (by decide)), someOf (by decide)⟩,
    ⟨(ck (fun k => { k with swapped := k.cycle }) (waited 0)), 0, ⟨0, 0, 0⟩, _, _, someOf (by decide), (by decide), someOf (by decide), (by decide),
      (by decide)⟩,
    ⟨(waited 4095), 0, briefWaits (by decide)⟩,
    ⟨16, (by decide), (by decide)⟩,
    ⟨4096, (by decide), (by decide)⟩⟩

/-- States and operands that meet the premises of `ConsistentCut`. -/
theorem test_premises_ConsistentCut :
    (∃ s : State, ∃ m, ∃ i : Instr, ∃ k : Bool, Owns s m ∧ ((i = .cutStop m ∧ k = false) ∨ (i = .cutStopSave m ∧ k = true)) ∧ s.cut.isStopped = false ∧
      s.cut.stopping = false) ∧
    (∃ s : State, ∃ m, ∃ i : Instr, ∃ k : Bool, Owns s m ∧ ((i = .cutStop m ∧ k = false) ∨ (i = .cutStopSave m ∧ k = true)) ∧ s.cut.isStopped = false
      ∧ s.cut.stopping = true) ∧
    (∃ s : State, ∃ m, ∃ i : Instr, ∃ k : Bool, Owns s m ∧ ((i = .cutStop m ∧ k = false) ∨ (i = .cutStopSave m ∧ k = true)) ∧ s.cut.isStopped = true
      ∧ (k = false ∨ s.cut.save = true)) ∧
    (∃ s : State, ∃ u, s.cut.stopping = true ∧ s.cut.units.contains u = false ∧ s.unitAtBoundary u = true) ∧
    (∃ s : State, ∃ u, s.cut.stopping = true ∧ s.cut.units.contains u = false ∧ s.unitAtBoundary u = true) ∧
    (∃ s : State, ∃ rx cls payload n, n = AMap.getD s.cut.rxSeq (rx, cls) 0 ∧ s.flitStopped payload = true) ∧
    (∃ s : State, ∃ rx cls payload n, n = AMap.getD s.cut.rxSeq (rx, cls) 0 ∧ s.flitStopped payload = false) ∧
    (∃ s : State, (s.cut.stopping = true ∨ s.cut.isStopped = true)) ∧
    (∃ s : State, (s.cut.stopping = true ∨ s.cut.isStopped = true)) ∧
    (∃ s : State, ∃ m, Owns s m ∧ s.cut.isStopped = true) ∧
    (∃ s : State, ∃ m, Owns s m ∧ s.cut.isStopped = false) ∧
    (∃ s : State, ∃ id, ∃ k : Nat, ∃ e, s.entryAt id k = some e) ∧
    (∃ s : State, ∃ id, ∃ k : Nat, ∃ t q, s.thread? id = some t ∧ t.stream k = some q ∧ q.write = false) :=
  ⟨⟨(srv 6), 0, (.cutStop 0), false, ⟨⟨by decide, (by decide)⟩, (by decide), (by decide)⟩, (.inl ⟨rfl, rfl⟩), (by decide), (by decide)⟩,
    ⟨(stopping (srv 6)), 0, (.cutStopSave 0), true, ⟨⟨by decide, (by decide)⟩, (by decide), (by decide)⟩, (.inr ⟨rfl, rfl⟩), (by decide),
      (by decide)⟩,
    ⟨(isCut (srv 6)), 0, (.cutStopSave 0), true, ⟨⟨by decide, (by decide)⟩, (by decide), (by decide)⟩, (.inr ⟨rfl, rfl⟩), (by decide), (.inr rfl)⟩,
    ⟨(stopping (base [])), (.thread ⟨0, 0, 0, 0⟩), (by decide), (by decide), (by decide)⟩,
    ⟨(stopping State.reset), .queues, (by decide), (by decide), (by decide)⟩,
    ⟨(stopping State.reset), 25, 5, (.raw []), _, rfl, (by decide)⟩,
    ⟨(srv 6), 25, 5, (.answer ⟨0, 0, 0, 0⟩ 0 .failed), _, rfl, (by decide)⟩,
    ⟨(stopping State.reset), (.inl rfl)⟩,
    ⟨(isCut State.reset), (.inr rfl)⟩,
    ⟨(isCut (srv 6)), 0, ⟨⟨by decide, (by decide)⟩, (by decide), (by decide)⟩, (by decide)⟩,
    ⟨(srv 6), 0, ⟨⟨by decide, (by decide)⟩, (by decide), (by decide)⟩, (by decide)⟩,
    ⟨(put (fun t => { t with log := [le (.load .gl 0x200000 4 .plain .dev 4) .pending] }) (base [])), ⟨0, 0, 0, 0⟩, 0, _, rfl⟩,
    ⟨(put (fun t => { t with q := [none, none, none, some (str false)] }) (base [])), ⟨0, 0, 0, 0⟩, 3, _, _, rfl, rfl, (by decide)⟩⟩

/-- States and operands that meet the premises of `ServiceEvents`. -/
theorem test_premises_ServiceEvents :
    (∃ s : State, ∃ k : Nat, ∃ b : ServiceBatch, ∃ ring next core n, s.service.batches[k]? = some b ∧ b.closed = true ∧ b.slot = none ∧ AMap.get?
      s.service.rings b.die = some (ring, next, core) ∧ s.freeSlot b.die ring next = some n) ∧
    (∃ s : State, ∃ die slot ring next core, ∃ b : ServiceBatch, AMap.get? s.service.rings die = some (ring, next, core) ∧ slot < 64 ∧ s.read (slotPa
      ring slot + 16) 4 = 2 ∧ s.service.batches.find? (fun b => b.slot == some slot && b.die == die) = some b ∧ s.cut.stopping = false ∧
      s.cut.isStopped = false ∧ s.batchHalted b = false ∧ ∃ u, ∃ pa : Nat, pa = slotPa ring slot ∧ u
      = ({ s with service := { s.service with batches := s.service.batches.filter (fun x => !(x.slot == some slot && x.die == die)) } } : State) ∧
      b.kind ≠ 2) ∧
    (∃ s : State, ∃ die slot ring next core, ∃ b : ServiceBatch, AMap.get? s.service.rings die = some (ring, next, core) ∧ slot < 64 ∧ s.read (slotPa
      ring slot + 16) 4 = 2 ∧ s.service.batches.find? (fun b => b.slot == some slot && b.die == die) = some b ∧ s.cut.stopping = false ∧
      s.cut.isStopped = false ∧ s.batchHalted b = false ∧ ∃ u, ∃ pa : Nat, pa = slotPa ring slot ∧ u
      = ({ s with service := { s.service with batches := s.service.batches.filter (fun x => !(x.slot == some slot && x.die == die)) } } : State) ∧
      b.kind = 2 ∧ (s.answer pa 0).1 = 0) ∧
    (∃ s : State, ∃ die slot ring next core, ∃ b : ServiceBatch, AMap.get? s.service.rings die = some (ring, next, core) ∧ slot < 64 ∧ s.read (slotPa
      ring slot + 16) 4 = 2 ∧ s.service.batches.find? (fun b => b.slot == some slot && b.die == die) = some b ∧ s.cut.stopping = false ∧
      s.cut.isStopped = false ∧ s.batchHalted b = false ∧ ∃ u, ∃ pa : Nat, pa = slotPa ring slot ∧ u
      = ({ s with service := { s.service with batches := s.service.batches.filter (fun x => !(x.slot == some slot && x.die == die)) } } : State) ∧
      b.kind = 2 ∧ (s.answer pa 0).1 ≠ 0) ∧
    (∃ s : State, (s.cut.stopping = true ∨ s.cut.isStopped = true)) ∧
    (∃ s : State, (s.cut.stopping = true ∨ s.cut.isStopped = true)) ∧
    (∃ s : State, ∃ b : ServiceBatch, ∃ c ∈ b.calls, ∃ t, s.thread? (b.thread c) = some t) ∧
    (∃ s : State, ∃ b : ServiceBatch, ∃ pa : Nat, ∃ c : Call, ∃ t w0 w1, s.thread? (b.thread c) = some t ∧ t.wait = .call ∧ b.kind = 0 ∧ b.engine =
      .none ∧ s.answer pa c.member = (w0, w1)) ∧
    (∃ s : State, ∃ b : ServiceBatch, ∃ pa : Nat, ∃ c : Call, ∃ t back, s.thread? (b.thread c) = some t ∧ t.wait = .service back ∧ b.kind = 1 ∧
      b.engine = .none ∧ (s.answer pa c.member).1 = 0) ∧
    (∃ s : State, ∃ b : ServiceBatch, ∃ pa : Nat, ∃ c : Call, ∃ t back, s.thread? (b.thread c) = some t ∧ t.wait = .service back ∧ b.kind = 1 ∧
      b.engine = .none ∧ (s.answer pa c.member).1 ≠ 0 ∧ t.handling = false ∧ t.trapsOn = true) ∧
    (∃ die page, ∃ l1 : Option Nat, (2 ^ 32 ≤ page ∨ ∃ c, l1 = some c ∧ dieOf c ≠ die)) ∧
    (∃ s : State, ∃ die asid page, ∃ l1 : Option Nat, ∃ fresh : Bool, ∃ e, ∃ b : Bool, ∃ u, page < 2 ^ 32 ∧ (∀ c, l1 = some c → dieOf c = die) ∧ u
      = (if fresh then s.forgetPage die asid (page * 65536) else s) ∧ ((u.cachedLeaf (.die die) asid (page * 65536)).orElse (fun _ => u.walkVia die
      asid (page * 65536))) = some (e, b)) ∧
    (∃ s : State, ∃ die asid page, ∃ l1 : Option Nat, ∃ u, page < 2 ^ 32 ∧ (∀ c, l1 = some c → dieOf c = die) ∧ u = s.forgetPage die asid (page *
      65536) ∧ u.walkVia die asid (page * 65536) = none) :=
  ⟨⟨(svcDev (sb 0 none) 0 .run), 0, _, 4, 63, 0, _, rfl, (by decide), (by decide), rfl, someOf (by decide)⟩,
    ⟨(svcDev (sb 0 (some 63)) 0 .run), 0, 63, 4, 63, 0, _, rfl, (by decide), (by decide), rfl, (by decide), (by decide), (by decide), _, _, rfl, rfl,
      (by decide)⟩,
    ⟨(svcDev (sb 2 (some 63)) 0 .run), 0, 63, 4, 63, 0, _, rfl, (by decide), (by decide), rfl, (by decide), (by decide), (by decide), _, _, rfl, rfl,
      (by decide), (by decide)⟩,
    ⟨(svcDev (sb 2 (some 63)) 1 .run), 0, 63, 4, 63, 0, _, rfl, (by decide), (by decide), rfl, (by decide), (by decide), (by decide), _, _, rfl, rfl,
      (by decide), (by decide)⟩,
    ⟨(stopping (base [])), (.inl rfl)⟩,
    ⟨(isCut (base [])), (.inr rfl)⟩,
    ⟨(svcDev (sb 0 (some 63)) 0 .call), (sb 0 (some 63)), { member := 0, number := 5, args := [], addr := 0, access := 0, dst := 4 }, (by decide), _,
      someOf (by decide)⟩,
    ⟨(svcDev (sb 0 (some 63)) 0 .call), ({ sb 0 (some 63) with engine := .none }), 0,
      { member := 0, number := 5, args := [], addr := 0, access := 0, dst := 4 }, _, _, _, rfl, (by decide), (by decide), (by decide), pairOf _⟩,
    ⟨(svcDev ({ sb 1 (some 63) with engine := .none }) 0 (.service .run)), ({ sb 1 (some 63) with engine := .none }), (slotPa 4 63),
      { member := 0, number := 5, args := [], addr := 0, access := 0, dst := 4 }, _, _, rfl, rfl, (by decide), (by decide), (by decide)⟩,
    ⟨(put (fun t => { t with tstat := 6 }) (svcDev ({ sb 1 (some 63) with engine := .none }) 1 (.service .run))),
      ({ sb 1 (some 63) with engine := .none }), (slotPa 4 63), { member := 0, number := 5, args := [], addr := 0, access := 0, dst := 4 }, _, _,
      rfl, rfl, (by decide), (by decide), (by decide), (by decide), (by decide)⟩,
    ⟨0, 0x100000000, none, (.inl (by decide))⟩,
    ⟨State.reset.flatTables, 0, 0, 0x10, none, false, _, _, _, (by decide), (fun _ h => nomatch h), rfl, someOf2 (by decide)⟩,
    ⟨State.reset, 0, 0, 0x10, none, _, (by decide), (fun _ h => nomatch h), rfl, (by decide)⟩⟩

/-- States and operands that meet the premises of `ReturnsAndCommits`. -/
theorem test_premises_ReturnsAndCommits :
    (∃ s : State, ∃ id k t e ev u, s.thread? id = some t ∧ t.log.find? (fun e => e.index == k) = some e ∧ e.state = .pending ∧ u = s.evictLines ev ∧
      u.blocked id e.stamp e.kernel e.access = false ∧ u.transportHolds (u.accessParts id e.kernel e.access) = false) ∧
    (∃ s : State, ∃ id n b ev u, u = s.evictLines ev ∧ u.buffer.find? (fun b => decide (b.thread = id) && b.stamp == n) = some b ∧ u.transportHolds
      b.parts = false) ∧
    (∃ s : State, ∃ id t, s.thread? id = some t ∧ (∃ l, t.wait = .marker false l) ∧ allReturned t.log = true ∧ flaggedOf t.log = []) ∧
    (∃ s : State, ∃ id t l u, s.thread? id = some t ∧ t.wait = .marker true l ∧ allReturned t.log = true ∧ flaggedOf t.log = [] ∧ u =
      { (t.commit t.log).ordered with log := [], wait := Wait.run } ∧ s.deliver id u = none) ∧
    (∃ s : State, ∃ id t l u, s.thread? id = some t ∧ t.wait = .marker true l ∧ allReturned t.log = true ∧ flaggedOf t.log = [] ∧ u =
      { (t.commit t.log).ordered with log := [], wait := Wait.run } ∧ ∃ r : State, s.deliver id u = some r) ∧
    (∃ s : State, ∃ id t u, s.thread? id = some t ∧ t.wait = .reissue ∧ allReturned t.log = true ∧ flaggedOf t.log = [] ∧ u =
      { (t.commit t.log).ordered with log := [], wait := Wait.run }) ∧
    (∃ s : State, ∃ id t c v u, s.thread? id = some t ∧ t.wait.atMarker = true ∧ allReturned t.log = true ∧ firstTrap (flaggedOf t.log) = some (c, v)
      ∧ u = (t.commit t.log).ordered) ∧
    (∃ s : State, ∃ id t, s.thread? id = some t ∧ (t.wait.atMarker = false ∨ allReturned (t.log.filter (fun e => !t.wait.passes e)) = false) ∧
      s.commitsToStop id t = false) ∧
    (∃ s : State, ∃ id t, s.thread? id = some t ∧ (t.wait.atMarker = false ∨ allReturned (t.log.filter (fun e => !t.wait.passes e)) = false) ∧
      s.commitsToStop id t = false) ∧
    (∃ s : State, ∃ id t, s.thread? id = some t ∧ (t.wait.atMarker = false ∨ allReturned (t.log.filter (fun e => !t.wait.passes e)) = false) ∧
      s.commitsToStop id t = true) :=
  ⟨⟨(put (fun t => { t with log := [le (.load .gl 0x200000 4 .plain .dev 4) .pending] }) (base [])), ⟨0, 0, 0, 0⟩, 0, _, _, [], _, rfl, rfl,
      (by decide), rfl, (by decide), (by decide)⟩,
    ⟨({ base [] with buffer := [bs .plain] }), ⟨0, 0, 0, 0⟩, 0, _, [], _, rfl, rfl, (by decide)⟩,
    ⟨(put (fun t => { t with log := [], wait := .marker false false }) (base [])), ⟨0, 0, 0, 0⟩,
      (th (put (fun t => { t with log := [], wait := .marker false false }) (base []))), rfl, ⟨_, rfl⟩, (by decide), (by decide)⟩,
    ⟨(put (fun t => { t with log := [], wait := .marker true false }) (base [])), ⟨0, 0, 0, 0⟩,
      (th (put (fun t => { t with log := [], wait := .marker true false }) (base []))), _, _, rfl, rfl, (by decide), (by decide), rfl, (by decide)⟩,
    ⟨(put (fun t => { t with log := [], wait := .marker true false, pend08 := some 0 }) (base [])), ⟨0, 0, 0, 0⟩,
      (th (put (fun t => { t with log := [], wait := .marker true false, pend08 := some 0 }) (base []))), _, _, rfl, rfl, (by decide), (by decide),
      rfl, _, rfl⟩,
    ⟨(put (fun t => { t with log := [], wait := .reissue }) (base [])), ⟨0, 0, 0, 0⟩,
      (th (put (fun t => { t with log := [], wait := .reissue }) (base []))), _, rfl, (by decide), (by decide), (by decide), rfl⟩,
    ⟨(put (fun t => { t with log := [le (.load .gl 0x200000 4 .plain .dev 4) (.flagged .permission 0x200000)], wait := .marker true false }) (base [])), ⟨0, 0, 0, 0⟩, (th (put (fun t => { t with log := [le (.load .gl 0x200000 4 .plain .dev 4) (.flagged .permission 0x200000)], wait := .marker true false }) (base []))), _, _, _, rfl, (by decide), (by decide), rfl, rfl⟩,
    ⟨(base []), ⟨0, 0, 0, 0⟩, (th (base [])), rfl, (.inl rfl), (by decide)⟩,
    ⟨(put (fun t => { t with log := [le (.load .gl 0x200000 4 .plain .dev 4) .pending], wait := .marker true false }) (base [])), ⟨0, 0, 0, 0⟩,
      (th (put (fun t => { t with log := [le (.load .gl 0x200000 4 .plain .dev 4) .pending], wait := .marker true false }) (base []))), rfl,
      (.inr rfl), (by decide)⟩,
    ⟨(((put (fun t => { t with log := [le (.load .gl 0x200000 4 .plain .dev 4) (.returned [(4, 7)])], wait := .fence .dev 0 }) (base []))).modGroup ⟨0, 0, 0⟩ (fun g => { g with halted := true })), ⟨0, 0, 0, 0⟩, (th (((put (fun t => { t with log := [le (.load .gl 0x200000 4 .plain .dev 4) (.returned [(4, 7)])], wait := .fence .dev 0 }) (base []))).modGroup ⟨0, 0, 0⟩ (fun g => { g with halted := true }))), rfl, (.inl rfl), (by decide)⟩⟩

/-- States and operands that meet the premises of `ErrorsAndFaultStops`. -/
theorem test_premises_ErrorsAndFaultStops :
    (∃ s : State, ∃ id t g, s.thread? id = some t ∧ s.group? id.group = some g ∧ t.live = true ∧ g.fault.isSome = true ∧ allReturned t.log = true ∧
      s.storesGone id t = true ∧ s.landed id s.stamp false = true ∧ s.landed id s.stamp true = true) ∧
    (∃ s : State, ∃ id t g, s.thread? id = some t ∧ s.group? id.group = some g ∧ t.live = true ∧ g.fault.isSome = true ∧ allReturned t.log = true ∧
      s.storesGone id t = true ∧ (s.landed id s.stamp false = false ∨ s.landed id s.stamp true = false)) ∧
    (∃ s : State, ∃ id t g, s.thread? id = some t ∧ s.group? id.group = some g ∧ (t.live = false ∨ g.fault = none ∨ allReturned t.log = false ∨
      s.storesGone id t = false)) :=
  ⟨⟨((base []).modGroup ⟨0, 0, 0⟩ (fun g => { g with fault := some { lane := 0, cause := 8, prior := 0, pc := 0x100000, val := 0, tstat := 4 } })), ⟨0,
      0, 0, 0⟩, (th ((base []).modGroup ⟨0, 0,
      0⟩ (fun g => { g with fault := some { lane := 0, cause := 8, prior := 0, pc := 0x100000, val := 0, tstat := 4 } }))), _, rfl, rfl, (by decide),
      (by decide), (by decide), (by decide), (by decide), (by decide)⟩,
    ⟨(((nt (fun n => { n with tracked := [{ member := 1, stamp := 0, thread := ⟨0, 0, 0, 0⟩, own := true, nt := false, covered := false }] }) ({ base [] with stamp := 1 }))).modGroup ⟨0, 0, 0⟩ (fun g => { g with fault := some { lane := 0, cause := 8, prior := 0, pc := 0x100000, val := 0, tstat := 4 } })), ⟨0, 0, 0, 0⟩, (th (((nt (fun n => { n with tracked := [{ member := 1, stamp := 0, thread := ⟨0, 0, 0, 0⟩, own := true, nt := false, covered := false }] }) ({ base [] with stamp := 1 }))).modGroup ⟨0, 0, 0⟩ (fun g => { g with fault := some { lane := 0, cause := 8, prior := 0, pc := 0x100000, val := 0, tstat := 4 } }))), _, rfl, rfl, (by decide), (by decide), (by decide), (by decide), (.inl (by decide))⟩,
    ⟨(base []), ⟨0, 0, 0, 0⟩, (th (base [])), _, rfl, rfl, (.inr (.inl rfl))⟩⟩

/-- States and operands that meet the premises of `CopyEngine`. -/
theorem test_premises_CopyEngine :
    (∃ s : State, ∃ core, ∃ b : Batch, ∃ rest id r, (s.core core).batches = b :: rest ∧ id = b.thread.teamId ∧ r = s.read (s.coPa id b.off) 32 ∧
      s.unitStopped (.headgate core) = false ∧ s.doneBefore b.thread b.stamp = true ∧ 1 < b.left ∧ ∃ q, q = CopyReq.mk b.thread b.stamp (s.asidOf id)
      b.kernel r false (s.rqPieces r) (List.range (s.rqPieces r).length) false s.nextId b.view ∧ s.rqOk id r = true ∧ s.canOwn core q.ranges = false)
      ∧
    (∃ s : State, ∃ core, ∃ b : Batch, ∃ rest id r, (s.core core).batches = b :: rest ∧ id = b.thread.teamId ∧ r = s.read (s.coPa id b.off) 32 ∧
      s.unitStopped (.headgate core) = false ∧ s.doneBefore b.thread b.stamp = true ∧ 1 < b.left ∧ ∃ q, q = CopyReq.mk b.thread b.stamp (s.asidOf id)
      b.kernel r false (s.rqPieces r) (List.range (s.rqPieces r).length) false s.nextId b.view ∧ s.rqOk id r = true ∧ s.canOwn core q.ranges = true) ∧
    (∃ s : State, ∃ core, ∃ b : Batch, ∃ rest id r, (s.core core).batches = b :: rest ∧ id = b.thread.teamId ∧ r = s.read (s.coPa id b.off) 32 ∧
      s.unitStopped (.headgate core) = false ∧ s.doneBefore b.thread b.stamp = true ∧ 1 < b.left ∧ s.rqOk id r = false) ∧
    (∃ s : State, ∃ core, ∃ b : Batch, ∃ rest, (s.core core).batches = b :: rest ∧ s.unitStopped (.headgate core) = false ∧ s.doneBefore b.thread
      b.stamp = false) ∧
    (∃ s : State, ∃ core n c, (s.core core).copies.find? (fun c => c.tag == n) = some c ∧ c.started = false ∧ s.unitStopped (.headgate core) = false
      ∧ (s.rqFills c.thread.teamId c.raw).all (fun t => s.tileIs t (rqTile c.raw) .empty) = true ∧ s.rqSourceReady c.thread.teamId c.raw = true) ∧
    (∃ s : State, ∃ core n c, (s.core core).copies.find? (fun c => c.tag == n) = some c ∧ c.started = false ∧ s.unitStopped (.headgate core) = false
      ∧ s.rqSourceReady c.thread.teamId c.raw = false) ∧
    (∃ s : State, ∃ core n k c off len ps, (s.core core).copies.find? (fun c => c.tag == n) = some c ∧ c.cuts[k]? = some (off, len) ∧ c.started =
      true ∧ c.pieces.contains k = true ∧ s.pieceSent core n k = false ∧ s.engineWaits (.piece core n k) = false ∧ s.unitStopped (.headgate core) =
      false ∧ ps = s.pieceSource c off len ∧ s.partStop (core, 0) true 0 ps = .go ∧ isFar ps = false) ∧
    (∃ s : State, ∃ core n k c off len ps, (s.core core).copies.find? (fun c => c.tag == n) = some c ∧ c.cuts[k]? = some (off, len) ∧ c.started =
      true ∧ c.pieces.contains k = true ∧ s.pieceSent core n k = false ∧ s.engineWaits (.piece core n k) = false ∧ s.unitStopped (.headgate core) =
      false ∧ ps = s.pieceSource c off len ∧ s.partStop (core, 0) true 0 ps = .go ∧ isFar ps = true ∧ s.podFlows ps = false) ∧
    (∃ s : State, ∃ core n k c off len ps, ∃ r : Remote, (s.core core).copies.find? (fun c => c.tag == n) = some c ∧ c.cuts[k]? = some (off, len) ∧
      c.started = true ∧ c.pieces.contains k = true ∧ s.pieceSent core n k = false ∧ s.engineWaits (.piece core n k) = false ∧
      s.unitStopped (.headgate core) = false ∧ ps = s.pieceSource c off len ∧ s.partStop (core, 0) true 0 ps = .go ∧ isFar ps = true ∧ s.podFlows ps
      = true ∧ ∃ b : List Byte, r = .data b ∧ b.length = farBytes ps) ∧
    (∃ s : State, ∃ core n k c off len ps, ∃ f : Option PieceFault, ∃ r : Remote, (s.core core).copies.find? (fun c => c.tag == n) = some c ∧
      c.cuts[k]? = some (off, len) ∧ c.started = true ∧ c.pieces.contains k = true ∧ s.pieceSent core n k = false ∧ s.engineWaits (.piece core n k) =
      false ∧ s.unitStopped (.headgate core) = false ∧ ps = s.pieceSource c off len ∧ s.partStop (core, 0) true 0 ps = .go ∧ isFar ps = true ∧
      s.podFlows ps = true ∧ (r = .failed ∨ r = .none ∧ f = some .network)) ∧
    (∃ s : State, ∃ core n k c off len ps, ∃ f : Option PieceFault, ∃ r : Remote, (s.core core).copies.find? (fun c => c.tag == n) = some c ∧
      c.cuts[k]? = some (off, len) ∧ c.started = true ∧ c.pieces.contains k = true ∧ s.pieceSent core n k = false ∧ s.engineWaits (.piece core n k) =
      false ∧ s.unitStopped (.headgate core) = false ∧ ps = s.pieceSource c off len ∧ s.partStop (core, 0) true 0 ps = .go ∧ isFar ps = true ∧
      s.podFlows ps = true ∧ (r = .failed ∨ r = .none ∧ f = some .network)) ∧
    (∃ s : State, ∃ core n k c off len ps, (s.core core).copies.find? (fun c => c.tag == n) = some c ∧ c.cuts[k]? = some (off, len) ∧ c.started =
      true ∧ c.pieces.contains k = true ∧ s.pieceSent core n k = false ∧ s.engineWaits (.piece core n k) = false ∧ s.unitStopped (.headgate core) =
      false ∧ ps = s.pieceSource c off len ∧ ∃ code, s.partStop (core, 0) true 0 ps = .fail code) ∧
    (∃ s : State, ∃ core n k c off len ps, (s.core core).copies.find? (fun c => c.tag == n) = some c ∧ c.cuts[k]? = some (off, len) ∧ c.started =
      true ∧ c.pieces.contains k = true ∧ s.pieceSent core n k = false ∧ s.engineWaits (.piece core n k) = false ∧ s.unitStopped (.headgate core) =
      false ∧ ps = s.pieceSource c off len ∧ ∃ i, s.partStop (core, 0) true 0 ps = .poison i) ∧
    (∃ s : State, ∃ core n k c off len ps, (s.core core).copies.find? (fun c => c.tag == n) = some c ∧ c.cuts[k]? = some (off, len) ∧ c.started =
      true ∧ c.pieces.contains k = true ∧ s.pieceSent core n k = false ∧ s.engineWaits (.piece core n k) = false ∧ s.unitStopped (.headgate core) =
      false ∧ ps = s.pieceSource c off len ∧ s.partStop (core, 0) true 0 ps = .wait) ∧
    (∃ s : State, ∃ core n k c off len ps, (s.core core).copies.find? (fun c => c.tag == n) = some c ∧ c.cuts[k]? = some (off, len) ∧ c.started =
      true ∧ c.pieces.contains k = true ∧ s.pieceSent core n k = false ∧ s.engineWaits (.piece core n k) = false ∧ s.unitStopped (.headgate core) =
      false ∧ ps = s.pieceSource c off len ∧ ∃ va, s.partStop (core, 0) true 0 ps = .missing va) ∧
    (∃ s : State, ∃ core i e, (s.core core).flow[i]? = some e ∧ s.flowReady core e = true ∧ (∀ (j : Nat) x, j < i → (s.core core).flow[j]? = some x →
      s.flowReady core x = false)) ∧
    (∃ s : State, ∃ core, (∀ x ∈ (s.core core).flow, s.flowReady core x = false)) :=
  ⟨⟨(ck (fun k => { k with batches := [{ thread := ⟨0, 0, 0, 0⟩, stamp := 0, off := 0x400, left := 2, kernel := true }], ranges := List.replicate 64 { tag := 9, asid := 0, left := [(0, 1)] } }) (wm [(scratchPa 0 0x400, 32, raw 3 0 64 0x200000 0x1000), (scratchPa 0 0, 8, 1)] (base []))), 0, _, [], _, _, rfl, rfl, rfl, (by decide), (by decide), (by decide), _, rfl, (by decide), (by decide)⟩,
    ⟨(ck (fun k => { k with batches := [{ thread := ⟨0, 0, 0, 0⟩, stamp := 0, off := 0x400, left := 2, kernel := true }] }) (wm [(scratchPa 0 0x400,
      32, raw 0 3 64 0x1000 0x200000), (scratchPa 0 0, 8, 1)] (base []))), 0, _, [], _, _, rfl, rfl, rfl, (by decide), (by decide), (by decide), _,
      rfl, (by decide), (by decide)⟩,
    ⟨(ck (fun k => { k with batches := [{ thread := ⟨0, 0, 0, 0⟩, stamp := 0, off := 0x400, left := 256, kernel := true }] }) (base [])), 0, _, [],
      _, _, rfl, rfl, rfl, (by decide), (by decide), (by decide), (by decide)⟩,
    ⟨(ck (fun k => { k with batches := [{ thread := ⟨0, 0, 0, 0⟩, stamp := 1, off := 0x400, left := 2, kernel := true }] }) ({ base [] with buffer := [bs .plain] })), 0, _, [], rfl, (by decide), (by decide)⟩,
    ⟨(ck (fun k => { k with copies := [cr (raw 0 3 64 0x1000 0x200000) false] }) (base [])), 0, 1, _, rfl, (by decide), (by decide), (by decide),
      (by decide)⟩,
    ⟨(ck (fun k => { k with copies := [cr (raw 3 0 64 0x200000 0x1000 + 2 ^ 254) false] }) (base [])), 0, 1, _, rfl, (by decide), (by decide),
      (by decide)⟩,
    ⟨(ck (fun k => { k with copies := [cr (raw 0 3 64 0x1000 0x200000) true] }) (State.reset.flatTables.harness 0x100000)), 0, 1, 0, _, _, _, _, rfl,
      rfl, (by decide), (by decide), (by decide), (by decide), (by decide), rfl, (by decide), (by decide)⟩,
    ⟨(ck (fun k => { k with copies := [cr (raw 0 3 64 0x1000 0x8000400000200000) true] }) (job (State.reset.flatTables.harness 0x100000))), 0, 1, 0,
      _, _, _, _, rfl, rfl, (by decide), (by decide), (by decide), (by decide), (by decide), rfl, (by decide), (by decide), (by decide)⟩,
    ⟨(ck (fun k => { k with copies := [cr (raw 0 3 64 0x1000 0x8000400000200000) true] }) ({ (job (State.reset.flatTables.harness 0x100000)) with ports := [(0, .up)] })), 0, 1, 0, _, _, _, _, (.data (List.replicate 64 0)), rfl, rfl, (by decide), (by decide), (by decide), (by decide), (by decide), rfl, (by decide), (by decide), (by decide), _, rfl, (by decide)⟩,
    ⟨(ck (fun k => { k with copies := [cr (raw 0 3 64 0x1000 0x8000400000200000) true] }) ({ (job (State.reset.flatTables.harness 0x100000)) with ports := [(0, .up)] })), 0, 1, 0, _, _, _, _, none, .failed, rfl, rfl, (by decide), (by decide), (by decide), (by decide), (by decide), rfl, (by decide), (by decide), (by decide), (.inl rfl)⟩,
    ⟨(ck (fun k => { k with copies := [cr (raw 0 3 64 0x1000 0x8000400000200000) true] }) ({ (job (State.reset.flatTables.harness 0x100000)) with ports := [(0, .up)] })), 0, 1, 0, _, _, _, _, (some .network), .none, rfl, rfl, (by decide), (by decide), (by decide), (by decide), (by decide), rfl, (by decide), (by decide), (by decide), (.inr ⟨rfl, rfl⟩)⟩,
    ⟨(ck (fun k => { k with copies := [cr (raw 0 3 64 0x1000 0x8000400000200000) true] }) (State.reset.flatTables.harness 0x100000)), 0, 1, 0, _, _,
      _, _, rfl, rfl, (by decide), (by decide), (by decide), (by decide), (by decide), rfl, _, rfl⟩,
    ⟨(ck (fun k => { k with copies := [cr (raw 0 3 64 0x1000 0x200000) true] }) ({ (State.reset.flatTables.harness 0x100000) with poison := [0x10001] })), 0, 1, 0, _, _, _, _, rfl, rfl, (by decide), (by decide), (by decide), (by decide), (by decide), rfl, _, rfl⟩,
    ⟨(ck (fun k => { k with copies := [cr (raw 0 3 64 0x1000 0x200000) true] }) ({ (State.reset.flatTables.harness 0x100000) with hostLines := [0x8000] })), 0, 1, 0, _, _, _, _, rfl, rfl, (by decide), (by decide), (by decide), (by decide), (by decide), rfl, (by decide)⟩,
    ⟨(ck (fun k => { k with copies := [cr (raw 0 3 64 0x1000 0x40000000) true] }) (State.reset.flatTables.harness 0x100000)), 0, 1, 0, _, _, _, _,
      rfl, rfl, (by decide), (by decide), (by decide), (by decide), (by decide), rfl, _, rfl⟩,
    ⟨(ck (fun k => { k with flow := [{ team := ⟨0, 0⟩, cmd := .matrix (mo (.mzero 0) false []), tiles := { inputs := [], out := none }, running := false }] }) (base [])), 0, 0, _, rfl, (by decide), (fun j _ h => absurd h (Nat.not_lt_zero j))⟩,
    ⟨(base []), 0, (by decide)⟩⟩

/-- States and operands that meet the premises of `FlumeEngine`. -/
theorem test_premises_FlumeEngine :
    (∃ s : State, ∃ core n k, ∃ c : Chain, ∃ a, (s.core core).chains.find? (fun c => c.tag == n) = some c ∧ c.pending.contains k = true ∧
      s.engineWaits (.element core n k) = false ∧ s.unitStopped (.flume core) = false ∧ a = descSrc c.desc + 4 * k ∧ ∃ x, AMap.get? c.ready k = some
      x ∧ (∀ j ∈ c.pending, (AMap.get? c.ready j).isSome = true)) ∧
    (∃ s : State, ∃ core n k, ∃ c : Chain, ∃ a, (s.core core).chains.find? (fun c => c.tag == n) = some c ∧ c.pending.contains k = true ∧
      s.engineWaits (.element core n k) = false ∧ s.unitStopped (.flume core) = false ∧ a = descSrc c.desc + 4 * k ∧ ∃ x, AMap.get? c.ready k = some
      x ∧ (∃ j ∈ c.pending, AMap.get? c.ready j = none)) ∧
    (∃ s : State, ∃ core n k, ∃ c : Chain, ∃ a, (s.core core).chains.find? (fun c => c.tag == n) = some c ∧ c.pending.contains k = true ∧
      s.engineWaits (.element core n k) = false ∧ s.unitStopped (.flume core) = false ∧ a = descSrc c.desc + 4 * k ∧ AMap.get? c.ready k = none
      ∧ (s.elementInSpace c (descSsp c.desc) a = false ∨ s.elementInSpace c (descDsp c.desc) (descDst c.desc + 4 * k) = false)) ∧
    (∃ s : State, ∃ core n k, ∃ c : Chain, ∃ a ps, (s.core core).chains.find? (fun c => c.tag == n) = some c ∧ c.pending.contains k = true ∧
      s.engineWaits (.element core n k) = false ∧ s.unitStopped (.flume core) = false ∧ a = descSrc c.desc + 4 * k ∧ AMap.get? c.ready k = none ∧
      s.elementInSpace c (descSsp c.desc) a = true ∧ s.elementInSpace c (descDsp c.desc) (descDst c.desc + 4 * k) = true ∧ ps = s.engineParts
      c.thread c.kernel (descSsp c.desc) a 4 .load ∧ s.partStop (core, 1) true 0 ps = .go ∧ isFar ps = false) ∧
    (∃ s : State, ∃ core n k, ∃ c : Chain, ∃ a ps, (s.core core).chains.find? (fun c => c.tag == n) = some c ∧ c.pending.contains k = true ∧
      s.engineWaits (.element core n k) = false ∧ s.unitStopped (.flume core) = false ∧ a = descSrc c.desc + 4 * k ∧ AMap.get? c.ready k = none ∧
      s.elementInSpace c (descSsp c.desc) a = true ∧ s.elementInSpace c (descDsp c.desc) (descDst c.desc + 4 * k) = true ∧ ps = s.engineParts
      c.thread c.kernel (descSsp c.desc) a 4 .load ∧ s.partStop (core, 1) true 0 ps = .go ∧ isFar ps = true ∧ s.podFlows ps = false) ∧
    (∃ s : State, ∃ core n k, ∃ c : Chain, ∃ a ps, ∃ r : Remote, (s.core core).chains.find? (fun c => c.tag == n) = some c ∧ c.pending.contains k =
      true ∧ s.engineWaits (.element core n k) = false ∧ s.unitStopped (.flume core) = false ∧ a = descSrc c.desc + 4 * k ∧ AMap.get? c.ready k =
      none ∧ s.elementInSpace c (descSsp c.desc) a = true ∧ s.elementInSpace c (descDsp c.desc) (descDst c.desc + 4 * k) = true ∧ ps = s.engineParts
      c.thread c.kernel (descSsp c.desc) a 4 .load ∧ s.partStop (core, 1) true 0 ps = .go ∧ isFar ps = true ∧ s.podFlows ps = true ∧ ∃ b : List Byte,
      r = .data b ∧ b.length = farBytes ps) ∧
    (∃ s : State, ∃ core n k, ∃ c : Chain, ∃ a ps, ∃ r : Remote, (s.core core).chains.find? (fun c => c.tag == n) = some c ∧ c.pending.contains k =
      true ∧ s.engineWaits (.element core n k) = false ∧ s.unitStopped (.flume core) = false ∧ a = descSrc c.desc + 4 * k ∧ AMap.get? c.ready k =
      none ∧ s.elementInSpace c (descSsp c.desc) a = true ∧ s.elementInSpace c (descDsp c.desc) (descDst c.desc + 4 * k) = true ∧ ps = s.engineParts
      c.thread c.kernel (descSsp c.desc) a 4 .load ∧ s.partStop (core, 1) true 0 ps = .go ∧ isFar ps = true ∧ s.podFlows ps = true ∧ r = .failed) ∧
    (∃ s : State, ∃ core n k, ∃ c : Chain, ∃ a ps, (s.core core).chains.find? (fun c => c.tag == n) = some c ∧ c.pending.contains k = true ∧
      s.engineWaits (.element core n k) = false ∧ s.unitStopped (.flume core) = false ∧ a = descSrc c.desc + 4 * k ∧ AMap.get? c.ready k = none ∧
      s.elementInSpace c (descSsp c.desc) a = true ∧ s.elementInSpace c (descDsp c.desc) (descDst c.desc + 4 * k) = true ∧ ps = s.engineParts
      c.thread c.kernel (descSsp c.desc) a 4 .load ∧ ∃ code, s.partStop (core, 1) true 0 ps = .fail code) ∧
    (∃ s : State, ∃ core n k, ∃ c : Chain, ∃ a ps, (s.core core).chains.find? (fun c => c.tag == n) = some c ∧ c.pending.contains k = true ∧
      s.engineWaits (.element core n k) = false ∧ s.unitStopped (.flume core) = false ∧ a = descSrc c.desc + 4 * k ∧ AMap.get? c.ready k = none ∧
      s.elementInSpace c (descSsp c.desc) a = true ∧ s.elementInSpace c (descDsp c.desc) (descDst c.desc + 4 * k) = true ∧ ps = s.engineParts
      c.thread c.kernel (descSsp c.desc) a 4 .load ∧ ∃ i, s.partStop (core, 1) true 0 ps = .poison i) ∧
    (∃ c : Chain, ∃ k v x, flumeValue c k v = some x ∧ c.gated = false) ∧
    (∃ c : Chain, ∃ k v, flumeValue c k v = none) ∧
    (∃ s : State, ∃ core, ∃ c : Chain, ∃ k va ps, va = descDst c.desc + 4 * k ∧ ps = s.engineParts c.thread c.kernel (descDsp c.desc) va 4 .store ∧
      s.partStop (core, 1) false 0 ps = .go ∧ s.podBlocked c.stamp ps = false ∧ s.podFlows ps = true) ∧
    (∃ c : Chain, ∃ word, ∃ j : Nat, j < 8 ∧ encode? (.add 0 0 0 (BitVec.ofNat 7 (8 + j))) = some word ∧ descOps c.desc = [word]) ∧
    (∃ c : Chain, ∃ k v u ws, ∃ d : Ctx, descOps c.desc = u :: ws ∧ flumeWords [u] (Ctx.start State.reset c.thread (flumeThread c k v) 0 .nothing) =
      some d) :=
  ⟨⟨(ck (fun k => { k with chains := [{ chd 0x200000 0 3 [0] with ready := [(0, 7)] }] }) (base [])), 0, 1, 0, _, _, rfl, (by decide), (by decide),
      (by decide), rfl, _, rfl, (by decide)⟩,
    ⟨(ck (fun k => { k with chains := [{ chd 0x200000 0 3 [0] with pending := [0, 1], ready := [(0, 7)] }] }) (base [])), 0, 1, 0, _, _, rfl,
      (by decide), (by decide), (by decide), rfl, _, rfl, ⟨1, (by decide), rfl⟩⟩,
    ⟨(ck (fun k => { k with chains := [chd 0x100000 0 0 [0]] }) (base [])), 0, 1, 0, _, _, rfl, (by decide), (by decide), (by decide), rfl, rfl,
      (.inl (by decide))⟩,
    ⟨(ck (fun k => { k with chains := [chd 0x200000 0 3 [0]] }) (State.reset.flatTables.harness 0x100000)), 0, 1, 0, _, _, _, rfl, (by decide),
      (by decide), (by decide), rfl, rfl, (by decide), (by decide), rfl, (by decide), (by decide)⟩,
    ⟨(ck (fun k => { k with chains := [chd 0x8000400000200000 0 3 [0]] }) (job (State.reset.flatTables.harness 0x100000))), 0, 1, 0, _, _, _, rfl,
      (by decide), (by decide), (by decide), rfl, rfl, (by decide), (by decide), rfl, (by decide), (by decide), (by decide)⟩,
    ⟨(ck (fun k => { k with chains := [chd 0x8000400000200000 0 3 [0]] }) ({ (job (State.reset.flatTables.harness 0x100000)) with ports := [(0, .up)] })), 0, 1, 0, _, _, _, (.data [1, 2, 3, 4]), rfl, (by decide), (by decide), (by decide), rfl, rfl, (by decide), (by decide), rfl, (by decide), (by decide), (by decide), _, rfl, (by decide)⟩,
    ⟨(ck (fun k => { k with chains := [chd 0x8000400000200000 0 3 [0]] }) ({ (job (State.reset.flatTables.harness 0x100000)) with ports := [(0, .up)] })), 0, 1, 0, _, _, _, .failed, rfl, (by decide), (by decide), (by decide), rfl, rfl, (by decide), (by decide), rfl, (by decide), (by decide), (by decide), rfl⟩,
    ⟨(ck (fun k => { k with chains := [chd 0x8000400000200000 0 3 [0]] }) (State.reset.flatTables.harness 0x100000)), 0, 1, 0, _, _, _, rfl,
      (by decide), (by decide), (by decide), rfl, rfl, (by decide), (by decide), rfl, _, rfl⟩,
    ⟨(ck (fun k => { k with chains := [chd 0x200000 0 3 [0]] }) ({ (State.reset.flatTables.harness 0x100000) with poison := [0x10000] })), 0, 1, 0,
      _, _, _, rfl, (by decide), (by decide), (by decide), rfl, rfl, (by decide), (by decide), rfl, _, rfl⟩,
    ⟨(chd 0x200000 0 3 [(Enc.add 0 0 0 8).toNat]), 0, 5, _, someOf (by decide +kernel), (by decide)⟩,
    ⟨(chd 0x200000 0 3 [0xFFFFFFFF]), 0, 0, (by decide)⟩,
    ⟨(State.reset.flatTables.harness 0x100000), 0, (chd 0 0x200000 12 [0]), 0, _, _, rfl, rfl, (by decide), (by decide), (by decide)⟩,
    ⟨(chd 0x200000 0 3 [(Enc.add 0 0 0 8).toNat]), _, 0, (by decide), rfl, (by decide)⟩,
    ⟨(chd 0x200000 0 3 [(Enc.add 0 0 0 8).toNat, (Enc.add 0 0 0 8).toNat]), 0, 5, (Enc.add 0 0 0 8), [Enc.add 0 0 0 8], _, (by decide),
      (someOf (by decide +kernel))⟩⟩

/-- States and operands that meet the premises of `MatrixEngine`. -/
theorem test_premises_MatrixEngine :
    (∃ s : State, ∃ core o rest, (s.core core).matrix = o :: rest ∧ o.started = false ∧ s.unitStopped (.matrix core) = false ∧ s.released o = true ∧ (∀ a
      b c, o.op ≠ .mmap a b c) ∧ (∀ w, o.op ≠ .mst w) ∧ (∀ a, o.op ≠ .ssx a)) ∧
    (∃ s : State, ∃ core o rest, (s.core core).matrix = o :: rest ∧ o.started = false ∧ s.unitStopped (.matrix core) = false ∧ s.released o = false) ∧
    (∃ s : State, ∃ core o acc rest, (s.core core).matrix = o :: rest ∧ o.started = true ∧ o.op = .mzero acc ∧ ∃ a, s.cistPa o.team (16384 * acc) ≤ a
      ∧ a < s.cistPa o.team (16384 * acc) + 16384) ∧
    (∃ s : State, ∃ core o acc rest, (s.core core).matrix = o :: rest ∧ o.started = true ∧ o.op = .mzero acc ∧ ∃ a, (a < s.cistPa o.team (16384 *
      acc) ∨ s.cistPa o.team (16384 * acc) + 16384 ≤ a)) ∧
    (∃ s : State, ∃ core o rest m w l u, Canonical s ∧ (s.core core).matrix = o :: rest ∧ o.started = true ∧ o.op = .mma w l u ∧ o.side o = some m ∧
      s.metadataOk m = true ∧ ∃ i j, i < 64 ∧ j < 64) ∧
    (∃ s : State, ∃ core o rest off c, (s.core core).matrix = o :: rest ∧ o.started = true ∧ o.op = .ssx off ∧ c = ssbDone o.ssb ∧
      s.engineWaits (.ssx core) = false ∧ s.cut.stopping = false ∧ s.teamStops o.team = false ∧ ssbC o.ssb ≤ c) ∧
    (∃ s : State, ∃ core o rest off c, (s.core core).matrix = o :: rest ∧ o.started = true ∧ o.op = .ssx off ∧ c = ssbDone o.ssb ∧
      s.engineWaits (.ssx core) = false ∧ s.cut.stopping = false ∧ s.teamStops o.team = false ∧ ∃ rs ws, c < ssbC o.ssb ∧ s.reachAll o core
      .load (ssbReads o.ssb c) = .ok rs ∧ s.reachAll o core .store (ssbWrites o.ssb c) = .ok ws) ∧
    (∃ s : State, ∃ core o rest off c, (s.core core).matrix = o :: rest ∧ o.started = true ∧ o.op = .ssx off ∧ c = ssbDone o.ssb ∧
      s.engineWaits (.ssx core) = false ∧ s.cut.stopping = false ∧ s.teamStops o.team = false ∧ ∃ va, c < ssbC o.ssb ∧ s.reachAll o core
      .load (ssbReads o.ssb c) = .error (.missing va)) ∧
    (∃ s : State, ∃ core o rest off, (s.core core).matrix = o :: rest ∧ o.started = true ∧ o.op = .ssx off ∧ (s.cut.stopping = true ∨ s.teamStops
      o.team = true)) ∧
    (∃ s : State, ∃ id, ∃ g : Nat, ∃ t c n, s.team? id = some t ∧ t.conv[g]? = some c ∧ c.offered = some n ∧ n + 2 ^ 24 ≤ t.ncyc) ∧
    (∃ s : State, ∃ id, ∃ g : Nat, ∃ t c n, s.team? id = some t ∧ t.conv[g]? = some c ∧ c.offered = some n ∧ t.ncyc < n + 2 ^ 24) :=
  ⟨⟨(ck (fun k => { k with matrix := [mo (.mzero 3) false []] }) (base [])), 0, _, [], rfl, (by decide), (by decide), (by decide),
      (fun _ _ _ h => nomatch h), (fun _ h => nomatch h), (fun _ h => nomatch h)⟩,
    ⟨(ck (fun k => { k with matrix := [mo (.mzero 3) false []] }) ({ base [] with buffer := [bs .plain] })), 0, _, [], rfl, (by decide), (by decide),
      (by decide)⟩,
    ⟨(ck (fun k => { k with matrix := [mo (.mzero 3) true []] }) (base [])), 0, _, 3, [], rfl, (by decide), rfl, 65535, (by decide), (by decide)⟩,
    ⟨(ck (fun k => { k with matrix := [mo (.mzero 3) true []] }) (base [])), 0, _, 3, [], rfl, (by decide), rfl, 0, (.inl (by decide))⟩,
    ⟨(ck (fun k => { k with matrix := [{ mo (.mma 0 0 false) true [] with resvA := some rv, resvB := some rv }] }) (base [])), 0, _, [], _, _, _, _,
      can (by decide), rfl, (by decide), rfl, rfl, (by decide), 63, 63, (by decide), (by decide)⟩,
    ⟨(ck (fun k => { k with matrix := [mo (.ssx 0x400) true (Memory.read (ws [] [(1, 1, 1), (2, 2, 1), (4, 4, 4), (8, 2, 1), (72, 4, 1)]) 0 128)] }) (base [])), 0, _, [], _, _, rfl, (by decide), rfl, rfl, (by decide), (by decide), (by decide), (by decide)⟩,
    ⟨(ck (fun k => { k with matrix := [mo (.ssx 0x400) true (Memory.read (ws [] [(1, 1, 1), (2, 2, 1), (4, 4, 4), (8, 2, 1), (16, 8, 0x200000), (72, 4, 0)]) 0 128)] }) (State.reset.flatTables.harness 0x100000)), 0, _, [], _, _, rfl, (by decide), rfl, rfl, (by decide), (by decide), (by decide), _, _, (by decide), rfl, rfl⟩,
    ⟨(ck (fun k => { k with matrix := [mo (.ssx 0x400) true (Memory.read (ws [] [(1, 1, 1), (2, 2, 1), (4, 4, 4), (8, 2, 1), (16, 8, 0x40000000)]) 0 128)] }) (State.reset.flatTables.harness 0x100000)), 0, _, [], _, _, rfl, (by decide), rfl, rfl, (by decide), (by decide), (by decide), _, (by decide), rfl⟩,
    ⟨(ck (fun k => { k with matrix := [mo (.ssx 0x400) true []] }) (tm (fun t => { t with action := some .flush }) (base []))), 0, _, [], _, rfl,
      (by decide), rfl, (.inr (by decide))⟩,
    ⟨(tm (fun t => { t with ncyc := 0x1000000, conv := [{ declared := none, sigs := [], offered := some 0 }] }) (base [])), ⟨0, 0⟩, 0, _, _, 0, rfl,
      rfl, (by decide), (by decide)⟩,
    ⟨(tm (fun t => { t with ncyc := 0xFFFFFF, conv := [{ declared := none, sigs := [], offered := some 0 }] }) (base [])), ⟨0, 0⟩, 0, _, _, 0, rfl,
      rfl, (by decide), (by decide)⟩⟩

/-- States and operands that meet the premises of `WaitsEnd`. -/
theorem test_premises_WaitsEnd :
    (∃ s : State, ∃ id t, s.thread? id = some t ∧ ∃ k : Nat, t.wait = .tile k false) ∧
    (∃ s : State, ∃ id t, s.thread? id = some t ∧ ∃ k : Nat, ∃ x, t.wait = .tile k true ∧ s.tile? id.teamId k = some x) ∧
    (∃ s : State, ∃ id t, s.thread? id = some t ∧ s.staysPut id t = true) ∧
    (∃ s : State, ∃ id t, s.thread? id = some t ∧ ∃ k : Nat, ∃ n c, t.wait = .counter k n c ∧ s.staysPut id t = false ∧ n.toNat ≤ s.ctrValue k) ∧
    (∃ s : State, ∃ id t, s.thread? id = some t ∧ ∃ k : Nat, ∃ n c, t.wait = .counter k n c ∧ s.ctrValue k < n.toNat) ∧
    (∃ s : State, ∃ id t, s.thread? id = some t ∧ ∃ b p, t.wait = .bwait b p) ∧
    (∃ s : State, ∃ id t, s.thread? id = some t ∧ t.wait = .drain ∧ s.buffer.any (fun b => decide (b.thread = id) && b.access.nonTemporal) = true) ∧
    (∃ s : State, ∃ id t, s.thread? id = some t ∧ t.wait = .drain ∧ s.staysPut id t = false ∧ s.buffer.any (fun b => decide (b.thread = id) &&
      b.access.nonTemporal) = false ∧ s.awaited id s.stamp true = [] ∧ s.landed id s.stamp true = true ∧ s.flushing id = false) ∧
    (∃ s : State, ∃ id t, s.thread? id = some t ∧ ∃ c n, t.wait = .fence c n ∧ s.staysPut id t = false ∧ s.doneBefore id n = true ∧ s.releaseReady n
      c (some id) = true ∧ s.flushing id = false) ∧
    (∃ s : State, ∃ id t, s.thread? id = some t ∧ ∃ c n, t.wait = .fence c n ∧ s.staysPut id t = false ∧ s.doneBefore id n = true ∧ s.releaseReady n
      c (some id) = false) ∧
    (∃ s : State, ∃ id t, s.thread? id = some t ∧ ∃ c n, t.wait = .fence c n ∧ s.staysPut id t = false ∧ s.doneBefore id n = false) ∧
    (∃ s : State, ∃ id t, s.thread? id = some t ∧ ∃ rank peer n, t.wait = .pflush rank peer n true ∧ s.staysPut id t = false) ∧
    (∃ s : State, ∃ id t, s.thread? id = some t ∧ ∃ o d, t.wait = .ssq o d ∧ (s.ssqValue id.teamId o).msb = true) ∧
    (∃ s : State, ∃ id t, s.thread? id = some t ∧ ∃ o d, t.wait = .ssq o d ∧ (s.ssqValue id.teamId o).msb = false ∧ t.stepping = false ∧ s.staysPut
      id t = false) ∧
    (∃ s : State, ∃ id t, s.thread? id = some t ∧ ∃ va sel, t.wait = .tlbinv va sel ∧ ∃ l : List TlbEntry, ∃ r : List WalkEntry, ∃ u : State, l =
      s.tlb.filter (fun e => !e.named va sel) ∧ r = s.walks.filter (fun e => !e.named va sel) ∧ u = ({ s with tlb := l, walks := r } : State)) ∧
    (∃ s : State, ∃ id t, s.thread? id = some t ∧ ∃ n, t.wait = .park n) ∧
    (∃ s : State, ∃ id t, s.thread? id = some t ∧ ∃ n, t.wait = .wfe (some n)) ∧
    (∃ s : State, ∃ id t, s.thread? id = some t ∧ t.wait = .wfe none) ∧
    (∃ s : State, ∃ id t, s.thread? id = some t ∧ ∃ k : Nat, ∃ q p u w, t.live = true ∧ t.stream k = some q ∧ q.write = false ∧ q.arriving = [] ∧ u =
      s.useLines (s.parts id q.kernel q.space (q.elemAddr q.fetched) q.size .load) ∧ u.fetches id q = true ∧ p = q.refetch ∧ w = u.modStream id k
      Stream.refetch ∧ p.fetched < p.total ∧ w.engineWaits (.stream id k) = false ∧ ∃ c code, w.elemBad id p (p.elemAddr p.fetched) = some (c, code)
      ∧ c = .translation) ∧
    (∃ s : State, ∃ id t, s.thread? id = some t ∧ ∃ k : Nat, ∃ q p u w, t.live = true ∧ t.stream k = some q ∧ q.write = false ∧ q.arriving = [] ∧ u =
      s.useLines (s.parts id q.kernel q.space (q.elemAddr q.fetched) q.size .load) ∧ u.fetches id q = true ∧ p = q.refetch ∧ w = u.modStream id k
      Stream.refetch ∧ p.fetched < p.total ∧ w.engineWaits (.stream id k) = false ∧ ∃ c code, w.elemBad id p (p.elemAddr p.fetched) = some (c, code)
      ∧ c ≠ .translation) ∧
    (∃ s : State, ∃ id t, s.thread? id = some t ∧ ∃ k : Nat, ∃ q p u w, t.live = true ∧ t.stream k = some q ∧ q.write = false ∧ q.arriving = [] ∧ u =
      s.useLines (s.parts id q.kernel q.space (q.elemAddr q.fetched) q.size .load) ∧ u.fetches id q = true ∧ p = q.refetch ∧ w = u.modStream id k
      Stream.refetch ∧ p.fetched < p.total ∧ w.engineWaits (.stream id k) = false ∧ ∃ ps, w.elemBad id p (p.elemAddr p.fetched) = none ∧ ps = w.parts
      id p.kernel p.space (p.elemAddr p.fetched) p.size .load ∧ w.blocked id p.stamp p.kernel (.load p.space (p.elemAddr p.fetched) p.size .plain
      .dev 0) = false ∧ ps.any w.partHeld = false ∧ w.transportHolds ps = false ∧ ∃ i, w.partsPoison ps 0 = some i) ∧
    (∃ s : State, ∃ id t, s.thread? id = some t ∧ ∃ k : Nat, ∃ q p, ∃ back : List Nat, ∃ u w, t.live = true ∧ t.stream k = some q ∧ q.write = false ∧
      q.arriving = [] ∧ u = s.useLines (s.parts id q.kernel q.space (q.elemAddr q.fetched) q.size .load) ∧ u.fetches id q = true ∧ p = q.refetch ∧ w
      = u.modStream id k Stream.refetch ∧ p.fetched < p.total ∧ w.engineWaits (.stream id k) = false ∧ ∃ ps, w.elemBad id p (p.elemAddr p.fetched) =
      none ∧ ps = w.parts id p.kernel p.space (p.elemAddr p.fetched) p.size .load ∧ w.blocked id p.stamp p.kernel (.load p.space (p.elemAddr
      p.fetched) p.size .plain .dev 0) = false ∧ ps.any w.partHeld = false ∧ w.transportHolds ps = false ∧ ∃ b now, w.partsPoison ps 0 = none ∧ now =
      w.partsNow id false (w.loadOf none [w.readerOf id (memRanges ps)] back).2 ps ∧ partsBytes now = some b) ∧
    (∃ s : State, ∃ id t, s.thread? id = some t ∧ ∃ k : Nat, ∃ q u, t.live = true ∧ t.stream k = some q ∧ q.write = true ∧ u = s.useLines (s.parts id
      q.kernel q.space (q.elemAddr q.fetched) q.size .load)) ∧
    (∃ s : State, ∃ id t, s.thread? id = some t ∧ s.staysPut id t = true) ∧
    (∃ s : State, ∃ id t, s.thread? id = some t ∧ s.staysPut id t = false ∧ t.stepping = false) :=
  ⟨⟨(put (fun t => { t with wait := .tile 15 false }) (base [])), ⟨0, 0, 0, 0⟩, (th (put (fun t => { t with wait := .tile 15 false }) (base []))), rfl,
      _, rfl⟩,
    ⟨(put (fun t => { t with wait := .tile 15 true }) (base [])), ⟨0, 0, 0, 0⟩, (th (put (fun t => { t with wait := .tile 15 true }) (base []))),
      rfl, _, _, rfl, rfl⟩,
    ⟨((put (fun t => { t with wait := .counter 0 0 .dev }) (base [])).modGroup ⟨0, 0, 0⟩ (fun g => { g with halted := true })), ⟨0, 0, 0, 0⟩,
      (th ((put (fun t => { t with wait := .counter 0 0 .dev }) (base [])).modGroup ⟨0, 0, 0⟩ (fun g => { g with halted := true }))), rfl,
      (by decide)⟩,
    ⟨(put (fun t => { t with wait := .counter 0 0 .dev }) (base [])), ⟨0, 0, 0, 0⟩,
      (th (put (fun t => { t with wait := .counter 0 0 .dev }) (base []))), rfl, _, _, _, rfl, (by decide), (by decide)⟩,
    ⟨(put (fun t => { t with wait := .counter 0 1 .dev }) (base [])), ⟨0, 0, 0, 0⟩,
      (th (put (fun t => { t with wait := .counter 0 1 .dev }) (base []))), rfl, _, _, _, rfl, (by decide)⟩,
    ⟨(put (fun t => { t with wait := .bwait (.object ⟨0, 0⟩ 0) true }) (base [])), ⟨0, 0, 0, 0⟩,
      (th (put (fun t => { t with wait := .bwait (.object ⟨0, 0⟩ 0) true }) (base []))), rfl, _, _, rfl⟩,
    ⟨(put (fun t => { t with wait := .drain }) ({ base [] with buffer := [bs .nt] })), ⟨0, 0, 0, 0⟩,
      (th (put (fun t => { t with wait := .drain }) ({ base [] with buffer := [bs .nt] }))), rfl, rfl, (by decide)⟩,
    ⟨(put (fun t => { t with wait := .drain }) (base [])), ⟨0, 0, 0, 0⟩, (th (put (fun t => { t with wait := .drain }) (base []))), rfl, rfl,
      (by decide), (by decide), (by decide), (by decide), (by decide)⟩,
    ⟨(put (fun t => { t with wait := .fence .dev 0 }) (base [])), ⟨0, 0, 0, 0⟩, (th (put (fun t => { t with wait := .fence .dev 0 }) (base []))),
      rfl, _, _, rfl, (by decide), (by decide), (by decide), (by decide)⟩,
    ⟨(put (fun t => { t with wait := .fence .pod 1 }) (nt (fun n => { n with tracked := [{ member := 1, stamp := 0, thread := ⟨0, 0, 0, 1⟩, own := true, nt := false, covered := false }] }) ({ base [] with stamp := 1 }))), ⟨0, 0, 0, 0⟩, (th (put (fun t => { t with wait := .fence .pod 1 }) (nt (fun n => { n with tracked := [{ member := 1, stamp := 0, thread := ⟨0, 0, 0, 1⟩, own := true, nt := false, covered := false }] }) ({ base [] with stamp := 1 })))), rfl, _, _, rfl, (by decide), (by decide), (by decide)⟩,
    ⟨(put (fun t => { t with wait := .fence .dev 1 }) ({ base [] with stamp := 1, buffer := [bs .plain] })), ⟨0, 0, 0, 0⟩,
      (th (put (fun t => { t with wait := .fence .dev 1 }) ({ base [] with stamp := 1, buffer := [bs .plain] }))), rfl, _, _, rfl, (by decide),
      (by decide)⟩,
    ⟨(put (fun t => { t with wait := .pflush 1 1 0 true }) (base [])), ⟨0, 0, 0, 0⟩,
      (th (put (fun t => { t with wait := .pflush 1 1 0 true }) (base []))), rfl, _, _, _, rfl, (by decide)⟩,
    ⟨(put (fun t => { t with wait := .ssq 0 4 }) (wm [(scratchPa 0 80, 4, 1)] (base []))), ⟨0, 0, 0, 0⟩,
      (th (put (fun t => { t with wait := .ssq 0 4 }) (wm [(scratchPa 0 80, 4, 1)] (base [])))), rfl, _, _, rfl, (by decide)⟩,
    ⟨(put (fun t => { t with wait := .ssq 0 4 }) (base [])), ⟨0, 0, 0, 0⟩, (th (put (fun t => { t with wait := .ssq 0 4 }) (base []))), rfl, _, _,
      rfl, (by decide), (by decide), (by decide)⟩,
    ⟨(put (fun t => { t with wait := .tlbinv 0 0 }) (base [])), ⟨0, 0, 0, 0⟩, (th (put (fun t => { t with wait := .tlbinv 0 0 }) (base []))), rfl, _,
      _, rfl, _, _, _, rfl, rfl, rfl⟩,
    ⟨(put (fun t => { t with wait := .park 0 }) (base [])), ⟨0, 0, 0, 0⟩, (th (put (fun t => { t with wait := .park 0 }) (base []))), rfl, _, rfl⟩,
    ⟨(put (fun t => { t with wait := .wfe (some 0) }) (base [])), ⟨0, 0, 0, 0⟩, (th (put (fun t => { t with wait := .wfe (some 0) }) (base []))),
      rfl, _, rfl⟩,
    ⟨(put (fun t => { t with wait := .wfe none }) (base [])), ⟨0, 0, 0, 0⟩, (th (put (fun t => { t with wait := .wfe none }) (base []))), rfl, rfl⟩,
    ⟨(put (fun t => { t with q := [none, none, none, some (str false)] }) (base [])), ⟨0, 0, 0, 0⟩,
      (th (put (fun t => { t with q := [none, none, none, some (str false)] }) (base []))), rfl, 3, _, _, _, _, (by decide), rfl, (by decide),
      (by decide), rfl, (by decide), rfl, rfl, (by decide), (by decide), _, _, rfl, rfl⟩,
    ⟨(put (fun t => { t with q := [none, none, none, some { str false with base := 1, space := .co }] }) (base [])), ⟨0, 0, 0, 0⟩,
      (th (put (fun t => { t with q := [none, none, none, some { str false with base := 1, space := .co }] }) (base []))), rfl, 3, _, _, _, _,
      (by decide), rfl, (by decide), (by decide), rfl, (by decide), rfl, rfl, (by decide), (by decide), _, _, rfl, (by decide)⟩,
    ⟨(put (fun t => { t with q := [none, none, none, some (str false)] }) (({ State.reset.flatTables.harness 0x100000 with poison := [0x10000] }))),
      ⟨0, 0, 0, 0⟩, (th (put (fun t => { t with q := [none, none, none, some (str false)] }) (({ State.reset.flatTables.harness 0x100000 with poison := [0x10000] })))), rfl, 3, _, _, _, _, (by decide), rfl, (by decide), (by decide), rfl, (by decide), rfl, rfl, (by decide), (by decide), _, (by decide), rfl, (by decide), (by decide), (by decide), _, rfl⟩,
    ⟨(put (fun t => { t with q := [none, none, none, some (str false)] }) (State.reset.flatTables.harness 0x100000)), ⟨0, 0, 0, 0⟩,
      (th (put (fun t => { t with q := [none, none, none, some (str false)] }) (State.reset.flatTables.harness 0x100000))), rfl, 3, _, _, [], _, _,
      (by decide), rfl, (by decide), (by decide), rfl, (by decide), rfl, rfl, (by decide), (by decide), _, (by decide), rfl, (by decide),
      (by decide), (by decide), _, _, (by decide), rfl, rfl⟩,
    ⟨(put (fun t => { t with q := [none, none, none, some (str true)] }) (base [])), ⟨0, 0, 0, 0⟩,
      (th (put (fun t => { t with q := [none, none, none, some (str true)] }) (base []))), rfl, 3, _, _, (by decide), rfl, (by decide), rfl⟩,
    ⟨((base []).modGroup ⟨0, 0, 0⟩ (fun g => { g with halted := true })), ⟨0, 0, 0, 0⟩, _, rfl, (by decide)⟩,
    ⟨(base []), ⟨0, 0, 0, 0⟩, _, rfl, (by decide), (by decide)⟩⟩

/-- States and operands that meet the premises of `EthernetTransport`. -/
theorem test_premises_EthernetTransport :
    (∃ s : State, ∃ p : Packet, ∃ r u, Hears s p.source (some (18 + p.port)) (packetClass p.kind) u ∧ r = s.receiver p.source ∧ r.accepted p.psn = true) ∧
    (∃ s : State, ∃ p : Packet, ∃ r u, Hears s p.source (some (18 + p.port)) (packetClass p.kind) u ∧ r = s.receiver p.source ∧ r.accepted p.psn =
      false ∧ 512 < (p.psn - r.cum).toNat) ∧
    (∃ s : State, ∃ p : Packet, ∃ r u, Hears s p.source (some (18 + p.port)) (packetClass p.kind) u ∧ r = s.receiver p.source ∧ r.accepted p.psn =
      false ∧ (p.psn - r.cum).toNat ≤ 512 ∧ p.trimmed = true) ∧
    (∃ s : State, ∃ p : Packet, ∃ r u, Hears s p.source (some (18 + p.port)) (packetClass p.kind) u ∧ r = s.receiver p.source ∧ r.accepted p.psn =
      false ∧ (p.psn - r.cum).toNat ≤ 512 ∧ p.trimmed = false ∧ (s.jobOn = false ∨ p.job ≠ bits (s.reg32 0x40004) 23 0)) ∧
    (∃ s : State, ∃ p : Packet, ∃ r u, Hears s p.source (some (18 + p.port)) (packetClass p.kind) u ∧ r = s.receiver p.source ∧ r.accepted p.psn =
      false ∧ (p.psn - r.cum).toNat ≤ 512 ∧ p.trimmed = false ∧ s.jobOn = true ∧ p.job = bits (s.reg32 0x40004) 23 0 ∧ ∃ data : List Byte, ∃ sig ctr
      ps, p.kind = .write data sig ctr ∧ u.targetParts p.region (p.offset + p.msgOff) data.length .store p.key sig = .ok ps ∧ u.counterOk ctr = true
      ∧ ps.any u.partHeld = true) ∧
    (∃ s : State, ∃ p : Packet, ∃ r u, Hears s p.source (some (18 + p.port)) (packetClass p.kind) u ∧ r = s.receiver p.source ∧ r.accepted p.psn =
      false ∧ (p.psn - r.cum).toNat ≤ 512 ∧ p.trimmed = false ∧ s.jobOn = true ∧ p.job = bits (s.reg32 0x40004) 23 0 ∧ ∃ data : List Byte, ∃ sig ctr
      ps, p.kind = .write data sig ctr ∧ u.targetParts p.region (p.offset + p.msgOff) data.length .store p.key sig = .ok ps ∧ u.counterOk ctr = true
      ∧ ps.any u.partHeld = false) ∧
    (∃ s : State, ∃ p : Packet, s.portUp (18 + p.port) = false) ∧
    (∃ s : State, (∀ p, p < 26 → s.portUp p = false)) ∧
    (∃ s : State, ∃ rank, (s.jobOn = false ∨ s.nextMessage rank = none)) ∧
    (∃ s : State, ∃ rank, ∃ m : Message, s.nextMessage rank = some m ∧ (s.cut.stopping = true ∨ s.cut.isStopped = true) ∧ m.sent = 0) ∧
    (∃ s : State, ∃ rank, ∃ m : Message, ∃ b : List Byte, ∃ path u v, ∃ psn : Word, s.jobOn = true ∧ s.nextMessage rank = some m ∧ s.pathOf rank =
      some .glb ∧ m.rank = rank ∧ s.windowRoom rank = true ∧ s.payload m m.sent (min 4096 (m.len - m.sent)) = .bytes b ∧ s.newPath rank = some (path,
      u) ∧ u.takePsn m m.sent path = (v, psn)) ∧
    (∃ s : State, ∃ m : Message, ∃ path, s.flows (s.routeOf m path).port = false) ∧
    (∃ s : State, ∃ m : Message, ∃ path, s.flows (s.routeOf m path).port = true ∧ ∃ e n, m.body = .load e n) ∧
    (∃ s : State, ∃ rank, ∃ psn : Word, ∃ w, ∃ m : Message, s.inWindow rank psn = some (w, m) ∧ ∃ u, Hears s rank none 5 u ∧ ∃ code, code ≠ 0) ∧
    (∃ s : State, ∃ rank, ∃ psn : Word, ∃ w, ∃ m : Message, s.inWindow rank psn = some (w, m) ∧ ∃ u, Hears s rank none 5 u ∧ w.acked = true) ∧
    (∃ s : State, ∃ rank, ∃ psn : Word, ∃ w, ∃ m : Message, s.inWindow rank psn = some (w, m) ∧ ∃ u, Hears s rank none 5 u ∧ w.acked = false) ∧
    (∃ s : State, ∃ rank, ∃ psn : Word, ∃ w, ∃ m : Message, s.inWindow rank psn = some (w, m) ∧ m.pod = true ∧ m.acked = 3) ∧
    (∃ s : State, ∃ rank, ∃ psn : Word, ∃ w, ∃ m : Message, s.inWindow rank psn = some (w, m) ∧ m.pod = true ∧ m.acked ≠ 3) ∧
    (∃ s : State, ∃ rank, ∃ psn : Word, ∃ w, ∃ m : Message, s.inWindow rank psn = some (w, m) ∧ ∃ u, m.pod = false ∧ u = s.modPath rank w.path
      PathState.timedOut) ∧
    (∃ s : State, ∃ rank, ∃ psn : Word, ∃ w, ∃ m : Message, s.inWindow rank psn = some (w, m) ∧ ∃ u, Hears s rank none 1 u ∧ ∃ data : List Byte,
      data.length ≠ m.len) ∧
    (∃ s : State, ∃ rank, ∃ psn : Word, ∃ w, ∃ m : Message, s.inWindow rank psn = some (w, m) ∧ ∃ u, Hears s rank none 1 u ∧ ∃ data : List Byte, ∃
      entry part e b a n o c d ps, data.length = m.len ∧ m.body = .load entry part ∧ (u.dropMessage m.number).entryOf m entry = some e ∧ e.access =
      .load b a n o c d ∧ e.state = .sent ps) ∧
    (∃ s : State, ∃ rank, ∃ psn : Word, ∃ w, ∃ m : Message, s.inWindow rank psn = some (w, m) ∧ ∃ u, Hears s rank none 1 u ∧ ∃ data : List Byte, ∃ k
      part q, data.length = m.len ∧ m.body = .element k part ∧ (u.dropMessage m.number).streamOf m k = some q) ∧
    (∃ s : State, ∃ rank, ∃ psn : Word, s.inWindow rank psn = none ∧ ∃ u, Hears s rank none 5 u) ∧
    (∃ s : State, ∃ rank, ∃ psn : Word, s.inWindow rank psn = none ∧ ∃ u, Hears s rank none 1 u) ∧
    (∃ s : State, ∃ rank x, Hears s rank none 5 x ∧ (∀ w ∈ s.net.window, w.rank ≠ rank)) ∧
    (∃ s : State, ∃ rank x, Hears s rank none 5 x ∧ s.net.messages = []) ∧
    (∃ s : State, ∃ rank cum, ∃ ecn : List Nat, ∃ x, Hears s rank none 5 x ∧ ∃ w, ∃ m : Message, ∃ u, s.net.window = [w] ∧ s.net.messages = [m] ∧
      w.msg = m.number ∧ w.rank = rank ∧ w.acked = false ∧ w.psn = cum ∧ m.len ≤ m.sent ∧ m.pod = false ∧ m.body.answered = false ∧ u = x.modPath
      rank w.path (fun v => v.acked (ecn.contains w.psn.toNat))) ∧
    (∃ s : State, ∃ p : Dword, ∃ k : Nat, ∃ n, ((s.cong (p, k)).path n).mode = .failed) :=
  ⟨⟨(net n0), (pk 0xFFFFFFFF (.read 4)), _, _, ⟨18, (by decide), rfl, .inl rfl⟩, rfl, (by decide)⟩,
    ⟨(net n0), (pk 512 (.read 4)), _, _, ⟨18, (by decide), rfl, .inl rfl⟩, rfl, (by decide), (by decide)⟩,
    ⟨(net n0), ({ pk 511 (.read 4) with trimmed := true }), _, _, ⟨18, (by decide), rfl, .inl rfl⟩, rfl, (by decide), (by decide), (by decide)⟩,
    ⟨(net n0), ({ pk 0 (.read 4) with job := 1 }), _, _, ⟨18, (by decide), rfl, .inl rfl⟩, rfl, (by decide), (by decide), (by decide),
      (.inr (by decide))⟩,
    ⟨(keep (net n0)), (pk 0 (.write [1, 2, 3, 4] true (some 0))), _, _, ⟨18, (by decide), rfl, .inl rfl⟩, rfl, (by decide), (by decide), (by decide),
      (by decide), (by decide), _, _, _, _, rfl, rfl, (by decide), (by decide)⟩,
    ⟨(net n0), (pk 0 (.write [1, 2, 3, 4] true (some 0))), _, _, ⟨18, (by decide), rfl, .inl rfl⟩, rfl, (by decide), (by decide), (by decide),
      (by decide), (by decide), _, _, _, _, rfl, rfl, (by decide), (by decide)⟩,
    ⟨State.reset, (pk 0 (.read 4)), (by decide)⟩,
    ⟨State.reset, (fun _ _ => rfl)⟩,
    ⟨State.reset, 0, (.inl (by decide))⟩,
    ⟨(stopping (net (nw (ms (.load 0 0)) (wp 1 false)))), 2, _, rfl, (.inl (by decide)), (by decide)⟩,
    ⟨(net (nw (ms (.store [1, 2, 3, 4] false false)) (wp 1 true))), 2, _, _, _, _, _, _, (by decide), rfl, (by decide), (by decide),
      (by decide +kernel), rfl, rfl, rfl⟩,
    ⟨({ (net (nw (ms (.load 0 0)) (wp 1 false))) with ports := [] }), (ms (.load 0 0)), 0, (by decide)⟩,
    ⟨(net (nw (ms (.load 0 0)) (wp 1 false))), (ms (.load 0 0)), 0, (by decide), _, _, rfl⟩,
    ⟨(net (nw (ms (.store [1, 2, 3, 4] false false)) (wp 1 false))), 2, 7, _, _, rfl, _, ⟨18, (by decide), rfl, .inr ⟨rfl, (by decide)⟩⟩, 2,
      (by decide)⟩,
    ⟨(net (nw (ms (.store [1, 2, 3, 4] false false)) (wp 1 true))), 2, 7, _, _, rfl, _, ⟨18, (by decide), rfl, .inr ⟨rfl, (by decide)⟩⟩, (by decide)⟩,
    ⟨(net (nw (ms (.store [1, 2, 3, 4] false false)) (wp 1 false))), 2, 7, _, _, rfl, _, ⟨18, (by decide), rfl, .inr ⟨rfl, (by decide)⟩⟩,
      (by decide)⟩,
    ⟨(net (nw { ms (.wsig 0x200000 0 none) with pod := true, acked := 3 } (wp 1 false))), 2, 7, _, _, rfl, (by decide), (by decide)⟩,
    ⟨(net (nw { ms (.wsig 0x200000 0 none) with pod := true } (wp 1 false))), 2, 7, _, _, rfl, (by decide), (by decide)⟩,
    ⟨(net (nw (ms (.store [1, 2, 3, 4] false false)) (wp 15 false))), 2, 7, _, _, rfl, _, (by decide), rfl⟩,
    ⟨(net (nw (ms (.load 0 0)) (wp 1 false))), 2, 7, _, _, rfl, _, ⟨18, (by decide), rfl, .inr ⟨rfl, (by decide)⟩⟩, [], (by decide)⟩,
    ⟨(ldr [(.glb 2 0 0, 4, none)] ({ (net (nw (ms (.load 0 0)) (wp 1 false))) with threads := (base []).threads })), 2, 7, _, _, rfl, _, ⟨18,
      (by decide), rfl, .inr ⟨rfl, (by decide)⟩⟩, [1, 2, 3, 4], _, _, _, _, _, _, _, _, _, _, rfl, rfl, rfl, rfl, rfl⟩,
    ⟨(elr [(.glb 2 0 0, 4, none)] ({ (net (nw (ms (.element 0 0)) (wp 1 false))) with threads := (base []).threads })), 2, 7, _, _, rfl, _, ⟨18,
      (by decide), rfl, .inr ⟨rfl, (by decide)⟩⟩, [1, 2, 3, 4], _, _, _, rfl, rfl, rfl⟩,
    ⟨(net n0), 0, 0, (by decide), _, ⟨18, (by decide), rfl, .inr ⟨rfl, (by decide)⟩⟩⟩,
    ⟨(net n0), 0, 0, (by decide), _, ⟨18, (by decide), rfl, .inr ⟨rfl, (by decide)⟩⟩⟩,
    ⟨(net n0), 0, _, ⟨18, (by decide), rfl, .inr ⟨rfl, (by decide)⟩⟩, (by decide)⟩,
    ⟨(net n0), 0, _, ⟨18, (by decide), rfl, .inr ⟨rfl, (by decide)⟩⟩, (by decide)⟩,
    ⟨(net (nw { ms (.store [1, 2, 3, 4] false false) with sent := 4 } (wp 1 false))), 2, 7, [7], _, ⟨18, (by decide), rfl, .inr ⟨rfl, (by decide)⟩⟩,
      _, _, _, rfl, rfl, (by decide), (by decide), (by decide), (by decide), (by decide), (by decide), (by decide), rfl⟩,
    ⟨({ State.reset with net := { n0 with paths := [((0, 0), { Congestion.start with paths := [{ PathState.start with mode := .failed }] })] } }), 0,
      0, 0, (by decide)⟩⟩

/-- States and operands that meet the premises of `Reductions`. -/
theorem test_premises_Reductions :
    (∃ s : State, ∃ p : ReductionPacket, ∃ r code u, Hears s p.source (some p.port) 3 u ∧ s.reductionCheck p = code ∧ r = s.receiver p.source ∧
      r.accepted p.psn = true ∧ p.first = p.last) ∧
    (∃ s : State, ∃ p : ReductionPacket, ∃ r code u, Hears s p.source (some p.port) 3 u ∧ s.reductionCheck p = code ∧ r = s.receiver p.source ∧
      r.accepted p.psn = false ∧ 512 < (p.psn - r.cum).toNat) ∧
    (∃ s : State, ∃ p : ReductionPacket, ∃ r code u, Hears s p.source (some p.port) 3 u ∧ s.reductionCheck p = code ∧ r = s.receiver p.source ∧
      r.accepted p.psn = false ∧ (p.psn - r.cum).toNat ≤ 512 ∧ code ≠ 0) ∧
    (∃ s : State, ∃ p : ReductionPacket, ∃ r code u, Hears s p.source (some p.port) 3 u ∧ s.reductionCheck p = code ∧ r = s.receiver p.source ∧
      r.accepted p.psn = false ∧ (p.psn - r.cum).toNat ≤ 512 ∧ code = 0 ∧ u.reductionHeld p = true) ∧
    (∃ s : State, ∃ p : ReductionPacket, ∃ r code u, Hears s p.source (some p.port) 3 u ∧ s.reductionCheck p = code ∧ r = s.receiver p.source ∧
      r.accepted p.psn = false ∧ (p.psn - r.cum).toNat ≤ 512 ∧ code = 0 ∧ u.reductionHeld p = false ∧ (p.gen = (s.folding p.gid).gen ∨ p.gen
      = (s.folding p.gid).gen + 1)) ∧
    (∃ s : State, ∃ p : ReductionPacket, ∃ r code u, Hears s p.source (some p.port) 3 u ∧ s.reductionCheck p = code ∧ r = s.receiver p.source ∧
      r.accepted p.psn = false ∧ (p.psn - r.cum).toNat ≤ 512 ∧ code = 0 ∧ u.reductionHeld p = false ∧ p.gen ≠ (s.folding p.gid).gen ∧ p.gen
      ≠ (s.folding p.gid).gen + 1) ∧
    (∃ s : State, ∃ p : ReductionPacket, s.portUp p.port = false) ∧
    (∃ s : State, ∃ gid, ∃ e : Nat, e = s.groupEntry gid ∧ bits e 16 16 = 1) ∧
    (∃ e : Nat, bits e 353 337 ≠ 0) ∧
    (∃ s : State, ∃ gid, bits (s.groupEntry gid) 16 16 = 0) :=
  ⟨⟨(net n0), ({ rp 0xFFFFFFFF 0 with last := 0 }), _, _, _, ⟨18, (by decide), rfl, .inl rfl⟩, rfl, rfl, (by decide), (by decide)⟩,
    ⟨(net n0), (rp 512 0), _, _, _, ⟨18, (by decide), rfl, .inl rfl⟩, rfl, rfl, (by decide), (by decide)⟩,
    ⟨(net n0), ({ rp 0 0 with key := 8 }), _, _, _, ⟨18, (by decide), rfl, .inl rfl⟩, rfl, rfl, (by decide), (by decide), (by decide)⟩,
    ⟨({ net n0 with hostLines := [0x8040] }), ({ rp 0 0 with elem := 0 }), _, _, _, ⟨18, (by decide), rfl, .inl rfl⟩, rfl, rfl, (by decide),
      (by decide), rfl, (by decide)⟩,
    ⟨(net n0), (rp 511 1), _, _, _, ⟨18, (by decide), rfl, .inl rfl⟩, rfl, rfl, (by decide), (by decide), rfl, (by decide), (.inr (by decide))⟩,
    ⟨(net n0), (rp 0 2), _, _, _, ⟨18, (by decide), rfl, .inl rfl⟩, rfl, rfl, (by decide), (by decide), rfl, (by decide), (by decide), (by decide)⟩,
    ⟨State.reset, (rp 0 0), (by decide)⟩,
    ⟨(net n0), 0, _, rfl, (by decide)⟩,
    ⟨0x6000000000000000000000000000000000000000000000000000000000000000000000000000000000000, (by decide)⟩,
    ⟨(net n0), 1, (by decide)⟩⟩

/-- States and operands that meet the premises of `PodEvents`. -/
theorem test_premises_PodEvents :
    (∃ s : State, ∃ q : PodRequest, s.portUp q.port = false) ∧
    (∃ s : State, ∃ q : PodRequest, ∃ b u, s.portUp q.port = true ∧ u = s.numberFlit q.port (podClass q) ∧ q.kind = .write b ∧ ∃ ps, u.targetParts
      q.region q.offset b.length .store q.key q.signalled = .ok ps ∧ ps.any u.partHeld = false) ∧
    (∃ s : State, ∃ q : PodRequest, ∃ b u, s.portUp q.port = true ∧ u = s.numberFlit q.port (podClass q) ∧ q.kind = .write b ∧ ∃ ps, u.targetParts
      q.region q.offset b.length .store q.key q.signalled = .ok ps ∧ ps.any u.partHeld = true) ∧
    (∃ s : State, ∃ q : PodRequest, ∃ b u, s.portUp q.port = true ∧ u = s.numberFlit q.port (podClass q) ∧ q.kind = .write b ∧ ∃ c, u.targetParts
      q.region q.offset b.length .store q.key q.signalled = .error c) ∧
    (∃ s : State, ∃ q : PodRequest, ∃ n u, s.portUp q.port = true ∧ u = s.numberFlit q.port (podClass q) ∧ q.kind = .read n ∧ ∃ ps, u.targetParts
      q.region q.offset n .load q.key false = .ok ps ∧ ps.any u.partHeld = false ∧ u.partsPoison ps 0 = none) ∧
    (∃ s : State, ∃ q : PodRequest, ∃ n u, s.portUp q.port = true ∧ u = s.numberFlit q.port (podClass q) ∧ q.kind = .read n ∧ ∃ c, u.targetParts
      q.region q.offset n .load q.key false = .error c) ∧
    (∃ s : State, ∃ q : PodRequest, ∃ op wide v c ret ps r u, s.portUp q.port = true ∧ u = s.numberFlit q.port (podClass q) ∧ q.kind = .atomic op
      wide v c ret ∧ u.targetParts q.region q.offset (if wide then 8 else 4) .atomic q.key false = .ok ps ∧ ps.any u.partHeld = false ∧ u.partsPoison
      ps 0 = none ∧ u.atomicAt (placedAtomic (.pod q.member q.bulk) q.release) op wide v c ps = r) ∧
    (∃ s : State, ∃ q : PodRequest, ∃ ctr n u, s.portUp q.port = true ∧ u = s.numberFlit q.port (podClass q) ∧ q.kind = .count ctr n ∧ s.jobOn = true
      ∧ u.counterOk (some ctr) = true) ∧
    (∃ s : State, ∃ q : PodRequest, ∃ ctr n u, s.portUp q.port = true ∧ u = s.numberFlit q.port (podClass q) ∧ q.kind = .count ctr n ∧ s.jobOn = true
      ∧ u.counterOk (some ctr) = false) ∧
    (∃ s : State, ∃ q : PodRequest, ∃ k code, s.portUp q.port = true ∧ q.kind = .flush k ∧ s.jobOn = true ∧ code = AMap.getD s.net.podFail (podKey q)
      0) ∧
    (∃ s : State, ∃ peer : Nat, ∃ f, s.net.flushes.find? (fun f => f.member == peer) = some f ∧ s.net.messages = []) ∧
    (∃ s : State, ∃ peer : Nat, ∃ f id t code u, s.net.flushes.find? (fun f => f.member == peer) = some f ∧ s.net.messages = [] ∧ f.users = [(id, 0)]
      ∧ 0 < code ∧ s.thread? id = some t ∧ t.live = true ∧ t.pend15 = none ∧ u = BitVec.ofNat 64 (gAddr (s.rankOfMember peer) 0 0)) ∧
    (∃ s : State, ∃ id t k e b a n ord d r ps, s.thread? id = some t ∧ t.log.find? (fun e => e.index == k) = some e ∧ e.access = .load b a n ord d r
      ∧ e.state = .sent ps ∧ awaitsPod ps = true) ∧
    (∃ s : State, ∃ id t k e b a n ord d r ps, s.thread? id = some t ∧ t.log.find? (fun e => e.index == k) = some e ∧ e.access = .load b a n ord d r
      ∧ e.state = .sent ps ∧ awaitsPod ps = false) ∧
    (∃ s : State, ∃ id t k, ∃ q : Machine.Stream, s.thread? id = some t ∧ t.stream k = some q ∧ awaitsPod q.arriving = true) ∧
    (∃ s : State, ∃ id t k, ∃ q : Machine.Stream, s.thread? id = some t ∧ t.stream k = some q ∧ awaitsPod q.arriving = false) ∧
    (∃ s : State, ∃ core n k c off len, (s.core core).copies.find? (fun c => c.tag == n) = some c ∧ c.cuts[k]? = some (off, len) ∧ c.started = true ∧
      c.pieces.contains k = true ∧ s.pieceSent core n k = false ∧ (s.pieceSource c off len).any (fun p => p.1.isPod) = true) ∧
    (∃ s : State, ∃ core n k c, (s.core core).chains.find? (fun c => c.tag == n) = some c ∧ c.pending.contains k = true ∧ AMap.get? c.ready k = none
      ∧ (s.engineParts c.thread c.kernel (descSsp c.desc) (descSrc c.desc + 4 * k) 4 .load).any (fun p => p.1.isPod) = true) ∧
    (∃ p, p < 18) :=
  ⟨⟨State.reset, (pr (.read 4) 9), (by decide)⟩,
    ⟨(net n0), (pr (.write [1, 2, 3, 4]) 9), _, _, (by decide), rfl, rfl, _, rfl, (by decide)⟩,
    ⟨({ net n0 with hostLines := [0xBFFF] }), (pr (.write [1, 2, 3, 4]) 9), _, _, (by decide), rfl, rfl, _, rfl, (by decide)⟩,
    ⟨(net n0), (pr (.write [1, 2, 3, 4, 5]) 9), _, _, (by decide), rfl, rfl, _, rfl⟩,
    ⟨(net n0), (pr (.read 4) 9), _, _, (by decide), rfl, rfl, _, rfl, (by decide), (by decide)⟩,
    ⟨(net n0), (pr (.read 4) 8), _, _, (by decide), rfl, rfl, _, rfl⟩,
    ⟨(net n0), (pr (.atomic 0 false 1 0 true) 9), _, _, _, _, _, _, _, _, (by decide), rfl, rfl, rfl, (by decide), (by decide), rfl⟩,
    ⟨(net n0), (pr (.count 0 64) 9), _, _, _, (by decide), rfl, rfl, (by decide), (by decide)⟩,
    ⟨(net n0), (pr (.count 65535 64) 9), _, _, _, (by decide), rfl, rfl, (by decide), (by decide)⟩,
    ⟨(net n0), (pr (.flush true) 9), _, _, (by decide), rfl, (by decide), rfl⟩,
    ⟨(net (fl [(⟨0, 0, 0, 0⟩, 0)])), 1, _, rfl, (by decide)⟩,
    ⟨({ net (fl [(⟨0, 0, 0, 0⟩, 0)]) with threads := (base []).threads }), 1, _, _, _, 1, _, rfl, (by decide), rfl, (by decide), rfl, (by decide),
      (by decide), rfl⟩,
    ⟨(ldr [(.pod 1 1 0 0, 4, none)] ({ net n0 with threads := (base []).threads })), ⟨0, 0, 0, 0⟩, _, 0, _, _, _, _, _, _, _, _, rfl, rfl, rfl, rfl,
      (by decide)⟩,
    ⟨(ldr [(.glb 2 0 0, 4, none)] ({ net n0 with threads := (base []).threads })), ⟨0, 0, 0, 0⟩, _, 0, _, _, _, _, _, _, _, _, rfl, rfl, rfl, rfl,
      (by decide)⟩,
    ⟨(elr [(.pod 1 1 0 0, 4, none)] ({ net n0 with threads := (base []).threads })), ⟨0, 0, 0, 0⟩, _, 0, _, rfl, rfl, (by decide)⟩,
    ⟨(elr [(.glb 2 0 0, 4, none)] ({ net n0 with threads := (base []).threads })), ⟨0, 0, 0, 0⟩, _, 0, _, rfl, rfl, (by decide)⟩,
    ⟨({ job (base []) with cores := [(0, { Core.idle with copies := [cr (raw 0 3 64 0 0x8000400000000000) true] })] }), 0, 1, 0, _, _, _, rfl, rfl,
      (by decide), (by decide), (by decide), (by decide +kernel)⟩,
    ⟨({ job (base []) with cores := [(0, { Core.idle with chains := [chd 0x8000400000000000 0 3 [0]] })] }), 0, 1, 0, _, rfl, (by decide),
      (by decide), (by decide +kernel)⟩,
    ⟨17, (by decide)⟩⟩

/-- States and operands that meet the premises of `HostAccesses`. -/
theorem test_premises_HostAccesses :
    (∃ s : State, ∃ off, ∃ pa : Nat, s.barsOpen = true ∧ off < 2 ^ 36 ∧ s.aperturePa off = some pa ∧ ∃ n : Nat, s.held pa n = false ∧ s.poisonIn pa n =
      false) ∧
    (∃ s : State, ∃ off, ∃ pa : Nat, s.barsOpen = true ∧ off < 2 ^ 36 ∧ s.aperturePa off = some pa ∧ ∃ n : Nat, s.held pa n = false ∧ s.poisonIn pa n
      = true) ∧
    (∃ s : State, ∃ off, ∃ pa : Nat, s.barsOpen = true ∧ off < 2 ^ 36 ∧ s.aperturePa off = some pa ∧ ∃ b : List Byte, s.held pa b.length = false) ∧
    (∃ s : State, ∃ off, ∃ pa : Nat, s.barsOpen = true ∧ off < 2 ^ 36 ∧ s.aperturePa off = some pa ∧ ∃ n : Nat, s.held pa n = true) ∧
    (∃ s : State, ∃ off, ∃ d : Option (List Byte), (s.barsOpen = false ∨ (2 ^ 36 ≤ off ∧ d = none) ∨ (off < 2 ^ 36 ∧ s.aperturePa off = none))) ∧
    (∃ s : State, ∃ off, ∃ d : Option (List Byte), (s.barsOpen = false ∨ (2 ^ 36 ≤ off ∧ d = none) ∨ (off < 2 ^ 36 ∧ s.aperturePa off = none))) ∧
    (∃ s : State, ∃ off, ∃ d : Option (List Byte), (s.barsOpen = false ∨ (2 ^ 36 ≤ off ∧ d = none) ∨ (off < 2 ^ 36 ∧ s.aperturePa off = none))) ∧
    (∃ off, 2 ^ 36 ≤ off) ∧
    (∃ s : State, ∃ pa : Nat, ∃ n : Nat, ∃ b : List Byte, s.barsOpen = true ∧ s.hostReaches pa n = true ∧ s.held pa n = true ∧ b.length = n) ∧
    (∃ s : State, ∃ pa : Nat, ∃ n : Nat, ∃ b : List Byte, s.barsOpen = true ∧ s.hostReaches pa n = true ∧ s.moving pa n = false ∧ b.length = n ∧ (∀ l
      ∈ linesOf pa n, l ∈ s.hostLines)) ∧
    (∃ s : State, ∃ pa : Nat, ∃ n : Nat, s.barsOpen = true ∧ s.hostReaches pa n = true ∧ s.held pa n = false ∧ s.poisonIn pa n = false) ∧
    (∃ s : State, ∃ pa : Nat, ∃ n : Nat, s.barsOpen = true ∧ s.hostReaches pa n = true ∧ s.held pa n = false ∧ s.poisonIn pa n = true) ∧
    (∃ s : State, ∃ pa : Nat, ∃ n : Nat, s.barsOpen = true ∧ s.hostReaches pa n = true ∧ s.held pa n = false ∧ ∃ b : List Byte, b.length = n) ∧
    (∃ s : State, ∃ pa : Nat, ∃ n : Nat, (∃ l ∈ linesOf pa n, l ∈ s.hostLines) ∧ 0 < n) ∧
    (∃ s : State, ∃ pa : Nat, ∃ w, ∃ op : HostAtomic, s.barsOpen = true ∧ physPart pa = .hbm ∧ (w = 16 → op = .cas) ∧ pa % w = 0 ∧ s.held pa w =
      false ∧ s.poisonIn pa w = false) ∧
    (∃ s : State, ∃ pa : Nat, ∃ w, ∃ op : HostAtomic, s.barsOpen = true ∧ physPart pa = .hbm ∧ (w = 16 → op = .cas) ∧ pa % w ≠ 0) ∧
    (∃ s : State, ∃ m w, ∃ v : Word, ∃ d, Canonical s ∧ Owns s m ∧ bits (s.reg32 (0x10000 + 64 * w)) 0 0 = 0 ∧ bits v.toNat 0 0 = 1 ∧ d =
      s.windowDesc w / 2 ^ 32 * 2 ^ 32 + v.toNat / 8 * 8) ∧
    (∃ s : State, ∃ off w b d, s.barsOpen = true ∧ 2 ^ 36 ≤ off ∧ off < 0x1400000000 ∧ w = (off - 2 ^ 36) / 2 ^ 28 ∧ b = off % 2 ^ 28 / 4096 ∧ d =
      s.windowDesc w ∧ (bits d 0 0 = 0 ∨ bits d 111 96 < b)) ∧
    (∃ s : State, ∃ off w b d, s.barsOpen = true ∧ 2 ^ 36 ≤ off ∧ off < 0x1400000000 ∧ w = (off - 2 ^ 36) / 2 ^ 28 ∧ b = off % 2 ^ 28 / 4096 ∧ d =
      s.windowDesc w ∧ (bits d 0 0 = 0 ∨ bits d 111 96 < b)) ∧
    (∃ s : State, ∃ off, ∃ data : List Byte, ∃ w b d, s.barsOpen = true ∧ 2 ^ 36 ≤ off ∧ off < 0x1400000000 ∧ w = (off - 2 ^ 36) / 2 ^ 28 ∧ b = off %
      2 ^ 28 / 4096 ∧ d = s.windowDesc w ∧ bits d 0 0 = 1 ∧ b ≤ bits d 111 96 ∧ ((AMap.get? (s.window w).held b).isSome = true ∨ (s.window
      w).held.length < 16) ∧ off % 4096 + data.length ≤ 4096) ∧
    (∃ s : State, ∃ w, ∃ b : Nat, ∃ m : AMap Nat Byte, ∃ d, ∃ pa : Nat, ∃ x, AMap.get? (s.window w).held b = some m ∧ 4096 ≤ m.length ∧ d =
      s.windowDesc w ∧ pa = bits d 447 384 + b * (4096 * 2 ^ bits d 95 92) ∧ x = (List.range 4096).map (fun i => AMap.getD m i 0) ∧ s.held (bits d
      511 448 + 8 * b) 8 = true) ∧
    (∃ s : State, ∃ w, ∃ b : Nat, ∃ m : AMap Nat Byte, ∃ d, ∃ pa : Nat, ∃ x, AMap.get? (s.window w).held b = some m ∧ 4096 ≤ m.length ∧ d =
      s.windowDesc w ∧ pa = bits d 447 384 + b * (4096 * 2 ^ bits d 95 92) ∧ x = (List.range 4096).map (fun i => AMap.getD m i 0) ∧ ∃ z : List Byte,
      ∃ t, s.held (bits d 511 448 + 8 * b) 8 = false ∧ s.blockStages d b x = .out z t ∧ s.held pa z.length = false ∧ s.poisonIn pa z.length = false ∧
      physPart pa = .hbm ∧ physPart (pa + z.length - 1) = .hbm) ∧
    (∃ s : State, ∃ w, ∃ b : Nat, ∃ m : AMap Nat Byte, ∃ d, ∃ pa : Nat, ∃ x, AMap.get? (s.window w).held b = some m ∧ 4096 ≤ m.length ∧ d =
      s.windowDesc w ∧ pa = bits d 447 384 + b * (4096 * 2 ^ bits d 95 92) ∧ x = (List.range 4096).map (fun i => AMap.getD m i 0) ∧ ∃ st : Nat,
      s.held (bits d 511 448 + 8 * b) 8 = false ∧ s.held pa (4096 * 2 ^ bits d 95 92) = false ∧ s.blockStages d b x = .fail st) :=
  ⟨⟨(mg [(0x12000 + 8 * 255, 8, 0x8000000000000000)]), 0xFFFFFFFFF, _, (by decide), (by decide), rfl, 1, (by decide), (by decide)⟩,
    ⟨({ (mg [(0x12000 + 8 * 255, 8, 0x8000000000000000)]) with poison := [0x7FFFFF] }), 0xFFFFFFFFF, _, (by decide), (by decide), rfl, 1,
      (by decide), (by decide)⟩,
    ⟨(mg [(0x12000 + 8 * 255, 8, 0x8000000000000000)]), 0xFF0000000, _, (by decide), (by decide), rfl, [1], (by decide)⟩,
    ⟨({ (mg [(0x12000 + 8 * 255, 8, 0x8000000000000000)]) with hostLines := [0x3FFFFF] }), 0xFFFFFFFFF, _, (by decide), (by decide), rfl, 1,
      (by decide)⟩,
    ⟨(mg [(0x12000 + 8 * 255, 8, 0x8000000000000000)]), 0x1000000000, _, (.inr (.inl ⟨by decide, rfl⟩))⟩,
    ⟨(mg [(0x12000 + 8 * 255, 8, 0x8000000000000000)]), 0, none, (.inr (.inr ⟨by decide, (by decide)⟩))⟩,
    ⟨State.reset, 0, none, (.inl (by decide))⟩,
    ⟨0x1000000000, (by decide)⟩,
    ⟨({ (mg [(0x208, 8, 1)]) with hostLines := [0x3FFFFF] }), 0xFFFFFFF, 1, [7], (by decide), (by decide), (by decide), (by decide)⟩,
    ⟨({ (mg [(0x208, 8, 1)]) with hostLines := [0x3FFFFF] }), 0xFFFFFFF, 1, [7], (by decide), (by decide), (by decide), (by decide), (by decide)⟩,
    ⟨(mg [(0x208, 8, 1)]), 0xFFFFFFF, 1, (by decide), (by decide), (by decide), (by decide)⟩,
    ⟨({ (mg [(0x208, 8, 1)]) with poison := [0x7FFFFF] }), 0xFFFFFFF, 1, (by decide), (by decide), (by decide), (by decide)⟩,
    ⟨(mg [(0x208, 8, 1)]), 0xFFFFFFF, 1, (by decide), (by decide), (by decide), [7], (by decide)⟩,
    ⟨({ (mg [(0x208, 8, 1)]) with hostLines := [0x3FFFFF] }), 0xFFFFFFF, 1, ⟨0x3FFFFF, (by decide), (by decide)⟩, (by decide)⟩,
    ⟨(srv 6), 0, 16, .cas, (by decide), (by decide), (fun _ => rfl), (by decide), (by decide), (by decide)⟩,
    ⟨(srv 6), 1, 4, .swap, (by decide), (by decide), (fun h => absurd h (by decide)), (by decide)⟩,
    ⟨(srv 6), 0, 63, 1, _, can (by decide), ⟨⟨by decide, (by decide)⟩, (by decide), (by decide)⟩, (by decide), (by decide), rfl⟩,
    ⟨(mg []), 0x1000000000, _, _, _, (by decide), (by decide), (by decide), rfl, rfl, rfl, (.inl (by decide))⟩,
    ⟨(mg [(0x10000, 64, 1 + 3 * 2 ^ 96)]), 0x1000004000, _, _, _, (by decide), (by decide), (by decide), rfl, rfl, rfl, (.inr (by decide))⟩,
    ⟨(mg [(0x10000, 64, 1 + 3 * 2 ^ 96)]), 0x1000003FFF, [1], _, _, _, (by decide), (by decide), (by decide), rfl, rfl, rfl, (by decide),
      (by decide), (.inr (by decide)), (by decide)⟩,
    ⟨({ blk 1 with hostLines := [0] }), 0, 0, _, _, _, _, rfl, (by decide +kernel), rfl, rfl, rfl, (by decide +kernel)⟩,
    ⟨(blk 1), 0, 0, _, _, _, _, rfl, (by decide +kernel), rfl, rfl, rfl, _, _, (by decide +kernel), outIs (by decide +kernel), (by decide +kernel),
      (by decide +kernel), (by decide +kernel), (by decide +kernel)⟩,
    ⟨(blk (1 + 2 ^ 70)), 0, 0, _, _, _, _, rfl, (by decide +kernel), rfl, rfl, rfl, 3, (by decide +kernel), (by decide +kernel), (by decide +kernel)⟩⟩

/-- States and operands that meet the premises of `Debugger`. -/
theorem test_premises_Debugger :
    (∃ s : State, ∃ d : DebugTarget, ∃ g : Group, ∃ u lane, Commands s d u g lane) ∧
    (∃ s : State, ∃ d : DebugTarget, ∃ g : Group, ∃ u lane id t, ∃ sel : Nat, Commands s d u g lane ∧ u.debugThread d g = some (id, t) ∧ ∃ v,
      u.debugValue id t sel = some v) ∧
    (∃ s : State, ∃ d : DebugTarget, ∃ g : Group, ∃ u lane id t, ∃ sel : Nat, Commands s d u g lane ∧ u.debugThread d g = some (id, t) ∧ u.debugValue
      id t sel = none) ∧
    (∃ s : State, ∃ d : DebugTarget, ∃ g : Group, ∃ u lane id t, ∃ sel : Nat, Commands s d u g lane ∧ u.debugThread d g = some (id, t) ∧ ∃ t',
      u.debugPut id t sel s.dbgdata = some t') ∧
    (∃ s : State, ∃ d : DebugTarget, ∃ g : Group, ∃ u lane id t, ∃ sel : Nat, Commands s d u g lane ∧ u.debugThread d g = some (id, t) ∧ u.debugPut
      id t sel s.dbgdata = none) ∧
    (∃ s : State, ∃ d : DebugTarget, ∃ g : Group, ∃ u lane id t r, Commands s d u g lane ∧ u.debugThread d g = some (id, t) ∧ r =
      u.rewindGroup (targetGroup d) ∧ r.stepBlocked id t = true) ∧
    (∃ s : State, ∃ d : DebugTarget, ∃ g : Group, ∃ u lane id t r, Commands s d u g lane ∧ u.debugThread d g = some (id, t) ∧ r =
      u.rewindGroup (targetGroup d) ∧ r.stepBlocked id t = false) ∧
    (∃ s : State, ∃ d : DebugTarget, ∃ g : Group, ∃ u lane, ∃ sel : Nat, ∃ i : Instr, Commands s d u g lane ∧ u.debugThread d g = none ∧ (i =
      .debugRead d sel ∨ i = .debugWrite d sel ∨ i = .debugStep d)) ∧
    (∃ s : State, ∃ d : DebugTarget, ∃ i : Instr, ∃ sel : Nat, (i = .debugHalt d ∨ i = .debugResume d ∨ i = .debugStep d ∨ i = .debugRead d sel ∨ i =
      .debugWrite d sel ∨ i = .debugCatchOn d ∨ i = .debugCatchOff d) ∧ Stranger s d.master) ∧
    (∃ s : State, ∃ d : DebugTarget, ∃ i : Instr, ∃ sel : Nat, (i = .debugHalt d ∨ i = .debugResume d ∨ i = .debugStep d ∨ i = .debugRead d sel ∨ i =
      .debugWrite d sel ∨ i = .debugCatchOn d ∨ i = .debugCatchOff d) ∧ s.served 0x200 = false) ∧
    (∃ s : State, ∃ d : DebugTarget, ∃ i : Instr, ∃ sel : Nat, (i = .debugHalt d ∨ i = .debugResume d ∨ i = .debugStep d ∨ i = .debugRead d sel ∨ i =
      .debugWrite d sel ∨ i = .debugCatchOn d ∨ i = .debugCatchOff d) ∧ Owns s d.master ∧ s.dbg.busy = true ∧ (i = .debugHalt d → s.dbg.target ≠
      some (targetGroup d))) ∧
    (∃ s : State, ∃ d : DebugTarget, ∃ i : Instr, ∃ sel : Nat, (i = .debugHalt d ∨ i = .debugResume d ∨ i = .debugStep d ∨ i = .debugRead d sel ∨ i =
      .debugWrite d sel ∨ i = .debugCatchOn d ∨ i = .debugCatchOff d) ∧ Owns s d.master ∧ s.dbg.busy = false ∧ ∃ u, u
      = ({ s with dbg := { s.dbg with target := some (targetGroup d) } } : State) ∧ u.debugGroup d = none) ∧
    (∃ s : State, ∃ d : DebugTarget, ∃ g : Group, ∃ lane, Owns s d.master ∧ s.dbg.busy = true ∧ s.dbg.target = some (targetGroup d) ∧ s.debugGroup d
      = some g ∧ lane = s.debugLane d) ∧
    (∃ s : State, ∃ d : DebugTarget, ∃ g : Group, s.debugGroup d = some g) :=
  ⟨⟨(dg false (base [])), (dt false), _, _, _, ⟨⟨⟨by decide, (by decide)⟩, (by decide), (by decide)⟩, (by decide), rfl, someOf (by decide), rfl⟩⟩,
    ⟨(dg true (base [5])), (dt false), _, _, _, _, _, 127, ⟨⟨⟨by decide, (by decide)⟩, (by decide), (by decide)⟩, (by decide), rfl,
      someOf (by decide), rfl⟩, someOf2 (by decide), _, someOf (by decide)⟩,
    ⟨(dg true (base [5])), (dt false), _, _, _, _, _, 128, ⟨⟨⟨by decide, (by decide)⟩, (by decide), (by decide)⟩, (by decide), rfl,
      someOf (by decide), rfl⟩, someOf2 (by decide), (by decide)⟩,
    ⟨(dg true (base [5])), (dt false), _, _, _, _, _, 0, ⟨⟨⟨by decide, (by decide)⟩, (by decide), (by decide)⟩, (by decide), rfl, someOf (by decide),
      rfl⟩, someOf2 (by decide), _, someOf (by decide)⟩,
    ⟨(dg true (base [5])), (dt false), _, _, _, _, _, 0x600, ⟨⟨⟨by decide, (by decide)⟩, (by decide), (by decide)⟩, (by decide), rfl,
      someOf (by decide), rfl⟩, someOf2 (by decide), (by decide)⟩,
    ⟨apart, (dt false), _, _, _, _, _, _, ⟨⟨⟨by decide, (by decide)⟩, (by decide), (by decide)⟩, (by decide), rfl, someOf (by decide), rfl⟩,
      someOf2 (by decide), rfl, (by decide)⟩,
    ⟨(dg true (base [5])), (dt true), _, _, _, _, _, _, ⟨⟨⟨by decide, (by decide)⟩, (by decide), (by decide)⟩, (by decide), rfl, someOf (by decide),
      rfl⟩, someOf2 (by decide), rfl, (by decide)⟩,
    ⟨(dg false (base [])), (dt false), _, _, _, 0, (.debugRead (dt false) 0), ⟨⟨⟨by decide, (by decide)⟩, (by decide), (by decide)⟩, (by decide),
      rfl, someOf (by decide), rfl⟩, (by decide), (.inl rfl)⟩,
    ⟨(srv 6), ({ dt false with master := 1 }), (.debugStep { dt false with master := 1 }), 0, (.inr (.inr (.inl rfl))), ⟨⟨by decide, (by decide)⟩,
      (by decide)⟩⟩,
    ⟨State.reset, (dt true), (.debugCatchOff (dt true)), 0, (.inr (.inr (.inr (.inr (.inr (.inr rfl)))))), (by decide)⟩,
    ⟨({ dg true (base []) with dbg := { State.reset.dbg with busy := true, target := some ⟨0, 0, 0⟩ } }), (dt false), (.debugStep (dt false)), 0,
      (.inr (.inr (.inl rfl))), ⟨⟨by decide, (by decide)⟩, (by decide), (by decide)⟩, (by decide), (fun h => nomatch h)⟩,
    ⟨(srv 6), (dt false), (.debugStep (dt false)), 0, (.inr (.inr (.inl rfl))), ⟨⟨by decide, (by decide)⟩, (by decide), (by decide)⟩, (by decide), _,
      rfl, (by decide)⟩,
    ⟨({ dg true (base []) with dbg := { State.reset.dbg with busy := true, target := some ⟨0, 0, 0⟩ } }), (dt false), _, _, ⟨⟨by decide,
      (by decide)⟩, (by decide), (by decide)⟩, (by decide), (by decide), someOf (by decide), rfl⟩,
    ⟨({ dg true (base []) with dbg := { State.reset.dbg with busy := true, target := some ⟨0, 0, 0⟩ } }), (dt false), _, someOf (by decide)⟩⟩

/-- States and operands that meet the premises of `DecodeAndEncodeAgree`. -/
theorem test_premises_DecodeAndEncodeAgree :
    (∃ i : Instr, ∃ w : Word, i.wf = true ∧ encode? i = some w) ∧
    (∃ w : Word, ∃ i : Instr, decodeWord w = some i) :=
  ⟨⟨(.add 0 127 127 127), _, (by decide), rfl⟩,
    ⟨(Enc.add 0 4 5 6), _, someOf (by decide)⟩⟩

/-- States and operands that meet the premises of `StepRunsDecoded`. -/
theorem test_premises_StepRunsDecoded :
    (∃ s : State, ∃ u : State, ∃ g slices i id t, ∃ w : Word, ∃ b : State, ∃ turns, TurnOf s u g slices ∧ turns = u.gangTurn g slices ∧ gangMembers turns
      = [i] ∧ id = memberOf g i ∧ u.thread? id = some t ∧ t.wait ≠ .done ∧ u.fetch id t = .word w ∧ b = ({ u.beginTurn g turns true with cur := id }
      : State) ∧ ∃ k r, decodeWord w = some k ∧ exec k b = .next r) ∧
    (∃ s : State, ∃ u : State, ∃ g slices i id t, ∃ w : Word, ∃ b : State, ∃ turns, TurnOf s u g slices ∧ turns = u.gangTurn g slices ∧ gangMembers
      turns = [i] ∧ id = memberOf g i ∧ u.thread? id = some t ∧ t.wait ≠ .done ∧ u.fetch id t = .word w ∧ b
      = ({ u.beginTurn g turns true with cur := id } : State) ∧ ∃ r, decodeWord w = none ∧ w.extractLsb' 25 7 ≠ 0x3E ∧ illegalWord w b = .next r) ∧
    (∃ s : State, ∃ u : State, ∃ g slices i id t, ∃ w : Word, ∃ b : State, ∃ turns, TurnOf s u g slices ∧ turns = u.gangTurn g slices ∧ gangMembers
      turns = [i] ∧ id = memberOf g i ∧ u.thread? id = some t ∧ t.wait ≠ .done ∧ u.fetch id t = .word w ∧ b
      = ({ u.beginTurn g turns true with cur := id } : State) ∧ ∃ r, decodeWord w = none ∧ w.extractLsb' 25 7 = 0x3E ∧ hintWord .bad b = .next r) ∧
    (∃ s : State, ∃ u g slices turns parts r, TurnOf s u g slices ∧ turns = u.gangTurn g slices ∧ turns ≠ [] ∧ parts = (gangMembers turns).map (fun i
      => (memberOf g i, u.fetchFor (memberOf g i))) ∧ membersTurn parts (u.beginTurn g turns (parts.any (fun p => p.2.isWord))) = .next r) ∧
    (∃ s : State, ∃ u g slices, TurnOf s u g slices ∧ u.gangTurn g slices = []) ∧
    (∃ u : State, ∃ id, ∃ r : FetchResult, ∃ v, memberTurn id r u = .next v) ∧
    (∃ u : State, ∃ id t, ∃ w : Word, ∃ k, u.thread? id = some t ∧ t.wait ≠ .done ∧ decodeWord w = some k) ∧
    (∃ u : State, ∃ id t, u.thread? id = some t ∧ t.wait = .done) ∧
    (∃ u : State, ∃ g : GroupId, ∃ slices, ∃ p : Nat × List Nat, ∃ q : Nat × List Nat, ∃ i j, p ∈ u.gangTurn g slices ∧ q ∈ u.gangTurn g slices ∧ i ∈
      p.2 ∧ j ∈ q.2) ∧
    (∃ u : State, ∃ id, ∃ t : Thread, ∃ pa e, u.mayIssue id t = true ∧ u.translate (.core id.core) (u.asidOf id.teamId) t.pc.toNat .fetch t.kernel =
      .ok pa e ∧ bits e 13 13 ≠ 1 ∧ u.held pa 4 = false) ∧
    (∃ s : State, ∃ i rest r, s.agenda = .event i :: rest ∧ encode? i = none ∧ i.wf = true ∧ exec i { s with agenda := rest } = .next r) ∧
    (∃ s : State, ∃ k n rest, s.agenda = .clock k n :: rest) :=
  ⟨⟨(stepping (Enc.add 0 4 5 6) []), (stepping (Enc.add 0 4 5 6) []), ⟨0, 0, 0⟩, [0], 0, ⟨0, 0, 0, 0⟩, (th (stepping (Enc.add 0 4 5 6) [])),
      (Enc.add 0 4 5 6),
      ({ (stepping (Enc.add 0 4 5 6) []).beginTurn ⟨0, 0, 0⟩ ((stepping (Enc.add 0 4 5 6) []).gangTurn ⟨0, 0, 0⟩ [0]) true with cur := ⟨0, 0, 0, 0⟩ }), _, (.inl ⟨⟨0, 0, 0, 0⟩, [], .inl ⟨rfl, rfl, rfl⟩, rfl, rfl, rfl⟩), rfl, (by decide), rfl, rfl, (by decide), rfl, rfl, (.add 0 4 5 6), _, rfl, nextIs (by decide +kernel)⟩,
    ⟨(stepping 0xFFFFFFFF []), (stepping 0xFFFFFFFF []), ⟨0, 0, 0⟩, [0], 0, ⟨0, 0, 0, 0⟩, (th (stepping 0xFFFFFFFF [])), 0xFFFFFFFF,
      ({ (stepping 0xFFFFFFFF []).beginTurn ⟨0, 0, 0⟩ ((stepping 0xFFFFFFFF []).gangTurn ⟨0, 0, 0⟩ [0]) true with cur := ⟨0, 0, 0, 0⟩ }), _,
      (.inl ⟨⟨0, 0, 0, 0⟩, [], .inl ⟨rfl, rfl, rfl⟩, rfl, rfl, rfl⟩), rfl, (by decide), rfl, rfl, (by decide), rfl, rfl, _, (by decide), (by decide),
      nextIs (by decide +kernel)⟩,
    ⟨(stepping 0x7DFFFFFF [.thread ⟨0, 0, 0, 0⟩]), (stepping 0x7DFFFFFF []), ⟨0, 0, 0⟩, [0], 0, ⟨0, 0, 0, 0⟩, (th (stepping 0x7DFFFFFF [])),
      0x7DFFFFFF, ({ (stepping 0x7DFFFFFF []).beginTurn ⟨0, 0, 0⟩ ((stepping 0x7DFFFFFF []).gangTurn ⟨0, 0, 0⟩ [0]) true with cur := ⟨0, 0, 0, 0⟩ }),
      _, (.inl ⟨⟨0, 0, 0, 0⟩, [], .inr rfl, rfl, rfl, rfl⟩), rfl, (by decide), rfl, rfl, (by decide), rfl, rfl, _, (by decide), (by decide),
      nextIs (by decide +kernel)⟩,
    ⟨(stepping (Enc.add 0 4 5 6) [.gang ⟨0, 0, 0⟩ [0, 1]]), _, ⟨0, 0, 0⟩, [0, 1], _, _, _, (.inr ⟨[], rfl, rfl⟩), rfl, (by decide), rfl, rfl⟩,
    ⟨(stepping 0 [.gang ⟨0, 0, 0⟩ [5]]), _, ⟨0, 0, 0⟩, [5], (.inr ⟨[], rfl, rfl⟩), (by decide)⟩,
    ⟨(stepping (Enc.add 0 4 5 6) []), ⟨0, 0, 0, 0⟩, (.word (Enc.add 0 4 5 6)), _, rfl⟩,
    ⟨(stepping 0 []), ⟨0, 0, 0, 0⟩, _, (Enc.add 0 4 5 6), _, rfl, (by decide), someOf (by decide)⟩,
    ⟨(put (fun t => { t with wait := .done }) (base [])), ⟨0, 0, 0, 0⟩, _, rfl, (by decide)⟩,
    ⟨(stepping 0 []), ⟨0, 0, 0⟩, [0], (0, [0]), (0, [0]), 0, 0, (by decide), (by decide), (by decide), (by decide)⟩,
    ⟨(stepping 0 []), ⟨0, 0, 0, 0⟩, (th (stepping 0 [])), _, _, (by decide), rfl, (by decide), (by decide)⟩,
    ⟨(stepping 0 [.event .powerRemoval]), _, [], _, rfl, rfl, (by decide), rfl⟩,
    ⟨(stepping 0 [.clock 0 7]), _, _, [], rfl⟩⟩

/-- States and operands that meet the premises of `ResetState`. -/
theorem test_premises_ResetState :
    (∃ off, (off + 4 ≤ 0x210 ∨ 0x212 ≤ off)) ∧
    (∃ off, (off + 4 ≤ 0x210 ∨ 0x212 ≤ off)) :=
  ⟨⟨0x20C, (.inl (by decide))⟩,
    ⟨0x212, (.inr (by decide))⟩⟩

/-- States and operands that meet the premises of `IndexResolution`. -/
theorem test_premises_IndexResolution :
    (∃ w : Word, ∃ regs source, ∃ i : Nat, i = (if w.extractLsb' 28 2 = 2 ∧ source = true then ((w.extractLsb' 16 8) - 1#8).toNat else (w.extractLsb' 16
      8).toNat) ∧ ((w.extractLsb' 8 8).toNat ≤ i ∨ regs ≤ (w.extractLsb' 0 8).toNat + i)) ∧
    (∃ w : Word, ∃ regs source, ∃ i : Nat, i = (if w.extractLsb' 28 2 = 2 ∧ source = true then ((w.extractLsb' 16 8) - 1#8).toNat else (w.extractLsb'
      16 8).toNat) ∧ i < (w.extractLsb' 8 8).toNat ∧ (w.extractLsb' 0 8).toNat + i < regs) ∧
    (∃ c : Ctx, ∃ f : RegField, ∃ source k, f.toNat = 120 + k ∧ ∃ n u, stepIndex (c.th.x.getD k 0) c.th.regs source = .ok (n, u)) ∧
    (∃ c : Ctx, ∃ f : RegField, ∃ source k, f.toNat = 120 + k ∧ ∃ i : Nat, stepIndex (c.th.x.getD k 0) c.th.regs source = .error i ∧ c.flag = none) :=
  ⟨⟨0x20000100, 1, true, _, rfl, (.inr (by decide))⟩,
    ⟨0x000000FF00, 256, true, _, rfl, (by decide), (by decide)⟩,
    ⟨(begin (put (fun t => { t with x := List.replicate 8 0xFF00 }) (base [])) (th (put (fun t => { t with x := List.replicate 8 0xFF00 }) (base []))) 0 .nothing), 127, true, 7, (by decide), _, _, rfl⟩,
    ⟨(begin (base []) (th (base [])) 0 .nothing), 120, true, 0, (by decide), _, rfl, (by decide)⟩⟩

/-- States and operands that meet the premises of `ConditionBitMoves`. -/
theorem test_premises_ConditionBitMoves :
    (∃ s : State, ∃ v w d l c1, ∃ z : Word, Issues s (Enc.movcRead w d) false v ∧ dst d (begin s v (Enc.movcRead w d) .nothing) = (l, c1) ∧ Clean c1 ∧
      z.extractLsb' 0 7 = v.c ∧ z.getLsbD 7 = true ∧ z.extractLsb' 8 24 = 0) ∧
    (∃ s : State, ∃ v w a x c1, Issues s (Enc.movcWrite w a) false v ∧ src a (begin s v (Enc.movcWrite w a) .nothing) = (x, c1) ∧ Clean c1) :=
  ⟨⟨(base []), (th (base [])), 0, 4, _, _, (0x80#32), iss (by decide), pairOf _, cl (by decide), (by decide), (by decide), (by decide)⟩,
    ⟨(base []), (th (base [])), 0, 4, _, _, iss (by decide), pairOf _, cl (by decide)⟩⟩

/-- States and operands that meet the premises of `MemoryBytes`. -/
theorem test_premises_MemoryBytes :
    (∃ m : Memory, Memory.wf m = true) ∧
    (∃ m : Memory, ∃ a : Nat, ∃ n : Nat, Memory.wf m = true ∧ ∃ k, (k < a ∨ a + n ≤ k)) ∧
    (∃ n : Nat, ∃ i, i < n) ∧
    (∃ m k : Memory, Memory.wf m = true ∧ Memory.wf k = true ∧ (∀ a, Memory.get m a = Memory.get k a)) ∧
    (∃ t : Thread, ∃ n : Nat, n + 1 < t.v.length ∧ ∃ k, k ≠ n ∧ k ≠ n + 1) :=
  ⟨⟨[(1, 2)], (by decide)⟩,
    ⟨[(1, 2)], 1, 8, (by decide), 9, (.inr (by decide))⟩,
    ⟨8, 7, (by decide)⟩,
    ⟨[(1, 2)], [(1, 2)], (by decide), (by decide), (fun _ => rfl)⟩,
    ⟨(th (base [])), 126, (by decide), 125, (by decide), (by decide)⟩⟩

/-- States and operands that meet the premises of `StepKeepsCanonical`. -/
theorem test_premises_StepKeepsCanonical :
    ∃ s : State, ∃ t, Canonical s ∧ step s = .next t :=
  ⟨State.reset, _, can (by decide), rfl⟩

/-- States and operands that meet the premises of `StepAnswers`. -/
theorem test_premises_StepAnswers :
    (∃ i : Instr, encode? i = none) ∧
    (∃ i : Instr, ∃ s : State, ∃ w v, encode? i = some w ∧ s.thread? s.cur = some v) ∧
    (∃ i : Instr, ∃ s : State, ∃ w, encode? i = some w ∧ s.thread? s.cur = none) :=
  ⟨⟨.powerRemoval, rfl⟩,
    ⟨(.add 0 4 5 6), (base []), _, _, rfl, rfl⟩,
    ⟨(.add 0 4 5 6), State.reset, _, rfl, (by decide)⟩⟩

/-- States and operands that meet the premises of `TrapEntry`. -/
theorem test_premises_TrapEntry :
    (∃ t : Thread, t.tstat.getLsbD 0 = false ∧ t.tstat.getLsbD 1 = true) ∧
    (∃ s : State, ∃ id : ThreadId, ∃ t : Thread, ∃ g, (t.tstat.getLsbD 0 = true ∨ t.tstat.getLsbD 1 = false) ∧ s.group? id.group = some g ∧ g.fault =
      none) ∧
    (∃ s : State, ∃ id : ThreadId, ∃ t : Thread, ∃ g, (t.tstat.getLsbD 0 = true ∨ t.tstat.getLsbD 1 = false) ∧ s.group? id.group = some g ∧ g.fault =
      none) ∧
    (∃ t : Thread, t.badStatus = false) :=
  ⟨⟨({ th (base []) with tstat := 6 }), (by decide), (by decide)⟩,
    ⟨(base []), ⟨0, 0, 0, 0⟩, ({ th (base []) with tstat := 7 }), _, (.inl (by decide)), rfl, (by decide)⟩,
    ⟨(base []), ⟨0, 0, 0, 0⟩, (th (base [])), _, (.inr (by decide)), rfl, (by decide)⟩,
    ⟨({ th (base []) with tsav := 0x2E }), (by decide)⟩⟩

/-- States and operands that meet the premises of `RegisterFrame`. -/
theorem test_premises_RegisterFrame :
    (∃ i acc d a b f, TwoSources i acc d a b f ∧ ∃ s : State, ∃ v word x y l c1 c2 c3, encode? i = some word ∧ Issues s word false v ∧ v.stepping = false
      ∧ src a (begin s v word acc) = (x, c1) ∧ srcB b c1 = (y, c2) ∧ dst d c2 = (l, c3) ∧ Clean c3) ∧
    (∃ i acc d a f, OneSource i acc d a f ∧ ∃ s : State, ∃ v word x l c1 c2, encode? i = some word ∧ Issues s word false v ∧ v.stepping = false ∧ src
      a (begin s v word acc) = (x, c1) ∧ dst d c1 = (l, c2) ∧ Clean c2) ∧
    (∃ i d a f, Immediate i d a f ∧ ∃ s : State, ∃ v word x l c1 c2, encode? i = some word ∧ Issues s word false v ∧ v.stepping = false ∧ src
      a (begin s v word .immOnly) = (x, c1) ∧ dst d c1 = (l, c2) ∧ Clean c2) ∧
    (∃ i acc d a b f, WithOld i acc d a b f ∧ ∃ s : State, ∃ v word x y l e c1 c2 c3 c4, encode? i = some word ∧ Issues s word false v ∧ v.stepping =
      false ∧ src a (begin s v word acc) = (x, c1) ∧ srcB b c1 = (y, c2) ∧ (HintSet.of v.hints).add = none ∧ dst d c2 = (l, c3) ∧ rdDst l c3 = (e,
      c4) ∧ Clean c4) ∧
    (∃ i acc d a b f, TwoPairs i acc d a b f ∧ ∃ s : State, ∃ v word x y l c1 c2 c3, encode? i = some word ∧ Issues s word false v ∧ v.stepping =
      false ∧ srcP a (begin s v word acc) = (x, c1) ∧ srcP b c1 = (y, c2) ∧ dstP d c2 = (l, c3) ∧ Clean c3) ∧
    (∃ i d a b f, PairAndWord i d a b f ∧ ∃ s : State, ∃ v word x y l c1 c2 c3, encode? i = some word ∧ Issues s word false v ∧ v.stepping = false ∧
      srcP a (begin s v word .nothing) = (x, c1) ∧ src b c1 = (y, c2) ∧ dstP d c2 = (l, c3) ∧ Clean c3) ∧
    (∃ i c a b f, Compares i c a b f ∧ ∃ s : State, ∃ v word x y c1 c2, encode? i = some word ∧ Issues s word false v ∧ v.stepping = false ∧ src
      a (begin s v word .nothing) = (x, c1) ∧ src b c1 = (y, c2) ∧ Clean c2) :=
  ⟨⟨(.add 0 4 5 6), _, 4, 5, 6, _, (by constructor), (base []), (th (base [])), _, _, _, _, _, _, _, rfl, iss (by decide), rfl, pairOf _, pairOf _,
      pairOf _, cl (by decide)⟩,
    ⟨(.clz 0 4 5), _, 4, 5, _, (by constructor), (base []), (th (base [])), _, _, _, _, _, rfl, iss (by decide), rfl, pairOf _, pairOf _,
      cl (by decide)⟩,
    ⟨(.addi 0 4 5 1), 4, 5, _, (by constructor), (base []), (th (base [])), _, _, _, _, _, rfl, iss (by decide), rfl, pairOf _, pairOf _,
      cl (by decide)⟩,
    ⟨(.mad 0 4 5 6), _, 4, 5, 6, _, (by constructor), (base []), (th (base [])), _, _, _, _, _, _, _, _, _, rfl, iss (by decide), rfl, pairOf _,
      pairOf _, (by decide), pairOf _, pairOf _, cl (by decide)⟩,
    ⟨(.addD 0 4 6 8), _, 4, 6, 8, _, (by constructor), (base []), (th (base [])), _, _, _, _, _, _, _, rfl, iss (by decide), rfl, pairOf _, pairOf _,
      pairOf _, cl (by decide)⟩,
    ⟨(.shlD 0 4 6 8), 4, 6, 8, _, (by constructor), (base []), (th (base [])), _, _, _, _, _, _, _, rfl, iss (by decide), rfl, pairOf _, pairOf _,
      pairOf _, cl (by decide)⟩,
    ⟨(.cmp 0 10 3 4 5), 3, 4, 5, _, (by constructor), (base []), (th (base [])), _, _, _, _, _, rfl, iss (by decide), rfl, pairOf _, pairOf _,
      cl (by decide)⟩⟩

/-- States and operands that meet the premises of `AccessEffects`. -/
theorem test_premises_AccessEffects :
    (∃ s : State, ∃ id : ThreadId, ∃ e : LogEntry, ∃ sp : Space, ∃ a : Dword, ∃ n, ∃ o : Order, ∃ va pa en, ∃ back : List Nat, ∃ r : List Reader ×
      List (Nat × Nat), sp ≠ .co ∧ sp ≠ .cl ∧ o ≠ .acq ∧ s.parts id e.kernel sp a n .load = [(.mem va pa en, n)] ∧ s.partHeld (.mem va pa en, n) =
      false ∧ s.poisoned pa n = none ∧ r = s.loadOf none [s.readerOf id [(pa, n)]] back) ∧
    (∃ s : State, ∃ id : ThreadId, ∃ e : LogEntry, ∃ sp : Space, ∃ a : Dword, ∃ n va pa en, (sp = .co ∨ sp = .cl) ∧ s.parts id e.kernel sp a n .load
      = [(.mem va pa en, n)] ∧ s.partHeld (.mem va pa en, n) = false ∧ s.poisoned pa n = none) ∧
    (∃ s : State, ∃ acq, ∃ rs : List Reader, ∃ back : List Nat, ∃ pa, ∃ k : Nat, ∃ j, (pa, k) ∈ (s.loadOf acq rs back).2 ∧ (pa, j) ∈ (s.loadOf acq rs
      back).2) ∧
    (∃ s : State, ∃ rs : List Reader, ∃ back : List Nat, ∃ q pa, ∃ k : Nat, q ∈ rs ∧ pa ∈ bytesOf q.ps ∧ (pa, k) ∈ (s.loadOf none rs back).2) ∧
    (∃ s : State, ∃ b : BufStore, ∃ sp : Space, ∃ a : Dword, ∃ n, ∃ o : Order, ∃ c : Scope, ∃ x va pa en, Canonical s ∧ b.access = .store sp a n o c
      x ∧ (o = .plain ∨ o = .nt) ∧ b.posted = false ∧ b.parts = [(.mem va pa en, n)] ∧ s.blocked b.thread b.stamp b.kernel b.access = false ∧
      s.storeHeld b.thread b.stamp b.issue b.parts = false ∧ b.done = [] ∧ ∃ r, r = s.performStore b [] ∧ ∃ i : ThreadId, i ≠ b.thread) ∧
    (∃ s : State, ∃ b : BufStore, ∃ sp : Space, ∃ a : Dword, ∃ n, ∃ o : Order, ∃ c : Scope, ∃ x va pa en, Canonical s ∧ b.access = .store sp a n o c
      x ∧ (o = .plain ∨ o = .nt) ∧ b.posted = false ∧ b.parts = [(.mem va pa en, n)] ∧ s.blocked b.thread b.stamp b.kernel b.access = false ∧
      s.storeHeld b.thread b.stamp b.issue b.parts = false ∧ b.done = [] ∧ ∃ r, r = s.performStore b [] ∧ ∃ t, s.thread? b.thread = some t) ∧
    (∃ s : State, ∃ b : BufStore, ∃ sp : Space, ∃ a : Dword, ∃ n, ∃ o : Order, ∃ c : Scope, ∃ x va pa en, Canonical s ∧ b.access = .store sp a n o c
      x ∧ (o = .plain ∨ o = .nt) ∧ b.posted = false ∧ b.parts = [(.mem va pa en, n)] ∧ s.blocked b.thread b.stamp b.kernel b.access = false ∧
      s.storeHeld b.thread b.stamp b.issue b.parts = false ∧ ∃ p, (p < pa ∨ pa + n ≤ p)) ∧
    (∃ s : State, ∃ b : BufStore, ∃ sp : Space, ∃ a : Dword, ∃ n, ∃ o : Order, ∃ c : Scope, ∃ x va pa en, Canonical s ∧ b.access = .store sp a n o c
      x ∧ (o = .plain ∨ o = .nt) ∧ b.posted = false ∧ b.parts = [(.mem va pa en, n)] ∧ s.blocked b.thread b.stamp b.kernel b.access = false ∧
      s.storeHeld b.thread b.stamp b.issue b.parts = false ∧ ∃ k : Nat, k < n) ∧
    (∃ s : State, ∃ id : ThreadId, ∃ e : LogEntry, ∃ a : Dword, ∃ wide : Bool, ∃ c : Scope, ∃ va pa en w, Canonical s ∧ w = (if wide then 8 else 4) ∧
      s.parts id e.kernel .gl a w .atomic = [(.mem va pa en, w)] ∧ s.partHeld (.mem va pa en, w) = false ∧ s.issueBlocked id e.stamp e.issue [(.mem
      va pa en, w)] = false ∧ s.releaseReady e.stamp c none = true ∧ s.poisoned pa w = none) :=
  ⟨⟨(State.reset.flatTables.harness 0x100000), ⟨0, 0, 0, 0⟩, (le (.load .gl 0x200000 4 .plain .dev 4) .pending), .gl, 0x200000, 4, .plain, _, _, _,
      [3], _, (by decide), (by decide), (by decide), rfl, (by decide), (by decide), rfl⟩,
    ⟨(State.reset.flatTables.harness 0x100000), ⟨0, 0, 0, 0⟩, (le (.load .co 0 4 .acq .dev 4) .pending), .co, 0, 4, _, _, _, (.inl rfl), rfl,
      (by decide), (by decide)⟩,
    ⟨(State.reset.flatTables.harness 0x100000), none, [((State.reset.flatTables.harness 0x100000).readerOf ⟨0, 0, 0, 0⟩ [(0x200000, 1)])], [0],
      0x200000, 3, 3, (by decide), (by decide)⟩,
    ⟨(State.reset.flatTables.harness 0x100000), [((State.reset.flatTables.harness 0x100000).readerOf ⟨0, 0, 0, 0⟩ [(0x200000, 1)])], [0],
      ((State.reset.flatTables.harness 0x100000).readerOf ⟨0, 0, 0, 0⟩ [(0x200000, 1)]), 0x200000, 3, (List.mem_singleton.mpr rfl), (by decide),
      (by decide)⟩,
    ⟨(State.reset.flatTables.harness 0x100000), ({ bs .nt with parts := [(.mem 0x200000 0x200000 0x3F, 4)] }), _, _, _, _, _, _, _, _, _,
      can (by decide), rfl, (.inr rfl), (by decide), rfl, (by decide), (by decide), rfl, _, rfl, ⟨0, 0, 0, 1⟩, (by decide)⟩,
    ⟨(State.reset.flatTables.harness 0x100000), ({ bs .nt with parts := [(.mem 0x200000 0x200000 0x3F, 4)] }), _, _, _, _, _, _, _, _, _,
      can (by decide), rfl, (.inr rfl), (by decide), rfl, (by decide), (by decide), rfl, _, rfl, _, rfl⟩,
    ⟨(State.reset.flatTables.harness 0x100000), ({ bs .nt with parts := [(.mem 0x200000 0x200000 0x3F, 4)] }), _, _, _, _, _, _, _, _, _,
      can (by decide), rfl, (.inr rfl), (by decide), rfl, (by decide), (by decide), 0x200004, (.inr (by decide))⟩,
    ⟨(State.reset.flatTables.harness 0x100000), ({ bs .nt with parts := [(.mem 0x200000 0x200000 0x3F, 4)] }), _, _, _, _, _, _, _, _, _,
      can (by decide), rfl, (.inr rfl), (by decide), rfl, (by decide), (by decide), 3, (by decide)⟩,
    ⟨(State.reset.flatTables.harness 0x100000), ⟨0, 0, 0, 0⟩, (le (.load .gl 0x200000 4 .plain .dev 4) .pending), 0x200000, true, .dev, _, _, _, _,
      can (by decide), rfl, rfl, (by decide), (by decide), (by decide), (by decide)⟩⟩

/-- States and operands that meet the premises of `PackageMap`. -/
theorem test_premises_PackageMap :
    (∃ pa : Nat, pa < 2 ^ 40) ∧
    (∃ base : Nat, ∃ c, base % 2 ^ 19 = 0 ∧ base < 2 ^ 40 ∧ c < 2048) ∧
    (∃ pa : Nat, ∃ p, 0x10000000000 ≤ pa ∧ p = lpPlace pa) ∧
    (∃ y : Nat, ∃ x : Nat, y < 16 ∧ x < 16) ∧
    (∃ b : Nat, b < 8) :=
  ⟨⟨0xFFFFFFFFFF, (by decide)⟩,
    ⟨0xFFFFF80000, 2047, (by decide), (by decide), (by decide)⟩,
    ⟨0x10000000000, _, (by decide), rfl⟩,
    ⟨15, 15, (by decide), (by decide)⟩,
    ⟨7, (by decide)⟩⟩

end Sys2Proof.Tests
end

section
/-! PROOFS. Bytes of memory, and pairs of registers (O4, O10, O41). -/
namespace Sys2Proof.Machine

/-! ### One byte -/

/-- A byte below the lowest one listed reads as zero. -/
theorem Memory.get_eq_zero_of_lt : ∀ {m : Memory} {lo a : Nat}, Memory.risesFrom lo m = true → a < lo → Memory.get m a = 0#8
  | [], _, _, _, _ => rfl
  | (k, v) :: r, lo, a, w, ha => by
    obtain ⟨hk, -, wr⟩ := Memory.risesFrom_cons.mp w
    rw [Memory.get, if_neg (by omega)]
    exact Memory.get_eq_zero_of_lt wr (by omega)

theorem Memory.get_put : ∀ {m : Memory} {lo : Nat} (_ : Memory.risesFrom lo m = true) (a : Nat) (b : Byte) (k : Nat),
    Memory.get (Memory.put m a b) k = if k = a then b else Memory.get m k
  | [], _, _, a, b, k => by
    unfold Memory.put
    split
    next hb => subst hb; simp [Memory.get]
    next => rfl
  | (c, v) :: r, lo, w, a, b, k => by
    obtain ⟨-, -, wr⟩ := Memory.risesFrom_cons.mp w
    have below : ∀ j, j ≤ c → Memory.get r j = 0#8 := fun j hj => Memory.get_eq_zero_of_lt wr (by omega)
    unfold Memory.put
    split
    next hac =>
      split
      next hb =>
        subst hb
        by_cases hk : k = a
        · rw [if_pos hk, hk, Memory.get, if_neg (by omega), below a (by omega)]
          rfl
        · rw [if_neg hk]
      next => rfl
    next hac =>
      split
      next e =>
        subst e
        split
        next hb =>
          subst hb
          by_cases hk : k = a
          · rw [if_pos hk, hk, below a (Nat.le_refl a)]
            rfl
          · rw [if_neg hk, Memory.get, if_neg hk]
        next => by_cases hk : k = a <;> simp [Memory.get, hk]
      next e =>
        rw [Memory.get, Memory.get, Memory.get_put wr a b k]
        by_cases hk : k = c
        · rw [if_pos hk, if_pos hk, if_neg (by omega)]
        · rw [if_neg hk, if_neg hk]

/-- Two stores in canonical form that read the same list the same. -/
theorem Memory.eq_of_get_eq : ∀ {m k : Memory} {lo hi : Nat}, Memory.risesFrom lo m = true → Memory.risesFrom hi k = true →
    (∀ a, Memory.get m a = Memory.get k a) → m = k
  | [], [], _, _, _, _, _ => rfl
  | [], (c, v) :: r, _, _, _, wk, h => by
    have hc := h c
    rw [Memory.get, Memory.get, if_pos rfl] at hc
    exact absurd hc.symm (Memory.risesFrom_cons.mp wk).2.1
  | (c, v) :: r, [], _, _, wm, _, h => by
    have hc := h c
    rw [Memory.get, Memory.get, if_pos rfl] at hc
    exact absurd hc (Memory.risesFrom_cons.mp wm).2.1
  | (c, v) :: r, (d, u) :: q, _, _, wm, wk, h => by
    obtain ⟨-, hv, wr⟩ := Memory.risesFrom_cons.mp wm
    obtain ⟨-, hu, wq⟩ := Memory.risesFrom_cons.mp wk
    have hc := h c
    have hd := h d
    rw [Memory.get, Memory.get, if_pos rfl] at hc hd
    obtain hlt | heq | hgt := Nat.lt_trichotomy c d
    · rw [if_neg (by omega), Memory.get_eq_zero_of_lt wq (by omega)] at hc
      exact absurd hc hv
    · subst heq
      rw [if_pos rfl] at hc
      subst hc
      have hr : r = q := Memory.eq_of_get_eq wr wq fun a => by
        by_cases ha : a = c
        · rw [ha, Memory.get_eq_zero_of_lt wr (Nat.lt_succ_self c), Memory.get_eq_zero_of_lt wq (Nat.lt_succ_self c)]
        · have h' := h a
          rwa [Memory.get, Memory.get, if_neg ha, if_neg ha] at h'
      rw [hr]
    · rw [if_neg (by omega), Memory.get_eq_zero_of_lt wr (by omega)] at hd
      exact absurd hd.symm hu

theorem Memory.get_clear (m : Memory) (a n k : Nat) :
    Memory.get (Memory.clear m a n) k = if a ≤ k ∧ k < a + n then 0#8 else Memory.get m k := by
  unfold Memory.clear
  induction m with
  | nil => split <;> rfl
  | cons c r ih =>
    obtain ⟨j, v⟩ := c
    rw [List.filter_cons]
    by_cases hj : a ≤ j ∧ j < a + n
    · rw [if_neg (by simp [hj]), ih, Memory.get]
      by_cases hk : k = j
      · rw [hk, if_pos hj, if_pos hj]
      · rw [if_neg hk]
    · rw [if_pos (by rwa [← Bool.decide_and, Bool.not_eq_true', decide_eq_false_iff_not]), Memory.get, Memory.get, ih]
      by_cases hk : k = j
      · rw [hk, if_pos rfl, if_pos rfl, if_neg hj]
      · rw [if_neg hk, if_neg hk]

/-! ### Several bytes -/

theorem Memory.get_write_other {bs : List Byte} : ∀ {m : Memory} {a k : Nat}, Memory.wf m = true → k < a ∨ a + bs.length ≤ k →
    Memory.get (Memory.write m a bs) k = Memory.get m k := by
  induction bs with
  | nil => intro _ _ _ _ _; rfl
  | cons b r ih =>
    intro m a k w h
    rw [List.length_cons] at h
    rw [Memory.write, ih (Memory.wf_put w a b) (by omega), Memory.get_put w, if_neg (by omega)]

theorem Memory.read_write {bs : List Byte} : ∀ {m : Memory} {a : Nat}, Memory.wf m = true →
    Memory.read (Memory.write m a bs) a bs.length = bs := by
  induction bs with
  | nil => intro _ _ _; rfl
  | cons b r ih =>
    intro m a w
    have wp := Memory.wf_put w a b
    rw [Memory.write, List.length_cons, Memory.read, ih wp, Memory.get_write_other wp (.inl (Nat.lt_succ_self a)),
      Memory.get_put w, if_pos rfl]

@[simp] theorem length_natBytes : ∀ n v : Nat, (natBytes n v).length = n
  | 0, _ => rfl
  | n + 1, v => congrArg Nat.succ (length_natBytes n (v / 256))

theorem leNat_natBytes : ∀ n v : Nat, leNat (natBytes n v) = v % 256 ^ n
  | 0, v => (Nat.mod_one v).symm
  | n + 1, v => by
    rw [natBytes, leNat, leNat_natBytes, BitVec.toNat_ofNat, show 2 ^ 8 = 256 from rfl, Nat.pow_succ' (m := 256) (n := n), Nat.mod_mul]

theorem Memory.readLE_writeLE {m : Memory} (w : Memory.wf m = true) (a n v : Nat) :
    Memory.readLE (Memory.writeLE m a n v) a n = v % 256 ^ n := by
  have h := Memory.read_write (bs := natBytes n v) (a := a) w
  rw [length_natBytes] at h
  rw [Memory.readLE, Memory.writeLE, h, leNat_natBytes]

/-- A byte of a number that is read. -/
theorem Memory.toNat_get_eq_readLE : ∀ {n i : Nat} (m : Memory) (a : Nat), i < n →
    (Memory.get m (a + i)).toNat = Memory.readLE m a n / 256 ^ i % 256
  | n + 1, 0, m, a, _ => by
    have hb := (Memory.get m a).isLt
    rw [Memory.readLE, Memory.read, leNat, Nat.add_zero]
    omega
  | n + 1, i + 1, m, a, h => by
    have hb := (Memory.get m a).isLt
    have ih := Memory.toNat_get_eq_readLE (n := n) (i := i) m (a + 1) (by omega)
    rw [Memory.readLE, Memory.read, leNat, Nat.pow_succ', ← Nat.div_div_eq_div_mul, Nat.add_mul_div_left _ _ (by decide),
      Nat.div_eq_of_lt hb, Nat.zero_add, Nat.add_comm i 1, ← Nat.add_assoc]
    exact ih

/-! ### A pair of registers -/

theorem Thread.reg_setReg_self {t : Thread} {n : Nat} {x : Word} (h : n < t.v.length) : (t.setReg n x).reg n = x := by
  rw [Thread.reg, Thread.setReg_v, List.getD_eq_getElem?_getD, List.getElem?_set_self h, Option.getD_some]

theorem Thread.reg_setReg_other {t : Thread} {n k : Nat} {x : Word} (h : k ≠ n) : (t.setReg n x).reg k = t.reg k := by
  rw [Thread.reg, Thread.reg, Thread.setReg_v, List.getD_eq_getElem?_getD, List.getD_eq_getElem?_getD, List.getElem?_set_ne h.symm]

theorem Thread.reg_setPair_low {t : Thread} {n : Nat} {x : Dword} (h : n < t.v.length) :
    (t.setPair n x).reg n = x.extractLsb' 0 32 := by
  rw [Thread.setPair, Thread.reg_setReg_other (by omega), Thread.reg_setReg_self h]

theorem Thread.reg_setPair_high {t : Thread} {n : Nat} {x : Dword} (h : n + 1 < t.v.length) :
    (t.setPair n x).reg (n + 1) = x.extractLsb' 32 32 := by
  rw [Thread.setPair, Thread.reg_setReg_self (by rwa [Thread.setReg_v, List.length_set])]

theorem Thread.reg_setPair_other {t : Thread} {n k : Nat} {x : Dword} (h : k ≠ n) (h' : k ≠ n + 1) :
    (t.setPair n x).reg k = t.reg k := by
  rw [Thread.setPair, Thread.reg_setReg_other h', Thread.reg_setReg_other h]

theorem Thread.pair_setPair {t : Thread} {n : Nat} {x : Dword} (h : n + 1 < t.v.length) : (t.setPair n x).pair n = x := by
  rw [Thread.pair, Thread.reg_setPair_low (by omega), Thread.reg_setPair_high h,
    BitVec.extractLsb'_append_extractLsb'_eq_extractLsb' (by decide : 32 = 0 + 32)]
  exact BitVec.extractLsb'_eq_self

end Sys2Proof.Machine
end

section
/-! PROOFS. The canonical form of the byte stores, operation by operation (O5). -/
namespace Sys2Proof.Claims
open Sys2Proof.Machine

/-! Each operation of the device keeps the canonical form of its byte stores: one lemma `Canonical.<operation>` for each, cited by the
lemmas of the operations built on it, so that a proof follows the operation's own calls. An operation that touches no byte store is
`h` itself, because the form does not mention the rest of the device. -/

/-! ### The six byte stores -/

theorem Canonical.mem {s : State} (h : Canonical s) : Memory.wf s.mem = true := h.1
theorem Canonical.mgmt {s : State} (h : Canonical s) : Memory.wf s.mgmt = true := h.2.1
theorem Canonical.tables {s : State} (h : Canonical s) : Memory.wf s.tables = true := h.2.2.1
theorem Canonical.cist {s : State} (h : Canonical s) : Memory.wf s.cist = true := h.2.2.2.1
theorem Canonical.rmbuf {s : State} (h : Canonical s) : Memory.wf s.mailbox.rmbuf = true := h.2.2.2.2.1
theorem Canonical.slots {s : State} (h : Canonical s) : ∀ m ∈ s.flash.slots, Memory.wf m = true := h.2.2.2.2.2

/-- Whatever becomes of the other parts of the device. -/
theorem Canonical.update {s : State} (h : Canonical s) {agenda cur stamp issue out hist poison boot own errs ports jinval qres queues
    cursors promoted withdrawn launches clusters nextId teams groups threads cores saved triggers cut service faultSeq buffer net tlb
    walks scopeRec recent handles homes moves asks windows dbg dbgdata hostLines counted} :
    Canonical { s with
      agenda := agenda, cur := cur, stamp := stamp, issue := issue, out := out, hist := hist, poison := poison, boot := boot, own := own
      errs := errs, ports := ports, jinval := jinval, qres := qres, queues := queues, cursors := cursors, promoted := promoted
      withdrawn := withdrawn, launches := launches, clusters := clusters, nextId := nextId, teams := teams, groups := groups
      threads := threads, cores := cores, saved := saved, triggers := triggers, cut := cut, service := service, faultSeq := faultSeq
      buffer := buffer, net := net, tlb := tlb, walks := walks, scopeRec := scopeRec, recent := recent, handles := handles
      homes := homes, moves := moves, asks := asks, windows := windows, dbg := dbg, dbgdata := dbgdata, hostLines := hostLines
      counted := counted } := h

theorem Canonical.setMem {s : State} {m : Memory} (h : Canonical s) (w : Memory.wf m = true) : Canonical { s with mem := m } :=
  ⟨w, h.mgmt, h.tables, h.cist, h.rmbuf, h.slots⟩

theorem Canonical.setMgmt {s : State} {m : Memory} (h : Canonical s) (w : Memory.wf m = true) : Canonical { s with mgmt := m } :=
  ⟨h.mem, w, h.tables, h.cist, h.rmbuf, h.slots⟩

theorem Canonical.setTables {s : State} {m : Memory} (h : Canonical s) (w : Memory.wf m = true) : Canonical { s with tables := m } :=
  ⟨h.mem, h.mgmt, w, h.cist, h.rmbuf, h.slots⟩

theorem Canonical.setCist {s : State} {m : Memory} (h : Canonical s) (w : Memory.wf m = true) : Canonical { s with cist := m } :=
  ⟨h.mem, h.mgmt, h.tables, w, h.rmbuf, h.slots⟩

theorem Canonical.setMailbox {s : State} {b : Mailbox} (h : Canonical s) (w : Memory.wf b.rmbuf = true) : Canonical { s with mailbox := b } :=
  ⟨h.mem, h.mgmt, h.tables, h.cist, w, h.slots⟩

theorem Canonical.setFlash {s : State} {f : Flash} (h : Canonical s) (w : ∀ m ∈ f.slots, Memory.wf m = true) : Canonical { s with flash := f } :=
  ⟨h.mem, h.mgmt, h.tables, h.cist, h.rmbuf, w⟩

/-- The flash keeps the form when one slot is replaced by a store that has it. -/
theorem Canonical.slots_set {s : State} {k : Nat} {x : Memory} (h : Canonical s) (w : Memory.wf x = true) :
    ∀ m ∈ s.flash.slots.set k x, Memory.wf m = true := fun m hm =>
  (List.mem_or_eq_of_mem_set hm).elim (h.slots m) (fun e => e ▸ w)

theorem Canonical.slots_getD {s : State} {k : Nat} (h : Canonical s) : Memory.wf (s.flash.slots.getD k []) = true := by
  rw [List.getD_eq_getElem?_getD]
  cases e : s.flash.slots[k]? with
  | none => rfl
  | some m => exact h.slots m (List.mem_of_getElem? e)

/-- Either outcome of a choice. -/
theorem Canonical.ite {c : Prop} [Decidable c] {a b : State} (ha : Canonical a) (hb : Canonical b) : Canonical (if c then a else b) := by
  split <;> assumption

/-- A choice of a device with something else. -/
theorem Canonical.ite_fst {c : Prop} [Decidable c] {α : Type} {a b : State × α} (ha : Canonical a.1) (hb : Canonical b.1) :
    Canonical (if c then a else b).1 := by
  split <;> assumption

/-- A device that may be there, or another one. -/
theorem Canonical.getD {o : Option State} {d : State} (ho : ∀ t, o = some t → Canonical t) (hd : Canonical d) : Canonical (o.getD d) := by
  cases o with
  | none => exact hd
  | some t => exact ho t rfl

/-- One step after another over a list. -/
theorem Canonical.foldl {α : Type} {f : State → α → State} {l : List α} {s : State} (hf : ∀ s a, Canonical s → Canonical (f s a))
    (h : Canonical s) : Canonical (l.foldl f s) := by
  induction l generalizing s with
  | nil => exact h
  | cons a l ih => exact ih (hf s a h)

/-- One step after another over a list, with something else carried along. -/
theorem Canonical.foldl_fst {α β : Type} {f : State × β → α → State × β} {l : List α} {r : State × β}
    (hf : ∀ r a, Canonical r.1 → Canonical (f r a).1) (h : Canonical r.1) : Canonical (l.foldl f r).1 := by
  induction l generalizing r with
  | nil => exact h
  | cons a l ih => exact ih (hf r a h)

section Device
variable {s : State}

/-! ### Reset -/

/-- The device at reset has the form. -/
theorem Canonical.reset : Canonical State.reset :=
  have ⟨mem, cist, tables, mgmt, slots, rmbuf⟩ := State.reset_wf
  ⟨mem, mgmt, tables, cist, rmbuf, List.all_eq_true.mp slots⟩

/-! ### Named operations over the device -/

theorem Canonical.setCore {c k} (h : Canonical s) : Canonical (s.setCore c k) := h

theorem Canonical.setQueue {q v} (h : Canonical s) : Canonical (s.setQueue q v) := h

theorem Canonical.setThread {t v} (h : Canonical s) : Canonical (s.setThread t v) := h

theorem Canonical.modThread {t f} (h : Canonical s) : Canonical (s.modThread t f) := by
  unfold State.modThread
  split
  · exact .setThread h
  · exact h

theorem Canonical.modTeam {t f} (h : Canonical s) : Canonical (s.modTeam t f) := by
  unfold State.modTeam
  split <;> exact h

theorem Canonical.modGroup {g f} (h : Canonical s) : Canonical (s.modGroup g f) := by
  unfold State.modGroup
  split <;> exact h

theorem Canonical.count {off} (h : Canonical s) : Canonical (s.count off) := h

theorem Canonical.send {m} (h : Canonical s) : Canonical (s.send m) := h

theorem Canonical.storeFrom {o pa bs} (h : Canonical s) : Canonical (s.storeFrom o pa bs) := .setMem h (Memory.wf_write h.mem _ _)

theorem Canonical.pasteAt {pa n cells} (h : Canonical s) : Canonical (s.pasteAt pa n cells) :=
  .setMem h (Memory.wf_paste (Memory.wf_clear h.mem _ _) _ _)

theorem Canonical.store {pa bs} (h : Canonical s) : Canonical (s.store pa bs) := .storeFrom h

theorem Canonical.write {pa n v} (h : Canonical s) : Canonical (s.write pa n v) := .store h

theorem Canonical.movePlaces {f} (h : Canonical s) : Canonical (s.movePlaces f) := h

theorem Canonical.doubleTrap {id t cause epc tval} (h : Canonical s) : Canonical (s.doubleTrap id t cause epc tval) := by
  unfold State.doubleTrap
  dsimp only
  split
  · exact .setThread h
  · exact .ite (.setThread h) (.count (.modGroup (.setThread h)))

theorem Canonical.trapAt {id t cause epc tval tlog} (h : Canonical s) : Canonical (s.trapAt id t cause epc tval tlog) :=
  .ite (.doubleTrap h) (.setThread h)

theorem Canonical.trap {id t cause tval} (h : Canonical s) : Canonical (s.trap id t cause tval) := .trapAt h

theorem Canonical.setSaved {id t} (h : Canonical s) : Canonical (s.setSaved id t) := h

theorem Canonical.setAny {id t} (h : Canonical s) : Canonical (s.setAny id t) := by
  unfold State.setAny
  split
  · exact .setThread h
  · exact .setSaved h

theorem Canonical.pend {id cause tval} (h : Canonical s) : Canonical (s.pend id cause tval) := by
  unfold State.pend
  split
  · exact .count h
  · split
    · exact .count h
    · split
      · exact .ite (.setAny h) (.count h)
      · exact .ite (.setAny h) (.count h)
      · exact .ite (.setAny h) (.count h)
      · exact .ite (.setAny h) (.count h)
      · exact h

theorem Canonical.deliver {id t u} (h : Canonical s) (e : s.deliver id t = some u) : Canonical u := by
  unfold State.deliver at e
  split at e
  · cases e
  · split at e
    · cases e; exact .trap h
    · split at e
      · split at e <;> cases e
        exact .trap h
      · cases e

theorem Canonical.closeBatches {g} (h : Canonical s) : Canonical (s.closeBatches g) := h

theorem Canonical.joinBatch {g kind c} (h : Canonical s) : Canonical (s.joinBatch g kind c) := .closeBatches h

theorem Canonical.streamBatch {id k va acc} (h : Canonical s) : Canonical (s.streamBatch id k va acc) := .ite h h

theorem Canonical.postFault {id t w va code} (h : Canonical s) : Canonical (s.postFault id t w va code) :=
  .joinBatch (.setThread h)

/-! ### Versions and views -/

theorem Canonical.sees {id v} (h : Canonical s) : Canonical (s.sees id v) := .modThread h

theorem Canonical.noteLoad {id acq r ks} (h : Canonical s) : Canonical (s.noteLoad id acq r ks) := .modThread h

theorem Canonical.passFence {id c} (h : Canonical s) : Canonical (s.passFence id c) := .modThread h

/-! ### The end of an issue -/

theorem Canonical.countCode {code} (h : Canonical s) : Canonical (s.countCode code) := .ite h (.count h)

theorem Canonical.afterIssue {id stepping} (h : Canonical s) : Canonical (s.afterIssue id stepping) := by
  unfold State.afterIssue
  split
  · exact h
  · split
    · exact h
    · exact .ite h (.ite (.trap h) (.setThread h))

/-! ### What changes of a device and of an issue keep -/

/-- A change of the device keeps the form. -/
def Keeps (f : State → State) : Prop := ∀ s, Canonical s → Canonical (f s)

/-- The device that an issue works on has the form, and what the issue sets down to happen to it keeps the form. -/
def CtxCanonical (c : Ctx) : Prop := Canonical c.s ∧ Keeps c.always ∧ ∀ f, c.onFault = some f → Keeps f

/-- A part of an instruction's description keeps the form. -/
def IssueKeeps {α : Type} (m : Issue α) : Prop := ∀ c : Ctx, CtxCanonical c → CtxCanonical (m c).2

theorem CtxCanonical.dev {c : Ctx} (h : CtxCanonical c) : Canonical c.s := h.1
theorem CtxCanonical.always {c : Ctx} (h : CtxCanonical c) : Keeps c.always := h.2.1
theorem CtxCanonical.onFault {c : Ctx} (h : CtxCanonical c) : ∀ f, c.onFault = some f → Keeps f := h.2.2

theorem CtxCanonical.start {s : State} {id th word acc} (h : Canonical s) : CtxCanonical (Ctx.start s id th word acc) :=
  ⟨h, fun _ h => h, fun _ e => nomatch e⟩

/-! #### Operands -/

theorem CtxCanonical.raise {c : Ctx} {x v} (h : CtxCanonical c) : CtxCanonical (c.raise x v) := by
  unfold Ctx.raise
  split
  · split <;> exact h
  · exact h

theorem CtxCanonical.lose {c : Ctx} {x v} (h : CtxCanonical c) : CtxCanonical (c.lose x v) := h.raise (x := x) (v := v)

theorem CtxCanonical.loseWord {c : Ctx} (h : CtxCanonical c) : CtxCanonical c.loseWord := h.lose

theorem CtxCanonical.popStream {c : Ctx} {k ok} (h : CtxCanonical c) : CtxCanonical (c.popStream k ok).2 := by
  unfold Ctx.popStream
  split
  · exact h.loseWord
  · split
    · exact h.loseWord
    · split
      · exact h
      · dsimp only
        split
        · exact h.lose
        · exact h
      · exact h

theorem CtxCanonical.checkAppend {c : Ctx} {k ok} (h : CtxCanonical c) : CtxCanonical (c.checkAppend k ok) := by
  unfold Ctx.checkAppend
  split
  · exact h.raise
  · split
    · exact h.raise
    · dsimp only
      split
      · split
        · exact h.raise
        · exact h
      · refine ⟨h.raise.dev, ?_, h.raise.onFault⟩
        split
        · exact h.always
        · exact fun _ hs => .countCode (h.always _ hs)
      · exact h

theorem CtxCanonical.append {c : Ctx} {k v} (h : CtxCanonical c) : CtxCanonical (c.append k v) := by
  unfold Ctx.append
  split <;> exact h

theorem CtxCanonical.resolve {c : Ctx} {f b} (h : CtxCanonical c) : CtxCanonical (c.resolve f b).2 := by
  unfold Ctx.resolve
  dsimp only
  split
  · split
    · exact h
    · exact h.loseWord
  · split
    · exact h
    · split
      · exact h.loseWord
      · split
        · exact h
        · exact h.lose

theorem CtxCanonical.rd {c : Ctx} {l} (h : CtxCanonical c) : CtxCanonical (c.rd l).2 := by
  cases l with
  | none => exact h
  | reg n => exact h
  | str k => exact h.popStream

theorem CtxCanonical.rdp {c : Ctx} {l} (h : CtxCanonical c) : CtxCanonical (c.rdp l).2 := by
  cases l with
  | none => exact h
  | reg n =>
    unfold Ctx.rdp
    dsimp only
    split
    · exact h
    · exact h.loseWord
  | str k => exact h.popStream

/-! #### The end of an issue -/

theorem CtxCanonical.faulting {c : Ctx} {s : State} (h : CtxCanonical c) (hs : Canonical s) : Canonical (c.faulting s) := by
  unfold Ctx.faulting
  split
  next f e => exact h.onFault f e _ hs
  next => exact hs

theorem CtxCanonical.retired {c : Ctx} {stepping} (h : CtxCanonical c) : Canonical (c.retired stepping) := .afterIssue (.setThread h.dev)

theorem CtxCanonical.finish {c : Ctx} {stepping} (h : CtxCanonical c) : Canonical (c.finish stepping) := by
  unfold Ctx.finish
  split
  · exact .setThread h.dev
  · split
    · exact .trap (.setThread h.dev)
    · exact h.retired

/-- An issue keeps the form where its description does, and what follows it. -/
theorem Canonical.runBody {id th word acc body post} (h : Canonical s) (hb : IssueKeeps body) (hp : Keeps post) :
    Canonical (s.runBody id th word acc body post) := by
  have hc := hb (Ctx.start s id th word acc) (.start h)
  unfold State.runBody
  dsimp only
  split
  · refine .setThread ?_
    split
    · exact .streamBatch h
    · exact h
  · split
    · exact .ite (.setThread (hc.always _ h)) (.getD (fun _ e => .deliver (hc.always _ h) e) (.trap (hc.faulting (hc.always _ h))))
    · split
      · exact .setThread (hc.always _ h)
      · split
        · exact .setThread h
        · split
          next e => exact .deliver h e
          next => exact hp _ hc.finish

theorem Canonical.reach {id th word sw acc body post} (h : Canonical s) (hb : IssueKeeps body) (hp : Keeps post) :
    Canonical (s.reach id th word sw acc body post) := by
  unfold State.reach
  split
  · exact .runBody h hb hp
  · exact .ite h (.ite (.setThread h) (.getD (fun _ e => .deliver h e) h))

theorem Canonical.release {id t} (h : Canonical s) : Canonical (s.release id t) := .afterIssue (.setThread h)

theorem Canonical.complete {id} (h : Canonical s) : Canonical (s.complete id) := by
  unfold State.complete
  split
  · exact h
  · exact .ite (.release h) (.ite h (.setThread h))

/-! ### Exchange of groups -/

theorem Canonical.entered {g} (h : Canonical s) : Canonical (s.entered g) := .modGroup h

theorem Canonical.exchangeFor {leaving e} (h : Canonical s) : Canonical (s.exchangeFor leaving e) :=
  .ite (.modGroup (.modGroup (.entered (.setCore h)))) h

theorem Canonical.exchange {leaving} (h : Canonical s) : Canonical (s.exchange leaving) := by
  unfold State.exchange
  split
  · exact h
  · exact .exchangeFor h

theorem Canonical.catchHalt {id} (h : Canonical s) : Canonical (s.catchHalt id) := .ite (.update (.modGroup h)) h

/-! ### The service gatherer -/

theorem Canonical.engineBatch {g die asid va acc e} (h : Canonical s) : Canonical (s.engineBatch g die asid va acc e) :=
  .ite h h

theorem Canonical.leaveBatch {e} (h : Canonical s) : Canonical (s.leaveBatch e) := h

theorem Canonical.latchThread {id} (h : Canonical s) : Canonical (s.latchThread id) := by
  unfold State.latchThread
  split
  · exact h
  · split
    · exact h
    · split
      · exact .complete h
      · exact .setThread h

theorem Canonical.latchCore {core} (h : Canonical s) : Canonical (s.latchCore core) := .foldl (fun _ _ h => .latchThread h) h

theorem Canonical.writeSlot {b pa} (h : Canonical s) : Canonical (s.writeSlot b pa) :=
  .write (.foldl (fun _ _ h => .store h) (.write (.write (.write (.write (.write (.write h)))))))

theorem Canonical.denyFault {id t addr} (h : Canonical s) : Canonical (s.denyFault id t addr) := .trapAt h

theorem Canonical.denyElement {id k} (h : Canonical s) : Canonical (s.denyElement id k) := by
  unfold State.denyElement
  split
  · exact h
  · exact .ite (.ite h (.modThread h)) (.ite h (.modThread h))

theorem Canonical.resumeSaved {b pa c} (h : Canonical s) : Canonical (s.resumeSaved b pa c) := by
  unfold State.resumeSaved
  dsimp only
  split
  · exact h
  · split
    · exact .setSaved h
    · exact h

theorem Canonical.resumeMember {b pa c} (h : Canonical s) : Canonical (s.resumeMember b pa c) := by
  unfold State.resumeMember
  dsimp only
  split
  · exact .resumeSaved h
  · split
    · exact .ite h (.denyElement h)
    · exact .ite h (.ite (.setThread h) (.afterIssue (.setThread h)))
    · exact .ite h (.ite (.setThread h) (.denyFault h))
    · exact h

/-! ### Accesses -/

theorem Canonical.podSend {rank member region off rel k bulk} (h : Canonical s) : Canonical (s.podSend rank member region off rel k bulk) :=
  .send h

theorem Canonical.startFlush {rank member} (h : Canonical s) : Canonical (s.startFlush rank member) :=
  .update (.foldl (fun _ _ h => .send (.send h)) h)

theorem Canonical.useFlush {member u} (h : Canonical s) : Canonical (s.useFlush member u) := h

theorem Canonical.flushMembers {ms u} (h : Canonical s) : Canonical (s.flushMembers ms u) :=
  .foldl (fun _ _ h => .ite (.useFlush h) (.useFlush (.startFlush h))) h

theorem Canonical.pursue {id stamp} (h : Canonical s) : Canonical (s.pursue id stamp) := .ite (.flushMembers h) h

theorem Canonical.pursueOwn {id stamp} (h : Canonical s) : Canonical (s.pursueOwn id stamp) := .ite (.flushMembers h) h

theorem Canonical.pursueRelease {stamp c u} (h : Canonical s) : Canonical (s.pursueRelease stamp c u) := by
  unfold State.pursueRelease
  dsimp only
  split
  · exact .ite (.flushMembers h) h
  · exact .ite (.flushMembers h) h
  · exact h

theorem Canonical.spoil {core f} (h : Canonical s) : Canonical (s.spoil core f) := h

theorem Canonical.dropPodLines {core member region off n} (h : Canonical s) : Canonical (s.dropPodLines core member region off n) :=
  .spoil (.setCore h)

theorem Canonical.clearPodBuf {core} (h : Canonical s) : Canonical (s.clearPodBuf core) := .spoil (.setCore h)

theorem Canonical.numberFlit {rx cls} (h : Canonical s) : Canonical (s.numberFlit rx cls) := h

theorem Canonical.numberReads {ps} (h : Canonical s) : Canonical (s.numberReads ps) := .foldl (fun _ _ h => .numberFlit h) h

theorem Canonical.fillArea {n} (h : Canonical s) : Canonical (s.fillArea n) := .ite h (.update (.store h))

theorem Canonical.saveFlit {rx cls f} (h : Canonical s) : Canonical (s.saveFlit rx cls f) :=
  .update (.numberFlit (.fillArea h))

theorem Canonical.answered {id ps r flit f} (h : Canonical s) (hf : Keeps f) : Canonical (s.answered id ps r flit f) := by
  unfold State.answered
  split
  · exact hf _ h
  · exact .ite h (.ite (.saveFlit h) (hf _ (.numberFlit h)))

theorem Canonical.fillPod {core member region block bytes} (h : Canonical s) : Canonical (s.fillPod core member region block bytes) :=
  .spoil (.setCore h)

theorem Canonical.postMessage {id stamp kernel rank ga len pod b} (h : Canonical s) : Canonical (s.postMessage id stamp kernel rank ga len pod b) :=
  h

theorem Canonical.setEntry {id e st} (h : Canonical s) : Canonical (s.setEntry id e st) := .modThread h

theorem Canonical.flagEntry {id e cause tval code} (h : Canonical s) : Canonical (s.flagEntry id e cause tval code) :=
  .setEntry (.ite h (.count h))

theorem Canonical.useLines {ps} (h : Canonical s) : Canonical (s.useLines ps) := h

theorem Canonical.recordScope {id p va c} (h : Canonical s) : Canonical (s.recordScope id p va c) := by
  unfold State.recordScope
  split
  · split
    · exact h
    · exact .ite h (.modThread (.modTeam h))
  · exact h

theorem Canonical.requestPart {id stamp kernel body ga nt i p} (h : Canonical s) : Canonical (s.requestPart id stamp kernel body ga nt i p) := by
  unfold State.requestPart
  split
  · exact h
  · split
    · exact .podSend h
    · exact .postMessage h
    · exact .send h
    · exact h

theorem Canonical.requestAll {id stamp kernel body ga nt i ps} (h : Canonical s) : Canonical (s.requestAll id stamp kernel body ga nt i ps) := by
  induction ps generalizing s ga i with
  | nil => exact h
  | cons p r ih => exact ih (.requestPart h)

theorem Canonical.requestParts {id e ga nt i ps} (h : Canonical s) : Canonical (s.requestParts id e ga nt i ps) :=
  .requestAll h

theorem Canonical.loadDone {id e dst n ps} (h : Canonical s) : Canonical (s.loadDone id e dst n ps) := by
  unfold State.loadDone
  split <;> exact .setEntry h

theorem Canonical.startShared {ms acq back} (h : Canonical s) : Canonical (s.startShared ms acq back) :=
  .ite h (.foldl (fun _ _ h => .setEntry (.noteLoad h)) h)

theorem Canonical.acquiresPod {core acq} (h : Canonical s) : Canonical (s.acquiresPod core acq) := .ite (.clearPodBuf h) h

theorem Canonical.startLoad {id e space a n o c dst back} (h : Canonical s) : Canonical (s.startLoad id e space a n o c dst back) := by
  unfold State.startLoad
  dsimp only
  split
  · exact .flagEntry h
  · split
    · exact h
    · split
      · exact .setEntry (.pend h)
      · split
        · exact .startShared h
        · split
          · exact h
          · refine .loadDone (.requestParts ?_)
            split
            · exact .recordScope (.foldl (fun _ _ h => .noteLoad h) (.acquiresPod h))
            · exact .foldl (fun _ _ h => .noteLoad h) (.acquiresPod h)

theorem Canonical.failEntry {id e tval} (h : Canonical s) : Canonical (s.failEntry id e tval) := .setEntry (.pend h)

theorem Canonical.answerLoad {id e a n nt acq dst ps r} (h : Canonical s) : Canonical (s.answerLoad id e a n nt acq dst ps r) := by
  unfold State.answerLoad
  split
  · exact h
  · exact .failEntry h
  · split
    · exact h
    · exact .loadDone (.ite (.dropPodLines (.acquiresPod h)) (.ite (.fillPod (.acquiresPod h)) (.acquiresPod h)))
    · exact .loadDone h

theorem Canonical.acceptStore {id e space a n} (h : Canonical s) : Canonical (s.acceptStore id e space a n) := by
  unfold State.acceptStore
  dsimp only
  split
  · exact .flagEntry h
  · exact .setEntry h

theorem Canonical.storePart {o b a p bs} (h : Canonical s) : Canonical (s.storePart o b a p bs) := by
  unfold State.storePart
  split
  · exact .storeFrom h
  · exact .send h
  · exact .update (.dropPodLines (.podSend h))
  · exact .postMessage h
  · exact h

theorem Canonical.storeParts {o b a data k ps} (h : Canonical s) : Canonical (s.storeParts o b a data k ps) := by
  induction ps generalizing s k with
  | nil => exact h
  | cons p r ih => exact ih (.storePart h)

theorem Canonical.storeTaken {o b a data ps} (h : Canonical s) : Canonical (s.storeTaken o b a data ps) :=
  .foldl (fun _ _ h => .storePart h) h

theorem Canonical.noteWrite {id nt} (h : Canonical s) : Canonical (s.noteWrite id nt) := .ite h (.modThread h)

theorem Canonical.storeNow {o b a n v take} (h : Canonical s) : Canonical (s.storeNow o b a n v take).1 :=
  .ite_fst h (.storeTaken h)

theorem Canonical.keepStore {b left} (h : Canonical s) : Canonical (s.keepStore b left) := h

theorem Canonical.performStore {b take} (h : Canonical s) : Canonical (s.performStore b take) := by
  unfold State.performStore
  split
  · dsimp only
    split
    · exact .keepStore h
    · split
      · exact .ite (.pursueOwn h) h
      · split
        · exact h
        · split
          · exact .pursueRelease h
          · refine .noteWrite (.keepStore (.storeNow ?_))
            split
            · exact .recordScope h
            · exact h
  · exact h

theorem Canonical.startAtom {id e op a wide c ret dst rv sv} (h : Canonical s) :
    Canonical (s.startAtom id e op a wide c ret dst rv sv) := by
  unfold State.startAtom
  extract_lets w ps eff u
  have h' : Canonical u := .acquiresPod h
  clear_value w ps eff u
  split
  · exact .flagEntry h
  · split
    · exact h
    · split
      · exact .pursueRelease h
      · split
        · split
          · exact .setEntry (.pend h')
          · exact .setEntry (.noteWrite (.storeFrom (.ite (.foldl (fun _ _ h => .noteLoad h) (.recordScope h')) (.recordScope h'))))
        · exact .setEntry (.dropPodLines (.podSend h'))
        · exact .setEntry (.postMessage h')
        · exact h'

theorem Canonical.answerAtom {id e a w ret dst r} (h : Canonical s) : Canonical (s.answerAtom id e a w ret dst r) := by
  unfold State.answerAtom
  split
  · exact h
  · exact .failEntry h
  · exact .ite (.ite (.setEntry (.clearPodBuf h)) h) (.setEntry h)

theorem Canonical.ctrAdd {o k n} (h : Canonical s) : Canonical (s.ctrAdd o k n) := .ite (.storeFrom h) h

theorem Canonical.ctrMessage {o k len} (h : Canonical s) : Canonical (s.ctrMessage o k len) := .ctrAdd h

theorem Canonical.ctrLocal {placed x2} (h : Canonical s) : Canonical (s.ctrLocal placed x2) := by
  unfold State.ctrLocal
  split
  · exact h
  · exact .ite (.ctrAdd h) (.count h)

theorem Canonical.pardon {id} (h : Canonical s) : Canonical (s.pardon id) := h

theorem Canonical.commitAt {id t} (h : Canonical s) : Canonical (s.commitAt id t) := by
  unfold State.commitAt
  dsimp only
  split
  · exact .trapAt h
  · split
    · exact .postFault h
    · split
      · exact .setThread h
      · exact .trap h
      · exact .getD (fun _ e => .deliver h e) (.trap h)
      · exact .getD (fun _ e => .deliver h e) (.trap h)
      · exact .setThread h
      · exact .getD (fun _ e => .deliver h e) (.setThread h)
      · exact .setThread h
      · exact .getD (fun _ e => .deliver h e) (.setThread h)

theorem Canonical.commitParked {id t} (h : Canonical s) : Canonical (s.commitParked id t) :=
  .ite (.commitAt h) (.modThread (.commitAt h))

/-! ### Tiles and barrier objects -/

theorem Canonical.modTile {id t f} (h : Canonical s) : Canonical (s.modTile id t f) := .modTeam h

theorem Canonical.noteCount {b flipped v} (h : Canonical s) : Canonical (s.noteCount b flipped v) := h

theorem Canonical.barPut {b v} (h : Canonical s) : Canonical (s.barPut b v) := by
  unfold State.barPut
  split
  · exact .write h
  · exact .modTile h

theorem Canonical.barAdd {b d err seen} (h : Canonical s) : Canonical (s.barAdd b d err seen) := .noteCount (.barPut h)

theorem Canonical.barArm {b e} (h : Canonical s) : Canonical (s.barArm b e) := .barAdd h

theorem Canonical.barArrive {b n err seen} (h : Canonical s) : Canonical (s.barArrive b n err seen) := .barAdd h

theorem Canonical.seesCounted {id b} (h : Canonical s) : Canonical (s.seesCounted id b) := .sees h

theorem Canonical.fillTile {id t} (h : Canonical s) : Canonical (s.fillTile id t) := by
  unfold State.fillTile
  split
  · exact h
  · exact .barArm (.modTile h)

theorem Canonical.forgetCounts {b} (h : Canonical s) : Canonical (s.forgetCounts b) := h

theorem Canonical.startBarm {id e b v} (h : Canonical s) : Canonical (s.startBarm id e b v) := .setEntry (.barArm h)

theorem Canonical.bwaitStep {id} (h : Canonical s) : Canonical (s.bwaitStep id) := by
  unfold State.bwaitStep
  split
  · exact h
  · split
    · exact .ite (.complete (.seesCounted h)) h
    · exact h

/-! ### What the engines share -/

theorem Canonical.piecesWrite {o ps bs} (h : Canonical s) : Canonical (s.piecesWrite o ps bs) := by
  induction ps generalizing s bs with
  | nil => exact h
  | cons p r ih => exact ih (.storeFrom h)

theorem Canonical.modCore {c f} (h : Canonical s) : Canonical (s.modCore c f) := .setCore h

/-! ### Waits of memory instructions -/

theorem Canonical.stepFence {id c stamp} (h : Canonical s) : Canonical (s.stepFence id c stamp) := by
  unfold State.stepFence
  split
  · exact .pursue h
  · exact .ite (.pursueRelease h) (.ite h (.complete (.pardon (.passFence (.ite (.clearPodBuf h) h)))))

theorem Canonical.stepDrain {id} (h : Canonical s) : Canonical (s.stepDrain id) :=
  .ite h (.ite (.flushMembers h) (.ite h (.complete (.pardon (.modThread h)))))

theorem Canonical.stepPflush {id t rank peer stamp begun} (h : Canonical s) : Canonical (s.stepPflush id t rank peer stamp begun) :=
  .ite (.ite h (.complete (.pardon h))) (.ite h (.setThread (.useFlush (.startFlush h))))

theorem Canonical.fenceStep {id} (h : Canonical s) : Canonical (s.fenceStep id) := by
  unfold State.fenceStep
  split
  · exact h
  · split
    · exact h
    · split
      · exact .stepFence h
      · exact .stepDrain h
      · exact .stepPflush h
      · exact h

theorem Canonical.counterStep {id} (h : Canonical s) : Canonical (s.counterStep id) := by
  unfold State.counterStep
  split
  · exact h
  · split
    · exact h
    · split
      · exact .ite (.complete (.sees (.ite (.clearPodBuf h) h))) h
      · exact h

theorem Canonical.startCadd {id e k n c} (h : Canonical s) : Canonical (s.startCadd id e k n c) :=
  .ite (.pursueRelease h) (.setEntry (.noteWrite (.ctrAdd h)))

theorem Canonical.startCpoll {id e k d} (h : Canonical s) : Canonical (s.startCpoll id e k d) := .setEntry h

theorem Canonical.setGen {gid gen} (h : Canonical s) : Canonical (s.setGen gid gen) :=
  .setTables (.write h) (Memory.wf_writeLE h.tables _ _ _)

theorem Canonical.advanceGen {gid e} (h : Canonical s) : Canonical (s.advanceGen gid e) := .setGen (.ite h h)

theorem Canonical.dropEntry {id e} (h : Canonical s) : Canonical (s.dropEntry id e) := .modThread h

theorem Canonical.releasing {n v} (h : Canonical s) : Canonical (s.releasing n v) := h

theorem Canonical.startWsig {id e src dst len tctr lctr} (h : Canonical s) : Canonical (s.startWsig id e src dst len tctr lctr) := by
  unfold State.startWsig
  dsimp only
  split
  · exact .setEntry h
  · exact .ite (.pursueRelease h) (.dropEntry (.releasing (.postMessage h)))

theorem Canonical.startWred {id e src gid gen lctr} (h : Canonical s) : Canonical (s.startWred id e src gid gen lctr) :=
  .setEntry (.postMessage h)

theorem Canonical.modStream {id k f} (h : Canonical s) : Canonical (s.modStream id k f) := .modThread h

theorem Canonical.putElement {id k i} (h : Canonical s) : Canonical (s.putElement id k i) := .modStream h

theorem Canonical.openElement {id k q} (h : Canonical s) : Canonical (s.openElement id k q) := .putElement h

theorem Canonical.failElement {id k q} (h : Canonical s) : Canonical (s.failElement id k q) := .openElement (.pend h)

theorem Canonical.elementParts {id k q ps} (h : Canonical s) : Canonical (s.elementParts id k q ps) := by
  unfold State.elementParts
  split
  · exact .putElement h
  · exact .modStream h

theorem Canonical.answerElement {id k q r} (h : Canonical s) : Canonical (s.answerElement id k q r) := by
  unfold State.answerElement
  split
  · exact h
  · split
    · exact h
    · exact .failElement h
    · split
      · exact h
      · exact .elementParts (.dropPodLines h)
      · exact .elementParts h

theorem Canonical.noteElement {id r ks} (h : Canonical s) : Canonical (s.noteElement id r ks) := .modThread h

theorem Canonical.startElement {id k q a ps back} (h : Canonical s) : Canonical (s.startElement id k q a ps back) :=
  .ite h (.elementParts (.modStream (.requestAll (.foldl (fun _ _ h => .noteElement h) h))))

theorem Canonical.fetchElement {id k q r back} (h : Canonical s) : Canonical (s.fetchElement id k q r back) := by
  unfold State.fetchElement
  dsimp only
  split
  · exact .answerElement h
  · split
    · exact h
    · split
      · exact .streamBatch h
      · exact .putElement (.countCode h)
      · split
        · exact h
        · split
          · exact .openElement (.pend h)
          · exact .startElement h

theorem Canonical.fetchStep {id k q r back} (h : Canonical s) : Canonical (s.fetchStep id k q r back) :=
  .ite h (.fetchElement (.modStream h))

theorem Canonical.performElement {id k q take} (h : Canonical s) : Canonical (s.performElement id k q take) := by
  unfold State.performElement
  split
  · exact h
  · exact .ite h (.noteWrite (.modStream (.storeNow h)))

theorem Canonical.landStream {id t k} (h : Canonical s) : Canonical (s.landStream id t k) := by
  unfold State.landStream
  split
  · exact .ite (.flushMembers h) h
  · exact h

theorem Canonical.streamDrained {id} (h : Canonical s) : Canonical (s.streamDrained id) := by
  unfold State.streamDrained
  split
  · exact h
  · split
    · exact .ite (.landStream h) (.ite h (.setThread h))
    · exact h

/-! ### The matrix engine -/

theorem Canonical.setConv {id g c} (h : Canonical s) : Canonical (s.setConv id g c) := .modTeam h

theorem Canonical.wakeSigners {id g} (h : Canonical s) : Canonical (s.wakeSigners id g) := h

theorem Canonical.convDone {id g c issued} (h : Canonical s) : Canonical (s.convDone id g c issued) :=
  .wakeSigners (.modTeam (.setConv h))

theorem Canonical.pendSigners {l cur} (h : Canonical s) : Canonical (s.pendSigners l cur) :=
  .foldl (fun _ _ h => .ite h (.pend h)) h

theorem Canonical.convIssue {id g c l op paired} (h : Canonical s) : Canonical (s.convIssue id g c l op paired) := by
  unfold State.convIssue
  refine .convDone ?_
  split
  · refine .write (.modCore (.update ?_))
    split
    · exact .modTeam (.modCore h)
    · exact .modCore h
  · split
    · exact .modTeam (.modCore h)
    · exact .modCore h

/-- The device that the issue of a matrix operation leaves, or that its failure leaves, has the form. -/
def ConvKeeps : ConvResult → Prop
  | .waiting => True
  | .issued s => Canonical s
  | .failed s => Canonical s

theorem ConvKeeps.issued {r : ConvResult} {t : State} (h : ConvKeeps r) (e : r = .issued t) : Canonical t := by
  rwa [e] at h

theorem ConvKeeps.failed {r : ConvResult} {t : State} (h : ConvKeeps r) (e : r = .failed t) : Canonical t := by
  rwa [e] at h

theorem ConvKeeps.convPair {id g c l op cur} (h : Canonical s) : ConvKeeps (s.convPair id g c l op cur) := by
  unfold State.convPair
  split
  · exact Canonical.setConv h
  · dsimp only
    split
    · exact Canonical.convIssue (.convIssue h)
    · exact Canonical.pendSigners (.pendSigners (.convDone (.convDone h)))

theorem ConvKeeps.convTry {id g cur} (h : Canonical s) : ConvKeeps (s.convTry id g cur) := by
  unfold State.convTry
  split
  · trivial
  · split
    · trivial
    · split
      · trivial
      · trivial
      · split
        · trivial
        · dsimp only
          split
          · exact Canonical.pendSigners (.convDone h)
          · split
            · trivial
            · split
              · exact .convPair h
              · split
                · exact Canonical.convIssue h
                · trivial
              · exact Canonical.convIssue h

theorem Canonical.convAll {id} (h : Canonical s) : Canonical (s.convAll id) :=
  .foldl (fun s g h => by
    split
    · exact h
    next e => exact (ConvKeeps.convTry h).issued e
    next e => exact (ConvKeeps.convTry h).failed e) h

theorem Canonical.convEverywhere (h : Canonical s) : Canonical s.convEverywhere := .foldl (fun _ _ h => .convAll h) h

theorem Canonical.cistWrite {id a bs} (h : Canonical s) : Canonical (s.cistWrite id a bs) := .setCist h (Memory.wf_write h.cist _ _)

theorem Canonical.pendOp {op} (h : Canonical s) : Canonical (s.pendOp op) := .foldl (fun _ _ h => .pend h) h

theorem Canonical.runMma {op} (h : Canonical s) : Canonical (s.runMma op) := by
  unfold State.runMma
  split
  · exact h
  · exact .ite (.cistWrite h) (.pendOp h)

theorem Canonical.runPair {a b} (h : Canonical s) : Canonical (s.runPair a b) := by
  unfold State.runPair
  dsimp only
  split
  · exact .ite (.cistWrite (.cistWrite h)) (.pendOp (.pendOp h))
  · exact h

theorem Canonical.runMatrix {op} (h : Canonical s) : Canonical (s.runMatrix op) := by
  unfold State.runMatrix
  split
  · exact .runMma h
  · exact h
  · split
    · exact .cistWrite h
    · exact h
  · exact .setCist h (Memory.wf_clear h.cist _ _)
  · dsimp only
    split
    · exact .barArrive (.storeFrom h)
    · exact h
  · exact h

theorem Canonical.pursueOp {op} (h : Canonical s) : Canonical (s.pursueOp op) := .foldl (fun _ _ h => .pursue h) h

theorem Canonical.startMrd {id e acc row col dst after} (h : Canonical s) : Canonical (s.startMrd id e acc row col dst after) :=
  .ite h (.setEntry h)

/-! ### Cross-lane instructions -/

theorem Canonical.passLane {r : State} {g ps i} (h : Canonical r) : Canonical (r.passLane s g ps i) := .ite (.passFence (.sees h)) h

theorem Canonical.laneExecute {g ps} (h : Canonical s) : Canonical (s.laneExecute g ps) := by
  unfold State.laneExecute
  refine .foldl (fun _ _ h => ?_) h
  split
  · exact h
  · exact .complete (.passLane (.setThread h))

theorem Canonical.laneSets {g f n} (h : Canonical s) : Canonical (s.laneSets g f n) := by
  induction n generalizing s with
  | zero => exact h
  | succ n ih =>
    unfold State.laneSets
    split
    · exact h
    · exact ih (.laneExecute h)

theorem Canonical.deadlockTrap {id} (h : Canonical s) : Canonical (s.deadlockTrap id) := by
  unfold State.deadlockTrap
  split
  · exact h
  · split
    · exact .ite (.setThread h) (.getD (fun _ e => .deliver h e) (.trap h))
    · exact h

theorem Canonical.laneLand {g} (h : Canonical s) : Canonical (s.laneLand g) := by
  unfold State.laneLand
  refine .foldl (fun _ _ h => ?_) h
  split
  · exact .pursue h
  · exact h

theorem Canonical.meet {g} (h : Canonical s) : Canonical (s.meet g) := by
  unfold State.meet
  split
  · exact h
  · exact .ite h (.ite (.foldl (fun _ _ h => .deadlockTrap h) (.laneSets (.laneLand h))) (.laneSets (.laneLand h)))

/-! ### Turnouts and barriers -/

theorem Canonical.receive {a b slot} (h : Canonical s) : Canonical (s.receive a b slot) := by
  unfold State.receive
  refine .foldl (fun _ _ h => ?_) h
  split
  · exact h
  · exact .setEntry h

theorem Canonical.sendFault {id t w} (h : Canonical s) : Canonical (s.sendFault id t w) := .ite (.commitAt h) (.setThread h)

theorem Canonical.turnoutFault {a b slot} (h : Canonical s) : Canonical (s.turnoutFault a b slot) := by
  unfold State.turnoutFault
  refine .foldl (fun _ _ h => ?_) (.foldl (fun _ _ h => ?_) h)
  · split
    · exact .sendFault h
    · exact h
  · split
    · exact .setEntry h
    · exact h

theorem Canonical.turnoutStep {id slot} (h : Canonical s) : Canonical (s.turnoutStep id slot) := by
  unfold State.turnoutStep
  split
  · exact h
  · dsimp only
    split
    · split
      · exact .foldl (fun _ _ h => .complete h) (.receive (.modTeam h))
      · exact .ite (.modTeam h) (.turnoutFault (.modTeam h))
    · exact .modTeam h

theorem Canonical.turnouts {id} (h : Canonical s) : Canonical (s.turnouts id) :=
  .foldl (fun _ _ h => .foldl (fun _ _ h => .turnoutStep h) h) h

theorem Canonical.reachSend {id t word slot} (h : Canonical s) : Canonical (s.reachSend id t word slot) :=
  .ite h (.ite (.setThread h) (.ite h (.setThread h)))

theorem Canonical.setBarrier {id cl b x} (h : Canonical s) : Canonical (s.setBarrier id cl b x) := by
  unfold State.setBarrier
  split
  · split <;> exact h
  · exact .modTeam h

theorem Canonical.landArrivals {b} (h : Canonical s) : Canonical (s.landArrivals b) :=
  .foldl (fun _ _ h => .ite (.pursue h) h) h

theorem Canonical.completePhase {id cl k b} (h : Canonical s) : Canonical (s.completePhase id cl k b) := by
  unfold State.completePhase
  refine .foldl (fun _ _ h => ?_) (.setBarrier h)
  split
  · exact h
  · exact .ite (.complete (.sees h)) (.ite (.setThread h) h)

theorem Canonical.barrierStep {id cl k} (h : Canonical s) : Canonical (s.barrierStep id cl k) := by
  unfold State.barrierStep
  split
  · exact h
  · exact .ite h (.ite (.setBarrier h) (.ite (.completePhase h) (.setBarrier (.landArrivals h))))

theorem Canonical.barriers {id} (h : Canonical s) : Canonical (s.barriers id) :=
  .foldl (fun _ _ h => .barrierStep (.barrierStep h)) h

/-! ### The end of threads and teams -/

theorem Canonical.settle {g} (h : Canonical s) : Canonical (s.settle g) :=
  .closeBatches (.barriers (.turnouts (.convAll (.meet h))))

theorem Canonical.faultRecord {g f} (h : Canonical s) : Canonical (s.faultRecord g f) :=
  .ite h (.foldl (fun _ _ h => .latchCore h) (.store h))

theorem Canonical.fillActive {core fuel} (h : Canonical s) : Canonical (s.fillActive core fuel) := by
  induction fuel generalizing s with
  | zero => exact h
  | succ n ih =>
    unfold State.fillActive
    split
    · exact h
    · exact .ite (ih (.entered (.modCore h))) h

theorem Canonical.leaveCore {g} (h : Canonical s) : Canonical (s.leaveCore g) := .fillActive (.modCore h)

theorem Canonical.modLaunch {l f} (h : Canonical s) : Canonical (s.modLaunch l f) := by
  unfold State.modLaunch
  split <;> exact h

theorem Canonical.endTeam {id} (h : Canonical s) : Canonical (s.endTeam id) := by
  unfold State.endTeam
  split
  · exact h
  · split
    · exact h
    · dsimp only
      split
      · exact .modCore (.modTeam h)
      · exact .ite (.modLaunch (.modCore (.modTeam h))) (.modCore (.modTeam h))

theorem Canonical.endGroup {g} (h : Canonical s) : Canonical (s.endGroup g) := by
  unfold State.endGroup
  dsimp only
  split
  · exact h
  · refine .ite h (.endTeam (.barriers (.leaveCore (.modGroup ?_))))
    split
    · split
      · exact .modLaunch (.faultRecord h)
      · exact .faultRecord h
    · exact h

theorem Canonical.removeMember {id} (h : Canonical s) : Canonical (s.removeMember id) := by
  unfold State.removeMember
  exact .endGroup (.settle (.update (.modThread h)))

theorem Canonical.landAll {id t} (h : Canonical s) : Canonical (s.landAll id t) := .ite (.flushMembers h) h

/-! ### Copy requests -/

theorem Canonical.arriveAll {bs n err seen} (h : Canonical s) : Canonical (s.arriveAll bs n err seen) :=
  .foldl (fun _ _ h => .barArrive h) h

theorem Canonical.drainTile {id r} (h : Canonical s) : Canonical (s.drainTile id r) := .ite (.modTile h) h

theorem Canonical.partsWrite {o ps bs} (h : Canonical s) : Canonical (s.partsWrite o ps bs) := by
  induction ps generalizing s bs with
  | nil => exact h
  | cons p r ih =>
    obtain ⟨place, n⟩ := p
    cases place with
    | mem => exact ih (.storeFrom h)
    | _ => exact ih h

theorem Canonical.partsMaybe {o event k ps bs} (h : Canonical s) : Canonical (s.partsMaybe o event k ps bs) := by
  induction ps generalizing s k bs with
  | nil => exact h
  | cons p r ih =>
    obtain ⟨place, n⟩ := p
    cases place with
    | mem =>
      refine ih (.foldl (fun _ _ h => ?_) h)
      split
      · exact .ite (.storeFrom h) h
      · exact h
    | _ => exact ih h

theorem Canonical.drainDone {core c pieces} (h : Canonical s) : Canonical (s.drainDone core c pieces) :=
  .ite (.modCore (.modTile h)) h

theorem Canonical.pieceDone {core c piece n err} (h : Canonical s) : Canonical (s.pieceDone core c piece n err) :=
  .convEverywhere (.drainDone (.modCore (.arriveAll h)))

theorem Canonical.pieceFail {core c piece off n code bs} (h : Canonical s) : Canonical (s.pieceFail core c piece off n code bs) :=
  .pieceDone (.countCode (.foldl (fun _ _ h => .ite h (.partsMaybe h)) h))

theorem Canonical.pieceRefused {core c piece off n code} (h : Canonical s) : Canonical (s.pieceRefused core c piece off n code) :=
  .pieceFail h

theorem Canonical.pieceWrite {core c piece off n bs} (h : Canonical s) : Canonical (s.pieceWrite core c piece off n bs) := by
  unfold State.pieceWrite
  dsimp only
  split
  · split
    · exact .engineBatch h
    · exact h
    · exact .pieceFail h
    · exact h
    · exact .ite (.drainDone (.postMessage h)) (.pieceDone (.partsWrite h))
  · exact .pieceDone (.foldl (fun _ _ h => .partsWrite h) h)

theorem Canonical.pieceUnanswered {core c piece off n} (h : Canonical s) : Canonical (s.pieceUnanswered core c piece off n) :=
  .pieceRefused (.pend h)

/-! ### Boundaries -/

theorem Canonical.rewindGroup {g} (h : Canonical s) : Canonical (s.rewindGroup g) := h

theorem Canonical.tookTurn {g} (h : Canonical s) : Canonical (s.tookTurn g) := .modGroup h

theorem Canonical.countIssue {g} (h : Canonical s) : Canonical (s.countIssue g) :=
  .foldl (fun _ _ h => .modGroup h) (.modGroup h)

theorem Canonical.clock {core cycles} (h : Canonical s) : Canonical (s.clock core cycles) :=
  .foldl (fun _ _ h => .modGroup h) (.modCore h)

/-! ### The debug interface -/

theorem Canonical.byOwner {master f} (h : Canonical s) (hf : Keeps f) : Canonical (s.byOwner master f) :=
  .ite h (.ite (.send h) (.ite (hf _ h) h))

theorem Canonical.outcome {lane n} (h : Canonical s) : Canonical (s.outcome lane n) := h

theorem Canonical.debugSettle (h : Canonical s) : Canonical s.debugSettle := by
  unfold State.debugSettle
  split
  · exact h
  · dsimp only
    split
    · exact .update (.foldl (fun _ _ h => .modThread h) (.turnouts (.laneSets (.laneLand h))))
    · exact .foldl (fun _ _ h => .modThread h) (.turnouts (.laneSets (.laneLand h)))

/-! ### The management block -/

theorem Canonical.writeWord {off v} (h : Canonical s) : Canonical (s.writeWord off v) :=
  .ite h (.setMgmt h (Memory.wf_writeLE h.mgmt _ _ _))

theorem Canonical.writeMail {off v} (h : Canonical s) : Canonical (s.writeMail off v) :=
  .ite h (.ite (.setMailbox h (Memory.wf_writeLE h.rmbuf _ _ _)) h)

theorem Canonical.claimResult {i n} (h : Canonical s) : Canonical (s.claimResult i n) := h

theorem Canonical.passQueues {a b} (h : Canonical s) : Canonical (s.passQueues a b) := h

theorem Canonical.claimOp {reg seq x3} (h : Canonical s) : Canonical (s.claimOp reg seq x3) := by
  unfold State.claimOp
  split
  · exact .ite (.claimResult h) (.claimResult h)
  · exact .ite (.claimResult h) (.claimResult h)
  · exact .ite (.claimResult (.passQueues h)) (.claimResult h)
  · exact .ite (.claimResult h) (.claimResult h)
  · exact .claimResult h

theorem Canonical.claimWrite {master reg id seq op} (h : Canonical s) : Canonical (s.claimWrite master reg id seq op) :=
  .ite h (.ite (.send h) (.ite (.claimResult h) (.ite (.claimResult h) (.claimOp h))))

theorem Canonical.claimWord {master off size v} (h : Canonical s) : Canonical (s.claimWord master off size v) :=
  .ite (.claimWrite h) (.claimResult h)

theorem Canonical.capPower {value} (h : Canonical s) : Canonical (s.capPower value) :=
  .ite (.setMgmt h (Memory.wf_writeLE h.mgmt _ _ _)) h

theorem Canonical.linkDown {j} (h : Canonical s) : Canonical (s.linkDown j) := h

theorem Canonical.setPortWord {p mode en} (h : Canonical s) : Canonical (s.setPortWord p mode en) := .setMgmt h (Memory.wf_writeLE h.mgmt _ _ _)

theorem Canonical.setPort {p st} (h : Canonical s) : Canonical (s.setPort p st) := .ite (.linkDown h) h

theorem Canonical.enablePort {port v} (h : Canonical s) : Canonical (s.enablePort port v) :=
  .ite h (.setPort (.setPortWord h))

theorem Canonical.disablePort {port v} (h : Canonical s) : Canonical (s.disablePort port v) :=
  .ite h (.ite (.setPort (.setPortWord h)) (.ite h (.setPortWord h)))

theorem Canonical.takeTables (h : Canonical s) : Canonical s.takeTables :=
  have blank : Memory.wf [] = true := rfl
  .setTables h (Memory.wf_paste (Memory.wf_paste (Memory.wf_paste (Memory.wf_paste blank _ _) _ _) _ _) _ _)

theorem Canonical.enableJob (h : Canonical s) : Canonical s.enableJob :=
  have h' : Canonical (if s.jobOn then s else s.takeTables) := .ite h (.takeTables h)
  .ite (.setMgmt h (Memory.wf_writeLE h.mgmt _ _ _)) (.setMgmt h' (Memory.wf_writeLE h'.mgmt _ _ _))

theorem Canonical.disableJob (h : Canonical s) : Canonical s.disableJob := .setMgmt h (Memory.wf_writeLE h.mgmt _ _ _)

/-! ### Placement and start -/

theorem Canonical.moveBytes {a0 n b0} (h : Canonical s) : Canonical (s.moveBytes a0 n b0) :=
  .update (.movePlaces (.pasteAt (.pasteAt h)))

theorem Canonical.moveScratch {id t b} (h : Canonical s) : Canonical (s.moveScratch id t b) := .modTeam (.moveBytes h)

theorem Canonical.moveCist {a n b} (h : Canonical s) : Canonical (s.moveCist a n b) :=
  .setCist h (Memory.wf_paste (Memory.wf_clear h.cist _ _) _ _)

theorem Canonical.moveCistern {id t b} (h : Canonical s) : Canonical (s.moveCistern id t b) := .modTeam (.moveCist h)

theorem Canonical.packScratch {core} (h : Canonical s) : Canonical (s.packScratch core) :=
  .foldl_fst (fun _ _ h => .moveScratch h) h

theorem Canonical.packCistern {core} (h : Canonical s) : Canonical (s.packCistern core) :=
  .foldl_fst (fun _ _ h => .moveCistern h) h

theorem Canonical.scratchRoom {core n} (h : Canonical s) : Canonical (s.scratchRoom core n).1 := by
  unfold State.scratchRoom
  dsimp only
  split
  · exact h
  · exact .packScratch h

theorem Canonical.cisternRoom {core n} (h : Canonical s) : Canonical (s.cisternRoom core n).1 := by
  unfold State.cisternRoom
  dsimp only
  split
  · exact h
  · exact .packCistern h

theorem Canonical.enterGroup {g} (h : Canonical s) : Canonical (s.enterGroup g) := .modCore h

theorem Canonical.startThread {id lane regs words pc kernel slice} (h : Canonical s) : Canonical (s.startThread id lane regs words pc kernel slice) :=
  .setThread (.pasteAt h)

theorem Canonical.startGroup {g l b} (h : Canonical s) : Canonical (s.startGroup g l b) :=
  .enterGroup (.foldl (fun _ _ h => .startThread h) h)

theorem Canonical.startTeam {l n cluster index core bases} (h : Canonical s) : Canonical (s.startTeam l n cluster index core bases).1 :=
  have h' := h.scratchRoom.cisternRoom.pasteAt
  .foldl_fst (fun _ _ h => .startGroup h) (.setCist h' (Memory.wf_clear h'.cist _ _))

theorem Canonical.registerRing {h' core} (h : Canonical s) : Canonical (s.registerRing h' core) := .ite h h

theorem Canonical.startCluster {n l clid pos} (h : Canonical s) : Canonical (s.startCluster n l clid pos) := by
  unfold State.startCluster
  dsimp only
  split
  · exact .registerRing (.update (.foldl_fst (fun _ _ h => by exact .startTeam h) (by exact h)))
  · exact .update (.foldl_fst (fun _ _ h => by exact .startTeam h) (by exact h))

/-! ### Taking teams off their cores -/

theorem Canonical.renameOutside {f} (h : Canonical s) : Canonical (s.renameOutside f) := h

theorem Canonical.dropCalls {id p} (h : Canonical s) : Canonical (s.dropCalls id p) := h

theorem Canonical.leaveSets {id} (h : Canonical s) : Canonical (s.leaveSets id) := .foldl (fun _ _ h => .leaveCore h) h

theorem Canonical.dropHeldMessages {ids} (h : Canonical s) : Canonical (s.dropHeldMessages ids) := h

theorem Canonical.discardTeams {ids} (h : Canonical s) : Canonical (s.discardTeams ids) :=
  .update (.renameOutside (.update (.foldl (fun _ _ h => by exact .modTeam (.dropCalls (.leaveSets h))) (.dropHeldMessages h))))

theorem Canonical.parkTeam {id} (h : Canonical s) : Canonical (s.parkTeam id) := by
  unfold State.parkTeam
  split
  · exact h
  · exact .update (.renameOutside (.update (.moveCist (.moveBytes h))))

theorem Canonical.forgetTeam {id t} (h : Canonical s) : Canonical (s.forgetTeam id t) := .setCist (.pasteAt h) (Memory.wf_clear h.cist _ _)

theorem Canonical.sweep (h : Canonical s) : Canonical s.sweep :=
  .update (.foldl (fun _ _ h => .forgetTeam h) (.foldl (fun _ _ h => .parkTeam h) h))

theorem Canonical.discardLaunch {n} (h : Canonical s) : Canonical (s.discardLaunch n) := .update (.discardTeams h)

/-! ### Work queues -/

theorem Canonical.setQueueWord {q v} (h : Canonical s) : Canonical (s.setQueueWord q v) := .setMgmt h (Memory.wf_writeLE h.mgmt _ _ _)

theorem Canonical.enableQueue {master queue v} (h : Canonical s) : Canonical (s.enableQueue master queue v) :=
  .ite h (.ite (.writeWord h) (.ite (.setQueue (.setQueueWord h)) (.setQueue (.setQueueWord h))))

theorem Canonical.resetQueue {q} (h : Canonical s) : Canonical (s.resetQueue q) :=
  .setQueue (.setQueueWord (.dropCalls (.foldl (fun _ _ h => .discardLaunch h) h)))

theorem Canonical.disableQueue {queue v} (h : Canonical s) : Canonical (s.disableQueue queue v) :=
  .ite h (.ite (.resetQueue h) (.writeWord h))

theorem Canonical.setQres {n} (h : Canonical s) : Canonical (s.setQres n) := h

theorem Canonical.finish {q seq status result} (h : Canonical s) : Canonical (s.finish q seq status result) := .setQueue h

theorem Canonical.setCmd {q seq st} (h : Canonical s) : Canonical (s.setCmd q seq st) := .setQueue h

theorem Canonical.offer {q b ok k} (h : Canonical s) : Canonical (s.offer q b ok k) := .ite (.setQueue h) (.setQueue h)

theorem Canonical.copySome {c ks} (h : Canonical s) : Canonical (s.copySome c ks) := .foldl (fun _ _ h => .store h) h

theorem Canonical.completeLaunch {q c status result} (h : Canonical s) : Canonical (s.completeLaunch q c status result) := by
  unfold State.completeLaunch
  split
  · exact .finish h
  · exact .finish (.count h)
  · exact .finish (.storeFrom h)
  · exact .setCmd h
  · exact .engineBatch (.setCmd h)

theorem Canonical.denyJoin {q seq} (h : Canonical s) : Canonical (s.denyJoin q seq) := by
  unfold State.denyJoin
  split
  · split
    · exact .finish (.count h)
    · exact h
  · exact h

theorem Canonical.numberCmd {q seq} (h : Canonical s) : Canonical (s.numberCmd q seq) := .setQueue h

theorem Canonical.startLaunch {q c header} (h : Canonical s) : Canonical (s.startLaunch q c header) := by
  unfold State.startLaunch
  dsimp only
  split
  · exact .completeLaunch h
  · exact .ite (.completeLaunch h) (.setCmd h)

theorem Canonical.readHeader {q c} (h : Canonical s) : Canonical (s.readHeader q c) := by
  unfold State.readHeader
  split
  · exact .startLaunch h
  · exact .startLaunch (.foldl (fun _ _ h => .send h) h)
  · exact .finish h
  · exact .setCmd h
  · exact .engineBatch (.setCmd h)

theorem Canonical.startSpawn {id e off q dst} (h : Canonical s) : Canonical (s.startSpawn id e off q dst) :=
  .ite h (.setEntry (.offer h))

/-! ### Host accesses -/

theorem Canonical.hostAccess {pa n data} (h : Canonical s) : Canonical (s.hostAccess pa n data) := by
  unfold State.hostAccess
  split
  · exact .useLines (.storeFrom h)
  · exact .ite (.send h) (.useLines (.send h))

theorem Canonical.enableWindow {window v} (h : Canonical s) : Canonical (s.enableWindow window v) :=
  .ite h (.setMgmt h (Memory.wf_writeLE h.mgmt _ _ _))

theorem Canonical.windowWrite {off data} (h : Canonical s) : Canonical (s.windowWrite off data) :=
  .ite (.send h) (.ite (.count h) (.ite h h))

theorem Canonical.blockMaybe {pa n} (h : Canonical s) : Canonical (s.blockMaybe pa n) :=
  .foldl (fun _ _ h => .ite (.store h) h) h

theorem Canonical.blockReport {w b d st len} (h : Canonical s) : Canonical (s.blockReport w b d st len) :=
  .ite (.ctrAdd (.ite (.write h) h)) (.ite (.write h) h)

theorem Canonical.hostExclusive {pa n data} (h : Canonical s) : Canonical (s.hostExclusive pa n data) := by
  unfold State.hostExclusive
  dsimp only
  split
  · exact .ite (.send h) (.update (.hostAccess h))
  · exact .ite (.update (.storeFrom h)) h

/-! ### Boot and recovery -/

theorem Canonical.restart {powered} (h : Canonical s) : Canonical (s.restart powered) := .setFlash .reset h.slots

theorem Canonical.stageTo {stage fail} (h : Canonical s) : Canonical (s.stageTo stage fail) := h

theorem Canonical.acceptImage {slot} (h : Canonical s) : Canonical (s.acceptImage slot) := h

theorem Canonical.zeroMemory (h : Canonical s) : Canonical s.zeroMemory := .setMem h (Memory.wf_clear h.mem _ _)

theorem Canonical.mailRun {op code} (h : Canonical s) : Canonical (s.mailRun op code) := .setMailbox h h.rmbuf

/-! ### The flume -/

theorem Canonical.elementDone {core c i err} (h : Canonical s) : Canonical (s.elementDone core c i err) :=
  .convEverywhere (.modCore (.arriveAll h))

theorem Canonical.elementFail {core c i code} (h : Canonical s) : Canonical (s.elementFail core c i code) :=
  .elementDone (.countCode h)

theorem Canonical.elementUnanswered {core c i} (h : Canonical s) : Canonical (s.elementUnanswered core c i) :=
  .elementDone (.pend h)

theorem Canonical.elementWrite {core c i x} (h : Canonical s) : Canonical (s.elementWrite core c i x) := by
  unfold State.elementWrite
  dsimp only
  split
  · exact .engineBatch h
  · exact h
  · exact .elementFail h
  · exact h
  · exact .ite h (.elementDone (.storeParts h))

theorem Canonical.stopChain {core c} (h : Canonical s) : Canonical (s.stopChain core c) :=
  .convEverywhere (.modCore (.arriveAll h))

theorem Canonical.elementValue {core c i v} (h : Canonical s) : Canonical (s.elementValue core c i v) := by
  unfold State.elementValue
  split
  · exact .stopChain h
  · exact .ite (.elementWrite h) (.modCore h)

theorem Canonical.placeFlow {id cmd tiles} (h : Canonical s) : Canonical (s.placeFlow id cmd tiles) := .modCore h

theorem Canonical.flowRun {core i e} (h : Canonical s) : Canonical (s.flowRun core i e) := by
  unfold State.flowRun
  dsimp only
  split
  · exact .modCore (.drainTile (.foldl (fun _ _ h => .fillTile h) h))
  · exact .modCore (.foldl (fun _ _ h => .fillTile h) h)
  · exact .modCore (.foldl (fun _ _ h => .fillTile h) h)

theorem Canonical.flowStart {core i e} (h : Canonical s) : Canonical (s.flowStart core i e) := by
  unfold State.flowStart
  dsimp only
  split
  · exact .ite (.flowRun (.modTeam h)) (.modCore (.pendOp (.modTeam h)))
  · exact .ite (.flowRun h) (.modCore (.count (.arriveAll h)))
  · exact .flowRun h

/-! ### Residency -/

theorem Canonical.unallocated {before} (h : Canonical s) : Canonical (s.unallocated before) := h

theorem Canonical.evictLines {ls} (h : Canonical s) : Canonical (s.evictLines ls) := .ite h h

/-! ### System instructions -/

theorem Canonical.dropLines {ps} (h : Canonical s) : Canonical (s.dropLines ps) := h

theorem Canonical.startCacheop {id e op a n} (h : Canonical s) : Canonical (s.startCacheop id e op a n) := by
  unfold State.startCacheop
  refine .setEntry ?_
  split
  · exact .ite h (.dropLines h)
  · exact .ite (.foldl (fun _ _ h => .dropPodLines h) h) h
  · exact h

/-! ### Moves between the tiers -/

theorem Canonical.startRhset {id e base pages prio second dst} (h : Canonical s) : Canonical (s.startRhset id e base pages prio second dst) := by
  unfold State.startRhset
  dsimp only
  split <;> exact .setEntry h

theorem Canonical.startRhpri {id e k v} (h : Canonical s) : Canonical (s.startRhpri id e k v) := by
  unfold State.startRhpri
  refine .setEntry ?_
  split
  · exact h
  · exact .ite h (.ite h h)

theorem Canonical.startRhdem {id e k} (h : Canonical s) : Canonical (s.startRhdem id e k) := by
  unfold State.startRhdem
  refine .setEntry ?_
  split
  · exact h
  · exact .ite h h

theorem Canonical.startPref {id e a n} (h : Canonical s) : Canonical (s.startPref id e a n) := .setEntry (.ite h h)

theorem Canonical.startMoves {asid demote ps fs t} (h : Canonical s) (e : s.startMoves asid demote ps fs = some t) : Canonical t := by
  induction ps generalizing s fs with
  | nil => cases e; exact h
  | cons p r ih =>
    cases fs with
    | nil => cases e
    | cons f fs =>
      unfold State.startMoves at e
      dsimp only at e
      split at e
      · exact ih (.update h) e
      · cases e

theorem Canonical.movePage {m e} (h : Canonical s) : Canonical (s.movePage m e) :=
  .write (.dropLines (.update (.movePlaces (.pasteAt h))))

/-! ### The state-space sequencer -/

theorem Canonical.ssbStatus {o v} (h : Canonical s) : Canonical (s.ssbStatus o v) := .write h

theorem Canonical.ssxEnd {core o err} (h : Canonical s) : Canonical (s.ssxEnd core o err) :=
  .convEverywhere (.modCore (.ssbStatus h))

theorem Canonical.ssbRecord {core o c} (h : Canonical s) : Canonical (s.ssbRecord core o c) := .modCore (.write (.write h))

theorem Canonical.clobberWork {o} (h : Canonical s) : Canonical (s.clobberWork o) := .cistWrite h

theorem Canonical.chunkDone {core o c out ws} (h : Canonical s) : Canonical (s.chunkDone core o c out ws) := by
  unfold State.chunkDone
  dsimp only
  split
  · exact .ssxEnd (.ssbRecord (.modCore (.clobberWork (.foldl (fun _ _ h => .piecesWrite h) h))))
  · exact .convEverywhere (.ssbRecord (.modCore (.clobberWork (.foldl (fun _ _ h => .piecesWrite h) h))))

theorem Canonical.storeVirtual {core o va b} (h : Canonical s) : Canonical (s.storeVirtual core o va b) := by
  unfold State.storeVirtual
  split
  · exact .storeFrom h
  · exact h

theorem Canonical.startSsq {id e off dst} (h : Canonical s) : Canonical (s.startSsq id e off dst) := .setEntry h

theorem Canonical.ssqStep {id} (h : Canonical s) : Canonical (s.ssqStep id) := by
  unfold State.ssqStep
  split
  · exact h
  · split
    · exact .ite h (.complete (.setThread h))
    · exact h

/-! ### The Ethernet transport -/

theorem Canonical.setCong {k c} (h : Canonical s) : Canonical (s.setCong k c) := h

theorem Canonical.newPath {rank p t} (h : Canonical s) (e : s.newPath rank = some (p, t)) : Canonical t := by
  unfold State.newPath at e
  dsimp only at e
  split at e
  · cases e
  · obtain ⟨_, _, e⟩ := Option.map_eq_some_iff.mp e
    cases e
    exact .setCong h

theorem Canonical.nextPath {rank path p t} (h : Canonical s) (e : s.nextPath rank path = some (p, t)) : Canonical t := by
  unfold State.nextPath at e
  dsimp only at e
  split at e
  · cases e
  · obtain ⟨_, _, e⟩ := Option.map_eq_some_iff.mp e
    cases e
    exact .setCong h

theorem Canonical.modPath {rank path f} (h : Canonical s) : Canonical (s.modPath rank path f) := .setCong h

theorem Canonical.countCheck {code} (h : Canonical s) : Canonical (s.countCheck code) := .ite h (.count h)

theorem Canonical.atomicAt {from' op wide value compare ps} (h : Canonical s) :
    Canonical (s.atomicAt from' op wide value compare ps).1 := by
  unfold State.atomicAt
  dsimp only
  split
  · exact h
  · exact .partsWrite h

theorem Canonical.setReceiver {source r} (h : Canonical s) : Canonical (s.setReceiver source r) := h

theorem Canonical.sendAck {source} (h : Canonical s) : Canonical (s.sendAck source) := .send h

theorem Canonical.refusePacket {source psn code} (h : Canonical s) : Canonical (s.refusePacket source psn code) :=
  .send (.countCheck h)

theorem Canonical.acceptPacket {source psn} (h : Canonical s) : Canonical (s.acceptPacket source psn) :=
  .sendAck (.setReceiver h)

theorem Canonical.placed {p before n ctr} (h : Canonical s) : Canonical (s.placed p before n ctr) := by
  unfold State.placed
  dsimp only
  split
  · split
    · exact .ctrMessage (.setReceiver h)
    · exact .setReceiver h
  · exact .setReceiver h

theorem Canonical.takePacket {p} (h : Canonical s) : Canonical (s.takePacket p) := by
  unfold State.takePacket
  split
  · split
    · exact .refusePacket h
    · exact .ite (.refusePacket h) (.ite h (.acceptPacket (.placed (.partsWrite h))))
  · split
    · exact .refusePacket h
    · exact .ite h (.ite (.send h) (.send (.acceptPacket h)))
  · dsimp only
    split
    · exact .refusePacket h
    · exact .ite h (.ite (.send h) (.send (.acceptPacket (.atomicAt h))))

theorem Canonical.hears {rank port cls f} (h : Canonical s) (hf : Keeps f) : Canonical (s.hears rank port cls f) := by
  unfold State.hears
  extract_lets eth
  split
  · exact hf _ (.numberFlit h)
  · exact h

theorem Canonical.setFolding {gid f} (h : Canonical s) : Canonical (s.setFolding gid f) := h

theorem Canonical.foldElement {e p r i} (h : Canonical r.1) : Canonical (Machine.foldElement e p r i).1 :=
  .ite_fst (.ite_fst (.partsWrite h) h) (.ite_fst (.partsWrite h) h)

theorem Canonical.foldPacket {e p r} (h : Canonical r.1) : Canonical (Machine.foldPacket e r p).1 := .foldl_fst (fun _ _ h => .foldElement h) h

theorem Canonical.foldHeld {e fuel r} (h : Canonical r.1) : Canonical (Machine.foldHeld e fuel r).1 := by
  induction fuel generalizing r with
  | zero => exact h
  | succ n ih => exact ih (.foldl_fst (fun _ _ h => .foldPacket h) h)

theorem Canonical.foldOn {gid fuel f} (h : Canonical s) : Canonical (s.foldOn gid fuel f) := by
  induction fuel generalizing s f with
  | zero => exact .setFolding h
  | succ n ih =>
    have h' : Canonical (Machine.foldHeld (s.groupEntry gid) (f.held.length + 1) (s, f)).1 :=
      .foldHeld (by exact h)
    unfold State.foldOn
    exact .ite (ih (.ite (.ite (.ctrMessage h') h') (.setGen (.ite (.ctrMessage h') h')))) (.setFolding h')

theorem Canonical.reduce {p} (h : Canonical s) : Canonical (s.reduce p) := .ite (.foldOn h) (.count h)

theorem Canonical.modMessage {n f} (h : Canonical s) : Canonical (s.modMessage n f) := h

theorem Canonical.dropMessage {n} (h : Canonical s) : Canonical (s.dropMessage n) := h

theorem Canonical.endPiece {core request piece n err} (h : Canonical s) : Canonical (s.endPiece core request piece n err) := by
  unfold State.endPiece
  split
  · exact .pieceDone h
  · exact h

theorem Canonical.failMessage {m} (h : Canonical s) : Canonical (s.failMessage m) := by
  unfold State.failMessage
  dsimp only
  split
  · exact .pend (.count (.dropMessage h))
  · exact .pend (.count (.dropMessage h))
  · exact .pend (.count (.dropMessage h))
  · split
    · exact .openElement (.pend (.count (.dropMessage h)))
    · exact .count (.dropMessage h)
  · exact .endPiece (.count (.dropMessage h))
  · split
    · exact .failEntry (.count (.dropMessage h))
    · exact .count (.dropMessage h)
  · split
    · exact .failEntry (.count (.dropMessage h))
    · exact .count (.dropMessage h)

theorem Canonical.endMessage {m} (h : Canonical s) : Canonical (s.endMessage m) := by
  unfold State.endMessage
  dsimp only
  split
  · exact .ctrLocal (.dropMessage h)
  · exact .ctrLocal (.dropMessage h)
  · exact .endPiece (.dropMessage h)
  · exact .dropMessage h

theorem Canonical.payloadBatch {m va} (h : Canonical s) : Canonical (s.payloadBatch m va) := .engineBatch h

theorem Canonical.emit {m psn path off b} (h : Canonical s) : Canonical (s.emit m psn path off b) := .ite h (.send h)

theorem Canonical.takePsn {m off path} (h : Canonical s) : Canonical (s.takePsn m off path).1 := h

theorem Canonical.holdTicket {m path} (h : Canonical s) : Canonical (s.holdTicket m path) := h

theorem Canonical.firstPath {m p t} (h : Canonical s) (e : s.firstPath m = some (p, t)) : Canonical t := by
  unfold State.firstPath at e
  split at e
  · rw [Option.some.injEq, Prod.mk.injEq] at e
    exact e.2 ▸ h
  · exact .newPath h e

theorem Canonical.againPath {m path p t} (h : Canonical s) (e : s.againPath m path = some (p, t)) : Canonical t := by
  unfold State.againPath at e
  split at e
  · rw [Option.some.injEq, Prod.mk.injEq] at e
    exact e.2 ▸ h
  · exact .nextPath h e

theorem Canonical.sendGlb {m} (h : Canonical s) : Canonical (s.sendGlb m) := by
  unfold State.sendGlb
  dsimp only
  split
  · exact h
  · exact .payloadBatch h
  · exact .failMessage h
  · split
    · exact h
    next e => exact .modMessage (.emit (.takePsn (.firstPath h e)))

theorem Canonical.podBulk {m member off k} (h : Canonical s) : Canonical (s.podBulk m member off k) := .send h

theorem Canonical.sendPod {m member} (h : Canonical s) : Canonical (s.sendPod m member) := by
  unfold State.sendPod
  dsimp only
  split
  · split
    · exact h
    · split
      · exact h
      · exact .payloadBatch h
      · exact .failMessage h
      · exact .modMessage (.update (.podBulk h))
  · split
    · exact .ite h (.modMessage (.startFlush h))
    · split
      · split
        · exact .ite h (.modMessage (.podBulk (.holdTicket h)))
        · exact .endMessage h
      · exact h

theorem Canonical.sendSelfWrite {m ctr} (h : Canonical s) : Canonical (s.sendSelfWrite m ctr) := by
  unfold State.sendSelfWrite
  dsimp only
  split
  · exact .failMessage (.countCheck h)
  · split
    · exact .failMessage (.countCheck h)
    · split
      · exact h
      · split
        · exact h
        · exact .payloadBatch h
        · exact .failMessage h
        · exact .ite (.endMessage (.ctrMessage (.partsWrite h))) (.modMessage (.partsWrite h))

theorem Canonical.sendSelfFold {m gid gen} (h : Canonical s) : Canonical (s.sendSelfFold m gid gen) := by
  unfold State.sendSelfFold
  dsimp only
  split
  · exact h
  · exact .payloadBatch h
  · exact .failMessage h
  · exact .ite (.failMessage (.countCheck h)) (.ite h (.ite (.endMessage (.reduce h)) (.modMessage (.reduce h))))

theorem Canonical.acknowledged {rank cum bitmap ecn} (h : Canonical s) : Canonical (s.acknowledged rank cum bitmap ecn) :=
  .foldl (fun _ _ h => .endMessage h) (.update (.foldl (fun _ _ h => .ite h (.modPath h)) h))

theorem Canonical.resendPacket {w m} (h : Canonical s) : Canonical (s.resendPacket w m) := by
  unfold State.resendPacket
  split
  · exact h
  · exact .payloadBatch h
  · exact .failMessage h
  · split
    · exact h
    next e => exact .count (.emit (.update (.againPath h e)))

theorem Canonical.sendAgain {w m} (h : Canonical s) : Canonical (s.sendAgain w m) := .ite (.failMessage h) (.resendPacket h)

/-! ### Returns -/

theorem Canonical.startAccess {id e back} (h : Canonical s) : Canonical (s.startAccess id e back) := by
  unfold State.startAccess
  split
  · exact .startLoad h
  · exact .acceptStore h
  · exact .startAtom h
  · exact .startCadd h
  · exact .startCpoll h
  · exact .startWsig h
  · exact .startWred h
  · exact .startBarm h
  · exact h
  · exact .startMrd h
  · exact .startSsq h
  · exact .startRhset h
  · exact .startRhpri h
  · exact .startRhdem h
  · exact .startPref h
  · exact .startSpawn h
  · exact .startCacheop h
  · exact h

theorem Canonical.entryStart {id e back} (h : Canonical s) : Canonical (s.entryStart id e back) :=
  .ite (.ite (.pursueOwn h) h) (.ite h (.startAccess h))

theorem Canonical.entryReturn {id e r back} (h : Canonical s) : Canonical (s.entryReturn id e r back) := by
  unfold State.entryReturn
  split
  · exact .entryStart h
  · split
    · exact h
    · split
      · exact .answerLoad h
      · exact .answerAtom h
      · exact h
  · exact h

theorem Canonical.entryAnswered {id e r back} (h : Canonical s) : Canonical (s.entryAnswered id e r back) := by
  unfold State.entryAnswered
  split
  · exact .answered h (fun _ h => .entryReturn h)
  · exact .entryReturn h

theorem Canonical.lookAgain {id} (h : Canonical s) : Canonical (s.lookAgain id) := .meet (.barriers h)

theorem Canonical.deliverFlit {x1} (h : Canonical s) : Canonical (s.deliverFlit x1) := by
  unfold State.deliverFlit
  split
  · split
    · exact .lookAgain (.entryReturn h)
    · exact h
  · split
    · exact .ite h (.fetchStep h)
    · exact h
  · exact h

theorem Canonical.usedIf {f ps} (h : Canonical s) : Canonical (s.usedIf f ps) := .ite (.useLines h) h

theorem Canonical.denyEngine {x1} (h : Canonical s) : Canonical (s.denyEngine x1) := by
  unfold State.denyEngine
  split
  · exact h
  · exact h
  · split
    · exact .pieceRefused h
    · exact h
  · split
    · exact .elementDone h
    · exact h
  · split
    · exact .ssxEnd h
    · exact h
  · split
    · exact .failMessage h
    · exact h
  · exact .denyJoin h
  · exact .finish h

theorem Canonical.fillTlb {t} (h : Canonical s) : Canonical (s.fillTlb t) := h

theorem Canonical.forgetPage {die asid va} (h : Canonical s) : Canonical (s.forgetPage die asid va) := h

theorem Canonical.cachePointers {die asid va} (h : Canonical s) : Canonical (s.cachePointers die asid va) := by
  unfold State.cachePointers
  dsimp only
  have add : ∀ {s : State} {level index : Nat} {e : Option Nat}, Canonical s → Canonical (match s.cachedPointer die asid level va, e with
      | none, some e => if pointerOk e then
          { s with walks := s.walks ++ [{ die := die, asid := asid, level := level, index := index, entry := e }] }
        else s
      | _, _ => s) := fun h => by
    split
    · exact .ite h h
    · exact h
  exact add (add h)

/-! ### The scheduler -/

theorem Canonical.resumeThread {id t slice bytes} (h : Canonical s) : Canonical (s.resumeThread id t slice bytes) :=
  .setThread (.pasteAt h)

theorem Canonical.restoreSets {core v} (h : Canonical s) : Canonical (s.restoreSets core v) :=
  .fillActive (.foldl (fun _ _ h => .modCore h) (.foldl (fun _ _ h => .modCore h) h))

theorem Canonical.resumeTeam {f id v} (h : Canonical s) : Canonical (s.resumeTeam f id v) :=
  have h' := h.scratchRoom.cisternRoom.pasteAt
  .modCore (.restoreSets (.foldl (fun _ _ h => .entered h) (.foldl (fun _ _ h => .resumeThread h)
    (.setCist h' (Memory.wf_paste (Memory.wf_clear h'.cist _ _) _ _)))))

theorem Canonical.resumeCluster {v pos} (h : Canonical s) : Canonical (s.resumeCluster v pos) :=
  .foldl (fun _ _ h => .resumeTeam h) (.renameOutside h)

theorem Canonical.setDeficits {defs} (h : Canonical s) : Canonical (s.setDeficits defs) :=
  .foldl (fun _ _ h => .setQueue h) h

theorem Canonical.countSkips {q ready} (h : Canonical s) : Canonical (s.countSkips q ready) :=
  .foldl (fun _ _ h => .ite (.update (.setQueue h)) (.setQueue h)) (.update (.setQueue h))

theorem Canonical.dispatch {q pos ready} (h : Canonical s) : Canonical (s.dispatch q pos ready) := by
  unfold State.dispatch
  refine .countSkips ?_
  split
  · exact .resumeCluster h
  · exact .modLaunch (.startCluster h)
  · exact h

theorem Canonical.setActions {l} (h : Canonical s) : Canonical (s.setActions l) := .foldl (fun _ _ h => .modTeam h) h

theorem Canonical.preemptFor {r below} (h : Canonical s) : Canonical (s.preemptFor r below) := by
  unfold State.preemptFor
  split
  · exact h
  · split
    · exact h
    · exact .ite h (.update (.setActions h))

theorem Canonical.preempt {q below} (h : Canonical s) : Canonical (s.preempt q below) := by
  unfold State.preempt
  split
  · exact .preemptFor h
  · exact h

theorem Canonical.returnFlushed {number} (h : Canonical s) : Canonical (s.returnFlushed number) := by
  unfold State.returnFlushed
  split
  · exact h
  · exact .ite (.update (.modLaunch h)) h

theorem Canonical.closeCalls {id} (h : Canonical s) : Canonical (s.closeCalls id) := h

theorem Canonical.settleSaving (h : Canonical s) : Canonical s.settleSaving := .ite h h

theorem Canonical.forgetElements {id} (h : Canonical s) : Canonical (s.forgetElements id) := h

theorem Canonical.zeroDeficits (h : Canonical s) : Canonical s.zeroDeficits := h

theorem Canonical.beforeDecision (h : Canonical s) : Canonical s.beforeDecision :=
  .zeroDeficits (.update (.sweep (.foldl (fun _ _ h => .returnFlushed h) h)))

theorem Canonical.dispatchOne (h : Canonical s) : Canonical s.dispatchOne := by
  unfold State.dispatchOne
  dsimp only
  split
  · split
    · exact .dispatch (.beforeDecision h)
    · exact .preempt (.beforeDecision h)
  · split
    · split
      · exact .ite (.preempt (.beforeDecision h)) (.beforeDecision h)
      · exact .beforeDecision h
    · split
      · split
        · exact .ite (.preempt (.beforeDecision h)) (.beforeDecision h)
        · exact .beforeDecision h
      · refine .dispatch (.setDeficits (.update ?_))
        split
        · exact .ite (.preempt (.beforeDecision h)) (.beforeDecision h)
        · exact .beforeDecision h

/-! ### The consistent cut -/

theorem Canonical.rewindUnit {x1} (h : Canonical s) : Canonical (s.rewindUnit x1) := by
  unfold State.rewindUnit
  split
  · exact .modThread h
  · exact h

theorem Canonical.chooseSaves {ts} (h : Canonical s) : Canonical (s.chooseSaves ts) := .update (.setActions h)

theorem Canonical.saveAll (h : Canonical s) : Canonical s.saveAll :=
  .foldl_fst (fun _ _ h => .ite_fst h (.ite_fst h (.chooseSaves h))) h

theorem Canonical.settleCut (h : Canonical s) : Canonical s.settleCut := .ite (.ite (.saveAll h) h) h

theorem Canonical.requestStop {save} (h : Canonical s) : Canonical (s.requestStop save) :=
  .ite (.ite (.saveAll h) h) (.ite h h)

/-! ### The pod -/

theorem Canonical.keepPodFail {q code} (h : Canonical s) : Canonical (s.keepPodFail q code) := by
  unfold State.keepPodFail
  dsimp only
  split
  · exact .countCheck h
  · exact .update (.countCheck h)

theorem Canonical.refusePod {q code} (h : Canonical s) : Canonical (s.refusePod q code) := .send (.countCheck h)

theorem Canonical.answerFlush {q} (h : Canonical s) : Canonical (s.answerFlush q) := .ite (.refusePod h) (.send h)

theorem Canonical.podArrive {q} (h : Canonical s) : Canonical (s.podArrive q) := by
  unfold State.podArrive
  dsimp only
  split
  · split
    · exact .keepPodFail h
    · exact .ite h (.partsWrite h)
  · split
    · exact .refusePod h
    · exact .ite h (.ite (.send h) (.send h))
  · split
    · exact .refusePod h
    · exact .ite h (.ite (.send h) (.send (.atomicAt h)))
  · exact .ite (.refusePod h) (.ite (.refusePod h) (.send (.ctrMessage h)))
  · exact .answerFlush h

theorem Canonical.dropRelease {id stamp} (h : Canonical s) : Canonical (s.dropRelease id stamp) := by
  unfold State.dropRelease
  dsimp only
  split
  · exact .setEntry h
  · exact h

theorem Canonical.failFlushUser {peer u} (h : Canonical s) : Canonical (s.failFlushUser peer u) :=
  .ite (.pend h) (.dropRelease (.pend h))

theorem Canonical.endFlush {peer code users} (h : Canonical s) : Canonical (s.endFlush peer code users) := h

theorem Canonical.entryLate {id entry} (h : Canonical s) : Canonical (s.entryLate id entry) := by
  unfold State.entryLate
  split
  · exact h
  · dsimp only
    split
    · exact .ite (.failEntry (.count h)) h
    · exact .ite (.failEntry (.count h)) h
    · exact h

theorem Canonical.streamLate {id k} (h : Canonical s) : Canonical (s.streamLate id k) := by
  unfold State.streamLate
  split
  · exact .ite (.failElement (.count h)) h
  · exact h

theorem Canonical.pieceLate {core request piece} (h : Canonical s) : Canonical (s.pieceLate core request piece) := by
  unfold State.pieceLate
  split
  · exact h
  · split
    · exact h
    · exact .ite (.pieceUnanswered (.count h)) h

theorem Canonical.elementLate {core chain element} (h : Canonical s) : Canonical (s.elementLate core chain element) := by
  unfold State.elementLate
  split
  · exact h
  · exact .ite (.elementUnanswered (.count h)) h

/-! ### Writes to the management block -/

theorem Canonical.writeRow {master off v} (h : Canonical s) : Canonical (s.writeRow master off v) := by
  unfold State.writeRow
  split
  · exact .ite (.enablePort h) (.disablePort h)
  · split
    · exact .capPower h
    · split
      · exact .ite (.enableJob h) (.disableJob h)
      · exact .ite (.ite h h) (.ite (.ite (.enableWindow h) (.writeWord h)) (.ite (.enableQueue h) (.disableQueue h)))

theorem Canonical.writeWide {master ws} (h : Canonical s) : Canonical (s.writeWide master ws) :=
  .foldl (fun _ _ h => .writeRow h) (.foldl (fun _ _ h => .writeWord h) h)

/-! ### The turn of a gang -/

theorem Canonical.fetchMissing {id t} (h : Canonical s) : Canonical (s.fetchMissing id t) :=
  .ite (.setThread h) (.postFault h)

theorem Canonical.fetchDenied {id t} (h : Canonical s) : Canonical (s.fetchDenied id t) :=
  .ite (.setThread h) (.getD (fun _ e => .deliver h e) (.trap h))

theorem Canonical.serve {g slice ms} (h : Canonical s) : Canonical (s.serve g slice ms) := .modGroup h

theorem Canonical.beginTurn {g turns issues} (h : Canonical s) : Canonical (s.beginTurn g turns issues) := by
  unfold State.beginTurn
  dsimp only
  split
  · exact .update (.countIssue (.tookTurn (.foldl (fun _ _ h => .serve h) h)))
  · exact .tookTurn (.foldl (fun _ _ h => .serve h) h)

end Device

end Sys2Proof.Claims
end

section
/-! PROOFS. The canonical form over the descriptions of instructions (O5). -/
namespace Sys2Proof.Claims
open Sys2Proof.Machine

/-! An instruction is described in the `Issue` monad. A description keeps the form (`IssueKeeps`) when it keeps it for the device of its
context and sets down only changes that keep it; the lemmas below follow each description step by step. -/

/-! ### The steps of a description -/

theorem IssueKeeps.pure {α : Type} {a : α} : IssueKeeps (Pure.pure a : Issue α) := fun _ h => h

theorem IssueKeeps.bind {α β : Type} {m : Issue α} {f : α → Issue β} (hm : IssueKeeps m) (hf : ∀ a, IssueKeeps (f a)) :
    IssueKeeps (m >>= f) := fun c h => hf _ _ (hm c h)

/-- What follows a look at the context may use that the device it shows has the form. -/
theorem IssueKeeps.get_bind {β : Type} {f : Ctx → Issue β} (hf : ∀ c, CtxCanonical c → IssueKeeps (f c)) : IssueKeeps (get >>= f) :=
  fun c h => hf c h c h

theorem IssueKeeps.modify {f : Ctx → Ctx} (hf : ∀ c, CtxCanonical c → CtxCanonical (f c)) : IssueKeeps (modify f) := hf

theorem IssueKeeps.ite {c : Prop} [Decidable c] {α : Type} {m n : Issue α} (hm : IssueKeeps m) (hn : IssueKeeps n) :
    IssueKeeps (if c then m else n) := by
  split <;> assumption

/-- A step that is taken under a condition, and what follows it in either case. -/
theorem IssueKeeps.guard {c : Prop} [Decidable c] {β : Type} {m : Issue Unit} {k : Unit → Issue β} (hm : IssueKeeps m)
    (hk : ∀ u, IssueKeeps (k u)) : IssueKeeps (if c then m >>= k else k ()) := .ite (.bind hm hk) (hk ())

theorem IssueKeeps.forM {α : Type} {f : α → Issue Unit} (hf : ∀ a, IssueKeeps (f a)) : ∀ {l : List α}, IssueKeeps (l.forM f)
  | [] => .pure
  | a :: _ => .bind (hf a) fun _ => IssueKeeps.forM hf

theorem IssueKeeps.flag {x v} : IssueKeeps (flag x v) := .modify fun _ h => h.raise

theorem IssueKeeps.flagWord {x} : IssueKeeps (flagWord x) := .modify fun _ h => h.raise

theorem IssueKeeps.flagIf {b x v} : IssueKeeps (flagIf b x v) := .modify fun _ h => by
  split
  · exact h.raise
  · exact h

theorem IssueKeeps.flagWordIf {b x} : IssueKeeps (flagWordIf b x) := .modify fun _ h => by
  split
  · exact h.raise
  · exact h

theorem IssueKeeps.checkedWith {lost m} (hm : IssueKeeps m) : IssueKeeps (checkedWith lost m) := fun c h =>
  hm { c with unknown := lost } h

theorem IssueKeeps.isLost : IssueKeeps isLost := fun _ h => h

theorem IssueKeeps.modTh {f} : IssueKeeps (modTh f) := fun _ h => h

theorem IssueKeeps.modDev {f} (hf : Keeps f) : IssueKeeps (modDev f) := fun _ h => ⟨hf _ h.dev, h.always, h.onFault⟩

theorem IssueKeeps.holdFor {w} : IssueKeeps (holdFor w) := .modify fun _ h => by split <;> exact h

theorem IssueKeeps.parkAt {w} : IssueKeeps (parkAt w) := fun _ h => h

theorem IssueKeeps.regardless {f} (hf : Keeps f) : IssueKeeps (regardless f) := fun _ h => ⟨h.dev, hf, h.onFault⟩

theorem IssueKeeps.whenFaulting {f} (hf : Keeps f) : IssueKeeps (whenFaulting f) := fun _ h =>
  ⟨h.dev, h.always, fun _ e => Option.some.inj e ▸ hf⟩

theorem IssueKeeps.alone {α : Type} {m : Issue α} (hm : IssueKeeps m) : IssueKeeps (alone m) := fun c h => hm { c with unknown := false } h

theorem IssueKeeps.stallNow : IssueKeeps stallNow := fun _ h => h

theorem IssueKeeps.goto {a} : IssueKeeps (goto a) := fun _ h => h

theorem IssueKeeps.src {f} : IssueKeeps (src f) := fun _ h => h.resolve.rd

theorem IssueKeeps.srcP {f} : IssueKeeps (srcP f) := fun _ h => h.resolve.rdp

theorem IssueKeeps.srcB {f} : IssueKeeps (srcB f) := fun c h => by
  unfold Machine.srcB
  split
  · dsimp only
    split
    · exact h
    · exact h.raise
  · exact IssueKeeps.src c h

theorem IssueKeeps.dst {f} : IssueKeeps (dst f) := fun _ h => by
  unfold Machine.dst
  dsimp only
  split
  · exact h.resolve.checkAppend
  · exact h.resolve

theorem IssueKeeps.dstP {f} : IssueKeeps (dstP f) := fun _ h => by
  unfold Machine.dstP
  dsimp only
  split
  · exact h.resolve
  · split
    · exact h.resolve
    · exact h.resolve.loseWord
  · exact h.resolve.checkAppend

theorem IssueKeeps.wr {l v} : IssueKeeps (wr l v) := .modify fun _ h => by
  split
  · exact h
  · exact h
  · exact h.append

theorem IssueKeeps.wrp {l v} : IssueKeeps (wrp l v) := .modify fun _ h => by
  split
  · exact h
  · exact h
  · exact h.append

theorem IssueKeeps.rdDst {l} : IssueKeeps (rdDst l) := fun _ h => h.rd

theorem IssueKeeps.rdDstP {l} : IssueKeeps (rdDstP l) := fun _ h => h.rdp

theorem IssueKeeps.block {f m k} : IssueKeeps (block f m k) := fun _ h => by
  unfold Machine.block
  dsimp only
  split
  · split
    · exact h.resolve
    · exact h.resolve.loseWord
  · exact h.resolve.loseWord
  · exact h.resolve

theorem IssueKeeps.dstDeferred {f m k} : IssueKeeps (dstDeferred f m k) := fun _ h => by
  unfold Machine.dstDeferred
  dsimp only
  split
  · split
    · exact h.resolve
    · exact h.resolve.loseWord
  · exact h.resolve.loseWord
  · exact h.resolve

theorem IssueKeeps.regOf {n} : IssueKeeps (regOf n) := fun _ h => h

theorem IssueKeeps.pairOf {n} : IssueKeeps (pairOf n) := fun _ h => h

theorem IssueKeeps.access {a} : IssueKeeps (access a) := .modify fun _ h => by split <;> exact h

theorem IssueKeeps.immPayloadZero : IssueKeeps immPayloadZero := fun _ h => by
  unfold Machine.immPayloadZero
  dsimp only
  split
  · exact h.raise
  · exact h

theorem IssueKeeps.modeOf : IssueKeeps modeOf := fun _ h => h

theorem IssueKeeps.draw {m} : IssueKeeps (draw m) := fun _ h => h

theorem IssueKeeps.policyOf {o} : IssueKeeps (policyOf o) := fun _ h => h

theorem IssueKeeps.pickImm {n} : IssueKeeps (pickImm n) := fun _ h => h

theorem IssueKeeps.setCond {c b} : IssueKeeps (setCond c b) := .modTh

theorem IssueKeeps.bodyCsrr {d n} : IssueKeeps (bodyCsrr d n) := by
  unfold Machine.bodyCsrr
  refine .bind .immPayloadZero fun _ => .get_bind fun _ _ => .bind .dst fun _ => ?_
  split
  · exact .bind .modTh fun _ => .wr
  · exact .flagWord

theorem IssueKeeps.bodyCsrw {a n} : IssueKeeps (bodyCsrw a n) := by
  unfold Machine.bodyCsrw
  refine .bind .immPayloadZero fun _ => .bind .src fun _ => .get_bind fun _ _ => ?_
  split
  · exact .bind .modTh fun _ => .ite (.modDev (fun _ h' => .modTeam h')) .pure
  · exact .flagWord

theorem IssueKeeps.bodySdef {q a} : IssueKeeps (bodySdef q a) :=
  .bind .immPayloadZero fun _ => .bind .block fun _ => .get_bind fun _ _ => .bind .flagWordIf fun _ =>
      .guard .holdFor fun _ => .bind .modTh fun _ => .modDev fun _ h' => h'

theorem IssueKeeps.bodySstop {q} : IssueKeeps (bodySstop q) :=
  .bind .immPayloadZero fun _ => .get_bind fun _ _ => .guard .holdFor fun _ => .modTh

theorem IssueKeeps.gotoTarget {x} : IssueKeeps (gotoTarget x) := .bind .flagIf fun _ => .goto

theorem IssueKeeps.bodyBstr {q k sense f} : IssueKeeps (bodyBstr q k sense f) := by
  unfold Machine.bodyBstr
  refine .get_bind fun _ _ => ?_
  split
  · exact .flagWord
  · exact .ite .gotoTarget .pure

theorem IssueKeeps.bodyBr {sense c f} : IssueKeeps (bodyBr sense c f) := .get_bind fun _ _ => .ite .gotoTarget .pure

theorem IssueKeeps.bodyJmp {f} : IssueKeeps (bodyJmp f) := .get_bind fun _ _ => .gotoTarget

theorem IssueKeeps.bodyCall {d f} : IssueKeeps (bodyCall d f) :=
  .bind .dstP fun _ => .get_bind fun _ _ => .bind .wrp fun _ => .gotoTarget

theorem IssueKeeps.gotoIndirect {x} : IssueKeeps (gotoIndirect x) := .gotoTarget

theorem IssueKeeps.bodyBrx {a} : IssueKeeps (bodyBrx a) := .bind .srcP fun _ => .gotoIndirect

theorem IssueKeeps.bodyCallx {d a} : IssueKeeps (bodyCallx d a) :=
  .bind .srcP fun _ => .bind .dstP fun _ => .get_bind fun _ _ => .bind .wrp fun _ => .gotoIndirect

theorem IssueKeeps.bodyRet {a} : IssueKeeps (bodyRet a) := .bind .srcP fun _ => .gotoIndirect

theorem IssueKeeps.bodyPark {n} : IssueKeeps (bodyPark n) := .get_bind fun _ _ => .ite .parkAt .pure

theorem IssueKeeps.bodyBrk {n} : IssueKeeps (bodyBrk n) :=
  .get_bind fun _ _ => .ite (.guard .holdFor (fun _ => .parkAt)) .flag

theorem IssueKeeps.arith32 {f d a b} : IssueKeeps (arith32 f d a b) :=
  .bind .src fun _ => .bind .srcB fun _ => .bind .dst fun _ => .bind .modeOf fun _ => .bind .draw fun _ => .wr

theorem IssueKeeps.arith64 {f d a b} : IssueKeeps (arith64 f d a b) :=
  .bind .srcP fun _ => .bind .srcP fun _ => .bind .dstP fun _ => .bind .modeOf fun _ => .bind .draw fun _ => .wrp

theorem IssueKeeps.addend {d} : IssueKeeps (addend d) := by
  unfold Machine.addend
  refine .get_bind fun _ _ => ?_
  split
  · exact .bind .src fun _ => .bind .dst fun _ => .pure
  · exact .bind .dst fun _ => .bind .rdDst fun _ => .pure

theorem IssueKeeps.addendP {d} : IssueKeeps (addendP d) := by
  unfold Machine.addendP
  refine .get_bind fun _ _ => ?_
  split
  · exact .bind .srcP fun _ => .bind .dstP fun _ => .pure
  · exact .bind .dstP fun _ => .bind .rdDstP fun _ => .pure

theorem IssueKeeps.fused32 {f d a b} : IssueKeeps (fused32 f d a b) :=
  .bind .src fun _ => .bind .srcB fun _ => .bind .addend fun _ => .bind .modeOf fun _ => .bind .draw fun _ => .wr

theorem IssueKeeps.fused64 {f d a b} : IssueKeeps (fused64 f d a b) :=
  .bind .srcP fun _ => .bind .srcP fun _ => .bind .addendP fun _ => .bind .modeOf fun _ => .bind .draw fun _ => .wrp

theorem IssueKeeps.raw32 {f d a b} : IssueKeeps (raw32 f d a b) :=
  .bind .src fun _ => .bind .srcB fun _ => .bind .dst fun _ => .wr

theorem IssueKeeps.raw64 {f d a b} : IssueKeeps (raw64 f d a b) :=
  .bind .srcP fun _ => .bind .srcP fun _ => .bind .dstP fun _ => .wrp

theorem IssueKeeps.raw32u {f d a} : IssueKeeps (raw32u f d a) := .bind .src fun _ => .bind .dst fun _ => .wr

theorem IssueKeeps.raw64u {f d a} : IssueKeeps (raw64u f d a) := .bind .srcP fun _ => .bind .dstP fun _ => .wrp

theorem IssueKeeps.arithPk {fm f d a b} : IssueKeeps (arithPk fm f d a b) :=
  .bind .src fun _ => .bind .srcB fun _ => .bind .dst fun _ => .bind .modeOf fun _ => .bind .draw fun _ =>
      .bind .draw fun _ => .wr

theorem IssueKeeps.fusedPk {fm f d a b} : IssueKeeps (fusedPk fm f d a b) :=
  .bind .src fun _ => .bind .srcB fun _ => .bind .addend fun _ => .bind .modeOf fun _ => .bind .draw fun _ =>
      .bind .draw fun _ => .wr

theorem IssueKeeps.rawPk {fm f d a b} : IssueKeeps (rawPk fm f d a b) :=
  .bind .src fun _ => .bind .srcB fun _ => .bind .dst fun _ => .wr

theorem IssueKeeps.rawPkU {fm f d a} : IssueKeeps (rawPkU fm f d a) := .bind .src fun _ => .bind .dst fun _ => .wr

theorem IssueKeeps.fcompare32 {k c a b} : IssueKeeps (fcompare32 k c a b) :=
  .bind .src fun _ => .bind .src fun _ => .setCond

theorem IssueKeeps.fcompare64 {k c a b} : IssueKeeps (fcompare64 k c a b) :=
  .bind .srcP fun _ => .bind .srcP fun _ => .setCond

theorem IssueKeeps.convRound {v f d a} : IssueKeeps (convRound v f d a) :=
  .bind .src fun _ => .bind .dst fun _ => .bind .modeOf fun _ => .bind .draw fun _ => .wr

theorem IssueKeeps.convDown32 {f own d a} : IssueKeeps (convDown32 f own d a) := by
  unfold Machine.convDown32
  refine .bind .src fun _ => .bind .dst fun _ => .bind .modeOf fun _ => .bind .policyOf fun _ => .bind .draw fun _ =>
      ?_
  split
  · exact .wr
  · exact .flagIf

theorem IssueKeeps.convDown64 {f own d a} : IssueKeeps (convDown64 f own d a) := by
  unfold Machine.convDown64
  refine .bind .srcP fun _ => .bind .dst fun _ => .bind .modeOf fun _ => .bind .policyOf fun _ => .bind .draw fun _ =>
      ?_
  split
  · exact .wr
  · exact .flagIf

theorem IssueKeeps.convWide {v d a} : IssueKeeps (convWide v d a) := .bind .src fun _ => .bind .dstP fun _ => .wrp

theorem IssueKeeps.convExact {v d a} : IssueKeeps (convExact v d a) := .bind .src fun _ => .bind .dst fun _ => .wr

theorem IssueKeeps.convSlot {o r d a f j} : IssueKeeps (convSlot o r d a f j) := by
  unfold Machine.convSlot
  refine .get_bind fun _ _ => .guard .flagWord fun _ => .bind .src fun _ => .bind .dst fun _ => .bind .rdDst fun _ =>
      .bind .draw fun _ => ?_
  split
  · exact .wr
  · exact .flagIf

theorem IssueKeeps.convUp {d a f j} : IssueKeeps (convUp d a f j) :=
  .get_bind fun _ _ => .guard .flagWord fun _ => .bind .src fun _ => .bind .dst fun _ => .bind .modeOf fun _ =>
      .bind .draw fun _ => .wr

theorem IssueKeeps.tileExists {t} : IssueKeeps (tileExists t) := .get_bind fun _ _ => .ite .flag .pure

theorem IssueKeeps.tileDefined {t} : IssueKeeps (tileDefined t) := by
  unfold Machine.tileDefined
  refine .get_bind fun _ _ => ?_
  split
  · exact .ite .flag .pure
  · exact .flag

theorem IssueKeeps.tileIdle {t} : IssueKeeps (tileIdle t) := .get_bind fun _ _ => .ite .holdFor .pure

theorem IssueKeeps.defineTile {t v} : IssueKeeps (defineTile t v) :=
  .get_bind fun _ _ => .bind .flagWordIf fun _ => .bind .flagIf fun _ => .bind .tileExists fun _ =>
      .bind .tileIdle fun _ => .modDev fun _ h' => .forgetCounts (.modTile h')

theorem IssueKeeps.bodyTdef {t i} : IssueKeeps (bodyTdef t i) := .get_bind fun _ _ => .defineTile

theorem IssueKeeps.bodyTdefReg {t a} : IssueKeeps (bodyTdefReg t a) := .bind .src fun _ => .defineTile

theorem IssueKeeps.bodyTfree {t} : IssueKeeps (bodyTfree t) :=
  .get_bind fun _ _ => .bind .tileExists fun _ => .bind .tileDefined fun _ => .bind .tileIdle fun _ =>
      .modDev fun _ h' => .modTile h'

theorem IssueKeeps.bodyTstate {t d} : IssueKeeps (bodyTstate t d) :=
  .get_bind fun _ _ => .bind .dst fun _ => .bind .tileExists fun _ => .wr

theorem IssueKeeps.coOffset {a align n} : IssueKeeps (coOffset a align n) :=
  .bind .block fun _ => .bind .regOf fun _ => .get_bind fun _ _ => .bind .flagIf fun _ => .bind .flagIf fun _ => .pure

theorem IssueKeeps.bodyBarm {a b} : IssueKeeps (bodyBarm a b) :=
  .bind .coOffset fun _ => .bind .src fun _ => .get_bind fun _ _ => .access

theorem IssueKeeps.bodyBarmT {t b} : IssueKeeps (bodyBarmT t b) :=
  .bind .src fun _ => .bind .tileExists fun _ => .bind .tileDefined fun _ => .get_bind fun _ _ => .access

theorem IssueKeeps.bodyBwait {a b} : IssueKeeps (bodyBwait a b) :=
  .bind .coOffset fun _ => .bind .src fun _ => .get_bind fun _ _ => .parkAt

theorem IssueKeeps.bodyBwaitT {t b} : IssueKeeps (bodyBwaitT t b) :=
  .bind .src fun _ => .bind .tileExists fun _ => .bind .tileDefined fun _ => .get_bind fun _ _ => .parkAt

theorem IssueKeeps.checkAddress {space addr n ordered} : IssueKeeps (checkAddress space addr n ordered) := by
  unfold Machine.checkAddress
  refine .get_bind fun _ _ => .ite ?_ ?_
  · exact .ite (.bind .flagIf (fun _ => .bind .flagIf fun _ => .flagIf)) .flagIf
  · exact .bind .flagIf fun _ => .flagIf

theorem IssueKeeps.dstSized {f n} : IssueKeeps (dstSized f n) := fun _ h => by
  unfold Machine.dstSized
  dsimp only
  split
  · exact h.resolve
  · split
    · exact h.resolve
    · exact h.resolve.loseWord
  · split
    · exact h.resolve.loseWord
    · exact h.resolve.checkAppend

theorem IssueKeeps.srcSized {f n} : IssueKeeps (srcSized f n) := fun _ h => by
  unfold Machine.srcSized
  dsimp only
  split
  · exact h.resolve
  · split
    · exact h.resolve
    · exact h.resolve.loseWord
  · split
    · exact h.resolve.loseWord
    · exact h.resolve.popStream

theorem IssueKeeps.wrSized {l n v} : IssueKeeps (wrSized l n v) := .modify fun _ h => by
  split
  · exact h
  · exact h
  · exact h.append

theorem IssueKeeps.memAddress {space fa off n} : IssueKeeps (memAddress space fa off n) := by
  unfold Machine.memAddress
  refine .get_bind fun _ _ => .ite ?_ ?_
  · exact .bind .block fun _ => .bind .pairOf fun _ => .pure
  · exact .bind .block fun _ => .bind .regOf fun _ => .pure

theorem IssueKeeps.memBody {space load op fd fa off} : IssueKeeps (memBody space load op fd fa off) := by
  unfold Machine.memBody
  refine .get_bind fun _ _ => .guard .flagWord fun _ => .bind .memAddress fun _ => .ite ?_ ?_
  · refine .ite ?_ ?_
    · exact .bind .isLost fun _ => .bind .dstSized fun _ => .bind (.checkedWith .checkAddress) fun _ =>
          .get_bind fun _ _ => .guard (fun _ h => h) fun _ => .wrSized
    · exact .bind .isLost fun _ => .bind .dstDeferred fun _ => .bind (.checkedWith .checkAddress) fun _ => .access
  · refine .bind .isLost fun _ => .bind .srcSized fun _ => .bind (.checkedWith .checkAddress) fun _ => .ite ?_ .access
    exact .get_bind fun _ _ => .guard (fun _ h => h) fun _ => .modDev fun _ h' => .storeFrom h'

theorem IssueKeeps.atomBody {op sc wide ret fd fa} : IssueKeeps (atomBody op sc wide ret fd fa) := by
  unfold Machine.atomBody
  refine .get_bind fun _ _ => .guard .flagWord fun _ => .bind .block fun _ => .bind .pairOf fun _ => .ite ?_ ?_
  · refine .bind .isLost fun _ => .ite ?_ ?_
    · exact .bind .dstDeferred fun _ => .bind (.checkedWith .checkAddress) fun _ => .get_bind fun _ _ => .access
    · exact .bind .block fun _ => .bind (.checkedWith .checkAddress) fun _ => .get_bind fun _ _ => .access
  · exact .bind .isLost fun _ => .bind .srcSized fun _ => .bind (.checkedWith .checkAddress) fun _ => .access

theorem IssueKeeps.bodyFence : IssueKeeps bodyFence :=
  .get_bind fun _ _ => .bind (.modDev (fun _ h' => .pardon h')) fun _ => .parkAt

theorem IssueKeeps.bodyDrainNt : IssueKeeps bodyDrainNt :=
  .get_bind fun _ _ => .bind (.modDev (fun _ h' => .pardon h')) fun _ => .parkAt

theorem IssueKeeps.bodyPflush {a} : IssueKeeps (bodyPflush a) := by
  unfold Machine.bodyPflush
  refine .bind .src fun _ => .get_bind fun _ _ => .bind .flagWordIf fun _ => .ite ?_ .pure
  split
  · exact .parkAt
  · exact .flagIf

theorem IssueKeeps.counterIndex {f} : IssueKeeps (counterIndex f) :=
  .bind .src fun _ => .bind .flagWordIf fun _ => .pure

theorem IssueKeeps.bodyCwait {c n} : IssueKeeps (bodyCwait c n) :=
  .bind .counterIndex fun _ => .bind .srcP fun _ => .get_bind fun _ _ => .parkAt

theorem IssueKeeps.bodyCadd {c n} : IssueKeeps (bodyCadd c n) :=
  .bind .counterIndex fun _ => .bind .srcP fun _ => .get_bind fun _ _ => .access

theorem IssueKeeps.bodyCpoll {d c} : IssueKeeps (bodyCpoll d c) :=
  .bind .counterIndex fun _ => .bind .dstDeferred fun _ => .access

theorem IssueKeeps.bodyWsig {a} : IssueKeeps (bodyWsig a) :=
  .bind .block fun _ => .get_bind fun _ _ => .bind .flagWordIf fun _ => .bind .flagIf fun _ => .bind .flagIf fun _ =>
      .bind .flagIf fun _ => .bind .flagIf fun _ => .access

theorem IssueKeeps.bodyWred {a} : IssueKeeps (bodyWred a) :=
  .bind .block fun _ => .get_bind fun _ _ => .bind .flagWordIf fun _ => .bind .flagIf fun _ => .bind .flagIf fun _ =>
      .bind .flagIf fun _ => .bind .flagIf fun _ => .bind .flagIf fun _ => .bind .flagIf fun _ =>
      .bind .access fun _ => .modDev fun _ h' => .advanceGen h'

theorem IssueKeeps.bodyCres {k a} : IssueKeeps (bodyCres k a) :=
  .bind .block fun _ => .get_bind fun _ _ => .bind .flagWordIf fun _ => .modDev fun _ h' => .modTeam h'

theorem IssueKeeps.bodyCrel {k} : IssueKeeps (bodyCrel k) := .get_bind fun _ _ => .modDev fun _ h' => .modTeam h'

theorem IssueKeeps.sign {g op scaleA scaleB task} : IssueKeeps (sign g op scaleA scaleB task) := by
  unfold Machine.sign
  refine .get_bind fun _ h => ?_
  dsimp only
  split
  · exact .flagWord
  · split
    · exact .flagWord
    · refine .ite .flagWord (.ite .holdFor (.ite .pure ?_))
      split
      · exact .ite .stallNow (.modDev fun _ _ => .update h.dev.setConv)
      next e => exact .modDev fun _ _ => ConvKeeps.issued (.convTry (.update h.dev.setConv)) e
      next e => exact .bind (.whenFaulting fun _ _ => ConvKeeps.failed (.convTry (.update h.dev.setConv)) e) fun _ => .flagWord

theorem IssueKeeps.bodyGdef {g a} : IssueKeeps (bodyGdef g a) := by
  unfold Machine.bodyGdef
  refine .bind .block fun _ => .get_bind fun _ _ => .bind .flagWordIf fun _ => ?_
  split
  · exact .flagWord
  · exact .bind .flagWordIf fun _ => .modDev fun _ h' => .setConv h'

theorem IssueKeeps.bodyMma {paired g s o l u} : IssueKeeps (bodyMma paired g s o l u) :=
  .bind .block fun _ => .bind .regOf fun _ => .bind .regOf fun _ => .bind .src fun _ => .sign

theorem IssueKeeps.tileReady {t} : IssueKeeps (tileReady t) := by
  unfold Machine.tileReady
  refine .bind .tileExists fun _ => .bind .tileDefined fun _ => .get_bind fun _ _ => ?_
  split
  · exact .ite .holdFor .modTh
  · exact .pure

theorem IssueKeeps.bodyMldb {g o} : IssueKeeps (bodyMldb g o) :=
  .bind .src fun _ => .bind .tileReady fun _ => .get_bind fun _ _ => .ite .sign .pure

theorem IssueKeeps.bodyMst {g o} : IssueKeeps (bodyMst g o) :=
  .bind .src fun _ => .bind .tileExists fun _ => .bind .tileDefined fun _ => .sign

theorem IssueKeeps.waitPerformed : IssueKeeps waitPerformed :=
  .get_bind fun _ _ => .bind (.regardless (fun _ h' => .pursue h')) fun _ => .stallNow

theorem IssueKeeps.bodySsx {g a} : IssueKeeps (bodySsx g a) :=
  .bind .coOffset fun _ => .get_bind fun _ _ => .ite .waitPerformed .sign

theorem IssueKeeps.bodyMrd {acc d a} : IssueKeeps (bodyMrd acc d a) :=
  .bind .src fun _ => .bind .dstDeferred fun _ => .get_bind fun _ _ => .bind .flagWordIf fun _ =>
      .bind .flagWordIf fun _ => .access

theorem IssueKeeps.laneSource {f} : IssueKeeps (laneSource f) := .block

theorem IssueKeeps.laneDest {f} : IssueKeeps (laneDest f) := .dstDeferred

theorem IssueKeeps.arriveLane {m op} : IssueKeeps (arriveLane m op) :=
  .get_bind fun _ _ => .bind .flagWordIf fun _ => .parkAt

theorem IssueKeeps.bodyRsend {slot b n} : IssueKeeps (bodyRsend slot b n) :=
  .bind .block fun _ => .get_bind fun _ _ => .parkAt

theorem IssueKeeps.bodyRrecv {slot b n} : IssueKeeps (bodyRrecv slot b n) := .bind .dstDeferred fun _ => .access

theorem IssueKeeps.reachBarrier {cl b n park} : IssueKeeps (reachBarrier cl b n park) := by
  unfold Machine.reachBarrier
  refine .get_bind fun _ _ => .bind .flagWordIf fun _ => ?_
  split
  · exact .flagWord
  · exact .ite .holdFor (.bind .flagWordIf (fun _ => .bind (.modDev (fun _ h' => .setBarrier (.pardon h'))) fun _ =>
        .ite .parkAt .pure))

theorem IssueKeeps.bodyArrive {b n cl} : IssueKeeps (bodyArrive b n cl) := .guard .flagWord fun _ => .reachBarrier

theorem IssueKeeps.bodyExit : IssueKeeps bodyExit := by
  unfold Machine.bodyExit
  refine .get_bind fun _ _ => .ite ?_ ?_
  · exact .bind (.regardless (fun _ h' => .landAll h')) fun _ => .bind .stallNow fun _ => .bind .modTh fun _ =>
        .parkAt
  · exact .bind .modTh fun _ => .parkAt

theorem IssueKeeps.bodyKick {a n} : IssueKeeps (bodyKick a n) :=
  .bind .coOffset fun _ => .get_bind fun _ _ => .guard .stallNow fun _ => .bind (.modDev (fun _ h' =>
      .modCore h')) fun _ => .parkAt

theorem IssueKeeps.bodySpawn {d a} : IssueKeeps (bodySpawn d a) :=
  .bind .block fun _ => .bind .regOf fun _ => .bind .regOf fun _ => .get_bind fun _ _ => .bind .flagIf fun _ =>
      .bind .flagIf fun _ => .bind .dstDeferred fun _ => .access

theorem IssueKeeps.rrr {f d a b} : IssueKeeps (rrr f d a b) :=
  .bind .src fun _ => .bind .srcB fun _ => .bind .dst fun _ => .wr

theorem IssueKeeps.rr {f d a} : IssueKeeps (rr f d a) := .bind .src fun _ => .bind .dst fun _ => .wr

theorem IssueKeeps.rrre {f d a b} : IssueKeeps (rrre f d a b) := by
  unfold Machine.rrre
  refine .bind .src fun _ => .bind .srcB fun _ => .get_bind fun _ _ => ?_
  split
  · exact .bind .src fun _ => .bind .dst fun _ => .wr
  · exact .bind .dst fun _ => .bind .rdDst fun _ => .wr

theorem IssueKeeps.rri {f d a i} : IssueKeeps (rri f d a i) :=
  .bind .src fun _ => .get_bind fun _ _ => .bind .dst fun _ => .wr

theorem IssueKeeps.rrn {f k d a i} : IssueKeeps (rrn f k d a i) :=
  .bind .src fun _ => .get_bind fun _ _ => .bind .dst fun _ => .wr

theorem IssueKeeps.rrs {f d a n} : IssueKeeps (rrs f d a n) :=
  .bind .src fun _ => .get_bind fun _ _ => .bind .dst fun _ => .wr

theorem IssueKeeps.rrrP {f d a b} : IssueKeeps (rrrP f d a b) :=
  .bind .src fun _ => .bind .srcB fun _ => .bind .dstP fun _ => .wrp

theorem IssueKeeps.compare {f c a b} : IssueKeeps (compare f c a b) :=
  .bind .src fun _ => .bind .src fun _ => .setCond

theorem IssueKeeps.compareI {f c a i} : IssueKeeps (compareI f c a i) :=
  .bind .src fun _ => .get_bind fun _ _ => .setCond

theorem IssueKeeps.choose {s c d a b} : IssueKeeps (choose s c d a b) :=
  .bind .src fun _ => .bind .src fun _ => .bind .dst fun _ => .get_bind fun _ _ => .wr

theorem IssueKeeps.moveImm {d i} : IssueKeeps (moveImm d i) := .get_bind fun _ _ => .bind .dst fun _ => .wr

theorem IssueKeeps.condRead {d} : IssueKeeps (condRead d) := .bind .dst fun _ => .get_bind fun _ _ => .wr

theorem IssueKeeps.condWrite {a} : IssueKeeps (condWrite a) := .bind .src fun _ => .modTh

theorem IssueKeeps.indexGet {d x} : IssueKeeps (indexGet d x) := .get_bind fun _ _ => .bind .dst fun _ => .wr

theorem IssueKeeps.indexSet {x b} : IssueKeeps (indexSet x b) := .bind .srcB fun _ => .modTh

theorem IssueKeeps.indexAdjust {x b} : IssueKeeps (indexAdjust x b) := .bind .srcB fun _ => .modTh

theorem IssueKeeps.formatGet {d f} : IssueKeeps (formatGet d f) := .get_bind fun _ _ => .bind .dst fun _ => .wr

theorem IssueKeeps.formatSet {f b} : IssueKeeps (formatSet f b) := .bind .srcB fun _ => .bind .flagIf fun _ => .modTh

theorem IssueKeeps.maskGet {d g} : IssueKeeps (maskGet d g) := .get_bind fun _ _ => .bind .dstP fun _ => .wrp

theorem IssueKeeps.maskSet {g b} : IssueKeeps (maskSet g b) := by
  unfold Machine.maskSet
  refine .get_bind fun _ _ => ?_
  split
  · exact .guard .flagWord fun _ => .bind .pure fun _ => .modTh
  · exact .bind .srcP fun _ => .modTh

theorem IssueKeeps.packed {w shift f d a b} : IssueKeeps (packed w shift f d a b) :=
  .bind .src fun _ => .bind .srcB fun _ => .get_bind fun _ _ => .bind .dst fun _ => .wr

theorem IssueKeeps.packedDot {w d a b} : IssueKeeps (packedDot w d a b) := by
  unfold Machine.packedDot
  refine .bind .src fun _ => .bind .srcB fun _ => .get_bind fun _ _ => ?_
  split
  · exact .bind .src fun _ => .bind .dst fun _ => .wr
  · exact .bind .dst fun _ => .bind .rdDst fun _ => .wr

theorem IssueKeeps.pairPair {f d a b} : IssueKeeps (pairPair f d a b) :=
  .bind .srcP fun _ => .bind .srcP fun _ => .bind .dstP fun _ => .wrp

theorem IssueKeeps.pairWord {f d a b} : IssueKeeps (pairWord f d a b) :=
  .bind .srcP fun _ => .bind .src fun _ => .bind .dstP fun _ => .wrp

theorem IssueKeeps.special {f d a} : IssueKeeps (special f d a) := .rr

theorem IssueKeeps.root {d a} : IssueKeeps (root d a) :=
  .bind .src fun _ => .bind .dst fun _ => .bind .modeOf fun _ => .bind .draw fun _ => .wr

theorem IssueKeeps.illegalXiss {a u} : IssueKeeps (illegalXiss a u) :=
  .get_bind fun _ _ => .guard .holdFor fun _ => (fun _ h => h)

theorem IssueKeeps.of_some {m : Issue Unit} (h : IssueKeeps m) : ∀ b ∈ some m, IssueKeeps b := fun _ e =>
  Option.some.inj e ▸ h

/-- Every instruction that is legal as an index-selected word has a description that keeps the form. -/
theorem IssueKeeps.permittedBody {i} : ∀ b ∈ permittedBody i, IssueKeeps b := by
  cases i with
  | add | sub | mul | mulhI | mulhN | minI | maxI | minN | maxN | and | or | xor | andn | shl | shr | sar | rot | bfxI
    | bfxN | absd => exact .of_some .rrr
  | mad | bfi => exact .of_some .rrre
  | clz | ctz | popc | brev | sext8 | sext16 | zext8 | zext16 | fclass | mov => exact .of_some .rr
  | mulwI | mulwN => exact .of_some .rrrP
  | cmp => exact .of_some .compare
  | sel => exact .of_some .choose
  | addi | muli => exact .of_some .rri
  | andi | ori | xori | roti => exact .of_some .rrn
  | shli | shri | sari => exact .of_some .rrs
  | cmpi => exact .of_some .compareI
  | padd8 | psub8 | paddsI8 | paddsN8 | psubsI8 | psubsN8 | pminI8 | pmaxI8 | pminN8 | pmaxN8 | pabsd8 | pshl8 | pshr8
    | psar8 | pavgN8 | padd16 | psub16 | paddsI16 | paddsN16 | psubsI16 | psubsN16 | pminI16 | pmaxI16 | pminN16
    | pmaxN16 | pabsd16 | pshl16 | pshr16 | psar16 | pavgN16 => exact .of_some .packed
  | pdot8 | pdot16 => exact .of_some .packedDot
  | addD | subD | andD | orD | xorD => exact .of_some .pairPair
  | shlD | shrD | sarD | addxI | addxN => exact .of_some .pairWord
  | fadd | fsub | fmul => exact .of_some .arith32
  | ffma | fnma => exact .of_some .fused32
  | fmin | fmax | fsgnj => exact .of_some .raw32
  | fabs | fneg => exact .of_some .raw32u
  | faddF64 | fsubF64 | fmulF64 => exact .of_some .arith64
  | ffmaF64 | fnmaF64 => exact .of_some .fused64
  | fminF64 | fmaxF64 | fsgnjF64 => exact .of_some .raw64
  | fabsF64 | fnegF64 => exact .of_some .raw64u
  | faddPk | fsubPk | fmulPk => exact .of_some .arithPk
  | ffmaPk | fnmaPk => exact .of_some .fusedPk
  | fminPk | fmaxPk => exact .of_some .rawPk
  | fnegPk => exact .of_some .rawPkU
  | frcp | frsq | fexp2 | flog2 | fsin | fcos | ftanh => exact .of_some .special
  | fsqrt => exact .of_some .root
  | fcmp => exact .of_some .fcompare32
  | fcmpF64 => exact .of_some .fcompare64
  | cvtF32I32 | cvtF32N32 => exact .of_some .convRound
  | cvtI32F32 | cvtN32F32 | cvtBf16F32 | cvtF16F32 => exact .of_some .convDown32
  | cvtF64F32 | cvtF64I32 | cvtF64N32 => exact .of_some .convWide
  | cvtF32F64 | cvtI32F64 | cvtN32F64 => exact .of_some .convDown64
  | cvtF32Bf16 | cvtF32F16 => exact .of_some .convExact
  | cvtdn => exact .of_some .convSlot
  | cvtup => exact .of_some .convUp
  | movcRead => exact .of_some .condRead
  | movcWrite => exact .of_some .condWrite
  | xget => exact .of_some .indexGet
  | xset => exact .of_some .indexSet
  | xadj => exact .of_some .indexAdjust
  | fget => exact .of_some .formatGet
  | fset => exact .of_some .formatSet
  | mget => exact .of_some .maskGet
  | mset => exact .of_some .maskSet
  | ldLn | stLn => exact .of_some .memBody
  | nop => exact .of_some .pure
  | _ => exact nofun

theorem IssueKeeps.permittedWord {u} : ∀ b ∈ permittedWord u, IssueKeeps b := by
  unfold Machine.permittedWord
  split
  · exact nofun
  · split
    · exact nofun
    · split
      · exact .permittedBody
      · exact nofun

theorem IssueKeeps.runWord {u b} (hb : IssueKeeps b) : IssueKeeps (runWord u b) := fun c h => by
  have hr : CtxCanonical (b { c with word := u, hs := HintSet.empty, flag := none, unknown := false }).2 := hb _ h
  unfold Machine.runWord
  dsimp only
  split
  · exact h
  · exact hr

theorem IssueKeeps.bodyXiss {a} : IssueKeeps (bodyXiss a) := by
  unfold Machine.bodyXiss
  refine .bind .src fun _ => .get_bind fun _ _ => .ite ?_ .pure
  split
  · exact .illegalXiss
  next e => exact .bind (.runWord (IssueKeeps.permittedWord _ e)) fun _ => .ite .illegalXiss .pure

theorem IssueKeeps.startChain {off place} (hp : ∀ ch, Keeps (place ch)) : IssueKeeps (startChain off place) :=
  .get_bind fun _ _ => .ite .waitPerformed <| .ite (.modDev fun _ h => .arriveAll h) <| .ite .stallNow <|
    .modDev fun _ h => hp _ _ (.modCore (.update h))

theorem IssueKeeps.bodyChain {a} : IssueKeeps (bodyChain a) :=
  .bind .coOffset fun _ => .get_bind fun _ _ => .startChain fun _ _ h' => .modCore h'

theorem IssueKeeps.quadTile {t} : IssueKeeps (quadTile t) := .bind .tileExists fun _ => .tileDefined

theorem IssueKeeps.taskCopy {off tiles} : IssueKeeps (taskCopy off tiles) :=
  .get_bind fun _ _ => .ite .waitPerformed (.bind .flagWordIf (fun _ => .ite .stallNow (.modDev (fun _ h' =>
      .placeFlow (.modCore h')))))

theorem IssueKeeps.taskWord {w tiles} : IssueKeeps (taskWord w tiles) := by
  unfold Machine.taskWord
  split
  · exact .bind .block fun _ => .bind .regOf fun _ => .bind .regOf fun _ => .bind .src fun _ => .sign
  · exact .bind .src fun _ => .bind .quadTile fun _ => .sign
  · exact .sign
  · exact .bind .src fun _ => .bind .quadTile fun _ => .sign
  · exact .flagWord

theorem IssueKeeps.bodyTask {a} : IssueKeeps (bodyTask a) := by
  unfold Machine.bodyTask
  refine .bind .block fun _ => .get_bind fun _ _ => .bind .flagWordIf fun _ => .bind (.forM (fun _ =>
      .quadTile)) fun _ => ?_
  split
  · exact .bind .quadTile fun _ => .ite .taskWord (.bind .flagIf (fun _ => .bind .flagIf fun _ =>
        .ite .stallNow (.ite .taskCopy (.startChain (fun _ _ h' => .placeFlow h')))))
  · exact .ite .taskWord (.bind .flagIf (fun _ => .bind .flagIf fun _ =>
        .ite .stallNow (.ite .taskCopy (.startChain (fun _ _ h' => .placeFlow h')))))

theorem IssueKeeps.bodySvc {a n} : IssueKeeps (bodySvc a n) :=
  .get_bind fun _ _ => .guard .flagWord fun _ => .bind .block fun _ => .get_bind fun _ _ =>
      .bind (.modDev (fun _ h' => .joinBatch h')) fun _ => .bind .modTh fun _ => .parkAt

theorem IssueKeeps.bodyTrap {c a} : IssueKeeps (bodyTrap c a) := by
  unfold Machine.bodyTrap
  refine .bind .src fun _ => .get_bind fun _ _ => ?_
  split
  · exact .flagWord
  · exact .ite .flagWord .flag

theorem IssueKeeps.bodyTret : IssueKeeps bodyTret := by
  unfold Machine.bodyTret
  refine .get_bind fun _ _ => .ite .flag (.ite ?_ ?_)
  · exact .bind .modTh fun _ => .bind .modTh fun _ => .parkAt
  · exact .bind .modTh fun _ => .get_bind fun _ _ => .goto

theorem IssueKeeps.bodyCacheop {op a b} : IssueKeeps (bodyCacheop op a b) :=
  .bind .block fun _ => .bind .pairOf fun _ => .bind .src fun _ => .access

theorem IssueKeeps.bodyTlbinv {a b} : IssueKeeps (bodyTlbinv a b) :=
  .bind .block fun _ => .bind .pairOf fun _ => .bind .isLost fun _ => .bind .src fun _ => .get_bind fun _ _ =>
      .bind (.checkedWith .flagIf) fun _ => .parkAt

theorem IssueKeeps.bodyWfe {a} : IssueKeeps (bodyWfe a) :=
  .bind .src fun _ => .get_bind fun _ _ => .ite .modTh .parkAt

theorem IssueKeeps.bodyRhset {d a} : IssueKeeps (bodyRhset d a) :=
  .bind .block fun _ => .bind .dstDeferred fun _ => .get_bind fun _ _ => .bind .flagWordIf fun _ => .access

theorem IssueKeeps.checkHandle {h} : IssueKeeps (checkHandle h) := .get_bind fun _ _ => .flagIf

theorem IssueKeeps.bodyRhpri {a b} : IssueKeeps (bodyRhpri a b) :=
  .bind (.alone .src) fun _ => .bind (.alone .src) fun _ => .bind (.checkedWith .flagWordIf) fun _ =>
    .bind (.checkedWith .checkHandle) fun _ => .access

theorem IssueKeeps.bodyRhdem {a} : IssueKeeps (bodyRhdem a) := .bind .src fun _ => .bind .checkHandle fun _ => .access

theorem IssueKeeps.bodyPref {a b} : IssueKeeps (bodyPref a b) :=
  .bind .block fun _ => .bind .pairOf fun _ => .bind .src fun _ => .access

theorem IssueKeeps.bodySsq {d a x} : IssueKeeps (bodySsq d a x) :=
  .bind .coOffset fun _ => .bind .dstDeferred fun _ => .ite .parkAt .access

end Sys2Proof.Claims
end

section
/-! PROOFS. What a row of the table answers, and that it keeps the canonical form (O5, O6). -/
namespace Sys2Proof.Claims
open Sys2Proof.Machine

/-! ### What a row answers -/

/-- A next state is answered, and it has the form if the state before it has. -/
def Answers (s : State) (o : Host.Outcome State Fault Refusal) : Prop := ∃ t, o = .next t ∧ (Canonical s → Canonical t)

/-- A row on behalf of the current thread: without one it stops with `noThread`, with one it answers. -/
def AnswersThread (s : State) (o : Host.Outcome State Fault Refusal) : Prop :=
  (s.thread? s.cur = none → o = .fault .noThread) ∧ ((s.thread? s.cur).isSome → Answers s o)

theorem Answers.next {s t : State} (h : Canonical s → Canonical t) : Answers s (.next t) := ⟨t, rfl, h⟩

theorem Answers.refl {s : State} : Answers s (.next s) := .next fun h => h

theorem Answers.ite {s : State} {c : Prop} [Decidable c] {a b : Host.Outcome State Fault Refusal} (ha : Answers s a)
    (hb : Answers s b) : Answers s (if c then a else b) := by
  split <;> assumption

/-- What is answered from a state that has the form if `s` has. -/
theorem Answers.after {s u : State} {o} (ho : Answers u o) (hu : Canonical s → Canonical u) : Answers s o :=
  let ⟨t, e, ht⟩ := ho
  ⟨t, e, fun h => ht (hu h)⟩

/-- What is answered from a state with the form if `s` has, in which the current thread exists if it does in `s`. -/
theorem AnswersThread.after {s u : State} {o} (ho : AnswersThread u o) (hu : Canonical s → Canonical u)
    (ht : (u.thread? u.cur).isSome = (s.thread? s.cur).isSome) : AnswersThread s o :=
  ⟨fun e => ho.1 (by simpa [e] using ht), fun e => (ho.2 (ht ▸ e)).after hu⟩

section Thread
variable {s : State}

theorem AnswersThread.issue {word sw acc body post} (hb : IssueKeeps body) (hp : Keeps post) :
    AnswersThread s (issue word sw acc body post s) := by
  unfold Machine.issue
  split
  next e => exact ⟨fun _ => rfl, fun t => by simp [e] at t⟩
  next e => exact ⟨fun t => by simp [e] at t, fun _ => .next fun h => .reach h hb hp⟩

theorem AnswersThread.plain {word acc body} (hb : IssueKeeps body) : AnswersThread s (plain word acc body s) :=
  .issue hb fun _ h => h

theorem AnswersThread.lane {word sw acc body} (hb : IssueKeeps body) : AnswersThread s (lane word sw acc body s) :=
  .issue hb fun _ h => .meet h

theorem AnswersThread.hintWord {x} : AnswersThread s (hintWord x s) := by
  unfold Machine.hintWord
  split
  next e => exact ⟨fun _ => rfl, fun t => by simp [e] at t⟩
  next e => exact ⟨fun t => by simp [e] at t, fun _ => .next fun h => .ite (.setThread h) h⟩

/-- Replacing a thread that exists leaves the current thread in place or absent, as it was. -/
theorem isSome_thread?_setThread {i j v} (hi : (s.thread? i).isSome) : ((s.setThread i v).thread? j).isSome = (s.thread? j).isSome := by
  by_cases e : j = i
  · subst e; rw [State.thread?_setThread, hi]; rfl
  · rw [State.thread?_setThread_other _ _ e]

theorem isSome_thread?_modThread {i j f} : ((s.modThread i f).thread? j).isSome = (s.thread? j).isSome := by
  unfold State.modThread
  split
  next e => exact isSome_thread?_setThread (Option.isSome_of_eq_some e)
  next => rfl

theorem cur_modThread {i f} : (s.modThread i f).cur = s.cur := by
  unfold State.modThread
  split <;> rfl

/-- What `rsend` does before its issue replaces the current thread at most. -/
theorem isSome_thread?_reachSend {i t word k} (hi : (s.thread? i).isSome) :
    ((s.reachSend i t word k).thread? (s.reachSend i t word k).cur).isSome = (s.thread? s.cur).isSome := by
  unfold State.reachSend
  split
  · rfl
  · split
    · exact isSome_thread?_setThread hi
    · split
      · rfl
      · exact isSome_thread?_setThread hi

theorem AnswersThread.rsend {w k b n} : AnswersThread s (execRsend w k b n s) := by
  refine AnswersThread.after (.issue .bodyRsend fun _ h => .turnouts h) (fun h => ?_) ?_
  · split
    · exact .reachSend h
    · exact h
  · split
    next e => exact isSome_thread?_reachSend (Option.isSome_of_eq_some e)
    next => rfl

theorem AnswersThread.illegalWord {w} : AnswersThread s (illegalWord w s) := by
  refine AnswersThread.after (.issue .flagWord fun _ h => h) (fun h => .ite (.modThread h) h) ?_
  split
  · rw [cur_modThread, isSome_thread?_modThread]
  · rfl

end Thread

/-! ### Event rows -/

section Events
variable {s : State}

theorem Answers.startCmd {q seq ops f} (hf : ∀ l, Keeps (f l)) : Answers s (startCmd q seq ops f s) := by
  unfold Machine.startCmd
  refine .next fun h => ?_
  split
  · exact h
  · exact .ite h (.ite (.finish h) (hf _ _ h))

theorem Answers.debugOp {d halt f} (hf : ∀ s, Canonical s → ∀ g x, Canonical (f s g x)) :
    Answers s (debugOp d halt f s) := by
  unfold Machine.debugOp
  refine .next fun h => .byOwner h fun _ h => .ite h ?_
  dsimp only
  split
  · exact .outcome (.update h)
  · exact hf _ (.update h) _ _

theorem Answers.mailCommand {master f} (hf : Keeps f) : Answers s (mailCommand master f s) :=
  .next fun h => .ite h <| .ite (.send h) <| .ite h <| .ite (.setMailbox h h.rmbuf) (hf _ h)

theorem Answers.execFundamentalReset : Answers s (execFundamentalReset s) := .next fun h => .restart h

theorem Answers.execBootStageAdvance {trainFail} : Answers s (execBootStageAdvance trainFail s) := by
  unfold Machine.execBootStageAdvance
  refine .next fun h => .ite h ?_
  split
  · exact .stageTo h
  · exact .stageTo h
  · exact .ite (.stageTo (.acceptImage h)) (.stageTo h)
  · exact .ite (.stageTo (.acceptImage h)) (.stageTo h)
  · exact .stageTo (.zeroMemory h)
  · exact .ite (.stageTo h) h
  · exact .update (.stageTo h)
  · exact h

theorem Answers.execHostLinkUp : Answers s (execHostLinkUp s) := .next fun h => .ite h h

theorem Answers.execPowerRemoval : Answers s (execPowerRemoval s) := .next fun h => .restart h

theorem Answers.execThermalShutdown : Answers s (execThermalShutdown s) := .next fun h => .ite (.send (.restart h)) h

theorem Answers.execSpdmRequest {req} : Answers s (execSpdmRequest req s) := .next fun h => .ite (.send h) h

theorem Answers.execCoreFrequencyChange {core steps} : Answers s (execCoreFrequencyChange core steps s) :=
  .next fun h => .ite (.modCore h) h

theorem Answers.execL2HomeMove {handle die} : Answers s (execL2HomeMove handle die s) := .next fun h => .ite h h

theorem Answers.execPowerCapWrite {master value} : Answers s (execPowerCapWrite master value s) :=
  .next fun h => .byOwner h fun _ h => .capPower h

theorem Answers.execPatrolScrub {granule found} : Answers s (execPatrolScrub granule found s) := by
  unfold Machine.execPatrolScrub
  refine .next fun h => .ite h ?_
  split
  · exact h
  · exact .count h
  · exact .ite h (.count h)

theorem Answers.execTierMoveStart {what demote dests} : Answers s (execTierMoveStart what demote dests s) := by
  unfold Machine.execTierMoveStart
  refine .next fun h => ?_
  split
  · exact h
  · split
    · exact h
    next e => exact .ite (.update (.startMoves h e)) (.startMoves h e)

theorem Answers.execTierMoveComplete {asid page} : Answers s (execTierMoveComplete asid page s) := by
  unfold Machine.execTierMoveComplete
  split
  · exact .refl
  · refine .next fun h => ?_
    split
    · exact .ite (.movePage h) h
    · exact h

theorem Answers.execRegisterWrite {master off size value} : Answers s (execRegisterWrite master off size value s) := by
  unfold Machine.execRegisterWrite
  refine .next fun h => .ite h (.ite (.send h) (.ite ?_ ?_))
  · exact .ite (.foldl (fun _ _ h => .writeMail h) h) h
  · refine .ite (.claimWord h) (.ite h (.ite ?_ ?_))
    · exact .byOwner h fun _ h => .ite h h
    · exact .byOwner h fun _ h => .ite h (.ite (.writeWide h) (.foldl (fun _ _ h => .writeWord h) h))

theorem Answers.execMailboxErase {master slot} : Answers s (execMailboxErase master slot s) :=
  .mailCommand fun _ h => .mailRun (.setFlash h (h.slots_set rfl))

theorem Answers.execMailboxWrite {master slot} : Answers s (execMailboxWrite master slot s) :=
  .mailCommand fun _ h => .ite (.mailRun h) <| .ite (.mailRun h) <|
    .mailRun (.setFlash h (h.slots_set (Memory.wf_write h.slots_getD _ _)))

theorem Answers.execMailboxVerify {master slot} : Answers s (execMailboxVerify master slot s) :=
  .mailCommand fun _ h => .mailRun h

theorem Answers.execMailboxRestart {master} : Answers s (execMailboxRestart master s) :=
  .mailCommand fun _ h => .ite (.setMailbox h h.rmbuf) (.mailRun (.stageTo (.update h)))

theorem Answers.execMailboxCommandDone {flashError} : Answers s (execMailboxCommandDone flashError s) := by
  unfold Machine.execMailboxCommandDone
  refine .next fun h => ?_
  split
  · exact h
  · dsimp only
    split
    · exact .setMailbox h h.rmbuf
    · exact .setMailbox h h.rmbuf
    · exact .setMailbox h h.rmbuf

theorem Answers.execPortEnable {master port value} : Answers s (execPortEnable master port value s) :=
  .next fun h => .byOwner h fun _ h => .enablePort h

theorem Answers.execPortDisable {master port value} : Answers s (execPortDisable master port value s) :=
  .next fun h => .byOwner h fun _ h => .disablePort h

theorem Answers.execPortTrainingDone {port up} : Answers s (execPortTrainingDone port up s) := by
  unfold Machine.execPortTrainingDone
  refine .next fun h => .ite h ?_
  split
  · exact .setPort h
  · exact .setPort h
  · exact h

theorem Answers.execPortLinkLoss {port} : Answers s (execPortLinkLoss port s) := .next fun h => .ite (.setPort h) h

theorem Answers.execClaim {master reg id seq} : Answers s (execClaim master reg id seq s) :=
  .next fun h => .claimWrite h

theorem Answers.execRequestHandover {master reg id seq} : Answers s (execRequestHandover master reg id seq s) :=
  .next fun h => .claimWrite h

theorem Answers.execAcceptHandover {master reg id seq} : Answers s (execAcceptHandover master reg id seq s) :=
  .next fun h => .claimWrite h

theorem Answers.execRelease {master reg id seq} : Answers s (execRelease master reg id seq s) :=
  .next fun h => .claimWrite h

theorem Answers.execMasterLinkDown {master} : Answers s (execMasterLinkDown master s) := by
  unfold Machine.execMasterLinkDown
  refine .next fun h => .ite ?_ ?_
  · exact .update (.foldl (fun _ _ h => .linkDown h) h)
  · exact .ite (.linkDown h) (.ite h (.linkDown h))

theorem Answers.execJobEnable {master} : Answers s (execJobEnable master s) :=
  .next fun h => .byOwner h fun _ h => .enableJob h

theorem Answers.execJobDisable {master} : Answers s (execJobDisable master s) :=
  .next fun h => .byOwner h fun _ h => .disableJob h

theorem Answers.execJinval {master} : Answers s (execJinval master s) := .next fun h => .byOwner h fun _ h => h

theorem Answers.execJinvalComplete : Answers s (execJinvalComplete s) :=
  .next fun h => .ite (.update (.takeTables h)) h

theorem Answers.execQueueEnable {master queue value} : Answers s (execQueueEnable master queue value s) :=
  .next fun h => .byOwner h fun _ h => .enableQueue h

theorem Answers.execQueueDisable {master queue value} : Answers s (execQueueDisable master queue value s) :=
  .next fun h => .byOwner h fun _ h => .disableQueue h

theorem Answers.execCommandDoorbell {queue tail} : Answers s (execCommandDoorbell queue tail s) :=
  .next fun h => .ite (.send h) (.ite (.setQueue h) h)

theorem Answers.execCompletionDoorbell {queue head} : Answers s (execCompletionDoorbell queue head s) :=
  .next fun h => .ite (.send h) (.ite (.setQueue h) h)

theorem Answers.execSpawnWindowStore {queue whole record} : Answers s (execSpawnWindowStore queue whole record s) :=
  .next fun h => .ite (.send h) (.ite h (.offer h))

theorem Answers.execQueueReset {master queue} : Answers s (execQueueReset master queue s) :=
  .next fun h => .byOwner h fun _ h => .setQres (.resetQueue h)

theorem Answers.execQueueAdopt {master queue gen} : Answers s (execQueueAdopt master queue gen s) :=
  .next fun h => .byOwner h fun _ h => .ite (.setQres (.setQueue h)) (.setQres (.resetQueue h))

theorem Answers.execEndReattach {master} : Answers s (execEndReattach master s) :=
  .next fun h => .byOwner h fun _ h => .setQres (.foldl (fun _ _ h => .resetQueue h) h)

theorem Answers.execCommandFetch {queue} : Answers s (execCommandFetch queue s) :=
  .ite .refl (.ite .refl (.ite (.next (fun h => .setQueue h)) (.next (fun h => .setQueue h))))

theorem Answers.execLaunch {queue seq} : Answers s (execLaunch queue seq s) := by
  unfold Machine.execLaunch
  refine .next fun h => ?_
  split
  · exact h
  · refine .ite h (.ite ?_ (.ite (.readHeader h) h))
    exact .ite (.finish h) (.ite (.completeLaunch h) (.readHeader (.numberCmd h)))

theorem Answers.execWait {queue seq} : Answers s (execWait queue seq s) := .startCmd fun _ _ h => .setCmd h

theorem Answers.execWaitComplete {queue seq} : Answers s (execWaitComplete queue seq s) := by
  unfold Machine.execWaitComplete
  refine .next fun h => ?_
  split
  · exact h
  · exact .ite (.finish h) h

theorem Answers.execSignal {queue seq} : Answers s (execSignal queue seq s) :=
  .startCmd fun _ _ h => .finish (.ctrAdd h)

theorem Answers.execCopy {queue seq} : Answers s (execCopy queue seq s) := .startCmd fun _ _ h => .setCmd h

theorem Answers.execCopyComplete {queue seq failed written} : Answers s (execCopyComplete queue seq failed written s) := by
  unfold Machine.execCopyComplete
  refine .next fun h => ?_
  split
  · exact h
  · exact .ite h (.ite h (.ite (.finish (.copySome h)) (.finish (.store h))))

theorem Answers.execNopCommand {queue seq} : Answers s (execNopCommand queue seq s) :=
  .startCmd fun _ _ h => .finish h

theorem Answers.execHostPortTimeout {request} : Answers s (execHostPortTimeout request s) := by
  unfold Machine.execHostPortTimeout
  refine .next fun h => ?_
  split
  · split
    · exact h
    · exact .ite h (.finish (.copySome h))
  · split
    · exact h
    · split
      · exact .ite (.failEntry h) h
      · exact h

theorem Answers.execLaunchComplete {queue seq} : Answers s (execLaunchComplete queue seq s) := by
  unfold Machine.execLaunchComplete
  refine .next fun h => ?_
  split
  · exact h
  · split
    · exact h
    · exact .ite h (.completeLaunch h)
    · split
      · exact h
      · exact .ite (.completeLaunch h) h

theorem Answers.execCompletionWrite {queue} : Answers s (execCompletionWrite queue s) := by
  unfold Machine.execCompletionWrite
  dsimp only
  split
  · exact .refl
  · exact .ite .refl (.next (fun h => .setQueue (.ite h (.store h))))

theorem Answers.execPmapWrite {master value} : Answers s (execPmapWrite master value s) :=
  .next fun h => .byOwner h fun _ h => h.setMgmt (Memory.wf_writeLE h.mgmt _ _ _)

theorem Answers.execDispatchDecision : Answers s (execDispatchDecision s) :=
  .next fun h => .ite h (.zeroDeficits (.dispatchOne h))

theorem Answers.execTeamFlush {team} : Answers s (execTeamFlush team s) := by
  unfold Machine.execTeamFlush
  refine .next fun h => ?_
  split
  · exact h
  · refine .ite h (.returnFlushed ?_)
    split
    · exact .update (.discardTeams h)
    · exact .discardTeams h

theorem Answers.execTeamSave {team} : Answers s (execTeamSave team s) := by
  unfold Machine.execTeamSave
  refine .next fun h => ?_
  split
  · exact h
  · exact .ite h (.settleSaving (.renameOutside (.update (.forgetElements (.fillArea (.modCore (.leaveSets (.dropCalls
        (.closeCalls h)))))))))

theorem Answers.execDrainTimeout {team} : Answers s (execDrainTimeout team s) := by
  unfold Machine.execDrainTimeout
  refine .next fun h => ?_
  split
  · exact h
  · split
    · exact .ite (.modTeam h) h
    · exact h

theorem Answers.execParkSwap {core} : Answers s (execParkSwap core s) := by
  unfold Machine.execParkSwap
  refine .next fun h => ?_
  split
  · exact .exchange h
  · exact h

theorem Answers.execIssueSwap {core} : Answers s (execIssueSwap core s) := by
  unfold Machine.execIssueSwap
  refine .next fun h => .ite h ?_
  split
  · exact .exchange h
  · exact h

theorem Answers.execCutStop {master} : Answers s (execCutStop master s) :=
  .next fun h => .byOwner h fun _ h => .requestStop h

theorem Answers.execCutStopSave {master} : Answers s (execCutStopSave master s) :=
  .next fun h => .byOwner h fun _ h => .requestStop h

theorem Answers.execCutResume {master} : Answers s (execCutResume master s) :=
  .next fun h => .byOwner h fun _ h => .ite h (.foldl (fun _ _ h => .meet (.turnouts h)) (.foldl (fun _ _ h =>
      .deliverFlit h) h))

theorem Answers.execUnitStop {unit} : Answers s (execUnitStop unit s) :=
  .next fun h => .ite (.settleCut (.rewindUnit h)) h

theorem Answers.execStoppedUnitFlit {rx cls payload} : Answers s (execStoppedUnitFlit rx cls payload s) :=
  .next fun h => .ite (.saveFlit h) (.deliverFlit (.update (.numberFlit h)))

theorem Answers.execServiceBatchTimeout {group kind} : Answers s (execServiceBatchTimeout group kind s) := .refl

theorem Answers.execServiceBatchPost {index} : Answers s (execServiceBatchPost index s) := by
  unfold Machine.execServiceBatchPost
  split
  · exact .refl
  · refine .ite .refl ?_
    split
    · exact .refl
    · split
      · exact .refl
      · exact .next fun h => .latchCore (.update (.writeSlot h))

theorem Answers.execServiceAnswer {die slot} : Answers s (execServiceAnswer die slot s) := by
  unfold Machine.execServiceAnswer
  split
  · exact .refl
  · refine .ite .refl ?_
    split
    · exact .refl
    · exact .ite .refl (.next (fun h => .write (.ite (.ite h (.denyEngine h)) (.foldl (fun _ _ h =>
          .resumeMember h) h))))

theorem Answers.execTranslationWalk {die asid w} : Answers s (execTranslationWalk die asid w s) := by
  unfold Machine.execTranslationWalk
  refine .next fun h => .ite h ?_
  have hu : Canonical (if w.fresh then s.forgetPage die asid (w.page * 65536) else s) := .ite (.forgetPage h) h
  dsimp only
  generalize (if w.fresh = true then s.forgetPage die asid (w.page * 65536) else s) = u at hu ⊢
  split
  · exact hu
  · split
    · exact .fillTlb (.fillTlb (.cachePointers hu))
    · exact .fillTlb (.cachePointers hu)

theorem Answers.execAccessReturn {thread which remote choice} :
    Answers s (execAccessReturn thread which remote choice s) := by
  unfold Machine.execAccessReturn
  refine .next fun h => .lookAgain (.ite ?_ ?_)
  · refine .unallocated ?_
    split
    · split
      · exact .usedIf (.entryAnswered (.evictLines h))
      · exact .evictLines h
    · split
      · exact .ite (.evictLines h) (.usedIf (.performStore (.evictLines h)))
      · exact .evictLines h
  · split
    · split
      · exact .usedIf (.entryAnswered (.evictLines h))
      · exact .evictLines h
    · split
      · exact .ite (.evictLines h) (.usedIf (.performStore (.evictLines h)))
      · exact .evictLines h

theorem Answers.execMarkerCommit {thread} : Answers s (execMarkerCommit thread s) := by
  unfold Machine.execMarkerCommit
  split
  · exact .refl
  · exact .next fun h => .ite (.commitParked h) (.ite (.setThread h) h)

theorem Answers.execAsyncErrorArrival {thread cause tval} : Answers s (execAsyncErrorArrival thread cause tval s) := by
  unfold Machine.execAsyncErrorArrival
  refine .next fun h => ?_
  split
  · exact .pend h
  · exact .pend h
  · exact h

theorem Answers.execGroupFaultStop {thread} : Answers s (execGroupFaultStop thread s) := by
  unfold Machine.execGroupFaultStop
  split
  · exact .next fun h => .ite h (.ite (.removeMember h) (.flushMembers h))
  · exact .refl

theorem Answers.execPairTimeout {team g} : Answers s (execPairTimeout team g s) := by
  unfold Machine.execPairTimeout
  split
  · exact .refl
  · split
    · exact .refl
    · split
      · exact .refl
      · exact .ite .refl (.next (fun h => .foldl (fun _ _ h => .pend h) (.convDone h)))

theorem Answers.execCopyRequestCheck {core} : Answers s (execCopyRequestCheck core s) := by
  unfold Machine.execCopyRequestCheck
  split
  · exact .refl
  · refine .ite .refl (.ite (.next (fun h => .pursue h)) (.ite .refl (.next (fun h => .ite ?_ ?_))))
    · split
      · refine .ite ?_ ?_
        · exact .complete (.modCore (.ite (.modCore h) (.count (.arriveAll h))))
        · exact .modCore (.ite (.modCore h) (.count (.arriveAll h)))
      · exact .modCore (.ite (.modCore h) (.count (.arriveAll h)))
    · exact .modCore (.ite (.modCore h) (.count (.arriveAll h)))

theorem Answers.execCopyRequestDispatch {core request} : Answers s (execCopyRequestDispatch core request s) := by
  unfold Machine.execCopyRequestDispatch
  split
  · exact .refl
  · exact .ite .refl (.ite (.next (fun h => .modCore (.foldl (fun _ _ h => .fillTile h) (.drainTile h)))) .refl)

theorem Answers.execCopyPieceComplete {core request piece fault remote} :
    Answers s (execCopyPieceComplete core request piece fault remote s) := by
  unfold Machine.execCopyPieceComplete
  split
  · exact .refl
  · split
    · exact .refl
    · refine .ite .refl ?_
      dsimp only
      split
      · exact .next fun h => .engineBatch h
      · exact .refl
      · exact .next fun h => .pieceRefused h
      · exact .next fun h => .pieceRefused (.pend h)
      · refine .ite ?_ ?_
        · refine .next fun h => .ite h ?_
          split
          · exact .ite (.pieceWrite (.numberReads h)) h
          · exact .pieceUnanswered h
          · exact .ite (.pieceUnanswered h) h
        · exact .next fun h => .useLines (.pieceWrite h)

theorem Answers.execDataflowDispatch {core} : Answers s (execDataflowDispatch core s) := by
  unfold Machine.execDataflowDispatch
  dsimp only
  split
  · exact .refl
  · exact .next fun h => .flowStart h

theorem Answers.execFlumeElement {core chain element remote} : Answers s (execFlumeElement core chain element remote s) := by
  unfold Machine.execFlumeElement
  split
  · exact .refl
  · refine .ite .refl ?_
    split
    · exact .next fun h => .elementWrite h
    · exact .refl
    · refine .ite ?_ ?_
      · exact .next fun h => .elementDone h
      · dsimp only
        split
        · exact .next fun h => .engineBatch h
        · exact .refl
        · exact .next fun h => .elementFail h
        · exact .next fun h => .elementDone (.pend h)
        · refine .ite ?_ ?_
          · refine .next fun h => .ite h ?_
            split
            · exact .ite (.elementValue (.numberReads h)) (.numberReads h)
            · exact .elementUnanswered (.numberReads h)
            · exact .numberReads h
          · exact .next fun h => .elementValue h

theorem Answers.execMatrixOpStart {core} : Answers s (execMatrixOpStart core s) := by
  unfold Machine.execMatrixOpStart
  split
  · exact .refl
  · refine .ite .refl (.ite (.next (fun h => .pursueOp h)) ?_)
    split
    · exact .next fun h => .ite (.modCore (.modCore h)) h
    · split
      · exact .next fun h => .ite (.modCore h) (.ite (.modCore (.fillTile h)) h)
      · exact .next fun h => .modCore h
    · exact .ite .refl (.ite (.next (fun h => .modCore h)) (.ite .refl (.next (fun h => .modCore h))))
    · exact .next fun h => .modCore h

theorem Answers.execMatrixOpComplete {core} : Answers s (execMatrixOpComplete core s) := by
  unfold Machine.execMatrixOpComplete
  split
  · exact .refl
  · refine .ite .refl ?_
    split
    · exact .refl
    · split
      · exact .next fun h => .convEverywhere (.modCore (.modCore (.runPair h)))
      · exact .refl
    · exact .next fun h => .convEverywhere (.modCore (.runMatrix h))

theorem Answers.execSsxChunkComplete {core} : Answers s (execSsxChunkComplete core s) := by
  unfold Machine.execSsxChunkComplete
  split
  · exact .refl
  · split
    · refine .ite .refl (.ite (.next (fun h => .ssxEnd h)) ?_)
      split
      · exact .next fun h => .chunkDone h
      · exact .next fun h => .engineBatch h
      · exact .refl
      · exact .next fun h => .ssxEnd (.foldl (fun _ _ h => .pend h) h)
      · exact .next fun h => .engineBatch h
      · exact .refl
      · exact .next fun h => .ssxEnd h
    · exact .refl

theorem Answers.execSsxStop {core written} : Answers s (execSsxStop core written s) := by
  unfold Machine.execSsxStop
  split
  · exact .refl
  · split
    · exact .ite .refl (.next (fun h => .convEverywhere (.modCore (.foldl (fun _ _ h =>
          .storeVirtual h) (.clobberWork (.leaveBatch h))))))
    · exact .refl

theorem Answers.execStreamElementFetch {thread stream answer} :
    Answers s (execStreamElementFetch thread stream answer s) := by
  unfold Machine.execStreamElementFetch
  split
  · exact .refl
  · refine .next fun h => .ite ?_ ?_
    · exact .streamDrained (.performElement (.useLines h))
    · exact .answered (.useLines h) fun _ h => .fetchStep h

theorem Answers.execTileWaitRelease {thread} : Answers s (execTileWaitRelease thread s) := by
  unfold Machine.execTileWaitRelease
  split
  · exact .refl
  · split
    · exact .next fun h => .ite (.setThread h) h
    · exact .refl

theorem Answers.execCounterWaitRelease {thread} : Answers s (execCounterWaitRelease thread s) :=
  .next fun h => .counterStep h

theorem Answers.execBwaitRelease {thread} : Answers s (execBwaitRelease thread s) := .next fun h => .bwaitStep h

theorem Answers.execFenceComplete {thread} : Answers s (execFenceComplete thread s) := .next fun h => .fenceStep h

theorem Answers.execSsqWaitRelease {thread} : Answers s (execSsqWaitRelease thread s) := .next fun h => .ssqStep h

theorem Answers.execTlbinvComplete {thread} : Answers s (execTlbinvComplete thread s) := by
  unfold Machine.execTlbinvComplete
  split
  · exact .refl
  · split
    · exact .next fun h => .ite h (.complete h)
    · exact .refl

theorem Answers.execParkExpire {thread} : Answers s (execParkExpire thread s) := by
  unfold Machine.execParkExpire
  split
  · exact .refl
  · split
    · exact .next fun h => .ite (.complete h) h
    · exact .refl

theorem Answers.execWfeTimeout {thread} : Answers s (execWfeTimeout thread s) := by
  unfold Machine.execWfeTimeout
  split
  · exact .refl
  · split
    · exact .next fun h => .ite (.complete h) h
    · exact .refl

theorem Answers.execPacketSend {rank} : Answers s (execPacketSend rank s) := by
  unfold Machine.execPacketSend
  refine .next fun h => .ite h ?_
  split
  · exact h
  · split
    · exact .sendSelfWrite h
    · exact .sendSelfFold h
    · exact .ite (.sendPod h) h
    · exact .sendPod h
    · exact .ite (.sendGlb h) h

theorem Answers.execPacketArrival {packet} : Answers s (execPacketArrival packet s) :=
  .next fun h => .hears h fun _ h =>
      .ite (.sendAck h) (.ite (.count h) (.ite (.send h) (.ite (.refusePacket h) (.takePacket h))))

theorem Answers.execAckReceived {rank cum bitmap ecn} : Answers s (execAckReceived rank cum bitmap ecn s) :=
  .next fun h => .hears h fun _ h => .acknowledged h

theorem Answers.execNackReceived {rank psn code} : Answers s (execNackReceived rank psn code s) := by
  unfold Machine.execNackReceived
  refine .next fun h => .hears h fun _ h => ?_
  split
  · exact .ite h (.failMessage h)
  · exact h

theorem Answers.execResendRequestReceived {rank psn} : Answers s (execResendRequestReceived rank psn s) := by
  unfold Machine.execResendRequestReceived
  refine .next fun h => .hears h fun _ h => ?_
  split
  · exact .ite h (.sendAgain h)
  · exact h

theorem Answers.execRetransmissionTimeout {rank psn} : Answers s (execRetransmissionTimeout rank psn s) := by
  unfold Machine.execRetransmissionTimeout
  refine .next fun h => ?_
  split
  · exact .ite (.failMessage (.count h)) (.sendAgain (.ite h (.modPath h)))
  · exact h

theorem Answers.execEthernetResponse {rank psn data} : Answers s (execEthernetResponse rank psn data s) := by
  unfold Machine.execEthernetResponse
  refine .next fun h => .hears h fun _ h => ?_
  split
  · exact h
  · refine .ite h ?_
    split
    · dsimp only
      split
      · split
        · exact .loadDone (.dropMessage h)
        · exact .dropMessage h
      · exact .dropMessage h
    · dsimp only
      split
      · exact .elementParts (.dropMessage h)
      · exact .dropMessage h
    · dsimp only
      split
      · split
        · exact .answerAtom (.dropMessage h)
        · exact .dropMessage h
      · exact .dropMessage h
    · exact h

theorem Answers.execPathProbe {pfx set path ok} : Answers s (execPathProbe pfx set path ok s) :=
  .next fun h => .ite (.setCong h) h

theorem Answers.execPodRequestArrival {request} : Answers s (execPodRequestArrival request s) :=
  .next fun h => .ite (.podArrive (.numberFlit h)) h

theorem Answers.execPodFlushComplete {peer code} : Answers s (execPodFlushComplete peer code s) := by
  unfold Machine.execPodFlushComplete
  split
  · exact .refl
  · refine .next fun h => .ite ?_ ?_
    · exact .foldl (fun _ _ h => .ite (.modMessage h) (.failMessage h)) (.endFlush (.ite (.count h) h))
    · exact .foldl (fun _ _ h => .failFlushUser h) (.foldl (fun _ _ h =>
          .ite (.modMessage h) (.failMessage h)) (.endFlush (.ite (.count h) h)))

theorem Answers.execPodRequestTimeout {thread entry} : Answers s (execPodRequestTimeout thread entry s) := by
  unfold Machine.execPodRequestTimeout
  refine .next fun h => ?_
  split
  · exact .entryLate h
  · exact .streamLate h
  · exact .pieceLate h
  · exact .elementLate h

theorem Answers.execReductionPacketArrival {packet} : Answers s (execReductionPacketArrival packet s) :=
  .next fun h => .hears h fun _ h => .ite (.sendAck h) (.ite (.count h) (.ite (.refusePacket h) (.ite h (.ite
      (.sendAck (.reduce h)) (.acceptPacket (.reduce h))))))

theorem Answers.execReductionAbort {gid} : Answers s (execReductionAbort gid s) := .next fun h => .ite (.send h) h

theorem Answers.execDirectApertureAccess {off size data} : Answers s (execDirectApertureAccess off size data s) := by
  unfold Machine.execDirectApertureAccess
  refine .next fun h => .ite ?_ ?_
  · split
    · exact .windowWrite h
    · exact .send h
  · refine .ite (.send h) ?_
    split
    · exact .send h
    · exact .ite h (.hostAccess h)

theorem Answers.execTransformWindowEnable {master window value} :
    Answers s (execTransformWindowEnable master window value s) :=
  .next fun h => .byOwner h fun _ h => .enableWindow h

theorem Answers.execTransformWindowWrite {off data} : Answers s (execTransformWindowWrite off data s) :=
  .next fun h => .windowWrite h

theorem Answers.execTransformBlockProcess {window block poisoned} :
    Answers s (execTransformBlockProcess window block poisoned s) := by
  unfold Machine.execTransformBlockProcess
  dsimp only
  split
  · exact .refl
  · refine .ite .refl (.next (fun h => ?_))
    split
    · exact .ite h (.blockReport (.blockMaybe h))
    · exact .ite h (.ite (.ite h (.blockReport (.blockMaybe h))) (.blockReport (.store h)))

theorem Answers.execHostAtomicop {pa width op value compare} : Answers s (execHostAtomicop pa width op value compare s) :=
  .next fun h => .ite (.send h) (.ite (.send h) (.ite h (.ite (.send h) (.send (.storeFrom h)))))

theorem Answers.execHostCoherentAccess {pa size access} : Answers s (execHostCoherentAccess pa size access s) :=
  .next fun h => .ite h (.ite (.hostExclusive h) (.hostAccess h))

theorem Answers.execDebugHalt {cmd} : Answers s (execDebugHalt cmd s) :=
  .debugOp fun _ h _ _ => .outcome (.modGroup h)

theorem Answers.execDebugResume {cmd} : Answers s (execDebugResume cmd s) :=
  .debugOp fun _ h _ _ => .outcome (.meet (.turnouts (.modGroup (.rewindGroup h))))

theorem Answers.execDebugStep {cmd} : Answers s (execDebugStep cmd s) := by
  unfold Machine.execDebugStep
  refine .debugOp fun _ h _ _ => ?_
  split
  · exact .outcome h
  · exact .ite (.outcome (.rewindGroup h)) (.update (.rewindGroup h))

theorem Answers.execDebugRead {cmd sel} : Answers s (execDebugRead cmd sel s) := by
  unfold Machine.execDebugRead
  refine .debugOp fun _ h _ _ => ?_
  split
  · exact .outcome h
  · split <;> exact .outcome h

theorem Answers.execDebugWrite {cmd sel} : Answers s (execDebugWrite cmd sel s) := by
  unfold Machine.execDebugWrite
  refine .debugOp fun _ h _ _ => ?_
  split
  · exact .outcome h
  · split
    · exact .outcome h
    · exact .outcome (.ite (.modTeam (.setThread h)) (.setThread h))

theorem Answers.execDebugCatchOn {cmd} : Answers s (execDebugCatchOn cmd s) :=
  .debugOp fun _ h _ _ => .outcome (.modGroup h)

theorem Answers.execDebugCatchOff {cmd} : Answers s (execDebugCatchOff cmd s) :=
  .debugOp fun _ h _ _ => .outcome (.modGroup h)

theorem Answers.execLinkLevelReplay {port} : Answers s (execLinkLevelReplay port s) :=
  .next fun h => .ite (.count h) h

theorem Answers.execSwapThresholdAdjust {core cycles} : Answers s (execSwapThresholdAdjust core cycles s) :=
  .next fun h => .ite (.modCore h) h

theorem Answers.execCongestionThresholdAdjust {pfx set mark trim} :
    Answers s (execCongestionThresholdAdjust pfx set mark trim s) :=
  .next fun h => .setCong h
end Events

/-! ### The dispatcher -/

/-- An event row (one that no word encodes) answers; an instruction row answers for the current thread. -/
def RowAnswers : Option Word → State → Host.Outcome State Fault Refusal → Prop
  | none => Answers
  | some _ => AnswersThread

/-- Every row of the table answers, an instruction on behalf of the thread whose turn it is. -/
theorem exec_answers (i : Instr) (s : State) : RowAnswers (encode? i) s (exec i s) := by
  cases i with
  | fundamentalReset => exact Answers.execFundamentalReset
  | bootStageAdvance => exact Answers.execBootStageAdvance
  | hostLinkUp => exact Answers.execHostLinkUp
  | powerRemoval => exact Answers.execPowerRemoval
  | thermalShutdown => exact Answers.execThermalShutdown
  | spdmRequest => exact Answers.execSpdmRequest
  | coreFrequencyChange => exact Answers.execCoreFrequencyChange
  | l2HomeMove => exact Answers.execL2HomeMove
  | powerCapWrite => exact Answers.execPowerCapWrite
  | patrolScrub => exact Answers.execPatrolScrub
  | tierMoveStart => exact Answers.execTierMoveStart
  | tierMoveComplete => exact Answers.execTierMoveComplete
  | registerWrite => exact Answers.execRegisterWrite
  | mailboxErase => exact Answers.execMailboxErase
  | mailboxWrite => exact Answers.execMailboxWrite
  | mailboxVerify => exact Answers.execMailboxVerify
  | mailboxRestart => exact Answers.execMailboxRestart
  | mailboxCommandDone => exact Answers.execMailboxCommandDone
  | portEnable => exact Answers.execPortEnable
  | portDisable => exact Answers.execPortDisable
  | portTrainingDone => exact Answers.execPortTrainingDone
  | portLinkLoss => exact Answers.execPortLinkLoss
  | claim => exact Answers.execClaim
  | requestHandover => exact Answers.execRequestHandover
  | acceptHandover => exact Answers.execAcceptHandover
  | release => exact Answers.execRelease
  | masterLinkDown => exact Answers.execMasterLinkDown
  | jobEnable => exact Answers.execJobEnable
  | jobDisable => exact Answers.execJobDisable
  | jinval => exact Answers.execJinval
  | jinvalComplete => exact Answers.execJinvalComplete
  | queueEnable => exact Answers.execQueueEnable
  | queueDisable => exact Answers.execQueueDisable
  | commandDoorbell => exact Answers.execCommandDoorbell
  | completionDoorbell => exact Answers.execCompletionDoorbell
  | spawnWindowStore => exact Answers.execSpawnWindowStore
  | queueReset => exact Answers.execQueueReset
  | queueAdopt => exact Answers.execQueueAdopt
  | endReattach => exact Answers.execEndReattach
  | commandFetch => exact Answers.execCommandFetch
  | launch => exact Answers.execLaunch
  | wait => exact Answers.execWait
  | waitComplete => exact Answers.execWaitComplete
  | signal => exact Answers.execSignal
  | copy => exact Answers.execCopy
  | copyComplete => exact Answers.execCopyComplete
  | nopCommand => exact Answers.execNopCommand
  | hostPortTimeout => exact Answers.execHostPortTimeout
  | launchComplete => exact Answers.execLaunchComplete
  | completionWrite => exact Answers.execCompletionWrite
  | pmapWrite => exact Answers.execPmapWrite
  | dispatchDecision => exact Answers.execDispatchDecision
  | teamFlush => exact Answers.execTeamFlush
  | teamSave => exact Answers.execTeamSave
  | drainTimeout => exact Answers.execDrainTimeout
  | parkSwap => exact Answers.execParkSwap
  | issueSwap => exact Answers.execIssueSwap
  | cutStop => exact Answers.execCutStop
  | cutStopSave => exact Answers.execCutStopSave
  | cutResume => exact Answers.execCutResume
  | unitStop => exact Answers.execUnitStop
  | stoppedUnitFlit => exact Answers.execStoppedUnitFlit
  | serviceBatchTimeout => exact Answers.execServiceBatchTimeout
  | serviceBatchPost => exact Answers.execServiceBatchPost
  | serviceAnswer => exact Answers.execServiceAnswer
  | translationWalk => exact Answers.execTranslationWalk
  | accessReturn => exact Answers.execAccessReturn
  | markerCommit => exact Answers.execMarkerCommit
  | asyncErrorArrival => exact Answers.execAsyncErrorArrival
  | groupFaultStop => exact Answers.execGroupFaultStop
  | pairTimeout => exact Answers.execPairTimeout
  | copyRequestCheck => exact Answers.execCopyRequestCheck
  | copyRequestDispatch => exact Answers.execCopyRequestDispatch
  | copyPieceComplete => exact Answers.execCopyPieceComplete
  | dataflowDispatch => exact Answers.execDataflowDispatch
  | flumeElement => exact Answers.execFlumeElement
  | matrixOpStart => exact Answers.execMatrixOpStart
  | matrixOpComplete => exact Answers.execMatrixOpComplete
  | ssxChunkComplete => exact Answers.execSsxChunkComplete
  | ssxStop => exact Answers.execSsxStop
  | streamElementFetch => exact Answers.execStreamElementFetch
  | tileWaitRelease => exact Answers.execTileWaitRelease
  | counterWaitRelease => exact Answers.execCounterWaitRelease
  | bwaitRelease => exact Answers.execBwaitRelease
  | fenceComplete => exact Answers.execFenceComplete
  | ssqWaitRelease => exact Answers.execSsqWaitRelease
  | tlbinvComplete => exact Answers.execTlbinvComplete
  | parkExpire => exact Answers.execParkExpire
  | wfeTimeout => exact Answers.execWfeTimeout
  | packetSend => exact Answers.execPacketSend
  | packetArrival => exact Answers.execPacketArrival
  | ackReceived => exact Answers.execAckReceived
  | nackReceived => exact Answers.execNackReceived
  | resendRequestReceived => exact Answers.execResendRequestReceived
  | retransmissionTimeout => exact Answers.execRetransmissionTimeout
  | ethernetResponse => exact Answers.execEthernetResponse
  | pathProbe => exact Answers.execPathProbe
  | podRequestArrival => exact Answers.execPodRequestArrival
  | podFlushComplete => exact Answers.execPodFlushComplete
  | podRequestTimeout => exact Answers.execPodRequestTimeout
  | reductionPacketArrival => exact Answers.execReductionPacketArrival
  | reductionAbort => exact Answers.execReductionAbort
  | directApertureAccess => exact Answers.execDirectApertureAccess
  | transformWindowEnable => exact Answers.execTransformWindowEnable
  | transformWindowWrite => exact Answers.execTransformWindowWrite
  | transformBlockProcess => exact Answers.execTransformBlockProcess
  | hostAtomicop => exact Answers.execHostAtomicop
  | hostCoherentAccess => exact Answers.execHostCoherentAccess
  | debugHalt => exact Answers.execDebugHalt
  | debugResume => exact Answers.execDebugResume
  | debugStep => exact Answers.execDebugStep
  | debugRead => exact Answers.execDebugRead
  | debugWrite => exact Answers.execDebugWrite
  | debugCatchOn => exact Answers.execDebugCatchOn
  | debugCatchOff => exact Answers.execDebugCatchOff
  | linkLevelReplay => exact Answers.execLinkLevelReplay
  | swapThresholdAdjust => exact Answers.execSwapThresholdAdjust
  | congestionThresholdAdjust => exact Answers.execCongestionThresholdAdjust
  | add | sub | mul | mulhI | mulhN | minI | maxI | minN | maxN | and | or | xor | andn | shl | shr | sar | rot | bfxI
    | bfxN | absd => exact AnswersThread.plain .rrr
  | mad | bfi => exact AnswersThread.plain .rrre
  | clz | ctz | popc | brev | sext8 | sext16 | zext8 | zext16 | fclass | mov => exact AnswersThread.plain .rr
  | mulwI | mulwN => exact AnswersThread.plain .rrrP
  | cmp => exact AnswersThread.plain .compare
  | sel => exact AnswersThread.plain .choose
  | addi | muli => exact AnswersThread.plain .rri
  | andi | ori | xori | roti => exact AnswersThread.plain .rrn
  | shli | shri | sari => exact AnswersThread.plain .rrs
  | cmpi => exact AnswersThread.plain .compareI
  | padd8 | psub8 | paddsI8 | paddsN8 | psubsI8 | psubsN8 | pminI8 | pmaxI8 | pminN8 | pmaxN8 | pabsd8 | pshl8 | pshr8
    | psar8 | pavgN8 | padd16 | psub16 | paddsI16 | paddsN16 | psubsI16 | psubsN16 | pminI16 | pmaxI16 | pminN16
    | pmaxN16 | pabsd16 | pshl16 | pshr16 | psar16 | pavgN16 => exact AnswersThread.plain .packed
  | pdot8 | pdot16 => exact AnswersThread.plain .packedDot
  | addD | subD | andD | orD | xorD => exact AnswersThread.plain .pairPair
  | shlD | shrD | sarD | addxI | addxN => exact AnswersThread.plain .pairWord
  | fadd | fsub | fmul => exact AnswersThread.plain .arith32
  | ffma | fnma => exact AnswersThread.plain .fused32
  | fmin | fmax | fsgnj => exact AnswersThread.plain .raw32
  | fabs | fneg => exact AnswersThread.plain .raw32u
  | faddF64 | fsubF64 | fmulF64 => exact AnswersThread.plain .arith64
  | ffmaF64 | fnmaF64 => exact AnswersThread.plain .fused64
  | fminF64 | fmaxF64 | fsgnjF64 => exact AnswersThread.plain .raw64
  | fabsF64 | fnegF64 => exact AnswersThread.plain .raw64u
  | faddPk | fsubPk | fmulPk => exact AnswersThread.plain .arithPk
  | ffmaPk | fnmaPk => exact AnswersThread.plain .fusedPk
  | fminPk | fmaxPk => exact AnswersThread.plain .rawPk
  | fnegPk => exact AnswersThread.plain .rawPkU
  | frcp | frsq | fexp2 | flog2 | fsin | fcos | ftanh => exact AnswersThread.plain .special
  | fsqrt => exact AnswersThread.plain .root
  | fcmp => exact AnswersThread.plain .fcompare32
  | fcmpF64 => exact AnswersThread.plain .fcompare64
  | cvtF32I32 | cvtF32N32 => exact AnswersThread.plain .convRound
  | cvtI32F32 | cvtN32F32 | cvtBf16F32 | cvtF16F32 => exact AnswersThread.plain .convDown32
  | cvtF64F32 | cvtF64I32 | cvtF64N32 => exact AnswersThread.plain .convWide
  | cvtF32F64 | cvtI32F64 | cvtN32F64 => exact AnswersThread.plain .convDown64
  | cvtF32Bf16 | cvtF32F16 => exact AnswersThread.plain .convExact
  | cvtdn => exact AnswersThread.plain .convSlot
  | cvtup => exact AnswersThread.plain .convUp
  | movcRead => exact AnswersThread.plain .condRead
  | movcWrite => exact AnswersThread.plain .condWrite
  | xget => exact AnswersThread.plain .indexGet
  | xset => exact AnswersThread.plain .indexSet
  | xadj => exact AnswersThread.plain .indexAdjust
  | fget => exact AnswersThread.plain .formatGet
  | fset => exact AnswersThread.plain .formatSet
  | mget => exact AnswersThread.plain .maskGet
  | mset => exact AnswersThread.plain .maskSet
  | movi => exact AnswersThread.plain .moveImm
  | csrr => exact AnswersThread.plain .bodyCsrr
  | csrw => exact AnswersThread.plain .bodyCsrw
  | sdef => exact AnswersThread.plain .bodySdef
  | sstop => exact AnswersThread.plain .bodySstop
  | br => exact AnswersThread.plain .bodyBr
  | jmp => exact AnswersThread.plain .bodyJmp
  | call => exact AnswersThread.plain .bodyCall
  | brx => exact AnswersThread.plain .bodyBrx
  | callx => exact AnswersThread.plain .bodyCallx
  | ret => exact AnswersThread.plain .bodyRet
  | nop => exact AnswersThread.plain .pure
  | exit => exact AnswersThread.issue .bodyExit (fun _ h => .removeMember h)
  | yield => exact AnswersThread.issue .pure (fun _ h => .exchange h)
  | park => exact AnswersThread.issue .bodyPark (fun _ h => h)
  | brk => exact AnswersThread.issue .bodyBrk (fun _ h => .catchHalt h)
  | bstr => exact AnswersThread.plain .bodyBstr
  | ldLn | stLn | ldCo | stCo | ldCl | stCl | ldCh | stCh | ldGl | stGl => exact AnswersThread.plain .memBody
  | atomAdd | atomAnd | atomOr | atomXor | atomMinI | atomMaxI | atomMinN | atomMaxN | atomSwap | atomCas | atomFadd
    => exact AnswersThread.plain .atomBody
  | fence => exact AnswersThread.issue .bodyFence (fun _ h => .fenceStep h)
  | drainNt => exact AnswersThread.issue .bodyDrainNt (fun _ h => .fenceStep h)
  | pflush => exact AnswersThread.issue .bodyPflush (fun _ h => .fenceStep h)
  | cwait => exact AnswersThread.issue .bodyCwait (fun _ h => .counterStep h)
  | cadd => exact AnswersThread.plain .bodyCadd
  | cpoll => exact AnswersThread.plain .bodyCpoll
  | wsig => exact AnswersThread.plain .bodyWsig
  | wred => exact AnswersThread.plain .bodyWred
  | pickK | pickXor | pickAdd | pickSub
    => exact AnswersThread.lane (.bind .laneSource fun _ => .bind .laneDest fun _ => .bind .pickImm fun _ => .arriveLane)
  | pickR | combAdd | combMin | combMax | scanAdd
    => exact AnswersThread.lane (.bind .laneSource fun _ => .bind .laneDest fun _ => .arriveLane)
  | census | agreeAll | agreeAny | agreeSame | fenceGrp => exact AnswersThread.lane .arriveLane
  | kin
    => exact AnswersThread.lane (.ite (.bind .block fun _ => .arriveLane) (.bind .laneSource fun _ => .arriveLane))
  | xiss => exact AnswersThread.plain .bodyXiss
  | rsend => exact AnswersThread.rsend
  | rrecv => exact AnswersThread.issue .bodyRrecv (fun _ h => .turnouts h)
  | bar | barCl => exact AnswersThread.issue .reachBarrier (fun _ h => .barrierStep h)
  | arrive => exact AnswersThread.issue .bodyArrive (fun _ h => .barrierStep h)
  | gdef => exact AnswersThread.plain .bodyGdef
  | tdef => exact AnswersThread.plain .bodyTdef
  | tdefReg => exact AnswersThread.plain .bodyTdefReg
  | tfree => exact AnswersThread.plain .bodyTfree
  | tstate => exact AnswersThread.plain .bodyTstate
  | kick => exact AnswersThread.issue .bodyKick (fun _ h => h)
  | barm => exact AnswersThread.plain .bodyBarm
  | barmT => exact AnswersThread.plain .bodyBarmT
  | bwait => exact AnswersThread.issue .bodyBwait (fun _ h => .bwaitStep h)
  | bwaitT => exact AnswersThread.issue .bodyBwaitT (fun _ h => .bwaitStep h)
  | task => exact AnswersThread.issue .bodyTask (fun _ h => h)
  | chain => exact AnswersThread.issue .bodyChain (fun _ h => h)
  | cres => exact AnswersThread.plain .bodyCres
  | crel => exact AnswersThread.plain .bodyCrel
  | mldb => exact AnswersThread.plain .bodyMldb
  | mma | mmap => exact AnswersThread.plain .bodyMma
  | mzero => exact AnswersThread.plain .sign
  | mst => exact AnswersThread.plain .bodyMst
  | mrd => exact AnswersThread.plain .bodyMrd
  | ssx => exact AnswersThread.plain .bodySsx
  | ssq => exact AnswersThread.issue .bodySsq (fun _ h => .ssqStep h)
  | rhset => exact AnswersThread.plain .bodyRhset
  | rhpri => exact AnswersThread.plain .bodyRhpri
  | rhdem => exact AnswersThread.plain .bodyRhdem
  | pref => exact AnswersThread.plain .bodyPref
  | svc => exact AnswersThread.issue .bodySvc (fun _ h => h)
  | trap => exact AnswersThread.plain .bodyTrap
  | tret => exact AnswersThread.issue .bodyTret (fun _ h => .modThread h)
  | spawn => exact AnswersThread.plain .bodySpawn
  | cacheopClean | cacheopEv1 | cacheopEv2 | cacheopPod => exact AnswersThread.plain .bodyCacheop
  | tlbinv => exact AnswersThread.issue .bodyTlbinv (fun _ h => h)
  | wfe => exact AnswersThread.issue .bodyWfe (fun _ h => h)
  | hintImm | hintOpi | hintScope | hintRnd | hintCache | hintAdd => exact AnswersThread.hintWord

end Sys2Proof.Claims
end

section
/-! PROOFS. One step: settles O5 and O6. -/
namespace Sys2Proof.Claims
open Sys2Proof.Machine

/-! ### A step -/

section Step
variable {s : State}

theorem RowAnswers.answers {w o} (h : RowAnswers w s o) (ht : (s.thread? s.cur).isSome) : Answers s o := by
  cases w with
  | none => exact h
  | some w => exact h.2 ht

theorem RowAnswers.event {w o} (h : RowAnswers w s o) (hw : w.isSome = false) : Answers s o := by
  cases w with
  | none => exact h
  | some w => cases hw

theorem RowAnswers.thread {w o} (h : RowAnswers w s o) (hw : w.isSome) : AnswersThread s o := by
  cases w with
  | none => cases hw
  | some w => exact h

/-- Whatever word a thread that exists fetches, its part of the turn answers. -/
theorem Answers.issueFetched {t r} (ht : (s.thread? s.cur).isSome) : Answers s (issueFetched t r s) := by
  unfold Machine.issueFetched
  split
  · exact .refl
  · exact .next fun h => .fetchMissing h
  · exact .next fun h => .fetchDenied h
  · split
    · exact (exec_answers _ s).answers ht
    · exact AnswersThread.hintWord.2 ht
    · exact AnswersThread.illegalWord.2 ht

theorem Answers.memberTurn {id r} : Answers s (memberTurn id r s) := by
  unfold Machine.memberTurn
  dsimp only
  split
  · exact .next fun h => .update h
  next t e =>
    have ha : Answers { s with cur := id } (Machine.issueFetched t r { s with cur := id }) :=
      .issueFetched (Option.isSome_of_eq_some e)
    exact .ite (.next fun h => .release (.update h)) (ha.after fun h => .update h)

theorem Answers.membersTurn {l} : Answers s (membersTurn l s) := by
  induction l generalizing s with
  | nil => exact .refl
  | cons p l ih =>
    obtain ⟨u, e, hu⟩ := Answers.memberTurn (s := s) (id := p.1) (r := p.2)
    rw [Machine.membersTurn, e]
    exact ih.after hu

theorem Answers.gangStep {g slices} : Answers s (gangStep g slices s) :=
  .ite .refl (Answers.membersTurn.after fun h => .beginTurn h)

theorem Answers.takeTurn {t} : Answers s (takeTurn t s) := by
  cases t with
  | thread id => exact Answers.gangStep.after fun h => .update h
  | gang g slices => exact .gangStep
  | clock core cycles => exact .next fun h => .clock h
  | event i =>
    unfold Machine.takeTurn
    dsimp only
    split
    · exact .refl
    next e =>
      rw [Bool.or_eq_true, not_or, Bool.not_eq_true] at e
      exact (exec_answers i s).event e.1

theorem Answers.step : Answers s (step s) := by
  unfold Machine.step
  cases s.agenda with
  | nil =>
    obtain ⟨u, e, hu⟩ := Answers.takeTurn (s := s) (t := .thread s.cur)
    dsimp only
    rw [e]
    exact .next fun h => .ite (.debugSettle (hu h)) (hu h)
  | cons t r =>
    obtain ⟨u, e, hu⟩ := Answers.takeTurn (s := { s with agenda := r }) (t := t)
    dsimp only
    rw [e]
    exact .next fun h => .ite (.debugSettle (hu (.update h))) (hu (.update h))

end Step

/-- Settles O5: `Answers.step`, from what every row and the turn of a gang keep. -/
theorem stepKeepsCanonical : Obligations.StepKeepsCanonical := by
  unfold Obligations.StepKeepsCanonical
  intro s t h e
  obtain ⟨u, eu, hu⟩ := Answers.step (s := s)
  cases eu.symm.trans e
  exact hu h

/-- Settles O6: the rows by `exec_answers`, the step by `Answers.step`. -/
theorem stepAnswers : Obligations.StepAnswers := by
  unfold Obligations.StepAnswers
  refine ⟨fun s => ?_, fun i s e => ?_, fun i s w v e hv => ?_, fun i s w e hn => ?_⟩
  · obtain ⟨t, et, _⟩ := Answers.step (s := s)
    exact ⟨t, et⟩
  · obtain ⟨t, et, _⟩ := (exec_answers i s).event (Option.isSome_eq_false_iff.mpr (Option.isNone_iff_eq_none.mpr e))
    exact ⟨t, et⟩
  · obtain ⟨t, et, _⟩ := (exec_answers i s).answers (Option.isSome_of_eq_some hv)
    exact ⟨t, et⟩
  · exact ((exec_answers i s).thread (Option.isSome_of_eq_some e)).1 hn

end Sys2Proof.Claims
end

section
/-! PROOFS. The device right after reset (O4). -/
namespace Sys2Proof.Claims
open Sys2Proof.Machine

/-- The registers of the management block that reset to something are the two bytes of `pwrcap`. -/
theorem get_resetRegisters {k : Nat} (h : k < 0x210 ∨ 0x212 ≤ k) : Memory.get resetRegisters k = 0#8 := by
  rw [resetRegisters, Memory.get, if_neg (by omega), Memory.get, if_neg (by omega), Memory.get]
  rfl

theorem reg32_reset_eq_zero {off : Nat} (h : off + 4 ≤ 0x210 ∨ 0x212 ≤ off) : State.reset.reg32 off = 0 := by
  have hb : ∀ i, i < 4 → Memory.get resetRegisters (off + i) = 0#8 := fun i hi => get_resetRegisters (by omega)
  have h0 := hb 0 (by omega)
  have h1 := hb 1 (by omega)
  have h2 := hb 2 (by omega)
  have h3 := hb 3 (by omega)
  change leNat (Memory.read resetRegisters off 4) = 0
  simp only [Memory.read, Nat.add_assoc, Nat.reduceAdd, leNat]
  rw [Nat.add_zero] at h0
  rw [h0, h1, h2, h3]
  rfl

/-- Settles O4: the form by `Canonical.reset`, the registers by `reg32_reset_eq_zero`, the rest by the reset state's own fields. -/
theorem resetState : Obligations.ResetState := by
  unfold Obligations.ResetState
  exact ⟨.reset, rfl, rfl, rfl, rfl, rfl, rfl, fun _ => reg32_reset_eq_zero, fun _ => ⟨rfl, rfl, rfl, rfl⟩, fun _ => ⟨rfl, rfl⟩,
    rfl, rfl, rfl, rfl, fun _ => rfl⟩

end Sys2Proof.Claims
end

section
/-! PROOFS. Reset, power and the boot stages (O41). -/
namespace Sys2Proof.Claims
open Sys2Proof.Machine

/-! ### The rows of the boot -/

theorem exec_fundamentalReset {s : State} : exec .fundamentalReset s = .next (s.restart true) := rfl

theorem exec_powerRemoval {s : State} : exec .powerRemoval s = .next (s.restart false) := rfl

theorem exec_thermalShutdown {s : State} (h : s.boot.powered = true) :
    exec .thermalShutdown s = .next ((s.restart false).send .linkDown) := by
  change Host.Outcome.next (if s.boot.powered then _ else _) = _
  rw [if_pos h]

theorem exec_hostLinkUp {s : State} (h : s.boot.powered = true) :
    exec .hostLinkUp s = .next { s with boot := { s.boot with linkUp := true } } := by
  change Host.Outcome.next (if s.boot.powered then _ else _) = _
  rw [if_pos h]

theorem exec_spdmRequest {s : State} {req} (h : s.boot.linkUp = true) :
    exec (.spdmRequest req) s = .next { s with out := s.out ++ [.spdm (s.spdmAnswer req)] } := by
  change Host.Outcome.next (if s.boot.linkUp then _ else _) = _
  rw [if_pos h]
  rfl

theorem resetAndPower : ResetAndPower :=
  ⟨fun s => ⟨s.restart true, exec_fundamentalReset, rfl, rfl, rfl, rfl, rfl, rfl, rfl, rfl, rfl, rfl, rfl, rfl, rfl⟩,
    fun s => ⟨s.restart false, exec_powerRemoval, rfl, rfl, rfl, rfl, rfl, rfl, rfl⟩,
    fun s h => ⟨(s.restart false).send .linkDown, exec_thermalShutdown h, rfl, rfl, rfl, rfl, rfl, rfl, rfl, rfl⟩,
    fun _ h => exec_hostLinkUp h, fun _ _ h => exec_spdmRequest h⟩

section Boot
variable {s : State}

/-- On a powered device, the stage and the failure code of training select what a boot stage does. -/
theorem exec_bootStageAdvance {c} (hp : s.boot.powered = true) {t : State}
    (h : execBootStageAdvance c s = .next (if !s.boot.powered then s else t)) : exec (.bootStageAdvance c) s = .next t := by
  rw [hp] at h
  exact h

theorem exec_bootStageAdvance_start (hp : s.boot.powered = true) (hs : s.boot.stage = 0) :
    exec (.bootStageAdvance none) s = .next (s.stageTo 1 0) :=
  exec_bootStageAdvance hp (by unfold execBootStageAdvance; rw [hs]; rfl)

theorem exec_bootStageAdvance_rom (hp : s.boot.powered = true) (hs : s.boot.stage = 1) :
    exec (.bootStageAdvance none) s = .next (s.stageTo 2 0) :=
  exec_bootStageAdvance hp (by unfold execBootStageAdvance; rw [hs]; rfl)

theorem exec_bootStageAdvance_slot0 (hp : s.boot.powered = true) (hs : s.boot.stage = 2) :
    exec (.bootStageAdvance none) s =
      .next (if s.flash.check 0 = 0 then (s.acceptImage 0).stageTo 4 0 else s.stageTo 3 (s.flash.check 0)) :=
  exec_bootStageAdvance hp (by unfold execBootStageAdvance; rw [hs]; rfl)

theorem exec_bootStageAdvance_slot1 (hp : s.boot.powered = true) (hs : s.boot.stage = 3) :
    exec (.bootStageAdvance none) s =
      .next (if s.flash.check 1 = 0 then (s.acceptImage 1).stageTo 4 0 else s.stageTo 0xF (s.flash.check 1)) :=
  exec_bootStageAdvance hp (by unfold execBootStageAdvance; rw [hs]; rfl)

theorem exec_bootStageAdvance_clear (hp : s.boot.powered = true) (hs : s.boot.stage = 4) :
    exec (.bootStageAdvance none) s = .next (s.zeroMemory.stageTo 5 0) :=
  exec_bootStageAdvance hp (by unfold execBootStageAdvance; rw [hs]; rfl)

theorem exec_bootStageAdvance_training {c : Byte} (hp : s.boot.powered = true) (hs : s.boot.stage = 4) :
    exec (.bootStageAdvance (some c)) s = .next (if trainCode c then s.stageTo 0xF c.toNat else s) :=
  exec_bootStageAdvance hp (by unfold execBootStageAdvance; rw [hs]; rfl)

theorem exec_bootStageAdvance_serve (hp : s.boot.powered = true) (hs : s.boot.stage = 5) :
    exec (.bootStageAdvance none) s = .next { s with boot := { s.boot with stage := 6, ready := true } } :=
  exec_bootStageAdvance hp (by unfold execBootStageAdvance; rw [hs]; rfl)

theorem stageTo_of_ne_zero {stage : BitVec 4} {fail : Nat} (h : fail ≠ 0) :
    s.stageTo stage fail = { s with boot := { s.boot with stage := stage, fail := BitVec.ofNat 8 fail } } := by
  rw [State.stageTo, if_neg h]

/-- A training code is not the code of success. -/
theorem toNat_ne_zero_of_trainCode {c : Byte} (h : trainCode c = true) : c.toNat ≠ 0 := by
  rw [trainCode, Bool.or_eq_true, Bool.and_eq_true, decide_eq_true_eq, decide_eq_true_eq, decide_eq_true_eq] at h
  omega

theorem mem_stageTo_zeroMemory {stage : BitVec 4} {fail : Nat} :
    (s.zeroMemory.stageTo stage fail).mem = Memory.clear s.mem 0 0x70000000000 := rfl

end Boot

theorem bootStages : BootStages := by
  intro s hp
  refine ⟨fun hs => exec_bootStageAdvance_start hp hs, fun hs => exec_bootStageAdvance_rom hp hs, ?_, fun hs => ?_, fun c hs hc => ?_,
    fun hs => exec_bootStageAdvance_serve hp hs⟩
  · rintro k next fallback (⟨hs, rfl, rfl, rfl⟩ | ⟨hs, rfl, rfl, rfl⟩)
    · rw [exec_bootStageAdvance_slot0 hp hs]
      exact ⟨fun h => by rw [if_pos h]; rfl, fun h => by rw [if_neg h, stageTo_of_ne_zero h]⟩
    · rw [exec_bootStageAdvance_slot1 hp hs]
      exact ⟨fun h => by rw [if_pos h]; rfl, fun h => by rw [if_neg h, stageTo_of_ne_zero h]⟩
  · refine ⟨_, exec_bootStageAdvance_clear hp hs, rfl, fun a ha => ?_, fun a ha => ?_⟩
    · rw [mem_stageTo_zeroMemory, Memory.get_clear, if_pos ⟨Nat.zero_le a, by omega⟩]
      rfl
    · rw [mem_stageTo_zeroMemory, Memory.get_clear, if_neg (by omega)]
  · rw [exec_bootStageAdvance_training hp hs, if_pos hc, stageTo_of_ne_zero (toNat_ne_zero_of_trainCode hc), BitVec.ofNat_toNat,
      BitVec.setWidth_eq]

/-- Settles O41: the resets by `resetAndPower`, the stages by `bootStages`. -/
theorem resetAndBoot : Obligations.ResetAndBoot := ⟨resetAndPower, bootStages⟩

end Sys2Proof.Claims
end

section
/-! PROOFS. The map of the package, and O10. -/
namespace Sys2Proof.Claims
open Sys2Proof.Machine

/-! ### The interleave of HBM4 -/

/-- The bits above the granule's own that the channel of an address takes in. -/
def chanFold (pos : Nat) : Nat := pos % 2 ^ 11 ^^^ pos / 2 ^ 11 % 2 ^ 10

theorem chanFold_lt (pos : Nat) : chanFold pos < 2 ^ 11 :=
  Nat.xor_lt_two_pow (Nat.mod_lt _ (by decide)) (Nat.lt_of_lt_of_le (Nat.mod_lt _ (by decide)) (by decide))

theorem hbmChan_eq (pa : Nat) : hbmChan pa = pa / 2 ^ 8 % 2 ^ 11 ^^^ chanFold (pa / 2 ^ 19) := by
  rw [hbmChan, bits, bits, bits, Nat.shiftRight_eq_div_pow, Nat.shiftRight_eq_div_pow, Nat.shiftRight_eq_div_pow, Nat.xor_assoc, chanFold,
    Nat.div_div_eq_div_mul, ← Nat.pow_add]

theorem hbmChan_lt (pa : Nat) : hbmChan pa < 2048 := by
  rw [hbmChan_eq]
  exact Nat.xor_lt_two_pow (n := 11) (Nat.mod_lt _ (by decide)) (chanFold_lt _)

/-- A stack and a pseudo-channel make up a channel. -/
theorem stack_pch_eq_hbmChan (pa : Nat) : (hbmPlace pa).stack * 128 + (hbmPlace pa).pch = hbmChan pa := by
  have h := hbmChan_lt pa
  rw [hbmPlace, bits, bits, Nat.shiftRight_eq_div_pow, Nat.shiftRight_eq_div_pow]
  dsimp only
  omega

theorem hbmPlace_pos {pa : Nat} (h : pa < 2 ^ 40) : (hbmPlace pa).pos = pa / 2 ^ 19 := by
  change bits pa 39 19 = pa / 2 ^ 19
  rw [bits, Nat.shiftRight_eq_div_pow]
  omega

theorem chanFold_eq {pos : Nat} (h : pos < 2 ^ 21) : chanFold pos = pos % 2 ^ 11 ^^^ pos / 2 ^ 11 := by
  rw [chanFold, Nat.mod_eq_of_lt (a := pos / 2 ^ 11) (by omega)]

/-- The place of an address gives it back: the fold of the position cancels out of the channel. -/
theorem address_hbmPlace {pa : Nat} (h : pa < 2 ^ 40) : (hbmPlace pa).address = pa := by
  have hb : (hbmPlace pa).byte = pa % 256 := rfl
  rw [HbmPlace.address, stack_pch_eq_hbmChan, hbmPlace_pos h, hb, Nat.xor_assoc, ← chanFold_eq (by omega), hbmChan_eq, Nat.xor_assoc,
    Nat.xor_self, Nat.xor_zero]
  omega

/-- Within an aligned run of granules the channel is the granule's number, folded with the run's position. -/
theorem hbmChan_granule {base k : Nat} (hb : base % 2 ^ 19 = 0) (hk : k < 2048) :
    hbmChan (base + 256 * k) = k ^^^ chanFold (base / 2 ^ 19) := by
  rw [hbmChan_eq, show (base + 256 * k) / 2 ^ 8 % 2 ^ 11 = k by omega, show (base + 256 * k) / 2 ^ 19 = base / 2 ^ 19 by omega]

theorem exists_unique_granule {base c : Nat} (hb : base % 2 ^ 19 = 0) (hc : c < 2048) :
    ∃ k, k < 2048 ∧ hbmChan (base + 256 * k) = c ∧ ∀ j, j < 2048 → hbmChan (base + 256 * j) = c → j = k := by
  have hk : c ^^^ chanFold (base / 2 ^ 19) < 2048 := Nat.xor_lt_two_pow (n := 11) hc (chanFold_lt _)
  refine ⟨c ^^^ chanFold (base / 2 ^ 19), hk, ?_, fun j hj e => ?_⟩
  · rw [hbmChan_granule hb hk, Nat.xor_assoc, Nat.xor_self, Nat.xor_zero]
  · rw [hbmChan_granule hb hj] at e
    rw [← e, Nat.xor_assoc, Nat.xor_self, Nat.xor_zero]

/-! ### The second tier, the cores and the base dies -/

theorem address_lpPlace {pa : Nat} (h : 0x10000000000 ≤ pa) : (lpPlace pa).address = pa := by
  rw [LpPlace.address, lpPlace]
  dsimp only
  omega

theorem lpPlace_package_lt (pa : Nat) : (lpPlace pa).package < 48 := Nat.mod_lt _ (by decide)

theorem lpPlace_byte {pa : Nat} (h : 0x10000000000 ≤ pa) : (lpPlace pa).byte = pa % 4096 := by
  rw [lpPlace]
  dsimp only
  omega

theorem mem_linkedDies {b c : Nat} : c ∈ linkedDies b ↔ c < 8 ∧
    ((baseRow c = baseRow b ∧ (baseColumn c = baseColumn b + 1 ∨ baseColumn b = baseColumn c + 1)) ∨
      (baseColumn c = baseColumn b ∧ baseRow c ≠ baseRow b)) := by
  simp [linkedDies]

theorem packageMap : PackageMap := by
  refine ⟨fun pa h => ⟨hbmChan_lt pa, ?_, ?_, hbmPlace_pos h, rfl, address_hbmPlace h⟩, fun base c hb _ hc => exists_unique_granule hb hc,
    fun pa p h e => ?_, fun die y x hy hx => ?_, fun _ _ _ => mem_linkedDies, by decide, by decide⟩
  · have hs := stack_pch_eq_hbmChan pa
    have hp : (hbmPlace pa).pch < 128 := Nat.mod_lt _ (by decide)
    omega
  · have hs := stack_pch_eq_hbmChan pa
    have hp : (hbmPlace pa).pch < 128 := Nat.mod_lt _ (by decide)
    omega
  · subst e
    refine ⟨lpPlace_package_lt pa, lpPlace_byte h, address_lpPlace h, ?_⟩
    rw [packageBase]
    omega
  · rw [meshRow, meshColumn, coreAt]
    omega

/-- Settles O10: the package by `packageMap`, the bytes and the pairs by the laws of `Memory` and `Thread` above. -/
theorem memoryBytes : Obligations.MemoryBytes := by
  unfold Obligations.MemoryBytes
  refine ⟨packageMap, fun m a b k w => Memory.get_put w a b k, fun m a n v w => ⟨Memory.readLE_writeLE w a n v, fun k h => ?_⟩,
    fun m a n i h => Memory.toNat_get_eq_readLE m a h, fun m k wm wk h => Memory.eq_of_get_eq wm wk h,
    fun t n x h => ⟨Thread.reg_setPair_low (by omega), Thread.reg_setPair_high h, Thread.pair_setPair h,
      fun k h1 h2 => Thread.reg_setPair_other h1 h2⟩⟩
  exact Memory.get_write_other w (by rwa [length_natBytes])

end Sys2Proof.Claims
end

section
/-! PROOFS. Rules of the finite maps, of memory and of the device's updates, which several proofs below share. -/
namespace Sys2Proof.Machine

/-! ### Finite maps -/

theorem AMap.get?_map_values {α β : Type} [DecidableEq α] (f : α → β → β) (m : AMap α β) (a : α) :
    AMap.get? (m.map (fun p => (p.1, f p.1 p.2))) a = (AMap.get? m a).map (f a) := by
  induction m with
  | nil => rfl
  | cons p r ih =>
    rw [List.map_cons, AMap.get?, AMap.get?, ih]
    split
    next h => rw [h]; rfl
    next => rfl

theorem AMap.get?_filter_key {α β : Type} [DecidableEq α] (q : α → Bool) (m : AMap α β) (a : α) :
    AMap.get? (m.filter (fun p => q p.1)) a = if q a then AMap.get? m a else none := by
  induction m with
  | nil => rw [List.filter_nil, AMap.get?, ite_self]
  | cons p r ih =>
    obtain ⟨k, v⟩ := p
    rw [List.filter_cons]
    by_cases hk : a = k
    · subst hk
      by_cases hq : q a = true
      · simp [hq, AMap.get?]
      · rw [if_neg hq, ih, if_neg hq]; simp [hq]
    · split <;> simp [AMap.get?, hk, ih]

/-! ### Several bytes -/

theorem Memory.read_eq_map (m : Memory) (n : Nat) : ∀ a, Memory.read m a n = (List.range n).map (fun i => Memory.get m (a + i)) := by
  induction n with
  | zero => intro a; rfl
  | succ n ih =>
    intro a
    rw [Memory.read, ih, List.range_succ_eq_map, List.map_cons, List.map_map, Nat.add_zero]
    refine congrArg _ (List.map_congr_left fun i _ => ?_)
    rw [Function.comp_apply, Nat.add_assoc, Nat.add_comm 1 i]

theorem getElem?_natBytes : ∀ (n v k : Nat), k < n → (natBytes n v)[k]? = some (BitVec.ofNat 8 (v / 256 ^ k))
  | 0, _, _, h => absurd h (Nat.not_lt_zero _)
  | n + 1, v, 0, _ => by rw [natBytes, List.getElem?_cons_zero, Nat.pow_zero, Nat.div_one]
  | n + 1, v, k + 1, h => by
    rw [natBytes, List.getElem?_cons_succ, getElem?_natBytes n (v / 256) k (by omega), Nat.div_div_eq_div_mul, Nat.pow_succ']

theorem Memory.get_write_inside {bs : List Byte} : ∀ {m : Memory} {a k : Nat}, Memory.wf m = true → (h : k < bs.length) →
    Memory.get (Memory.write m a bs) (a + k) = bs[k] := by
  induction bs with
  | nil => intro _ _ _ _ h; exact absurd h (Nat.not_lt_zero _)
  | cons b r ih =>
    intro m a k w h
    rw [Memory.write]
    have wp := Memory.wf_put w a b
    cases k with
    | zero => rw [Memory.get_write_other wp (by omega), Memory.get_put w]; simp
    | succ k =>
      rw [show a + (k + 1) = a + 1 + k by omega, ih wp (by simpa using h)]
      rfl

/-! ### Updates of the device -/

theorem State.read_storeFrom {s : State} {o : Origin} {pa n v : Nat} (w : Memory.wf s.mem = true) :
    (s.storeFrom o pa (natBytes n v)).read pa n = v % 256 ^ n :=
  Memory.readLE_writeLE w pa n v

theorem State.get_storeFrom_other {s : State} {o : Origin} {pa n v p : Nat} (w : Memory.wf s.mem = true) (h : p < pa ∨ pa + n ≤ p) :
    Memory.get (s.storeFrom o pa (natBytes n v)).mem p = Memory.get s.mem p :=
  Memory.get_write_other w (by rwa [length_natBytes])

theorem State.group?_modGroup {s : State} {i j : GroupId} {f : Group → Group} :
    (s.modGroup i f).group? j = if j = i then (s.group? i).map f else s.group? j := by
  unfold State.modGroup
  cases hv : s.group? i with
  | none =>
    dsimp only
    split
    next h => rw [h, hv]; rfl
    next => rfl
  | some v =>
    dsimp only
    split
    next h => rw [h]; exact AMap.get?_set_self s.groups i (f v)
    next h => exact AMap.get?_set_other s.groups (f v) h

theorem State.team?_modTeam_other {s : State} {i j : TeamId} {f : Team → Team} (h : j ≠ i) : (s.modTeam i f).team? j = s.team? j := by
  unfold State.modTeam
  split
  · exact AMap.get?_set_other s.teams _ h
  · rfl

@[simp] theorem State.core_modGroup (s : State) (i : GroupId) (f : Group → Group) (c : Nat) : (s.modGroup i f).core c = s.core c := by
  rw [State.core, State.modGroup_cores]
  rfl

theorem State.thread?_modThread_other {s : State} {i j : ThreadId} {f : Thread → Thread} (h : j ≠ i) :
    (s.modThread i f).thread? j = s.thread? j := by
  unfold State.modThread
  split
  · exact State.thread?_setThread_other s _ h
  · rfl

theorem State.thread?_modThread_self {s : State} {i : ThreadId} {f : Thread → Thread} {t : Thread} (h : s.thread? i = some t) :
    (s.modThread i f).thread? i = some (f t) := by
  rw [State.modThread, h]
  exact State.thread?_setThread s i (f t)

end Sys2Proof.Machine
end

section
/-! PROOFS. Writes of the owner and of others, and the debugger's operations (O60). -/
namespace Sys2Proof.Claims
open Sys2Proof.Machine

/-! ### A write to an area of the owner -/

theorem byOwner_of_owns {s : State} {m : Nat} (f : State → State) (h : Owns s m) : s.byOwner m f = f s := by
  obtain ⟨⟨hr, hs⟩, ho⟩ := h
  rw [State.byOwner, hr, hs, if_neg (by decide), if_neg (by decide), if_pos ho]

theorem byOwner_of_stranger {s : State} {m : Nat} (f : State → State) (h : Stranger s m) : s.byOwner m f = rejected s := by
  obtain ⟨⟨hr, hs⟩, ho⟩ := h
  rw [State.byOwner, hr, hs, if_neg (by decide), if_neg (by decide), if_neg ho]
  rfl

theorem byOwner_of_not_served {s : State} {m : Nat} (f : State → State) (h : s.served 0x200 = false) : s.byOwner m f = unserved s m := by
  rw [State.byOwner, unserved, h]
  cases s.masterReaches m <;> rfl

theorem byOwner_of_not_reaches {s : State} {m : Nat} (f : State → State) (h : ¬ Reaches s m) : s.byOwner m f = unserved s m := by
  cases hr : s.masterReaches m with
  | true =>
    have hs : s.served 0x200 = false := Bool.not_eq_true _ ▸ fun hs => h ⟨hr, hs⟩
    exact byOwner_of_not_served f hs
  | false => rw [State.byOwner, unserved, hr, if_pos (by decide), if_neg (by decide)]

/-! ### The lane that an operation acts on -/

/-- Two devices have the same threads, each on the same lane and live or not in both. -/
def SameLanes (s u : State) : Prop :=
  ∀ i, (s.thread? i).map (fun t => (t.lane, t.live)) = (u.thread? i).map (fun t => (t.lane, t.live))

section Lanes
variable {s u : State}

theorem SameLanes.lane (h : SameLanes s u) (i : ThreadId) : (s.thread? i).map (fun t => t.lane) = (u.thread? i).map (fun t => t.lane) := by
  have hi := congrArg (Option.map Prod.fst) (h i)
  rwa [Option.map_map, Option.map_map] at hi

theorem SameLanes.live (h : SameLanes s u) (i : ThreadId) : (s.thread? i).map Thread.live = (u.thread? i).map Thread.live := by
  have hi := congrArg (Option.map Prod.snd) (h i)
  rwa [Option.map_map, Option.map_map] at hi

theorem mem_members {g : GroupId} {i : Nat} : i ∈ s.members g ↔ i < 64 ∧ (s.thread? (memberOf g i)).map Thread.live = some true := by
  rw [State.members, List.mem_filter, List.mem_range, memberOf]
  cases s.thread? ⟨g.core, g.team, g.grp, i⟩ <;> simp

theorem SameLanes.members (h : SameLanes s u) (g : GroupId) : s.members g = u.members g := by
  refine List.filter_congr fun i _ => ?_
  have hi := h.live ⟨g.core, g.team, g.grp, i⟩
  cases hs : s.thread? ⟨g.core, g.team, g.grp, i⟩ <;> cases hu : u.thread? ⟨g.core, g.team, g.grp, i⟩ <;> simp_all

theorem SameLanes.debugLane (h : SameLanes s u) (d : DebugTarget) : s.debugLane d = u.debugLane d := by
  rw [State.debugLane, State.debugLane, h.members]
  simp only [h.lane]

theorem SameLanes.setThread {i : ThreadId} {t v : Thread} (e : s.thread? i = some t) (hl : v.lane = t.lane) (hv : v.live = t.live) :
    SameLanes (s.setThread i v) s := by
  intro j
  by_cases hj : j = i
  · rw [hj, State.thread?_setThread, e, Option.map_some, Option.map_some, hl, hv]
  · rw [State.thread?_setThread_other s v hj]

end Lanes

theorem lane_rewound (t : Thread) : t.rewound.lane = t.lane := by
  unfold Thread.rewound
  repeat' split
  all_goals rfl

theorem live_rewound (t : Thread) : t.rewound.live = t.live := by
  unfold Thread.rewound
  repeat' split
  all_goals simp [Thread.live, Thread.restarted, *]

theorem thread?_rewindGroup (s : State) (g : GroupId) (i : ThreadId) :
    (s.rewindGroup g).thread? i = (s.thread? i).map (fun t => if i.group = g then t.rewound else t) := by
  have e : (s.rewindGroup g).threads = s.threads.map (fun p => (p.1, if p.1.group = g then p.2.rewound else p.2)) :=
    List.map_congr_left fun p _ => by split <;> rfl
  rw [State.thread?, e]
  exact AMap.get?_map_values (fun i t => if i.group = g then t.rewound else t) s.threads i

theorem SameLanes.rewindGroup (s : State) (g : GroupId) : SameLanes (s.rewindGroup g) s := by
  intro i
  rw [thread?_rewindGroup, Option.map_map]
  refine congrArg (Option.map · (s.thread? i)) (funext fun t => ?_)
  change (Thread.lane (if i.group = g then t.rewound else t), Thread.live (if i.group = g then t.rewound else t)) = _
  split
  · rw [lane_rewound, live_rewound]
  · rfl

/-- No register write changes a thread's lane or ends it. -/
theorem csrWrite_lane_live {t v : Thread} {n : Nat} {w : Word} (h : csrWrite t n w = some v) : v.lane = t.lane ∧ v.live = t.live := by
  unfold csrWrite at h
  split at h <;> cases h <;> exact ⟨rfl, rfl⟩

theorem debugPut_lane_live {s : State} {id : ThreadId} {t v : Thread} {sel : Nat} {w : Word} (h : s.debugPut id t sel w = some v) :
    v.lane = t.lane ∧ v.live = t.live := by
  unfold State.debugPut at h
  split at h
  · split at h <;> cases h
    exact ⟨rfl, rfl⟩
  split at h
  · cases h; exact ⟨rfl, rfl⟩
  split at h
  · cases h; exact ⟨rfl, rfl⟩
  split at h
  · cases h; exact ⟨Thread.setMask_lane .., congrArg (fun w => decide (w ≠ Wait.exited)) (Thread.setMask_wait ..)⟩
  split at h
  · split at h <;> cases h
    exact ⟨rfl, rfl⟩
  split at h
  · cases h; exact ⟨rfl, rfl⟩
  split at h
  · cases h; exact ⟨rfl, rfl⟩
  split at h
  · split at h
    · cases h
    · exact csrWrite_lane_live h
  · cases h

/-! ### What an operation of the debugger does -/

/-- The device as it keeps the group that an operation addresses (R224). -/
def aimedAt (s : State) (d : DebugTarget) : State := { s with dbg := { s.dbg with target := some (targetGroup d) } }

section Operation
variable {s u : State} {d : DebugTarget} {g : Group} {lane : Nat} {halt : Bool} {f : State → GroupId → Group → State}

theorem Commands.aimed (h : Commands s d u g lane) : u = aimedAt s d := h.2.2.1

theorem Commands.lane_eq (h : Commands s d u g lane) : lane = u.debugLane d := h.2.2.2.2

theorem Commands.dbgdata (h : Commands s d u g lane) : u.dbgdata = s.dbgdata := by
  rw [h.aimed]
  rfl

theorem debugOp_of_commands (h : Commands s d u g lane) : debugOp d halt f s = .next (f u (targetGroup d) g) := by
  obtain ⟨ho, hb, rfl, hg, -⟩ := h
  rw [debugOp, byOwner_of_owns _ ho, hb]
  dsimp only [Bool.false_and]
  rw [hg]
  rfl

theorem debugOp_of_no_group (ho : Owns s d.master) (hb : s.dbg.busy = false) (hg : (aimedAt s d).debugGroup d = none) :
    debugOp d halt f s = .next ((aimedAt s d).outcome ((aimedAt s d).debugLane d) 3) := by
  unfold aimedAt at hg
  rw [debugOp, byOwner_of_owns _ ho, hb]
  dsimp only [Bool.false_and]
  rw [hg]
  rfl

/-- While a step is in progress, only a halt of its group is taken. -/
theorem debugOp_of_busy (ho : Owns s d.master) (hb : s.dbg.busy = true) (hh : halt = true → s.dbg.target ≠ some (targetGroup d)) :
    debugOp d halt f s = .next s := by
  have hn : (halt && decide (s.dbg.target = some (targetGroup d))) = false := by
    cases halt with
    | false => rfl
    | true => exact decide_eq_false (hh rfl)
  rw [debugOp, byOwner_of_owns _ ho, hb, hn]
  rfl

theorem debugOp_of_halt (ho : Owns s d.master) (ht : s.dbg.target = some (targetGroup d)) (hg : s.debugGroup d = some g) :
    debugOp d true f s = .next (f (aimedAt s d) (targetGroup d) g) := by
  have ha : (aimedAt s d).debugGroup d = some g := hg
  unfold aimedAt at ha
  have hc : (s.dbg.busy && !(true && decide (s.dbg.target = some (targetGroup d)) && (s.debugGroup d).isSome)) = false := by
    simp [ht, hg]
  rw [debugOp, byOwner_of_owns _ ho]
  dsimp only
  rw [hc, ha]
  rfl

theorem debugThread_eq_some {id : ThreadId} {t : Thread} (h : u.debugThread d g = some (id, t)) :
    ∃ w, u.thread? id = some w ∧ t = w.rewound := by
  unfold State.debugThread at h
  split at h
  · cases h
  split at h
  · cases h
  next i _ =>
    obtain ⟨w, hw, e⟩ := Option.map_eq_some_iff.mp h
    cases e
    exact ⟨w, hw, rfl⟩

end Operation

/-! ### The operations -/

section Operations
variable {s u : State} {d : DebugTarget} {g : Group} {lane sel : Nat} {id : ThreadId} {t : Thread}

theorem exec_debugHalt : exec (.debugHalt d) s = execDebugHalt d s := rfl
theorem exec_debugResume : exec (.debugResume d) s = execDebugResume d s := rfl
theorem exec_debugCatchOn : exec (.debugCatchOn d) s = execDebugCatchOn d s := rfl
theorem exec_debugCatchOff : exec (.debugCatchOff d) s = execDebugCatchOff d s := rfl
theorem exec_debugRead : exec (.debugRead d sel) s = execDebugRead d sel s := rfl
theorem exec_debugWrite : exec (.debugWrite d sel) s = execDebugWrite d sel s := rfl
theorem exec_debugStep : exec (.debugStep d) s = execDebugStep d s := rfl

/-- Every operation is one on a group; only a halt can end a step. -/
theorem exec_eq_debugOp {i : Instr} (h : i = .debugHalt d ∨ i = .debugResume d ∨ i = .debugStep d ∨ i = .debugRead d sel ∨
    i = .debugWrite d sel ∨ i = .debugCatchOn d ∨ i = .debugCatchOff d) :
    ∃ halt f, (halt = true → i = .debugHalt d) ∧ ∀ s, exec i s = debugOp d halt f s := by
  obtain rfl | rfl | rfl | rfl | rfl | rfl | rfl := h
  · exact ⟨true, _, fun _ => rfl, fun s => execDebugHalt.eq_def d s⟩
  · exact ⟨false, _, nofun, fun s => execDebugResume.eq_def d s⟩
  · exact ⟨false, _, nofun, fun s => execDebugStep.eq_def d s⟩
  · exact ⟨false, _, nofun, fun s => execDebugRead.eq_def d sel s⟩
  · exact ⟨false, _, nofun, fun s => execDebugWrite.eq_def d sel s⟩
  · exact ⟨false, _, nofun, fun s => execDebugCatchOn.eq_def d s⟩
  · exact ⟨false, _, nofun, fun s => execDebugCatchOff.eq_def d s⟩

theorem execDebugRead_of_refused (h : Commands s d u g lane) (ht : u.debugThread d g = some (id, t)) (hv : u.debugValue id t sel = none) :
    execDebugRead d sel s = .next (u.outcome lane 3) := by
  rw [execDebugRead, debugOp_of_commands h, ht, h.lane_eq]
  dsimp only
  rw [hv]

theorem execDebugRead_of_value {v : Word} (h : Commands s d u g lane) (ht : u.debugThread d g = some (id, t))
    (hv : u.debugValue id t sel = some v) : execDebugRead d sel s = .next (({ u with dbgdata := v } : State).outcome lane 1) := by
  rw [execDebugRead, debugOp_of_commands h, ht, h.lane_eq]
  dsimp only
  rw [hv]

theorem SameLanes.modTeam {f : Team → Team} (s : State) (i : TeamId) : SameLanes (s.modTeam i f) s := by
  unfold State.modTeam
  split <;> exact fun _ => rfl

theorem SameLanes.trans {r : State} (h : SameLanes s u) (h' : SameLanes u r) : SameLanes s r := fun i => (h i).trans (h' i)

/-- A write of a register leaves the lane of its thread, and so the lane that the operation acts on. -/
theorem SameLanes.debugPut {w : Word} {v : Thread} (ht : u.debugThread d g = some (id, t)) (hp : u.debugPut id t sel w = some v) :
    SameLanes (u.setThread id v) u := by
  obtain ⟨x, hx, rfl⟩ := debugThread_eq_some ht
  obtain ⟨hl, hv⟩ := debugPut_lane_live hp
  exact .setThread hx (hl.trans (lane_rewound x)) (hv.trans (live_rewound x))

theorem execDebugWrite_of_refused (h : Commands s d u g lane) (ht : u.debugThread d g = some (id, t))
    (hp : u.debugPut id t sel s.dbgdata = none) : execDebugWrite d sel s = .next (u.outcome lane 3) := by
  rw [execDebugWrite, debugOp_of_commands h, ht, h.lane_eq]
  dsimp only
  rw [h.dbgdata, hp]

theorem execDebugWrite_of_put {v : Thread} (h : Commands s d u g lane) (ht : u.debugThread d g = some (id, t))
    (hp : u.debugPut id t sel s.dbgdata = some v) : execDebugWrite d sel s = .next (State.outcome
      (if sel = 0x216 then (u.setThread id v).modTeam id.teamId (fun m => { m with scoperep := m.scoperep &&& ~~~(s.dbgdata.extractLsb' 0 7) })
       else u.setThread id v) lane 1) := by
  rw [execDebugWrite, debugOp_of_commands h, ht]
  dsimp only
  rw [h.dbgdata, hp]
  dsimp only
  rw [State.setThread_dbgdata, h.dbgdata, h.lane_eq]
  split
  · rw [((SameLanes.modTeam _ _).trans (.debugPut ht hp)).debugLane]
  · rw [(SameLanes.debugPut ht hp).debugLane]

theorem execDebugStep_of_blocked (h : Commands s d u g lane) (ht : u.debugThread d g = some (id, t))
    (hb : (u.rewindGroup (targetGroup d)).stepBlocked id t = true) :
    execDebugStep d s = .next ((u.rewindGroup (targetGroup d)).outcome lane 2) := by
  rw [execDebugStep, debugOp_of_commands h, ht]
  dsimp only
  rw [hb, if_pos rfl, (SameLanes.rewindGroup u _).debugLane, h.lane_eq]

/-- The members of a group at a pc, each with its nret, its pc and its number of traps (R225). -/
def membersAt (s : State) (g : GroupId) (pc : Addr) : List (Nat × Dword × Addr × Nat) :=
  (s.members g).filterMap (fun i => (s.thread? (memberOf g i)).bind (fun u => if u.pc = pc then some (i, u.nret, u.pc, u.traps) else none))

theorem pc_of_mem_membersAt {g : GroupId} {pc : Addr} {m : Nat × Dword × Addr × Nat} (h : m ∈ membersAt s g pc) : m.2.2.1 = pc := by
  obtain ⟨i, -, hi⟩ := List.mem_filterMap.mp h
  obtain ⟨v, -, hv⟩ := Option.bind_eq_some_iff.mp hi
  split at hv <;> cases hv
  assumption

theorem execDebugStep_of_free (h : Commands s d u g lane) (ht : u.debugThread d g = some (id, t))
    (hb : (u.rewindGroup (targetGroup d)).stepBlocked id t = false) :
    execDebugStep d s = .next { u.rewindGroup (targetGroup d) with dbg := { u.dbg with
      dlane := lane, outcome := 0, busy := true, stepping := membersAt (u.rewindGroup (targetGroup d)) (targetGroup d) t.pc } } := by
  rw [execDebugStep, debugOp_of_commands h, ht]
  dsimp only
  rw [hb, if_neg Bool.false_ne_true, (SameLanes.rewindGroup u _).debugLane, h.lane_eq]
  rfl

/-- A lane that has not stopped is not read, written or stepped. -/
theorem exec_of_not_stopped {i : Instr} (h : Commands s d u g lane) (ht : u.debugThread d g = none)
    (hi : i = .debugRead d sel ∨ i = .debugWrite d sel ∨ i = .debugStep d) : exec i s = .next (u.outcome lane 3) := by
  obtain rfl | rfl | rfl := hi
  · rw [exec_debugRead, execDebugRead, debugOp_of_commands h, ht, h.lane_eq]
  · rw [exec_debugWrite, execDebugWrite, debugOp_of_commands h, ht, h.lane_eq]
  · rw [exec_debugStep, execDebugStep, debugOp_of_commands h, ht, h.lane_eq]

end Operations

theorem debugGroup_eq_some {s : State} {d : DebugTarget} {g : Group} (h : s.debugGroup d = some g) :
    s.group? (targetGroup d) = some g ∧ g.ended = false ∧ (s.onLane (targetGroup d) (s.debugLane d)).isSome = true := by
  obtain ⟨hg, hp⟩ := Option.filter_eq_some_iff.mp h
  obtain ⟨he, hl⟩ := (Bool.and_eq_true _ _).mp hp
  exact ⟨hg, (Bool.not_eq_true' _).mp he, hl⟩

/-- Settles O60: each operation by its `execDebug…` lemma, the refusals by `exec_eq_debugOp`. -/
theorem debugger : Obligations.Debugger := by
  unfold Obligations.Debugger
  refine ⟨fun s d g u lane h => ?_, fun s d g u lane h => ?_, fun s d g u lane h => ?_, fun s d g u lane h => ?_,
    fun s d g u lane id t sel h ht => ⟨fun v hv => execDebugRead_of_value h ht hv, fun hv => execDebugRead_of_refused h ht hv⟩,
    fun s d g u lane id t sel h ht => ⟨fun v hv => execDebugWrite_of_put h ht hv, fun hv => execDebugWrite_of_refused h ht hv⟩,
    fun s d g u lane id t r h ht hr => ⟨fun hb => ?_, fun hb => ?_⟩,
    fun s d g u lane sel i h ht hi => exec_of_not_stopped h ht hi,
    fun s d i sel hi => ?_, fun s d g lane ho _ ht hg hl => ?_, fun s d g h => debugGroup_eq_some h⟩
  · rw [exec_debugHalt, execDebugHalt, debugOp_of_commands h, h.lane_eq]
    rfl
  · rw [exec_debugResume, execDebugResume, debugOp_of_commands h, h.lane_eq]
  · rw [exec_debugCatchOn, execDebugCatchOn, debugOp_of_commands h, h.lane_eq]
  · rw [exec_debugCatchOff, execDebugCatchOff, debugOp_of_commands h, h.lane_eq]
  · subst hr
    exact execDebugStep_of_blocked h ht hb
  · subst hr
    refine ⟨_, execDebugStep_of_free h ht hb, rfl, rfl, rfl, fun m hm => pc_of_mem_membersAt hm, ?_, rfl⟩
    rw [h.aimed]
    rfl
  · obtain ⟨halt, f, hf, he⟩ := exec_eq_debugOp hi
    rw [he]
    refine ⟨fun h => congrArg _ (byOwner_of_stranger _ h), fun h => congrArg _ (byOwner_of_not_served _ h),
      fun ho hb ht => debugOp_of_busy ho hb fun hh => ht (hf hh), ?_⟩
    rintro ho hb _ rfl hg
    exact debugOp_of_no_group ho hb hg
  · refine ⟨_, (execDebugHalt.eq_def d s).trans (debugOp_of_halt ho ht hg), ?_⟩
    simp only [State.outcome, State.modGroup_dbg, hl]
    exact ⟨trivial, trivial, trivial, rfl⟩

end Sys2Proof.Claims
end

section
/-! PROOFS. A completed move between the tiers (O42). -/
namespace Sys2Proof.Claims
open Sys2Proof.Machine

/-! ### What a completed move does to what is under way -/

/-- R25: the accesses and the stream elements of every thread that are under way follow the bytes that have moved. -/
theorem threads_movePage (s : State) (m : TierMove) (e : Nat) : (s.movePage m e).threads =
    s.threads.map (fun p => (p.1, p.2.moved (fun _ pa => movedTo (m.src * 65536) (m.dst * 65536) m.size pa))) := rfl

theorem exec_tierMoveComplete {s : State} {asid page e : Nat} {m : TierMove}
    (hm : s.moves.find? (fun x => x.asid == asid && x.page == page) = some m) (hw : s.walk asid (page * 65536) = some (e, m.block))
    (hp : leafPa e m.block (page * 65536) = m.src * 65536) :
    exec (.tierMoveComplete asid page) s = .next (({ s with moves := s.moves.filter (fun x => decide (x ≠ m)) } : State).movePage m e) := by
  change execTierMoveComplete asid page s = _
  unfold execTierMoveComplete
  rw [hm, hw]
  dsimp only
  rw [if_pos ⟨rfl, hp⟩]

/-! ### A device with a stream element under way to a block that moves -/

/-- A promotion of the first block of ASID 0, whose copy is under way. -/
def blockMove : TierMove := { asid := 0, page := 0, block := true, src := 0, dst := 0x4000, tier := 1 }

/-- A write stream with one element, which has its place in the block and is not performed yet (R296). -/
def appendedStream : Stream :=
  { base := 0, space := .gl, size := 4, write := true, dims := 0, counts := [4, 1, 1, 1], strides := [1, 0, 0, 0], next := 1, fetched := 0
    fifo := [], appended := [{ addr := 0, value := 7, stamp := 0, issue := 0, parts := [(.mem 0 0 0x3F, 4)] }], flags := 0, kernel := true
    stamp := 0 }

/-- The thread whose stream it is. -/
def appendingThread : Thread := { Thread.start 0 0 128 [] 0x100000 true with q := [some appendedStream, none, none, none] }

/-- A device that maps the block onto itself and moves it, with that thread in its one team. -/
def movingDevice : State :=
  { State.reset.flatTables.harness 0x100000 with moves := [blockMove], threads := [(⟨0, 0, 0, 0⟩, appendingThread)] }

theorem movingDevice_canonical : Canonical movingDevice := .update (.write (.write (.write .reset)))

theorem movingDevice_walk : movingDevice.walk 0 0 = some (0x3F, true) := rfl

/-- The element follows the block to its new place. -/
theorem appendingThread_moved : appendingThread.moved (fun _ pa => movedTo 0 0x40000000 (2 ^ 29) pa) ≠ appendingThread := fun h =>
  absurd (congrArg Thread.q h) (by decide)

/-- Refutes O42: a completed move changes the threads, whose accesses and stream elements under way it points to the new place of the page
(R25); here an element that a write stream has appended and not performed. -/
theorem not_powerAndMemoryEvents : ¬ Obligations.PowerAndMemoryEvents := by
  unfold Obligations.PowerAndMemoryEvents
  rintro ⟨-, -, -, -, -, -, -, -, hmove⟩
  obtain ⟨t, ht, -, hthreads, -⟩ := hmove movingDevice 0 0 blockMove 0x3F _ _ _ _ _ movingDevice_canonical rfl movingDevice_walk rfl rfl rfl rfl
    (by decide) rfl rfl rfl
  cases ht.symm.trans (exec_tierMoveComplete rfl movingDevice_walk (by decide))
  rw [threads_movePage] at hthreads
  exact appendingThread_moved (congrArg Prod.snd (List.head_eq_of_cons_eq hthreads))

end Sys2Proof.Claims
end

section
/-! PROOFS. Teams that leave their cores, and swaps of groups (O50). -/
namespace Sys2Proof.Claims
open Sys2Proof.Machine

/-! ### What becomes of the sets of a core -/

/-- Nothing of a device differs but its cores and groups. -/
def OnlySets (s u : State) : Prop := ∃ cores groups, u = { s with cores := cores, groups := groups }

section Sets
variable {s u r : State}

theorem OnlySets.refl : OnlySets s s := ⟨s.cores, s.groups, rfl⟩

theorem OnlySets.trans (h : OnlySets s u) (h' : OnlySets u r) : OnlySets s r := by
  obtain ⟨_, _, rfl⟩ := h
  obtain ⟨cores, groups, rfl⟩ := h'
  exact ⟨cores, groups, rfl⟩

theorem OnlySets.modGroup {g : GroupId} {f : Group → Group} : OnlySets s (s.modGroup g f) := by
  unfold State.modGroup
  split
  · exact ⟨_, _, rfl⟩
  · exact .refl

theorem OnlySets.setCore {c : Nat} {k : Core} : OnlySets s (s.setCore c k) := ⟨_, _, rfl⟩

theorem OnlySets.fillActive {core fuel : Nat} : OnlySets s (s.fillActive core fuel) := by
  induction fuel generalizing s with
  | zero => exact .refl
  | succ n ih =>
    unfold State.fillActive
    split
    · exact .refl
    · split
      · exact (OnlySets.setCore.trans .modGroup).trans ih
      · exact .refl

theorem OnlySets.leaveSets {id : TeamId} : OnlySets s (s.leaveSets id) := by
  unfold State.leaveSets
  induction s.groupsOf id generalizing s with
  | nil => exact .refl
  | cons p l ih => exact (OnlySets.setCore.trans .fillActive).trans ih

theorem OnlySets.exchangeFor {g e : GroupId} : OnlySets s (s.exchangeFor g e) := by
  unfold State.exchangeFor
  dsimp only
  split
  · exact ((OnlySets.setCore.trans .modGroup).trans .modGroup).trans .modGroup
  · exact .refl

theorem OnlySets.exchange {g : GroupId} : OnlySets s (s.exchange g) := by
  unfold State.exchange
  split
  · exact .refl
  · exact .exchangeFor

theorem OnlySets.mem (h : OnlySets s u) : u.mem = s.mem := by
  obtain ⟨_, _, rfl⟩ := h
  rfl

theorem OnlySets.team? (h : OnlySets s u) (i : TeamId) : u.team? i = s.team? i := by
  obtain ⟨_, _, rfl⟩ := h
  rfl

theorem OnlySets.threads (h : OnlySets s u) : u.threads = s.threads := by
  obtain ⟨_, _, rfl⟩ := h
  rfl

end Sets

/-! ### A flush -/

section Leave
variable {s : State} {id : TeamId} {v : Team}

theorem exec_teamFlush_of_not_stopped (hv : s.team? id = some v) (h : s.clusterStopped v.cluster = false) :
    exec (.teamFlush id) s = .next s := by
  change execTeamFlush id s = _
  rw [execTeamFlush, hv]
  simp [h]

theorem exec_teamSave_of_not_stopped (hv : s.team? id = some v) (h : s.clusterStopped v.cluster = false) :
    exec (.teamSave id) s = .next s := by
  change execTeamSave id s = _
  rw [execTeamSave, hv]
  simp [h]

/-- The cluster of a flushed team is marked (R117). -/
def markFlushed (s : State) (n : Nat) : State :=
  match AMap.get? s.clusters n with
  | some c => { s with clusters := AMap.set s.clusters n { c with flushed := true } }
  | none => s

/-- Nothing of a device differs but its launches and clusters. -/
def OnlyClusters (s u : State) : Prop := ∃ launches clusters, u = { s with launches := launches, clusters := clusters }

theorem OnlyClusters.returnFlushed {n : Nat} : OnlyClusters s ((markFlushed s n).returnFlushed n) := by
  have hm : OnlyClusters s (markFlushed s n) := by
    unfold markFlushed
    split
    · exact ⟨_, _, rfl⟩
    · exact ⟨_, _, rfl⟩
  obtain ⟨l, c, hu⟩ := hm
  rw [hu]
  unfold State.returnFlushed State.modLaunch
  split
  · exact ⟨_, _, rfl⟩
  · split
    · dsimp only
      split
      · exact ⟨_, _, rfl⟩
      · exact ⟨_, _, rfl⟩
    · exact ⟨_, _, rfl⟩

theorem exec_teamFlush (hv : s.team? id = some v) (he : v.ended = false) (ha : v.action = some .flush) (hs : s.clusterStopped v.cluster = true) :
    exec (.teamFlush id) s = .next ((markFlushed (s.discardTeams [id]) v.cluster).returnFlushed v.cluster) := by
  change execTeamFlush id s = _
  rw [execTeamFlush, hv]
  dsimp only
  rw [if_neg (by simp [he, ha, hs])]
  rfl

/-- A team ends without its work in the engines, its calls and its local stores (R117). -/
def cutOff (s : State) (id : TeamId) : State :=
  let s := { s with
    buffer := s.buffer.filter (fun b => !(decide (b.thread.teamId = id) && b.parts.any (fun (p : Place × Nat) => match p.1 with
      | .mem _ _ e => decide (e = 0)
      | _ => false)))
    cores := s.cores.map (fun (p : Nat × Core) => (p.1, p.2.withoutWork id)) }
  ((s.leaveSets id).dropCalls id (fun _ => true)).modTeam id (fun t => { t with ended := true })

theorem mem_cutOff : (cutOff s id).mem = s.mem := by
  rw [cutOff, State.modTeam_mem]
  exact OnlySets.leaveSets.mem

theorem team?_cutOff_other {i : TeamId} (h : i ≠ id) : (cutOff s id).team? i = s.team? i := by
  rw [cutOff, State.team?_modTeam_other h]
  exact OnlySets.leaveSets.team? i

theorem discardTeams_teams {ids : List TeamId} : (s.discardTeams ids).teams =
    (ids.foldl cutOff (s.dropHeldMessages ids)).teams.filter (fun p => !ids.contains p.1) := rfl

theorem discardTeams_mem {ids : List TeamId} : (s.discardTeams ids).mem = (ids.foldl cutOff (s.dropHeldMessages ids)).mem := rfl

theorem mem_discardTeams_one : (s.discardTeams [id]).mem = s.mem := discardTeams_mem.trans mem_cutOff

theorem team?_discardTeams_one (i : TeamId) : (s.discardTeams [id]).team? i = if i = id then none else s.team? i := by
  rw [State.team?, discardTeams_teams, AMap.get?_filter_key (fun i => !([id] : List TeamId).contains i)]
  by_cases h : i = id
  · simp [h]
  · rw [if_neg h, if_pos (by simpa using h)]
    exact team?_cutOff_other h

theorem teamId_of_mem_threads_discardTeams_one {p : ThreadId × Thread} (h : p ∈ (s.discardTeams [id]).threads) : p.1.teamId ≠ id := by
  simpa using (List.mem_filter.mp h).2

/-- A flushed team is gone with its threads, and no other team and no byte of memory has changed. -/
theorem teamFlush_discards (hv : s.team? id = some v) (he : v.ended = false) (ha : v.action = some .flush)
    (hs : s.clusterStopped v.cluster = true) : ∃ t, exec (.teamFlush id) s = .next t ∧ t.team? id = none ∧
      (∀ p ∈ t.threads, p.1.teamId ≠ id) ∧ t.mem = s.mem ∧ ∀ i, i ≠ id → t.team? i = s.team? i := by
  have hteam := team?_discardTeams_one (s := s) (id := id)
  have hthreads := fun p => teamId_of_mem_threads_discardTeams_one (s := s) (id := id) (p := p)
  have hmem := mem_discardTeams_one (s := s) (id := id)
  have hx := exec_teamFlush hv he ha hs
  generalize s.discardTeams [id] = u at hteam hthreads hmem hx
  obtain ⟨l, c, hu⟩ := OnlyClusters.returnFlushed (s := u) (n := v.cluster)
  rw [hu] at hx
  exact ⟨_, hx, (hteam id).trans (if_pos rfl), hthreads, hmem, fun i hi => (hteam i).trans (if_neg hi)⟩

/-! ### A save -/

/-- A team's context joins the saved teams of its cluster. -/
theorem mem_addSaved (n : Nat) (w : SavedTeam) (l : List SavedCluster) : ∃ c ∈ addSaved n w l, c.number = n ∧ w ∈ c.teams := by
  unfold addSaved
  split
  next h =>
    obtain ⟨c, hc, hn⟩ := List.any_eq_true.mp h
    have hn : c.number = n := by simpa using hn
    refine ⟨{ c with teams := c.teams ++ [w] }, List.mem_map.mpr ⟨c, hc, if_pos hn⟩, hn, ?_⟩
    simp
  next => exact ⟨_, List.mem_append_right _ (List.mem_singleton_self _), rfl, List.mem_singleton_self _⟩

theorem get_fillArea_other {n a : Nat} (hc : Canonical s) (ha : a < s.ctxbase + s.areaUsed ∨ s.ctxbase + s.areaUsed + n ≤ a) :
    Memory.get (s.fillArea n).mem a = Memory.get s.mem a := by
  unfold State.fillArea
  split
  · rfl
  · exact Memory.get_write_other hc.mem (by simpa using ha)

theorem exec_teamSave_of_full (hv : s.team? id = some v) (h : s.ctxlen < s.areaUsed + s.contextBytes id v) : exec (.teamSave id) s = .next s := by
  change execTeamSave id s = _
  rw [execTeamSave, hv]
  simp [h]

/-- The device as a team leaves its core for the save area (R118). -/
def unloaded (s : State) (id : TeamId) : State :=
  (((s.closeCalls id).dropCalls id (fun b => b.kind == 1)).leaveSets id).modCore id.core (fun k => k.withoutWork id)

/-- The name that a team has while it is saved. -/
def savedName (id : TeamId) (v : Team) : TeamId → TeamId := renameBy [(id, parkedId v.cluster v.index)]

/-- What is saved of a team, under that name. -/
def savedContext (s : State) (id : TeamId) (v : Team) : SavedTeam := (s.savedTeam id v).renamed (savedName id v)

/-- The device with the context of a team in the save area. -/
def storedContext (s : State) (id : TeamId) (v : Team) : State :=
  ((unloaded s id).fillArea (s.contextBytes id v)).forgetElements id

/-- The device once a team has left with its threads, and its context has joined those of its cluster. -/
def leaving (s : State) (id : TeamId) (v : Team) : State :=
  let u := storedContext s id v
  ({ u with
      saved := addSaved v.cluster (savedContext s id v) u.saved, teams := AMap.erase u.teams id
      groups := u.groups.filter (fun p => decide (p.1.teamId ≠ id)), threads := u.threads.filter (fun p => decide (p.1.teamId ≠ id)) } :
      State).renameOutside (savedName id v)

/-- The device once a team has been saved (R118 to R120). -/
def savedAway (s : State) (id : TeamId) (v : Team) : State := (leaving s id v).settleSaving

theorem exec_teamSave (hv : s.team? id = some v) (he : v.ended = false) (ha : v.action = some .save) (hs : s.clusterStopped v.cluster = true)
    (hf : s.areaUsed + s.contextBytes id v ≤ s.ctxlen) : exec (.teamSave id) s = .next (savedAway s id v) := by
  change execTeamSave id s = _
  rw [execTeamSave, hv]
  dsimp only
  rw [if_neg (by simp [he, ha, hs]; omega)]
  rfl

theorem unloaded_eq : ∃ cores groups service, unloaded s id = { s with cores := cores, groups := groups, service := service } := by
  obtain ⟨cores, groups, hu⟩ : OnlySets ((s.closeCalls id).dropCalls id (fun b => b.kind == 1)) (unloaded s id) :=
    OnlySets.leaveSets.trans .setCore
  exact ⟨cores, groups, _, hu⟩

theorem fillArea_eq {n : Nat} : ∃ mem poison hist stamp,
    s.fillArea n = { s with mem := mem, poison := poison, hist := hist, stamp := stamp } := by
  unfold State.fillArea
  split <;> exact ⟨_, _, _, _, rfl⟩

/-- Storing a context changes no team, no thread and none of what is saved. -/
theorem storedContext_eq : ∃ cores groups service mem poison hist stamp net, storedContext s id v = { s with
    cores := cores, groups := groups, service := service, mem := mem, poison := poison, hist := hist, stamp := stamp, net := net } := by
  obtain ⟨cores, groups, service, hu⟩ := unloaded_eq (s := s) (id := id)
  obtain ⟨mem, poison, hist, stamp, hf⟩ := fillArea_eq (s := unloaded s id) (n := s.contextBytes id v)
  rw [storedContext, hf, hu]
  exact ⟨_, _, _, _, _, _, _, _, rfl⟩

/-- A context goes to the free part of the save area. -/
theorem get_storedContext_other {a : Nat} (hc : Canonical s)
    (ha : a < s.ctxbase + s.areaUsed ∨ s.ctxbase + s.areaUsed + s.contextBytes id v ≤ a) :
    Memory.get (storedContext s id v).mem a = Memory.get s.mem a := by
  obtain ⟨cores, groups, service, hu⟩ := unloaded_eq (s := s) (id := id)
  have hm : (storedContext s id v).mem = ((unloaded s id).fillArea (s.contextBytes id v)).mem := rfl
  rw [hm, hu]
  exact get_fillArea_other (.update hc) ha

/-- Settling a cut's save changes no more than the cut. -/
theorem settleSaving_eq : ∃ c, s.settleSaving = { s with cut := c } := by
  unfold State.settleSaving
  split
  · exact ⟨_, rfl⟩
  · exact ⟨s.cut, rfl⟩

theorem leaving_mem : (leaving s id v).mem = (storedContext s id v).mem := rfl

theorem leaving_saved : (leaving s id v).saved = addSaved v.cluster (savedContext s id v) (storedContext s id v).saved := rfl

theorem leaving_team? : (leaving s id v).team? id = none := by
  refine (AMap.get?_filter_key (fun i => decide (i ≠ id)) (storedContext s id v).teams id).trans ?_
  simp

theorem teamId_of_mem_threads_leaving {p : ThreadId × Thread} (h : p ∈ (leaving s id v).threads) : p.1.teamId ≠ id :=
  of_decide_eq_true (List.mem_filter.mp h).2

theorem savedContext_names : (savedContext s id v).core = id.core ∧ (savedContext s id v).teamid = id.team ∧
    (savedContext s id v).bytes = s.contextBytes id v ∧ (savedContext s id v).co = Memory.slice s.mem (scratchPa id.core v.coBase) v.coBytes :=
  ⟨rfl, rfl, rfl, rfl⟩

theorem savedAway_eq : ∃ c, savedAway s id v = { leaving s id v with cut := c } := settleSaving_eq

/-- A saved team is gone with its threads, its context is kept for its cluster, and memory changes in the free part of the save area alone. -/
theorem teamSave_saves (hv : s.team? id = some v) (he : v.ended = false) (ha : v.action = some .save) (hs : s.clusterStopped v.cluster = true)
    (hf : s.areaUsed + s.contextBytes id v ≤ s.ctxlen) : ∃ t, exec (.teamSave id) s = .next t ∧ t.team? id = none ∧
      (∀ p ∈ t.threads, p.1.teamId ≠ id) ∧
      (Canonical s → ∀ a, a < s.ctxbase + s.areaUsed ∨ s.ctxbase + s.areaUsed + s.contextBytes id v ≤ a → Memory.get t.mem a = Memory.get s.mem a) ∧
      ∃ c ∈ t.saved, c.number = v.cluster ∧ ∃ w ∈ c.teams, w.core = id.core ∧ w.teamid = id.team ∧ w.bytes = s.contextBytes id v ∧
        w.co = Memory.slice s.mem (scratchPa id.core v.coBase) v.coBytes := by
  obtain ⟨c, hmem, hn, hw⟩ := mem_addSaved v.cluster (savedContext s id v) (storedContext s id v).saved
  have hteam := leaving_team? (s := s) (id := id) (v := v)
  have hthreads := fun p => teamId_of_mem_threads_leaving (s := s) (id := id) (v := v) (p := p)
  have hmem' := leaving_mem (s := s) (id := id) (v := v)
  rw [← leaving_saved] at hmem
  obtain ⟨cut, ht⟩ := savedAway_eq (s := s) (id := id) (v := v)
  have he := exec_teamSave hv he ha hs hf
  rw [ht] at he
  generalize leaving s id v = u at hteam hthreads hmem' hmem he
  refine ⟨_, he, hteam, hthreads, fun hc a h => ?_, c, hmem, hn, _, hw, savedContext_names⟩
  exact (congrArg (Memory.get · a) hmem').trans (get_storedContext_other hc h)

/-! ### A drain that takes too long -/

theorem exec_drainTimeout {since : Nat} (hv : s.team? id = some v) (ha : v.action = some (.drain since)) (he : v.ended = false) :
    exec (.drainTimeout id) s
      = .next (if since + 2 ^ 22 ≤ v.ncyc then s.modTeam id (fun t => { t with action := some .save }) else s) := by
  change execDrainTimeout id s = _
  rw [execDrainTimeout, hv]
  dsimp only
  rw [ha]
  dsimp only
  rw [he]
  simp only [Bool.not_false, true_and]

end Leave

/-! ### The active group with the greatest value -/

/-- One group more in the search for the one with the greatest value. -/
def greater (f : GroupId → Option Nat) (r : Option (GroupId × Nat)) (g : GroupId) : Option (GroupId × Nat) :=
  match f g with
  | none => r
  | some n => match r with
    | some (_, m) => if m < n then some (g, n) else r
    | none => some (g, n)

/-- A group with a value above that of every other is found, wherever the search starts below it. -/
theorem foldl_greater {f : GroupId → Option Nat} {g : GroupId} {n : Nat} (hg : f g = some n) : ∀ {l : List GroupId} {r : Option (GroupId × Nat)},
    (∀ h ∈ l, h ≠ g → ∀ m, f h = some m → m < n) → (r = some (g, n) ∨ g ∈ l ∧ ∀ p, r = some p → p.2 < n) →
    l.foldl (greater f) r = some (g, n)
  | [], _, _, hr => hr.resolve_right fun h => List.not_mem_nil h.1
  | h :: l, r, hmax, hr => by
    rw [List.foldl_cons]
    refine foldl_greater hg (fun k hk => hmax k (List.mem_cons_of_mem _ hk)) ?_
    unfold greater
    by_cases hh : h = g
    · subst hh
      rw [hg]
      left
      obtain rfl | ⟨-, hb⟩ := hr
      · simp
      · cases r with
        | none => rfl
        | some p => exact if_pos (hb p rfl)
    · have hm := hmax h List.mem_cons_self hh
      cases hf : f h with
      | none =>
        refine hr.imp id fun ⟨hmem, hb⟩ => ⟨(List.mem_cons.mp hmem).resolve_left (Ne.symm hh), hb⟩
      | some m =>
        have hlt := hm m hf
        obtain rfl | ⟨hmem, hb⟩ := hr
        · exact .inl (if_neg (Nat.lt_asymm hlt))
        · refine .inr ⟨(List.mem_cons.mp hmem).resolve_left (Ne.symm hh), fun p hp => ?_⟩
          cases r with
          | none => cases hp; exact hlt
          | some q =>
            dsimp only at hp
            split at hp
            · cases hp; exact hlt
            · exact hb p hp

theorem mostActive_eq {s : State} {core : Nat} {f : GroupId → Group → Option Nat} {g : GroupId} {v : Group} {n : Nat}
    (hg : g ∈ (s.core core).active) (hv : s.group? g = some v) (hn : f g v = some n)
    (hmax : ∀ h ∈ (s.core core).active, h ≠ g → ∀ w, s.group? h = some w → ∀ m, f h w = some m → m < n) :
    s.mostActive core f = some g := by
  have hgn : (s.group? g).bind (f g) = some n := by rw [hv]; exact hn
  have hfold := foldl_greater (f := fun g => (s.group? g).bind (f g)) hgn (l := (s.core core).active) (r := none)
    (fun h hh hne m hm => by
      obtain ⟨w, hw, hfw⟩ := Option.bind_eq_some_iff.mp hm
      exact hmax h hh hne w hw m hfw)
    (.inr ⟨hg, nofun⟩)
  exact congrArg (Option.map Prod.fst) hfold

/-! ### Swaps -/

section Swap
variable {s : State} {core : Nat} {g e : GroupId} {v : Group}

theorem exec_parkSwap_of_longest (hg : g ∈ (s.core core).active) (hv : s.group? g = some v) (ht : (s.core core).swapT ≤ v.parkedFor)
    (hr : s.ready g = false) (hmax : ∀ h ∈ (s.core core).active, h ≠ g → ∀ w, s.group? h = some w → w.parkedFor < v.parkedFor) :
    exec (.parkSwap core) s = .next (s.exchange g) := by
  change execParkSwap core s = _
  rw [execParkSwap, mostActive_eq hg hv (if_pos ⟨ht, by simp [hr]⟩)]
  intro h hh hne w hw m hm
  split at hm <;> cases hm
  exact hmax h hh hne w hw

theorem exec_issueSwap_of_most (hl : s.longWaiting core = true) (hg : g ∈ (s.core core).active) (hv : s.group? g = some v)
    (hmax : ∀ h ∈ (s.core core).active, h ≠ g → ∀ w, s.group? h = some w → w.issues < v.issues) :
    exec (.issueSwap core) s = .next (s.exchange g) := by
  change execIssueSwap core s = _
  rw [execIssueSwap, hl, mostActive_eq hg hv rfl fun h hh hne w hw m hm => Option.some.inj hm ▸ hmax h hh hne w hw]
  rfl

theorem longWaiting_eq_false (h : ∀ g ∈ (s.core core).pending, s.ready g = true → ∀ v, s.group? g = some v → v.waited < 4096) :
    s.longWaiting core = false := by
  refine List.any_eq_false.mpr fun g hg hw => ?_
  obtain ⟨hr, hw⟩ := (Bool.and_eq_true _ _).mp hw
  cases hv : s.group? g with
  | none => simp [hv] at hw
  | some v =>
    have hlt := h g hg hr v hv
    simp only [hv, decide_eq_true_eq] at hw
    omega

theorem exec_issueSwap_of_not_waiting (h : s.longWaiting core = false) : exec (.issueSwap core) s = .next s := by
  change execIssueSwap core s = _
  rw [execIssueSwap, h]
  rfl

theorem exchange_eq (he : s.readyPending g.core = some e) : s.exchange g = s.exchangeFor g e := by
  rw [State.exchange, he]

/-- A core makes at most one exchange in a cycle. -/
theorem exchangeFor_of_swapped (h : (s.core g.core).swapped = (s.core g.core).cycle) : s.exchangeFor g e = s := if_neg fun hc => hc.2 h

/-- The core of an exchange, after it. -/
theorem core_exchangeFor (hg : g ∈ (s.core g.core).active) (h : (s.core g.core).swapped ≠ (s.core g.core).cycle) :
    (s.exchangeFor g e).core g.core = { s.core g.core with
      active := (s.core g.core).active.filter (fun x => decide (x ≠ g)) ++ [e]
      pending := (s.core g.core).pending.filter (fun x => decide (x ≠ e)) ++ [g]
      swapped := (s.core g.core).cycle } := by
  unfold State.exchangeFor
  dsimp only
  rw [if_pos ⟨hg, h⟩, State.core_modGroup, State.core_modGroup, State.entered, State.core_modGroup, State.core_setCore]

/-- Neither group of an exchange issues for 2 cycles. -/
theorem held_exchangeFor (hg : g ∈ (s.core g.core).active) (h : (s.core g.core).swapped ≠ (s.core g.core).cycle) {x : GroupId} {w : Group}
    (hx : x = g ∨ x = e) (hw : (s.exchangeFor g e).group? x = some w) : w.held = (s.core g.core).cycle + 2 := by
  unfold State.exchangeFor at hw
  dsimp only at hw
  rw [if_pos ⟨hg, h⟩, State.group?_modGroup] at hw
  split at hw
  · obtain ⟨y, -, rfl⟩ := Option.map_eq_some_iff.mp hw
    rfl
  next hxg =>
    rw [State.group?_modGroup, if_pos (hx.resolve_left hxg)] at hw
    obtain ⟨y, -, rfl⟩ := Option.map_eq_some_iff.mp hw
    rfl

theorem exec_swapThresholdAdjust {n : Nat} (h : 16 ≤ n) (h' : n ≤ 4096) :
    exec (.swapThresholdAdjust core n) s = .next (s.modCore core (fun k => { k with swapT := n })) := by
  change execSwapThresholdAdjust core n s = _
  rw [execSwapThresholdAdjust, if_pos ⟨h, h'⟩]

end Swap

/-- Settles O50: a flush by `teamFlush_discards`, a save by `teamSave_saves`, the swaps by what `mostActive_eq` finds and `exchangeFor` does. -/
theorem teamsLeaveAndSwap : Obligations.TeamsLeaveAndSwap := by
  unfold Obligations.TeamsLeaveAndSwap
  refine ⟨fun s id v hv he ha hs => teamFlush_discards hv he ha hs,
    fun s id v hv he ha hs => ⟨teamSave_saves hv he ha hs, exec_teamSave_of_full hv⟩,
    fun s id v hv h => ⟨exec_teamFlush_of_not_stopped hv h, exec_teamSave_of_not_stopped hv h⟩,
    fun s id v since hv ha he => ?_, ?_, fun s core h => exec_issueSwap_of_not_waiting (longWaiting_eq_false h),
    fun s core n h h' => exec_swapThresholdAdjust h h'⟩
  · rw [exec_drainTimeout hv ha he]
    exact ⟨fun h => by rw [if_pos h], fun h => by rw [if_neg (by omega)]⟩
  · rintro s _ g v e he hg hv rfl
    refine ⟨exec_parkSwap_of_longest hg hv, fun hl => exec_issueSwap_of_most hl hg hv, fun h => ?_, fun h => ?_, OnlySets.exchange.threads⟩
    · rw [exchange_eq he, core_exchangeFor hg h]
      exact ⟨rfl, rfl, rfl, fun x w hx hw => held_exchangeFor hg h hx hw⟩
    · rw [exchange_eq he, exchangeFor_of_swapped h]

end Sys2Proof.Claims
end

section
/-! PROOFS. What the host and drives do with device memory (O59). -/
namespace Sys2Proof.Claims
open Sys2Proof.Machine

section Host
variable {s : State} {pa n off : Nat}

/-! ### The direct aperture -/

theorem exec_directApertureAccess {d : Option (List Byte)} : exec (.directApertureAccess off n d) s = execDirectApertureAccess off n d s := rfl

theorem exec_transformWindowWrite {b : List Byte} : exec (.transformWindowWrite off b) s = .next (s.windowWrite off b) := rfl

theorem exec_directApertureAccess_read (ho : s.barsOpen = true) (h : off < 2 ^ 36) (hp : s.aperturePa off = some pa) :
    exec (.directApertureAccess off n none) s = .next (if s.held pa n then s else s.hostAccess pa n none) := by
  rw [exec_directApertureAccess, execDirectApertureAccess, if_neg (by omega), ho, hp]
  rfl

theorem exec_directApertureAccess_write {b : List Byte} (ho : s.barsOpen = true) (h : off < 2 ^ 36) (hp : s.aperturePa off = some pa) :
    exec (.directApertureAccess off n (some b)) s = .next (if s.held pa b.length then s else s.hostAccess pa n (some b)) := by
  rw [exec_directApertureAccess, execDirectApertureAccess, if_neg (by omega), ho, hp]
  rfl

theorem exec_directApertureAccess_window {b : List Byte} (h : 2 ^ 36 ≤ off) :
    exec (.directApertureAccess off n (some b)) s = exec (.transformWindowWrite off b) s := by
  rw [exec_directApertureAccess, execDirectApertureAccess, if_pos h, exec_transformWindowWrite]

theorem windowWrite_of_closed {b : List Byte} (ho : s.barsOpen = false) : s.windowWrite off b = s.send .unsupported := by
  rw [State.windowWrite, ho]
  rfl

theorem exec_directApertureAccess_unsupported {d : Option (List Byte)}
    (h : s.barsOpen = false ∨ (2 ^ 36 ≤ off ∧ d = none) ∨ (off < 2 ^ 36 ∧ s.aperturePa off = none)) :
    exec (.directApertureAccess off n d) s = .next (s.send .unsupported) := by
  rw [exec_directApertureAccess, execDirectApertureAccess.eq_def]
  obtain ho | ⟨hw, rfl⟩ | ⟨hl, hp⟩ := h
  · rw [ho]
    split
    · cases d with
      | none => rfl
      | some b => exact congrArg _ (windowWrite_of_closed ho)
    · rfl
  · rw [if_pos hw]
  · rw [if_neg (by omega), hp]
    split <;> rfl

/-! ### Coherent accesses -/

theorem hostAccess_read (h : s.poisonIn pa n = false) : s.hostAccess pa n none
    = ({ s with out := s.out ++ [.hostData (Memory.read s.mem pa n)] } : State).useLines [(.mem 0 pa 1, n)] := by
  rw [State.hostAccess, h]
  rfl

theorem hostAccess_poison (h : s.poisonIn pa n = true) : s.hostAccess pa n none = s.send .hostPoison := by
  rw [State.hostAccess, h]
  rfl

theorem exec_hostCoherentAccess {k : Nat} {a : HostAccess} : exec (.hostCoherentAccess pa k a) s = execHostCoherentAccess pa k a s := rfl

theorem hostWaits_plain {d : Option (List Byte)} : s.hostWaits pa n ⟨d, false⟩ = s.held pa n := rfl

theorem hostWaits_read {x : Bool} : s.hostWaits pa n ⟨none, x⟩ = s.held pa n := by
  cases x <;> rfl

theorem exec_hostCoherentAccess_read {x : Bool} (ho : s.barsOpen = true) (hr : s.hostReaches pa n = true) :
    exec (.hostCoherentAccess pa n ⟨none, x⟩) s = .next (if s.held pa n then s
      else if x then s.hostExclusive pa n none else s.hostAccess pa n none) := by
  rw [exec_hostCoherentAccess, execHostCoherentAccess]
  dsimp only
  rw [ho, hr, hostWaits_read]
  rfl

theorem exec_hostCoherentAccess_write {k : Nat} {b : List Byte} {x : Bool} (ho : s.barsOpen = true) (hr : s.hostReaches pa b.length = true) :
    exec (.hostCoherentAccess pa k ⟨some b, x⟩) s = .next (if s.hostWaits pa b.length ⟨some b, x⟩ then s
      else if x then s.hostExclusive pa b.length (some b) else s.hostAccess pa b.length (some b)) := by
  rw [exec_hostCoherentAccess, execHostCoherentAccess]
  dsimp only
  rw [ho, hr]
  rfl

theorem all_lines_granted (h : ∀ l ∈ linesOf pa n, l ∈ s.hostLines) : (linesOf pa n).all (fun l => s.hostLines.contains l) = true :=
  List.all_eq_true.mpr fun l hl => List.contains_iff_mem.mpr (h l hl)

/-- The write of an atomic that holds its lines waits for a move alone. -/
theorem hostWaits_write {b : List Byte} (h : ∀ l ∈ linesOf pa n, l ∈ s.hostLines) : s.hostWaits pa n ⟨some b, true⟩ = s.moving pa n := by
  rw [State.hostWaits, all_lines_granted h]
  rfl

theorem hostExclusive_write {b : List Byte} (h : ∀ l ∈ linesOf pa n, l ∈ s.hostLines) : s.hostExclusive pa n (some b)
    = { s.storeFrom (hostOrigin true) pa b with hostLines := s.hostLines.filter (fun l => !(linesOf pa n).contains l) } := by
  rw [State.hostExclusive]
  dsimp only
  rw [all_lines_granted h]
  rfl

theorem hostExclusive_read (h : s.poisonIn pa n = false) : s.hostExclusive pa n none
    = { s.hostAccess pa n none with hostLines := s.hostLines ++ (linesOf pa n).filter (fun l => !s.hostLines.contains l) } := by
  rw [State.hostExclusive]
  dsimp only
  rw [h]
  rfl

theorem hostExclusive_poison (h : s.poisonIn pa n = true) : s.hostExclusive pa n none = s.send .hostPoison := by
  rw [State.hostExclusive]
  dsimp only
  rw [h]
  rfl

theorem mem_linesOf {l : Nat} : l ∈ linesOf pa n ↔ pa / 64 ≤ l ∧ l < (pa + n - 1) / 64 + 1 := by
  simp only [linesOf, List.mem_map, List.mem_range]
  constructor
  · rintro ⟨i, hi, rfl⟩
    omega
  · intro h
    exact ⟨l - pa / 64, by omega, by omega⟩

/-- A line that a host CPU holds for an atomic keeps every other access from its bytes. -/
theorem held_of_hostLine {l : Nat} (hl : l ∈ linesOf pa n) (hh : l ∈ s.hostLines) (hn : 0 < n) : s.held pa n = true := by
  have hm := mem_linesOf.mp hl
  have hh' : s.hostHolds pa n = true := List.any_eq_true.mpr ⟨l, hh, by
    rw [rangesMeet, Bool.and_eq_true, decide_eq_true_eq, decide_eq_true_eq]
    omega⟩
  rw [State.held, State.heldOther, hh', Bool.or_true]

/-! ### AtomicOps -/

theorem exec_hostAtomicop {w v c : Nat} {op : HostAtomic} (ho : s.barsOpen = true) (hp : physPart pa = .hbm) (hw : w = 16 → op = .cas) :
    exec (.hostAtomicop pa w op v c) s = .next (if pa % w ≠ 0 then s.send .completerAbort
      else if s.held pa w then s
      else if s.poisonIn pa w then s.send .hostPoison
      else (s.storeFrom (hostOrigin true) pa (natBytes w (hostAtomicNew op w (s.read pa w) v c))).send (.hostData (natBytes w (s.read pa w)))) := by
  have hu : (!s.barsOpen || decide (physPart pa ≠ .hbm) || (decide (w = 16) && decide (op ≠ .cas))) = false := by
    by_cases h : w = 16
    · simp [ho, hp, hw h]
    · simp [ho, hp, h]
  change execHostAtomicop pa w op v c s = _
  rw [execHostAtomicop, hu]
  rfl

/-! ### Transform windows -/

/-- An enable keeps the word that is written but for its low three bits, of which it sets en, or errs where the descriptor is refused (R96). -/
theorem transformWindowEnable_reg {m w d : Nat} {v : Word} (hc : Canonical s) (ho : Owns s m)
    (he : bits (s.reg32 (0x10000 + 64 * w)) 0 0 = 0) (hv : bits v.toNat 0 0 = 1)
    (hd : d = s.windowDesc w / 2 ^ 32 * 2 ^ 32 + v.toNat / 8 * 8) : ∃ t, exec (.transformWindowEnable m w v) s = .next t ∧
      t.reg32 (0x10000 + 64 * w) = v.toNat / 8 * 8 + (if windowBad d then 4 else 1) ∧ t.mem = s.mem := by
  have hn : ¬ (bits (s.reg32 (0x10000 + 64 * w)) 0 0 = 1 ∨ bits v.toNat 0 0 = 0) := by omega
  have hx : exec (.transformWindowEnable m w v) s = .next (s.enableWindow w v.toNat) := congrArg _ (byOwner_of_owns _ ho)
  rw [State.enableWindow] at hx
  dsimp only at hx
  rw [if_neg hn, ← hd] at hx
  refine ⟨_, hx, ?_, rfl⟩
  refine (Memory.readLE_writeLE hc.mgmt _ _ _).trans (Nat.mod_eq_of_lt ?_)
  have hlt := v.isLt
  split <;> omega

/-- Bytes written one by one: those written are there. -/
theorem get?_setBytes (f : Nat → Byte) (o : Nat) : ∀ (n : Nat) (m : AMap Nat Byte) (k : Nat), k < n →
    AMap.get? ((List.range n).foldl (fun m i => AMap.set m (o + i) (f i)) m) (o + k) = some (f k)
  | 0, _, _, h => absurd h (Nat.not_lt_zero _)
  | n + 1, m, k, h => by
    rw [List.range_succ, List.foldl_append, List.foldl_cons, List.foldl_nil]
    by_cases hk : k = n
    · rw [hk, AMap.get?_set_self]
    · rw [AMap.get?_set_other _ _ (by omega), get?_setBytes f o n m k (by omega)]

section Window
variable {data : List Byte}

theorem windowWrite_discarded (ho : s.barsOpen = true) (hl : 2 ^ 36 ≤ off) (hh : off < 0x1400000000)
    (h : bits (s.windowDesc ((off - 2 ^ 36) / 2 ^ 28)) 0 0 = 0 ∨ bits (s.windowDesc ((off - 2 ^ 36) / 2 ^ 28)) 111 96 < off % 2 ^ 28 / 4096) :
    s.windowWrite off data = s.count 0x1080 := by
  rw [State.windowWrite]
  dsimp only
  rw [ho, if_neg (by simp; omega), if_pos h]

/-- Bytes of an open block, or of one that can be opened, are kept (R97). -/
theorem windowWrite_kept {w b d : Nat} (ho : s.barsOpen = true) (hl : 2 ^ 36 ≤ off) (hh : off < 0x1400000000) (hw : w = (off - 2 ^ 36) / 2 ^ 28)
    (hb : b = off % 2 ^ 28 / 4096) (hd : d = s.windowDesc w) (he : bits d 0 0 = 1) (hlast : b ≤ bits d 111 96)
    (hroom : (AMap.get? (s.window w).held b).isSome = true ∨ (s.window w).held.length < 16) :
    ∃ t h, exec (.transformWindowWrite off data) s = .next t ∧ t.mem = s.mem ∧
        AMap.get? (t.window w).held b = some h ∧ ∀ k, k < data.length → AMap.get? h (off % 4096 + k) = some (data.getD k 0) := by
  have hopen : ¬ ((AMap.get? (s.window w).held b).isNone ∧ 16 ≤ (s.window w).held.length) := by
    rintro ⟨hn, hf⟩
    obtain hs | hs := hroom
    · simp [Option.isNone_iff_eq_none.mp hn] at hs
    · omega
  rw [exec_transformWindowWrite, State.windowWrite]
  dsimp only
  rw [← hw, ← hb, ← hd, ho, if_neg (by simp; omega), if_neg (by omega), if_neg hopen]
  refine ⟨_, _, rfl, rfl, ?_, fun k hk => get?_setBytes (fun i => data.getD i 0) (off % 4096) data.length
    (AMap.getD (s.window w).held b []) k hk⟩
  rw [State.window, AMap.getD, AMap.get?_set_self, Option.getD_some, AMap.get?_set_self]

end Window

section Block
variable {w b : Nat} {m : AMap Nat Byte} {p : Bool}

theorem exec_transformBlockProcess : exec (.transformBlockProcess w b p) s = execTransformBlockProcess w b p s := rfl

theorem exec_transformBlockProcess_of_held (hm : AMap.get? (s.window w).held b = some m)
    (hh : s.held (bits (s.windowDesc w) 511 448 + 8 * b) 8 = true) : exec (.transformBlockProcess w b p) s = .next s := by
  rw [exec_transformBlockProcess, execTransformBlockProcess, hm]
  dsimp only
  rw [if_pos (.inr hh)]

theorem exec_transformBlockProcess_of_out {d : Nat} {x z : List Byte} {t : Bool} (hm : AMap.get? (s.window w).held b = some m)
    (hl : 4096 ≤ m.length) (hd : d = s.windowDesc w) (hpa : pa = bits d 447 384 + b * (4096 * 2 ^ bits d 95 92))
    (hx : x = (List.range 4096).map (fun i => AMap.getD m i 0)) (hh : s.held (bits d 511 448 + 8 * b) 8 = false)
    (hs : s.blockStages d b x = .out z t) (ho : s.held pa z.length = false) (hp : s.poisonIn pa z.length = false)
    (hlo : physPart pa = .hbm) (hhi : physPart (pa + z.length - 1) = .hbm) :
    exec (.transformBlockProcess w b false) s = .next ((s.store pa z).blockReport w b d (if t then 5 else 0) z.length) := by
  rw [exec_transformBlockProcess, execTransformBlockProcess, hm]
  dsimp only
  rw [← hd, ← hpa, ← hx, if_neg (by simp [hh]; omega), hs]
  dsimp only
  rw [if_neg (by simp [ho]), if_neg (by simp [hp, hlo, hhi])]

theorem exec_transformBlockProcess_of_fail {d st : Nat} {x : List Byte} (hm : AMap.get? (s.window w).held b = some m)
    (hl : 4096 ≤ m.length) (hd : d = s.windowDesc w) (hpa : pa = bits d 447 384 + b * (4096 * 2 ^ bits d 95 92))
    (hx : x = (List.range 4096).map (fun i => AMap.getD m i 0)) (hh : s.held (bits d 511 448 + 8 * b) 8 = false)
    (ho : s.held pa (4096 * 2 ^ bits d 95 92) = false) (hs : s.blockStages d b x = .fail st) :
    exec (.transformBlockProcess w b p) s = .next ((s.blockMaybe pa (4096 * 2 ^ bits d 95 92)).blockReport w b d st 0) := by
  rw [exec_transformBlockProcess, execTransformBlockProcess, hm]
  dsimp only
  rw [← hd, ← hpa, ← hx, if_neg (by simp [hh]; omega), hs]
  dsimp only
  rw [if_neg (by simp [ho])]

end Block
end Host

/-- Settles O59: the aperture and the coherent accesses by what their rows do on bytes that are held, poisoned or neither, the windows by
`transformWindowEnable_reg`, `windowWrite_kept` and the lemmas of a block. -/
theorem hostAccesses : Obligations.HostAccesses := by
  unfold Obligations.HostAccesses
  refine ⟨fun s off pa ho hl hp => ⟨fun n hh hq => ?_, fun n hh hq => ?_, fun n b hh => ?_, fun n hh => ?_⟩,
    fun s off n d h => exec_directApertureAccess_unsupported h, fun s off n b h => exec_directApertureAccess_window h,
    fun s pa n b k ho hr hh hb => ⟨?_, ?_⟩, fun s pa n b k ho hr hm hb hg => ?_,
    fun s pa n ho hr hh => ⟨fun hq => ?_, fun hq x => ?_, fun b k hb => ?_, fun hq => ?_⟩,
    fun s pa n ⟨l, hl, hh⟩ hn => held_of_hostLine hl hh hn,
    fun s pa w op v c ho hp hw => ⟨fun ha hh hq => ?_, fun ha => ?_⟩,
    fun s m w v d hc ho he hv hd => transformWindowEnable_reg hc ho he hv hd,
    fun s off data w b d ho hl hh hw hb hd => ⟨fun h => ?_, fun he hlast hroom _ => windowWrite_kept ho hl hh hw hb hd he hlast hroom⟩,
    fun s w b m d pa x hm hl hd hpa hx => ⟨fun hh p => exec_transformBlockProcess_of_held hm (hd ▸ hh),
      fun z t hh hs ho hq hlo hhi => exec_transformBlockProcess_of_out hm hl hd hpa hx hh hs ho hq hlo hhi,
      fun st p hh ho hs => exec_transformBlockProcess_of_fail hm hl hd hpa hx hh ho hs⟩⟩
  · rw [exec_directApertureAccess_read ho hl hp, hh, hostAccess_read hq]
    rfl
  · rw [exec_directApertureAccess_read ho hl hp, hh, hostAccess_poison hq]
    rfl
  · rw [exec_directApertureAccess_write ho hl hp, hh]
    rfl
  · rw [exec_directApertureAccess_read ho hl hp, hh]
    rfl
  · rw [exec_hostCoherentAccess_read ho hr, hh]
    rfl
  · subst hb
    rw [exec_hostCoherentAccess_write ho hr, hostWaits_plain, hh]
    rfl
  · subst hb
    rw [exec_hostCoherentAccess_write ho hr, hostWaits_write hg, hm, hostExclusive_write hg]
    refine ⟨_, rfl, rfl, fun l hl hmem => ?_⟩
    have hn := (List.mem_filter.mp hmem).2
    rw [List.contains_iff_mem.mpr hl] at hn
    exact Bool.false_ne_true hn
  · rw [exec_hostCoherentAccess_read ho hr, hh, hostAccess_read hq]
    rfl
  · rw [exec_hostCoherentAccess_read ho hr, hh, hostAccess_poison hq, hostExclusive_poison hq]
    cases x <;> rfl
  · subst hb
    rw [exec_hostCoherentAccess_write ho hr, hostWaits_plain, hh]
    rfl
  · rw [exec_hostCoherentAccess_read ho hr, hh, hostExclusive_read hq, hostAccess_read hq]
    refine ⟨_, rfl, rfl, rfl, fun l hl => ?_⟩
    by_cases hin : l ∈ s.hostLines
    · exact List.mem_append_left _ hin
    · exact List.mem_append_right _ (List.mem_filter.mpr ⟨hl, by simpa using hin⟩)
  · rw [exec_hostAtomicop ho hp hw, if_neg (by omega), hh, hq]
    rfl
  · rw [exec_hostAtomicop ho hp hw, if_pos ha]
    rfl
  · rw [exec_transformWindowWrite, windowWrite_discarded ho hl hh (by rwa [← hw, ← hd, ← hb])]

end Sys2Proof.Claims
end

section
/-! PROOFS. Which versions of its bytes a load takes (O12). -/
namespace Sys2Proof.Claims
open Sys2Proof.Machine

/-! ### One version for each byte -/

/-- Every byte has one version. -/
def OneVersion (ks : List (Nat × Nat)) : Prop := ∀ pa k j, (pa, k) ∈ ks → (pa, j) ∈ ks → k = j

/-- The highest of the versions of a byte, and of one more. -/
def highest (own : List (Nat × Nat)) (pa k : Nat) : Nat := own.foldl (fun k q => if q.1 = pa then max k q.2 else k) k

theorem highest_le_iff {own : List (Nat × Nat)} {pa k m : Nat} : highest own pa k ≤ m ↔ k ≤ m ∧ ∀ q ∈ own, q.1 = pa → q.2 ≤ m := by
  induction own generalizing k with
  | nil => simp [highest]
  | cons p r ih =>
    rw [highest, List.foldl_cons, ← highest, ih, List.forall_mem_cons]
    split
    next h => simp only [Nat.max_le, h, forall_const, and_assoc]
    next h => simp only [h, false_imp_iff, true_and]

theorem le_highest {own : List (Nat × Nat)} {pa k : Nat} {q : Nat × Nat} (hq : q ∈ own) (h : q.1 = pa) : q.2 ≤ highest own pa k :=
  (highest_le_iff.mp (Nat.le_refl _)).2 q hq h

/-- From whichever version of the byte the search starts. -/
theorem highest_eq {own : List (Nat × Nat)} {p q : Nat × Nat} (hp : p ∈ own) (hq : q ∈ own) (h : p.1 = q.1) :
    highest own p.1 p.2 = highest own p.1 q.2 :=
  Nat.le_antisymm (highest_le_iff.mpr ⟨le_highest hp rfl, fun _ hr e => le_highest hr e⟩)
    (highest_le_iff.mpr ⟨le_highest hq h.symm, fun _ hr e => le_highest hr e⟩)

/-- The versions of bytes, raised so that each byte has one. -/
def levelled (own : List (Nat × Nat)) : List (Nat × Nat) := own.map (fun p => (p.1, highest own p.1 p.2))

theorem mem_levelled {own : List (Nat × Nat)} {pa k : Nat} (h : (pa, k) ∈ levelled own) :
    ∃ p ∈ own, p.1 = pa ∧ k = highest own pa p.2 := by
  obtain ⟨p, hp, e⟩ := List.mem_map.mp h
  cases e
  exact ⟨p, hp, rfl, rfl⟩

theorem OneVersion.levelled (own : List (Nat × Nat)) : OneVersion (levelled own) := by
  intro pa k j hk hj
  obtain ⟨p, hp, rfl, rfl⟩ := mem_levelled hk
  obtain ⟨q, hq, hqp, rfl⟩ := mem_levelled hj
  exact highest_eq hp hq hqp.symm

/-! ### No piece of a packet in part -/

/-- Versions that differ from others by having been raised, each by what its byte and it decide. -/
def RaisedFrom (ks ls : List (Nat × Nat)) : Prop :=
  ∃ g : Nat → Nat → Nat, (∀ pa k, k ≤ g pa k) ∧ ls = ks.map (fun p => (p.1, g p.1 p.2))

section Raised
variable {ks ls ms : List (Nat × Nat)}

theorem RaisedFrom.refl : RaisedFrom ks ks := ⟨fun _ k => k, fun _ k => Nat.le_refl k, (List.map_id ks).symm⟩

theorem RaisedFrom.trans (h : RaisedFrom ks ls) (h' : RaisedFrom ls ms) : RaisedFrom ks ms := by
  obtain ⟨f, hf, rfl⟩ := h
  obtain ⟨g, hg, rfl⟩ := h'
  exact ⟨fun pa k => g pa (f pa k), fun pa k => Nat.le_trans (hf pa k) (hg pa _), List.map_map⟩

theorem RaisedFrom.wholePieces (w : Write) (i : Nat) : RaisedFrom ks (wholePieces w i ks) := by
  unfold Machine.wholePieces
  split
  · refine ⟨fun pa k => if w.covers pa && ks.any (fun q => decide (q.1 / 64 = pa / 64) && w.covers q.1 && decide (i < q.2))
      then max k (i + 1) else k, fun pa k => ?_, List.map_congr_left fun p _ => ?_⟩
    · dsimp only
      split
      · exact Nat.le_max_left _ _
      · exact Nat.le_refl _
    · dsimp only
      split <;> rfl
  · exact .refl

theorem RaisedFrom.unmixed : ∀ (i : Nat) (ws : List Write), RaisedFrom ks (unmixed ks i ws)
  | _, [] => .refl
  | i, w :: r => (RaisedFrom.unmixed (i + 1) r).trans (.wholePieces w i)

theorem RaisedFrom.mem (h : RaisedFrom ks ls) {pa k : Nat} (hk : (pa, k) ∈ ls) : ∃ j, (pa, j) ∈ ks ∧ j ≤ k := by
  obtain ⟨g, hg, rfl⟩ := h
  obtain ⟨p, hp, e⟩ := List.mem_map.mp hk
  cases e
  exact ⟨p.2, hp, hg p.1 p.2⟩

theorem RaisedFrom.keys (h : RaisedFrom ks ls) : ls.map Prod.fst = ks.map Prod.fst := by
  obtain ⟨g, -, rfl⟩ := h
  rw [List.map_map]
  rfl

theorem OneVersion.raised (h : RaisedFrom ks ls) (ho : OneVersion ks) : OneVersion ls := by
  obtain ⟨g, -, rfl⟩ := h
  intro pa k j hk hj
  obtain ⟨⟨_, m⟩, hm, e⟩ := List.mem_map.mp hk
  obtain ⟨⟨_, n⟩, hn, e'⟩ := List.mem_map.mp hj
  cases e
  obtain ⟨rfl, rfl⟩ := Prod.mk.inj e'
  rw [ho _ m n hm hn]

end Raised

/-! ### The versions that readers take -/

section Versions
variable {s : State} {rs : List Reader} {back : List Nat} {acq : Option Scope}

/-- The bytes that readers ask for, each with the bound that its reader sets. -/
def asked (s : State) (rs : List Reader) : List (Nat × Nat) :=
  rs.flatMap (fun r => (bytesOf r.ps).map (fun pa => (pa, s.floor r.by' r.view pa)))

/-- The versions that they would take, each reader for itself. -/
def single (s : State) (rs : List Reader) (back : List Nat) : List (Nat × Nat) :=
  (asked s rs).mapIdx (fun j p => (p.1, max p.2 (s.hist.length - back.getD j 0)))

theorem versions_raised : RaisedFrom (levelled (single s rs back)) (s.versions rs back) := .unmixed 0 s.hist

theorem exists_mem_single {p : Nat × Nat} (h : p ∈ asked s rs) : ∃ k, (p.1, k) ∈ single s rs back ∧ p.2 ≤ k := by
  obtain ⟨i, hi, rfl⟩ := List.mem_iff_getElem.mp h
  exact ⟨_, List.mem_mapIdx.mpr ⟨i, hi, rfl⟩, Nat.le_max_left _ _⟩

/-- No version is older than what a reader of its byte has to see. -/
theorem le_of_mem_versions {pa k n : Nat} (hk : (pa, k) ∈ s.versions rs back) (hn : (pa, n) ∈ single s rs back) : n ≤ k := by
  obtain ⟨j, hj, hjk⟩ := versions_raised.mem hk
  obtain ⟨p, -, -, rfl⟩ := mem_levelled hj
  exact Nat.le_trans (le_highest hn rfl) hjk

theorem floor_le_of_mem_versions {q : Reader} {pa k : Nat} (hq : q ∈ rs) (hpa : pa ∈ bytesOf q.ps) (hk : (pa, k) ∈ s.versions rs back) :
    s.floor q.by' q.view pa ≤ k := by
  obtain ⟨n, hn, hle⟩ := exists_mem_single (back := back) (List.mem_flatMap.mpr ⟨q, hq, List.mem_map.mpr ⟨pa, hpa, rfl⟩⟩)
  exact Nat.le_trans hle (le_of_mem_versions hk hn)

/-- A load that goes back to no older version takes the present one of every byte. -/
theorem length_le_of_mem_versions {pa k : Nat} (hk : (pa, k) ∈ s.versions rs []) : s.hist.length ≤ k := by
  obtain ⟨j, hj, hjk⟩ := versions_raised.mem hk
  obtain ⟨p, hp, hpa, rfl⟩ := mem_levelled hj
  have hle := le_highest (k := p.2) hp hpa
  obtain ⟨i, hi, rfl⟩ := List.mem_mapIdx.mp hp
  exact Nat.le_trans (Nat.le_max_right _ _) (Nat.le_trans hle hjk)

theorem keys_versions : (s.versions rs back).map Prod.fst = rs.flatMap (fun r => bytesOf r.ps) := by
  have hs : (single s rs back).map Prod.fst = (asked s rs).map Prod.fst :=
    List.ext_getElem (by simp [single]) fun i _ _ => by simp [single]
  have hl : (levelled (single s rs back)).map Prod.fst = (single s rs back).map Prod.fst := List.map_map
  rw [versions_raised.keys, hl, hs, asked, List.map_flatMap]
  exact congrArg (rs.flatMap ·) (funext fun r => List.map_map.trans (List.map_id _))

theorem oneVersion_versions : OneVersion (s.versions rs back) := .raised versions_raised (.levelled _)

/-! ### The versions of a load -/

/-- What readers acquire changes no range that they read. -/
theorem taken_snd (fuel : Nat) : ∃ us : List Reader, us.map Reader.ps = rs.map Reader.ps ∧ (s.taken acq back fuel rs).2 = s.versions us back := by
  induction fuel generalizing rs with
  | zero => exact ⟨rs, rfl, rfl⟩
  | succ n ih =>
    unfold State.taken
    dsimp only
    split
    · exact ⟨rs, rfl, rfl⟩
    · obtain ⟨us, hps, e⟩ := ih (rs := rs.map (s.acquired acq (s.versions rs back)))
      refine ⟨us, hps.trans ?_, e⟩
      rw [List.map_map]
      refine List.map_congr_left fun r _ => ?_
      cases acq <;> rfl

theorem loadOf_snd : ∃ us : List Reader, us.map Reader.ps = rs.map Reader.ps ∧ (s.loadOf acq rs back).2 = s.versions us back := taken_snd _

/-- Without an acquire the readers stay as they are. -/
theorem loadOf_none : s.loadOf none rs back = (rs, s.versions rs back) := by
  have h : rs.map (s.acquired none (s.versions rs back)) = rs := List.map_id rs
  rw [State.loadOf, State.taken, if_pos h]

/-! ### The bytes of the present version -/

theorem versionOf_of_le {pa k : Nat} {now : Byte} : ∀ {i : Nat} {ws : List Write}, i + ws.length ≤ k → versionOf pa k now i ws = now
  | _, [], _ => rfl
  | i, w :: r, h => by
    rw [List.length_cons] at h
    rw [versionOf, if_neg (by omega), versionOf_of_le (by omega)]

theorem byteAt_of_le {pa k : Nat} (h : s.hist.length ≤ k) : s.byteAt pa k = Memory.get s.mem pa := versionOf_of_le (by omega)

theorem map_filterMap_find? {ks : List (Nat × Nat)} {f : Nat × Nat → Byte} {g : Nat → Byte} {l : List Nat}
    (h : ∀ a ∈ l, a ∈ ks.map Prod.fst) (hf : ∀ p ∈ ks, f p = g p.1) :
    (l.filterMap (fun a => ks.find? (fun k => k.1 == a))).map f = l.map g := by
  induction l with
  | nil => rfl
  | cons a l ih =>
    obtain ⟨ha, hl⟩ := List.forall_mem_cons.mp h
    obtain ⟨p, hp, rfl⟩ := List.mem_map.mp ha
    cases e : ks.find? (fun k => k.1 == p.1) with
    | none => exact absurd (List.find?_eq_none.mp e p hp) (by simp)
    | some q =>
      have hq : q.1 = p.1 := by simpa using List.find?_some e
      rw [List.filterMap_cons, e, List.map_cons, List.map_cons, ih hl, hf q (List.mem_of_find?_eq_some e), hq]

/-- A load of one range that goes back to no older version returns what memory holds. -/
theorem bytesAt_loadOf_present (id : ThreadId) (n pa : Nat) :
    s.bytesAt (ownVersions [(pa, n)] (s.loadOf acq [s.readerOf id [(pa, n)]] []).2) = Memory.read s.mem pa n := by
  obtain ⟨us, hps, e⟩ := loadOf_snd (s := s) (acq := acq) (rs := [s.readerOf id [(pa, n)]]) (back := [])
  have hb : us.flatMap (fun r => bytesOf r.ps) = bytesOf [(pa, n)] := by
    have hf : us.flatMap (fun r => bytesOf r.ps) = (us.map Reader.ps).flatMap bytesOf := (List.flatMap_map ..).symm
    rw [hf, hps]
    simp [State.readerOf]
  have hl : bytesOf [(pa, n)] = (List.range n).map (fun i => pa + i) := by simp [bytesOf]
  rw [e, State.bytesAt, ownVersions, map_filterMap_find? (g := Memory.get s.mem) (fun a ha => by rwa [keys_versions, hb])
    (fun p hp => byteAt_of_le (length_le_of_mem_versions hp)), hl, List.map_map, Memory.read_eq_map]
  rfl

end Versions
end Sys2Proof.Claims
end

section
/-! PROOFS. What loads, stores and atomics do to one part of device memory (O12). -/
namespace Sys2Proof.Claims
open Sys2Proof.Machine

/-! ### An access of one part of memory -/

section OnePart
variable {s : State} {va pa en n : Nat}

theorem partsPoison_mem {k : Nat} (h : s.poisoned pa n = none) : s.partsPoison [(.mem va pa en, n)] k = none := by
  rw [State.partsPoison, h]
  rfl

theorem any_partHeld_mem (h : s.partHeld (.mem va pa en, n) = false) : [(Place.mem va pa en, n)].any s.partHeld = false := by
  rw [List.any_cons, h]
  rfl

theorem acquiresPod_none (core : Nat) : s.acquiresPod core none = s := rfl

theorem memRanges_mem : memRanges [(.mem va pa en, n)] = [(pa, n)] := rfl

theorem partsNow_mem {id : ThreadId} {nt : Bool} {ks : List (Nat × Nat)} : s.partsNow id nt ks [(.mem va pa en, n)]
    = [(.mem va pa en, n, some (s.bytesAt (ownVersions [(pa, n)] ks)))] := rfl

theorem podBlocked_mem {stamp : Nat} : s.podBlocked stamp [(.mem va pa en, n)] = false := rfl

theorem podFlows_mem : s.podFlows [(.mem va pa en, n)] = true := rfl

/-- Nothing is requested for a part whose bytes are here, and the load is over. -/
theorem loadDone_mem {id : ThreadId} {e : LogEntry} {a : Dword} {d : Nat} {nt : Bool} {b : List Byte} :
    (s.requestParts id e a nt 0 [(.mem va pa en, n, some b)]).loadDone id e d n [(.mem va pa en, n, some b)]
      = s.setEntry id e (.returned (loadValues d n (leNat b))) := by
  rw [State.loadDone, partsBytes, partsBytes, Option.map_some, List.append_nil]
  rfl

/-- A load of one part of .gl or .ch that is no acquire takes its versions, leaves their marks, and returns their bytes. -/
theorem startLoad_of_mem {id : ThreadId} {e : LogEntry} {sp : Space} {a : Dword} {o : Order} {c : Scope} {d : Nat} {back : List Nat}
    (hco : sp ≠ .co) (hcl : sp ≠ .cl) (ho : o ≠ .acq) (hp : s.parts id e.kernel sp a n .load = [(.mem va pa en, n)])
    (hh : s.partHeld (.mem va pa en, n) = false) (hq : s.poisoned pa n = none) :
    s.startLoad id e sp a n o c d back
      = ((s.loadOf none [s.readerOf id [(pa, n)]] back).1.foldl
          (fun u x => u.noteLoad id none x (s.loadOf none [s.readerOf id [(pa, n)]] back).2) s).setEntry id e
        (.returned (loadValues d n (leNat (s.bytesAt (ownVersions [(pa, n)] (s.loadOf none [s.readerOf id [(pa, n)]] back).2))))) := by
  have hacq : ∀ c, o.acquiring c = none := fun c => if_neg ho
  unfold State.startLoad
  rw [hp]
  dsimp only [firstBad]
  rw [any_partHeld_mem hh, partsPoison_mem hq]
  dsimp only
  rw [if_neg (by decide), if_neg (by simp [hco, hcl])]
  simp only [hacq, acquiresPod_none, memRanges_mem]
  generalize s.loadOf none [s.readerOf id [(pa, n)]] back = r
  rw [partsNow_mem]
  cases o with
  | acq => exact absurd rfl ho
  | plain => exact loadDone_mem
  | rel => exact loadDone_mem
  | nt => exact loadDone_mem

theorem startLoad_of_shared {id : ThreadId} {e : LogEntry} {sp : Space} {a : Dword} {o : Order} {c : Scope} {d : Nat} {back : List Nat}
    (hs : sp = .co ∨ sp = .cl) (hp : s.parts id e.kernel sp a n .load = [(.mem va pa en, n)])
    (hh : s.partHeld (.mem va pa en, n) = false) (hq : s.poisoned pa n = none) :
    s.startLoad id e sp a n o c d back = s.startShared (s.matesOf id e) (o.acquiring c) back := by
  unfold State.startLoad
  rw [hp]
  dsimp only [firstBad]
  rw [any_partHeld_mem hh, partsPoison_mem hq]
  dsimp only
  rw [if_neg (by decide), if_pos hs]

end OnePart

/-- A memory holds what another does, but for bytes of a number in their places. -/
def Takes (m m' : Memory) (pa n v : Nat) : Prop :=
  Memory.wf m' = true ∧ ∀ p, Memory.get m' p = Memory.get m p ∨ ∃ k, k < n ∧ p = pa + k ∧ Memory.get m' p = BitVec.ofNat 8 (v / 256 ^ k)

section Takes
variable {m m' : Memory} {pa n v : Nat}

theorem Takes.refl (w : Memory.wf m = true) : Takes m m pa n v := ⟨w, fun _ => .inl rfl⟩

/-- Some of the number's bytes are written in their places. -/
theorem Takes.write (h : Takes m m' pa n v) {j l : Nat} (hj : j + l ≤ n) :
    Takes m (Memory.write m' (pa + j) (((natBytes n v).drop j).take l)) pa n v := by
  obtain ⟨w, hb⟩ := h
  have hl : (((natBytes n v).drop j).take l).length = l := by simp; omega
  refine ⟨Memory.wf_write w _ _, fun p => ?_⟩
  by_cases hp : p < pa + j ∨ pa + j + l ≤ p
  · rw [Memory.get_write_other w (by rwa [hl])]
    exact hb p
  · obtain ⟨i, hi, rfl⟩ : ∃ i, i < l ∧ p = pa + j + i := ⟨p - (pa + j), by omega, by omega⟩
    refine .inr ⟨j + i, by omega, by omega, ?_⟩
    rw [Memory.get_write_inside w (by rwa [hl])]
    have he : (natBytes n v)[j + i]? = some (BitVec.ofNat 8 (v / 256 ^ (j + i))) := getElem?_natBytes n v (j + i) (by omega)
    rw [List.getElem_take, List.getElem_drop]
    exact Option.some.inj ((List.getElem?_eq_getElem _).symm.trans he)

theorem Takes.outside (h : Takes m m' pa n v) {p : Nat} (hp : p < pa ∨ pa + n ≤ p) : Memory.get m' p = Memory.get m p :=
  (h.2 p).resolve_right fun ⟨k, hk, e, _⟩ => by omega

theorem Takes.inside (h : Takes m m' pa n v) {k : Nat} : Memory.get m' (pa + k) = Memory.get m (pa + k) ∨
    Memory.get m' (pa + k) = BitVec.ofNat 8 (v / 256 ^ k) :=
  (h.2 (pa + k)).imp id fun ⟨j, _, e, hg⟩ => by
    obtain rfl : k = j := by omega
    exact hg

end Takes

/-! ### A store -/

section Store
variable {s : State} {o : Origin} {b : BufStore} {a : Dword} {va pa en n x : Nat} {take done : List Nat}

/-- What is performed of a store to one part lies in its part. -/
theorem mem_takenNow {q : Nat × Place × Nat} (h : q ∈ takenNow take done 0 [(.mem va pa en, n)]) :
    (∃ va', q.2.1 = .mem va' (pa + q.1) en) ∧ q.1 + q.2.2 ≤ n := by
  rw [takenNow, takenNow, List.append_nil] at h
  split at h
  · cases List.mem_singleton.mp h
    exact ⟨⟨va, rfl⟩, by simp⟩
  · obtain ⟨i, hi, rfl⟩ := List.mem_map.mp h
    have hi := List.mem_range.mp (List.mem_filter.mp hi).1
    exact ⟨⟨va + i, by rw [Nat.zero_add]⟩, by dsimp only; omega⟩

theorem storeTaken_cons {data : List Byte} {q : Nat × Place × Nat} {ps : List (Nat × Place × Nat)} : s.storeTaken o b a data (q :: ps)
    = (s.storePart o b (a + BitVec.ofNat 64 q.1) q.2 ((data.drop q.1).take q.2.2)).storeTaken o b a data ps := rfl

theorem storePart_mem {l : Nat} {bs : List Byte} : s.storePart o b a (.mem va pa en, l) bs = s.storeFrom o pa bs := rfl

/-- Performing some of a store's places writes bytes of its value there, and nothing else. -/
theorem takes_storeTaken {m : Memory} {ps : List (Nat × Place × Nat)}
    (h : ∀ q ∈ ps, (∃ va', q.2.1 = .mem va' (pa + q.1) en) ∧ q.1 + q.2.2 ≤ n) (hm : Takes m s.mem pa n x) :
    Takes m (s.storeTaken o b a (natBytes n x) ps).mem pa n x := by
  induction ps generalizing s with
  | nil => exact hm
  | cons q ps ih =>
    obtain ⟨hq, hps⟩ := List.forall_mem_cons.mp h
    obtain ⟨j, p, l⟩ := q
    obtain ⟨⟨va', hva⟩, hl⟩ := hq
    dsimp only at hva hl
    subst hva
    rw [storeTaken_cons, storePart_mem]
    exact ih hps (hm.write hl)

theorem mem_noteWrite {id : ThreadId} {nt : Bool} : (s.noteWrite id nt).mem = s.mem := by
  unfold State.noteWrite
  split
  · rfl
  · exact State.modThread_mem ..

theorem mem_keepStore {l : Option BufStore} : (s.keepStore b l).mem = s.mem := rfl

/-- A store that nothing holds and that is no release is performed, as far as `take` says. -/
theorem performStore_eq {sp : Space} {ord : Order} {c : Scope} (hb : b.access = .store sp a n ord c x) (ho : ord = .plain ∨ ord = .nt)
    (hpost : b.posted = false) (hblock : s.blocked b.thread b.stamp b.kernel b.access = false)
    (hheld : s.storeHeld b.thread b.stamp b.issue b.parts = false) : s.performStore b take
      = (((s.storeNow (s.originOf b.thread none false) b a n x take).1.keepStore b
          (s.storeNow (s.originOf b.thread none false) b a n x take).2).noteWrite b.thread (decide (ord = .nt))) := by
  unfold State.performStore
  rw [hb] at hblock ⊢
  dsimp only
  rw [hpost, hblock, hheld]
  obtain rfl | rfl := ho <;> rfl

theorem storeNow_fst (hpost : b.posted = false) :
    (s.storeNow o b a n x take).1 = s.storeTaken o b a (natBytes n x) (takenNow take b.done 0 b.parts) := by
  rw [State.storeNow, hpost]
  rfl

/-- The whole of a store to one part, none of which is performed yet. -/
theorem storeNow_whole (hpost : b.posted = false) (hp : b.parts = [(.mem va pa en, n)]) (hd : b.done = []) :
    s.storeNow o b a n x [] = (s.storeFrom o pa (natBytes n x), none) := by
  have ht : takenNow [] [] 0 [(.mem va pa en, n)] = [(0, .mem va pa en, n)] := rfl
  have hdata : ((natBytes n x).drop 0).take n = natBytes n x := List.take_of_length_le (by simp)
  rw [State.storeNow, hpost, hp, hd, if_neg Bool.false_ne_true]
  dsimp only
  rw [ht, storeTaken_cons, storePart_mem, hdata, if_neg (by simp [Place.isPeer]), if_pos (by simp)]
  rfl

theorem noteWrite_fields {id : ThreadId} {nt : Bool} : (s.noteWrite id nt).buffer = s.buffer ∧ (s.noteWrite id nt).teams = s.teams ∧
    (s.noteWrite id nt).mgmt = s.mgmt := by
  unfold State.noteWrite
  split
  · exact ⟨rfl, rfl, rfl⟩
  · exact ⟨State.modThread_buffer .., State.modThread_teams .., State.modThread_mgmt ..⟩

theorem thread?_noteWrite_other {i j : ThreadId} {nt : Bool} (h : j ≠ i) : (s.noteWrite i nt).thread? j = s.thread? j := by
  unfold State.noteWrite
  split
  · rfl
  · exact State.thread?_modThread_other h

/-- A thread's own performed stores are noted, but for non-temporal ones (R198). -/
theorem thread?_noteWrite_self {i : ThreadId} {nt : Bool} {t : Thread} (h : s.thread? i = some t) :
    (s.noteWrite i nt).thread? i = some { t with wrote := if nt then t.wrote else s.hist.length } := by
  unfold State.noteWrite
  split
  · exact h
  · exact State.thread?_modThread_self h

/-- A store performed whole leaves its bytes at its address and leaves the buffer; nothing else of the device changes but what its thread has
written. -/
theorem performStore_whole {sp : Space} {ord : Order} {c : Scope} (hc : Canonical s) (hb : b.access = .store sp a n ord c x)
    (ho : ord = .plain ∨ ord = .nt) (hpost : b.posted = false) (hp : b.parts = [(.mem va pa en, n)])
    (hblock : s.blocked b.thread b.stamp b.kernel b.access = false) (hheld : s.storeHeld b.thread b.stamp b.issue b.parts = false)
    (hd : b.done = []) : (s.performStore b []).read pa n = x % 256 ^ n ∧
      (s.performStore b []).buffer = s.buffer.filter (fun y => decide (y.stamp ≠ b.stamp)) ∧ (s.performStore b []).teams = s.teams ∧
      (s.performStore b []).mgmt = s.mgmt ∧ (∀ i, i ≠ b.thread → (s.performStore b []).thread? i = s.thread? i) ∧
      ∀ t, s.thread? b.thread = some t →
        (s.performStore b []).thread? b.thread = some { t with wrote := if ord = .nt then t.wrote else s.hist.length + 1 } := by
  rw [performStore_eq hb ho hpost hblock hheld, storeNow_whole hpost hp hd]
  dsimp only
  generalize s.originOf b.thread none false = o
  have hlen : ((s.storeFrom o pa (natBytes n x)).keepStore b none).hist.length = s.hist.length + 1 := List.length_append
  obtain ⟨hbuffer, hteams, hmgmt⟩ := noteWrite_fields (s := (s.storeFrom o pa (natBytes n x)).keepStore b none) (id := b.thread)
    (nt := decide (ord = .nt))
  refine ⟨?_, hbuffer, hteams, hmgmt, fun i hi => thread?_noteWrite_other hi, fun t ht => ?_⟩
  · rw [State.read, mem_noteWrite]
    exact State.read_storeFrom (o := o) hc.mem
  · have hthread : ((s.storeFrom o pa (natBytes n x)).keepStore b none).thread? b.thread = some t := ht
    rw [thread?_noteWrite_self hthread, hlen]
    obtain rfl | rfl := ho <;> rfl

end Store

/-! ### An atomic -/

section Atomic
variable {s : State} {va pa en w : Nat} {id : ThreadId} {e : LogEntry} {op : AtomOp} {a : Dword} {wide ret : Bool} {c : Scope} {d rv sv : Nat}

theorem mem_acquiresPod {core : Nat} {acq : Option Scope} : (s.acquiresPod core acq).mem = s.mem := by
  unfold State.acquiresPod
  split <;> rfl

theorem poison_acquiresPod {core : Nat} {acq : Option Scope} : (s.acquiresPod core acq).poison = s.poison := by
  unfold State.acquiresPod
  split <;> rfl

theorem mem_recordScope {p : Place} : (s.recordScope id p a c).mem = s.mem := by
  unfold State.recordScope
  dsimp only
  split
  · split
    · rfl
    · split
      · rfl
      · rw [State.modThread_mem, State.modTeam_mem]
  · rfl

theorem mem_foldl_noteLoad {acq : Option Scope} {ks : List (Nat × Nat)} (rs : List Reader) :
    (rs.foldl (fun s x => s.noteLoad id acq x ks) s).mem = s.mem := by
  induction rs generalizing s with
  | nil => rfl
  | cons r rs ih => exact ih.trans (State.modThread_mem ..)

/-- An atomic of one part, which nothing holds and no poison covers, returns the old value and stores the new one. -/
theorem startAtom_of_mem (hw : w = if wide then 8 else 4) (hp : s.parts id e.kernel .gl a w .atomic = [(.mem va pa en, w)])
    (hh : s.partHeld (.mem va pa en, w) = false) (hi : s.issueBlocked id e.stamp e.issue [(.mem va pa en, w)] = false)
    (hr : s.releaseReady e.stamp c none = true) (hq : s.poisoned pa w = none) :
    ∃ (r : State) (o : Origin), r.mem = s.mem ∧ s.startAtom id e op a wide c ret d rv sv
      = ((r.storeFrom o pa (natBytes w (atomNew op w (s.read pa w) rv sv))).noteWrite id false).setEntry id e
        (.returned (if ret then loadValues d w (s.read pa w) else [])) := by
  have hscope : pathScope [(.mem va pa en, w)] c = c := rfl
  unfold State.startAtom
  dsimp only
  rw [← hw, hp]
  dsimp only [firstBad]
  rw [any_partHeld_mem hh, podBlocked_mem, hi, podFlows_mem, if_neg (by decide), hscope, hr, if_neg (by decide)]
  have hmem := mem_acquiresPod (s := s) (core := id.core) (acq := if ret then some c else none)
  have hpoison := poison_acquiresPod (s := s) (core := id.core) (acq := if ret then some c else none)
  generalize s.acquiresPod id.core (if ret then some c else none) = u at hmem hpoison ⊢
  have hnone : u.poisoned pa w = none := by rwa [State.poisoned, hpoison]
  have hread : u.read pa w = s.read pa w := by rw [State.read, hmem, ← State.read]
  rw [hnone, hread]
  refine ⟨_, _, ?_, rfl⟩
  split
  · rw [mem_foldl_noteLoad, mem_recordScope, hmem]
  · rw [mem_recordScope, hmem]

end Atomic

/-- Settles O12: the versions of a load by `loadOf_none` and the lemmas on `versions`, a store by `performStore_eq` and `takes_storeTaken`, an atomic
by `startAtom_of_mem`. -/
theorem accessEffects : Obligations.AccessEffects := by
  unfold Obligations.AccessEffects
  refine ⟨?_, fun s id e sp a n o c d va pa en back hs hp hh hq => startLoad_of_shared hs hp hh hq, ?_, ?_,
    fun s acq id n pa => bytesAt_loadOf_present id n pa, ?_, ?_⟩
  · rintro s id e sp a n o c d va pa en back r hco hcl ho hp hh hq rfl
    exact startLoad_of_mem hco hcl ho hp hh hq
  · intro s acq rs back pa k j hk hj
    obtain ⟨us, -, e⟩ := loadOf_snd (s := s) (acq := acq) (rs := rs) (back := back)
    rw [e] at hk hj
    exact oneVersion_versions pa k j hk hj
  · intro s rs back q pa k hq hpa hk
    rw [loadOf_none] at hk
    exact floor_le_of_mem_versions hq hpa hk
  · intro s b sp a n o c x va pa en hc hb ho hpost hp hblock hheld
    have htakes : ∀ take, Takes s.mem (s.performStore b take).mem pa n x := fun take => by
      rw [performStore_eq hb ho hpost hblock hheld, mem_noteWrite, mem_keepStore, storeNow_fst hpost, hp]
      exact takes_storeTaken (fun q hq => mem_takenNow hq) (.refl hc.mem)
    refine ⟨?_, fun take p => (htakes take).outside, fun take k _ => (htakes take).inside⟩
    rintro hd r rfl
    exact performStore_whole hc hb ho hpost hp hblock hheld hd
  · intro s id e op a wide c ret d rv sv va pa en w hc hw hp hh hi hr hq
    obtain ⟨r, o, hmem, he⟩ := startAtom_of_mem (op := op) (ret := ret) (d := d) (rv := rv) (sv := sv) hw hp hh hi hr hq
    have hwf : Memory.wf r.mem = true := hmem ▸ hc.mem
    refine ⟨_, he, ?_, fun p hpa => ?_⟩
    · rw [State.read, mem_noteWrite]
      exact State.read_storeFrom hwf
    · rw [mem_noteWrite, State.get_storeFrom_other hwf hpa, hmem]

end Sys2Proof.Claims
end

section
/-! PROOFS. The tables in force, and the job's enable, disable and invalidation (O45). -/
namespace Sys2Proof.Machine

/-! ### Slices and pastes of memory -/

/-- A byte of a slice is the byte it was cut from, and zero past its end. -/
theorem Memory.get_slice (m : Memory) (a n k : Nat) :
    Memory.get (Memory.slice m a n) k = if k < n then Memory.get m (a + k) else 0#8 := by
  unfold Memory.slice
  induction m with
  | nil => split <;> rfl
  | cons c r ih =>
    obtain ⟨j, v⟩ := c
    rw [List.filter_cons]
    by_cases hj : a ≤ j ∧ j < a + n
    · rw [if_pos (by simpa using hj), List.map_cons, Memory.get, Memory.get, ih]
      by_cases hk : k = j - a
      · rw [if_pos hk, if_pos (by omega : k < n), if_pos (by omega : a + k = j)]
      · rw [if_neg hk, if_neg (by omega : ¬ a + k = j)]
    · rw [if_neg (by simpa using hj), ih, Memory.get]
      by_cases hk : k < n
      · rw [if_pos hk, if_pos hk, if_neg (by omega)]
      · rw [if_neg hk, if_neg hk]

/-- The cells of a slice lie before its end. -/
theorem Memory.lt_of_mem_slice {m : Memory} {a n : Nat} {c : Host.Cell} (h : c ∈ Memory.slice m a n) : c.1 < n := by
  obtain ⟨d, hd, rfl⟩ := List.mem_map.mp h
  have hr := (List.mem_filter.mp hd).2
  simp only [Bool.and_eq_true, decide_eq_true_eq] at hr
  dsimp only
  omega

theorem Memory.get_paste_other {a k : Nat} : ∀ {cs : List Host.Cell} {m : Memory}, Memory.wf m = true → (∀ c ∈ cs, k ≠ a + c.1) →
    Memory.get (Memory.paste m a cs) k = Memory.get m k
  | [], _, _, _ => rfl
  | (c, v) :: r, m, w, h => by
    obtain ⟨hc, hr⟩ := List.forall_mem_cons.mp h
    rw [Memory.paste, Memory.get_paste_other (Memory.wf_put w _ _) hr, Memory.get_put w, if_neg hc]

/-- Cells that rise are all there after they are pasted; the bytes that they do not list stay. -/
theorem Memory.get_paste {a k : Nat} : ∀ {cs : Memory} {lo : Nat} {m : Memory}, Memory.wf m = true → Memory.risesFrom lo cs = true →
    Memory.get (Memory.paste m a cs) (a + k) = if Memory.get cs k = 0#8 then Memory.get m (a + k) else Memory.get cs k
  | [], _, _, _, _ => rfl
  | (c, v) :: r, lo, m, w, h => by
    obtain ⟨-, hv, hr⟩ := Memory.risesFrom_cons.mp h
    rw [Memory.paste, Memory.get_paste (Memory.wf_put w _ _) hr, Memory.get_put w, Memory.get]
    by_cases hk : k = c
    · subst hk
      rw [Memory.get_eq_zero_of_lt hr (Nat.lt_succ_self k), if_pos rfl, if_pos rfl, if_pos rfl, if_neg hv]
    · rw [if_neg hk, if_neg (by omega : ¬ a + k = a + c)]

/-- A slice pasted where no byte is set is what is read there. -/
theorem Memory.get_paste_slice {m k : Memory} {a b n i : Nat} (w : Memory.wf m = true) (wk : Memory.wf k = true)
    (h : Memory.get m (a + i) = 0#8) (hi : i < n) : Memory.get (Memory.paste m a (Memory.slice k b n)) (a + i) = Memory.get k (b + i) := by
  rw [Memory.get_paste w (Memory.wf_slice wk b n), h, Memory.get_slice, if_pos hi]
  split
  next e => exact e.symm
  next => rfl

theorem Memory.get_paste_slice_other {m k : Memory} {a b n p : Nat} (w : Memory.wf m = true) (h : p < a ∨ a + n ≤ p) :
    Memory.get (Memory.paste m a (Memory.slice k b n)) p = Memory.get m p :=
  Memory.get_paste_other w fun c hc => by
    have := Memory.lt_of_mem_slice hc
    omega

/-- No byte is set from an address on. -/
def Memory.EndsBy (m : Memory) (hi : Nat) : Prop := ∀ p, hi ≤ p → Memory.get m p = 0#8

theorem Memory.EndsBy.nil {hi : Nat} : Memory.EndsBy [] hi := fun _ _ => rfl

theorem Memory.EndsBy.mono {m : Memory} {lo hi : Nat} (h : Memory.EndsBy m lo) (hl : lo ≤ hi) : Memory.EndsBy m hi :=
  fun p hp => h p (Nat.le_trans hl hp)

theorem Memory.EndsBy.paste_slice {m k : Memory} {a b n : Nat} (w : Memory.wf m = true) (h : Memory.EndsBy m a) :
    Memory.EndsBy (Memory.paste m a (Memory.slice k b n)) (a + n) := fun p hp => by
  rw [Memory.get_paste_slice_other w (.inr hp)]
  exact h p (by omega)

/-! ### The tables in force -/

/-- The tables in force with the first of the areas they are taken from: the job block (R62). -/
def State.jobTables (s : State) : Memory := Memory.paste [] 0x40000 (Memory.slice s.mgmt 0x40000 0x80000)

/-- With the exceptions table after it. -/
def State.exTables (s : State) : Memory :=
  Memory.paste s.jobTables 0x1000000 (Memory.slice s.mem (s.reg32 0x40018 + s.reg32 0x4001C * 2 ^ 32) (32 * bits (s.reg32 0x40020) 17 0))

/-- With the reduction groups after that. -/
def State.grpTables (s : State) : Memory := Memory.paste s.exTables 0x2000000 (Memory.slice s.mem s.grpbase 0x400000)

/-- The tables that are taken are those areas with the counters last. -/
theorem State.takeTables_tables (s : State) :
    s.takeTables.tables = Memory.paste s.grpTables 0x3000000 (Memory.slice s.mem s.ctrbase 0x100000) := rfl

section Tables
variable {s : State}

theorem State.wf_jobTables : Memory.wf s.jobTables = true := Memory.wf_paste rfl _ _
theorem State.wf_exTables : Memory.wf s.exTables = true := Memory.wf_paste State.wf_jobTables _ _
theorem State.wf_grpTables : Memory.wf s.grpTables = true := Memory.wf_paste State.wf_exTables _ _

theorem State.jobTables_endsBy : Memory.EndsBy s.jobTables 0x1000000 := (Memory.EndsBy.nil.paste_slice rfl).mono (by decide)

/-- The exceptions table has less than 2^18 entries of 32 bytes, so it ends before the groups. -/
theorem State.exTables_endsBy : Memory.EndsBy s.exTables 0x2000000 := by
  have hb : bits (s.reg32 0x40020) 17 0 < 2 ^ 18 := Nat.mod_lt _ (by decide)
  exact (State.jobTables_endsBy.paste_slice State.wf_jobTables).mono (by omega)

theorem State.grpTables_endsBy : Memory.EndsBy s.grpTables 0x3000000 :=
  (State.exTables_endsBy.paste_slice State.wf_exTables).mono (by decide)

theorem State.get_takeTables_ctr {k : Nat} (w : Memory.wf s.mem = true) (h : k < 0x100000) :
    Memory.get s.takeTables.tables (0x3000000 + k) = Memory.get s.mem (s.ctrbase + k) := by
  rw [State.takeTables_tables]
  exact Memory.get_paste_slice State.wf_grpTables w (State.grpTables_endsBy _ (by omega)) h

theorem State.get_takeTables_grp {k : Nat} (w : Memory.wf s.mem = true) (h : k < 0x400000) :
    Memory.get s.takeTables.tables (0x2000000 + k) = Memory.get s.mem (s.grpbase + k) := by
  rw [State.takeTables_tables, Memory.get_paste_slice_other State.wf_grpTables (by omega)]
  exact Memory.get_paste_slice State.wf_exTables w (State.exTables_endsBy _ (by omega)) h

theorem State.get_takeTables_job {a : Nat} (w : Memory.wf s.mgmt = true) (hl : 0x40000 ≤ a) (hh : a < 0xC0000) :
    Memory.get s.takeTables.tables a = Memory.get s.mgmt a := by
  have hb : bits (s.reg32 0x40020) 17 0 < 2 ^ 18 := Nat.mod_lt _ (by decide)
  obtain ⟨i, rfl⟩ := Nat.exists_eq_add_of_le hl
  rw [State.takeTables_tables, Memory.get_paste_slice_other State.wf_grpTables (by omega), State.grpTables,
    Memory.get_paste_slice_other State.wf_exTables (by omega), State.exTables,
    Memory.get_paste_slice_other State.wf_jobTables (by omega)]
  exact Memory.get_paste_slice rfl w rfl (by omega)

end Tables

end Sys2Proof.Machine

namespace Sys2Proof.Claims
open Sys2Proof.Machine

section Job
variable {s : State} {m : Nat}

/-! ### jobctl -/

theorem reg32_jobctl_write (hc : Canonical s) {v : Nat} (hv : v < 2 ^ 32) :
    ({ s with mgmt := Memory.writeLE s.mgmt 0x40000 4 v } : State).reg32 0x40000 = v :=
  (Memory.readLE_writeLE hc.mgmt _ _ _).trans (Nat.mod_eq_of_lt hv)

theorem jobOn_jobctl_write (hc : Canonical s) {v : Nat} :
    ({ s with mgmt := Memory.writeLE s.mgmt 0x40000 4 v } : State).jobOn = decide (v % 2 = 1) := by
  have hr : ({ s with mgmt := Memory.writeLE s.mgmt 0x40000 4 v } : State).reg32 0x40000 = v % 256 ^ 4 := Memory.readLE_writeLE hc.mgmt _ _ _
  have hb : bits (v % 256 ^ 4) 0 0 = v % 2 := by
    change v % 256 ^ 4 % 2 = v % 2
    omega
  rw [State.jobOn, hr, hb]

theorem exec_jobEnable : exec (.jobEnable m) s = .next (s.byOwner m State.enableJob) := rfl
theorem exec_jobDisable : exec (.jobDisable m) s = .next (s.byOwner m State.disableJob) := rfl
theorem exec_jinval : exec (.jinval m) s = .next (s.byOwner m (fun s => { s with jinval := true })) := rfl

/-- A job whose spill area fits is enabled, and one that was off takes its tables (R56, R62, R76). -/
theorem enableJob_of_fits (hc : Canonical s) (hn : spillNeed s.nranks ≤ s.reg64 0x40040) (ha : s.reg64 0x40038 % 4096 = 0) :
    s.enableJob.jobOn = true ∧ (s.jobOn = false → s.enableJob.tables = s.takeTables.tables) ∧ s.enableJob.mem = s.mem := by
  rw [State.enableJob, if_neg (by omega)]
  cases s.jobOn with
  | true => exact ⟨jobOn_jobctl_write hc, fun h => Bool.noConfusion h, rfl⟩
  | false => exact ⟨jobOn_jobctl_write (s := s.takeTables) hc.takeTables, fun _ => rfl, rfl⟩

theorem enableJob_of_refused (hr : s.reg64 0x40040 < spillNeed s.nranks ∨ s.reg64 0x40038 % 4096 ≠ 0) :
    s.enableJob = { s with mgmt := Memory.writeLE s.mgmt 0x40000 4 2 } := by
  rw [State.enableJob, if_pos hr]

theorem jobOn_disableJob (hc : Canonical s) : s.disableJob.jobOn = false := by
  rw [State.disableJob, jobOn_jobctl_write hc, decide_eq_false_iff_not]
  omega

end Job

/-- Settles O45: the tables by `get_paste_slice` on areas that do not meet, the owner's writes by `byOwner_of_owns` and what they do to jobctl. -/
theorem jobControl : Obligations.JobControl := by
  unfold Obligations.JobControl
  refine ⟨fun s m hc ho => ⟨fun hn ha => ?_, fun hoff hr => ?_, ?_, ?_⟩, fun s hj => ?_,
    fun s hc => ⟨fun a => State.get_takeTables_job hc.mgmt, fun k => State.get_takeTables_grp hc.mem, fun k => State.get_takeTables_ctr hc.mem⟩,
    fun s i m hi => ?_⟩
  · rw [exec_jobEnable, byOwner_of_owns _ ho]
    exact ⟨_, rfl, enableJob_of_fits hc hn ha⟩
  · rw [exec_jobEnable, byOwner_of_owns _ ho, enableJob_of_refused hr]
    exact ⟨_, rfl, reg32_jobctl_write hc (by decide), jobOn_jobctl_write hc, rfl, rfl⟩
  · rw [exec_jobDisable, byOwner_of_owns _ ho]
    exact ⟨_, rfl, jobOn_disableJob hc⟩
  · rw [exec_jinval, byOwner_of_owns _ ho]
  · change Host.Outcome.next (if s.jinval then { s.takeTables with jinval := false } else s) = _
    rw [if_pos hj]
  · obtain ⟨f, hf⟩ : ∃ f, exec i s = .next (s.byOwner m f) := by
      obtain rfl | rfl | rfl := hi
      · exact ⟨_, exec_jobEnable⟩
      · exact ⟨_, exec_jobDisable⟩
      · exact ⟨_, exec_jinval⟩
    rw [hf]
    exact ⟨fun h => congrArg _ (byOwner_of_stranger f h), fun h => congrArg _ (byOwner_of_not_reaches f h)⟩

end Sys2Proof.Claims
end

section
/-! PROOFS. Commands of the work queues other than LAUNCH, and host-port timeouts (O47). -/
namespace Sys2Proof.Claims
open Sys2Proof.Machine

section Command
variable {s : State} {q : Nat} {seq : Word} {c : Cmd}

/-! ### Starting a command -/

/-- A command that can start with an opcode of the row's own is malformed, or has the row's effect. -/
theorem startCmd_of {ops : Nat → Bool} {f : List Byte → State → State} (hc : s.cmd? q seq = some c) (hs : s.canStart q c = true)
    (ho : ops (cmdOp c.bytes) = true) :
    startCmd q seq ops f s = .next (if s.cmdBad c.bytes then s.finish q seq 1 0 else f c.bytes s) := by
  rw [startCmd, hc]
  dsimp only
  rw [hs, ho]
  rfl

theorem exec_wait_of (hc : s.cmd? q seq = some c) (hs : s.canStart q c = true) (ho : cmdOp c.bytes = 2) :
    exec (.wait q seq) s = .next (if s.cmdBad c.bytes then s.finish q seq 1 0 else s.setCmd q seq .running) :=
  startCmd_of (ops := fun o => o == 2) (f := fun _ s => s.setCmd q seq .running) hc hs (by rw [ho]; rfl)

theorem exec_signal_of (hc : s.cmd? q seq = some c) (hs : s.canStart q c = true) (ho : cmdOp c.bytes = 3) :
    exec (.signal q seq) s = .next (if s.cmdBad c.bytes then s.finish q seq 1 0
      else (s.ctrAdd .device (cmdField c.bytes 8 2) (cmdField c.bytes 16 8)).finish q seq 0 0) :=
  startCmd_of (ops := fun o => o == 3) (f := fun b s => (s.ctrAdd .device (cmdField b 8 2) (cmdField b 16 8)).finish q seq 0 0) hc hs (by rw [ho]; rfl)

theorem exec_copy_of (hc : s.cmd? q seq = some c) (hs : s.canStart q c = true) (ho : cmdOp c.bytes = 4) :
    exec (.copy q seq) s = .next (if s.cmdBad c.bytes then s.finish q seq 1 0 else s.setCmd q seq .running) :=
  startCmd_of (ops := fun o => o == 4) (f := fun _ s => s.setCmd q seq .running) hc hs (by rw [ho]; rfl)

theorem exec_nopCommand_of (hc : s.cmd? q seq = some c) (hs : s.canStart q c = true) (ho : cmdOp c.bytes = 0 ∨ 5 ≤ cmdOp c.bytes) :
    exec (.nopCommand q seq) s = .next (if s.cmdBad c.bytes then s.finish q seq 1 0 else s.finish q seq 0 0) :=
  startCmd_of (ops := fun o => o == 0 || decide (5 ≤ o)) (f := fun _ s => s.finish q seq 0 0) hc hs (by simpa using ho)

theorem exec_launch_of_bad (hc : s.cmd? q seq = some c) (hs : s.canStart q c = true) (ho : cmdOp c.bytes = 1)
    (hb : s.cmdBad c.bytes = true) : exec (.launch q seq) s = .next (s.finish q seq 1 0) := by
  change execLaunch q seq s = _
  rw [execLaunch, hc]
  dsimp only
  rw [if_neg (not_not_intro ho), if_pos hs, if_pos hb]

theorem exec_waitComplete_of (hc : s.cmd? q seq = some c) (hr : c.state = .running) (ho : cmdOp c.bytes = 2) :
    exec (.waitComplete q seq) s
      = .next (if cmdField c.bytes 16 8 ≤ s.ctrValue (cmdField c.bytes 8 2) then s.finish q seq 0 0 else s) := by
  change execWaitComplete q seq s = _
  rw [execWaitComplete, hc]
  simp only [hr, ho, true_and]

/-! ### Bytes stored one by one -/

/-- Stores of single bytes change memory at their addresses alone, and neither queues nor threads. -/
theorem foldl_store (a : Nat → Nat) (b : Nat → Byte) : ∀ (ks : List Nat) (r : State),
    (ks.foldl (fun r k => r.store (a k) [b k]) r).queues = r.queues ∧ (ks.foldl (fun r k => r.store (a k) [b k]) r).threads = r.threads ∧
      (Memory.wf r.mem = true → ∀ p, (∀ k ∈ ks, p ≠ a k) →
        Memory.get (ks.foldl (fun r k => r.store (a k) [b k]) r).mem p = Memory.get r.mem p)
  | [], _ => ⟨rfl, rfl, fun _ _ _ => rfl⟩
  | k :: ks, r => by
    obtain ⟨hq, ht, hm⟩ := foldl_store a b ks (r.store (a k) [b k])
    refine ⟨hq, ht, fun w p hp => ?_⟩
    obtain ⟨hpk, hps⟩ := List.forall_mem_cons.mp hp
    have hlen : p < a k ∨ a k + [b k].length ≤ p := by
      rw [List.length_singleton]
      omega
    exact (hm (State.store_wf w _ _) p hps).trans (Memory.get_write_other w hlen)

/-- The bytes that a failed COPY writes are some of those named, in its destination; nothing but memory changes with them. -/
theorem copySome_frame (x : CopySides) (ks : List Nat) : (s.copySome x ks).queues = s.queues ∧ (s.copySome x ks).threads = s.threads ∧
    (Memory.wf s.mem = true → ∀ p, (¬ ∃ k ∈ ks, k < x.len ∧ p = copyPa x.dstDev (x.dst + k)) →
      Memory.get (s.copySome x ks).mem p = Memory.get s.mem p) := by
  obtain ⟨hq, ht, hm⟩ := foldl_store (fun k => copyPa x.dstDev (x.dst + k)) (fun k => Memory.get s.mem (copyPa x.srcDev (x.src + k)))
    (ks.filter (fun k => decide (k < x.len) && s.copyByte x k)) s
  refine ⟨hq, ht, fun w p hp => hm w p fun k hk e => ?_⟩
  obtain ⟨hmem, hk⟩ := List.mem_filter.mp hk
  exact hp ⟨k, hmem, of_decide_eq_true (Bool.and_eq_true_iff.mp hk).1, e⟩

theorem finish_queue {u : State} {status result : Nat} (h : u.queues = s.queues) :
    (u.finish q seq status result).queue q = (s.queue q).finish seq status result := by
  rw [State.finish, State.queue_setQueue, State.queue, h, ← State.queue]

/-! ### COPY -/

/-- A COPY with a byte of either range that cannot be read or written (R86). -/
def CopyFails (s : State) (x : CopySides) (failed : Bool) : Prop :=
  (failed = true ∧ (x.srcDev && x.dstDev) = false) ∨ devRangeOk x.srcDev x.src x.len = false ∨
    devRangeOk x.dstDev x.dst x.len = false ∨ s.poisonIn (copyPa x.srcDev x.src) x.len = true

section Copy
variable {x : CopySides} {failed : Bool} {written : List Nat}

theorem exec_copyComplete_of (hc : s.cmd? q seq = some c) (hr : c.state = .running) (ho : cmdOp c.bytes = 4) (hx : x = copySides c.bytes)
    (hs : s.held (copyPa x.srcDev x.src) x.len = false) (hd : s.held (copyPa x.dstDev x.dst) x.len = false) :
    exec (.copyComplete q seq failed written) s
      = .next (if (failed && !(x.srcDev && x.dstDev)) || !devRangeOk x.srcDev x.src x.len || !devRangeOk x.dstDev x.dst x.len
            || s.poisonIn (copyPa x.srcDev x.src) x.len then (s.copySome x written).finish q seq 6 0
          else (s.store (copyPa x.dstDev x.dst) (Memory.read s.mem (copyPa x.srcDev x.src) x.len)).finish q seq 0 0) := by
  subst hx
  change execCopyComplete q seq failed written s = _
  rw [execCopyComplete, hc]
  dsimp only
  rw [if_neg (by simp [hr, ho]), hs, hd]
  rfl

theorem exec_copyComplete_of_ok (hc : s.cmd? q seq = some c) (hr : c.state = .running) (ho : cmdOp c.bytes = 4) (hx : x = copySides c.bytes)
    (hs : s.held (copyPa x.srcDev x.src) x.len = false) (hd : s.held (copyPa x.dstDev x.dst) x.len = false)
    (hsr : devRangeOk x.srcDev x.src x.len = true) (hdr : devRangeOk x.dstDev x.dst x.len = true)
    (hp : s.poisonIn (copyPa x.srcDev x.src) x.len = false) :
    exec (.copyComplete q seq false written) s
      = .next ((s.store (copyPa x.dstDev x.dst) (Memory.read s.mem (copyPa x.srcDev x.src) x.len)).finish q seq 0 0) := by
  rw [exec_copyComplete_of hc hr ho hx hs hd, hsr, hdr, hp]
  rfl

theorem exec_copyComplete_of_fails (hc : s.cmd? q seq = some c) (hr : c.state = .running) (ho : cmdOp c.bytes = 4) (hx : x = copySides c.bytes)
    (hs : s.held (copyPa x.srcDev x.src) x.len = false) (hd : s.held (copyPa x.dstDev x.dst) x.len = false) (hf : CopyFails s x failed) :
    exec (.copyComplete q seq failed written) s = .next ((s.copySome x written).finish q seq 6 0) := by
  have hcond : ((failed && !(x.srcDev && x.dstDev)) || !devRangeOk x.srcDev x.src x.len || !devRangeOk x.dstDev x.dst x.len
      || s.poisonIn (copyPa x.srcDev x.src) x.len) = true := by
    obtain ⟨h, h'⟩ | h | h | h := hf
    · rw [h, h']
      rfl
    · simp [h]
    · simp [h]
    · rw [h, Bool.or_true]
  rw [exec_copyComplete_of hc hr ho hx hs hd, if_pos hcond]

/-! ### Host-port timeouts -/

theorem exec_hostPortTimeout_copy (hc : s.cmd? q seq = some c) (hr : c.state = .running) (ho : cmdOp c.bytes = 4) (hx : x = copySides c.bytes)
    (hh : x.srcDev = false ∨ x.dstDev = false) : exec (.hostPortTimeout (.copy q seq)) s
      = .next ((({ s with stamp := s.stamp + 1 } : State).copySome x ((List.range x.len).filter (Config.subset s.stamp))).finish q seq 6 0) := by
  subst hx
  change execHostPortTimeout (.copy q seq) s = _
  rw [execHostPortTimeout, hc]
  dsimp only
  rw [if_neg (by
    rintro (h | h | ⟨h, h'⟩)
    · exact h hr
    · exact h ho
    · exact hh.elim (fun e => Bool.false_ne_true (e.symm.trans h)) (fun e => Bool.false_ne_true (e.symm.trans h')))]

end Copy

theorem exec_hostPortTimeout_peerLoad {id : ThreadId} {t : Thread} {k : Nat} {e : LogEntry} {b : Space} {a : Dword} {n : Nat} {ord : Order}
    {d : Scope} {r : Nat} {ps : List (Place × Nat × Option (List Byte))} (ht : s.thread? id = some t)
    (hl : t.log.find? (fun e => e.index == k) = some e) (ha : e.access = .load b a n ord d r) (he : e.state = .sent ps)
    (hp : ∃ bus m, (Place.peer bus, m, none) ∈ ps) : exec (.hostPortTimeout (.peerLoad id k)) s = .next (s.failEntry id e a) := by
  obtain ⟨bus, m, hmem⟩ := hp
  change execHostPortTimeout (.peerLoad id k) s = _
  rw [execHostPortTimeout, ht, Option.bind_some, hl]
  dsimp only
  rw [ha, he]
  dsimp only
  rw [if_pos (List.any_eq_true.mpr ⟨_, hmem, rfl⟩)]

end Command

/-- Settles O47: the start of every command by `startCmd_of`, the end of a COPY by `exec_copyComplete_of` and the frame of `copySome`. -/
theorem queueCommands : Obligations.QueueCommands := by
  unfold Obligations.QueueCommands
  refine ⟨fun s q seq c hc hs hb => ⟨fun ho => ?_, fun ho => ?_, fun ho => ?_, fun ho => ?_⟩, fun s q seq c i hc hs hb hi => ?_,
    fun s q seq c hc hr ho => ⟨fun h => ?_, fun h => ?_⟩,
    fun s q seq c x written hc hr ho hx hs hd =>
      ⟨fun hsr hdr hp => exec_copyComplete_of_ok hc hr ho hx hs hd hsr hdr hp, fun failed hf => ?_⟩,
    fun s q seq c x hc hr ho hx hh => ?_,
    fun s id t k e b a n ord d r ps ht hl ha he hp => exec_hostPortTimeout_peerLoad ht hl ha he hp⟩
  · rw [exec_wait_of hc hs ho, hb]
    rfl
  · rw [exec_signal_of hc hs ho, hb]
    rfl
  · rw [exec_copy_of hc hs ho, hb]
    rfl
  · rw [exec_nopCommand_of hc hs (.inr (Nat.le_of_eq ho.symm)), hb]
    rfl
  · obtain ⟨rfl, ho⟩ | ⟨rfl, ho⟩ | ⟨rfl, ho⟩ | ⟨rfl, ho⟩ | ⟨rfl, ho⟩ := hi
    · rw [exec_wait_of hc hs ho, if_pos hb]
    · rw [exec_signal_of hc hs ho, if_pos hb]
    · rw [exec_copy_of hc hs ho, if_pos hb]
    · rw [exec_nopCommand_of hc hs ho, if_pos hb]
    · exact exec_launch_of_bad hc hs ho hb
  · rw [exec_waitComplete_of hc hr ho, if_pos h]
  · rw [exec_waitComplete_of hc hr ho, if_neg (Nat.not_le.mpr h)]
  · obtain ⟨hq, ht, hm⟩ := copySome_frame (s := s) x written
    exact ⟨_, exec_copyComplete_of_fails hc hr ho hx hs hd hf, fun hcan p hp => hm hcan.mem p hp, finish_queue hq, ht⟩
  · obtain ⟨hq, ht, -⟩ := copySome_frame (s := { s with stamp := s.stamp + 1 }) x ((List.range x.len).filter (Config.subset s.stamp))
    exact ⟨_, exec_hostPortTimeout_copy hc hr ho hx hh, finish_queue hq, ht⟩

end Sys2Proof.Claims
end

section
/-! PROOFS. Counters, signalled writes and contributions to reductions (O30). -/
namespace Sys2Proof.Machine

/-! ### The operand log while operands are read -/

theorem Ctx.log_raise (c : Ctx) (x : Cause) (t : Dword) : (c.raise x t).th.log = c.th.log := by
  unfold Ctx.raise
  split
  · split <;> rfl
  · rfl

theorem Ctx.log_lose (c : Ctx) (x : Cause) (t : Dword) : (c.lose x t).th.log = c.th.log := c.log_raise x t

theorem Ctx.log_loseWord (c : Ctx) : c.loseWord.th.log = c.th.log := c.log_lose _ _

theorem Ctx.log_popStream (c : Ctx) (k : Nat) (ok : Nat → Bool) : (c.popStream k ok).2.th.log = c.th.log := by
  unfold Ctx.popStream
  split
  · exact c.log_loseWord
  · split
    · exact c.log_loseWord
    · split
      · rfl
      · dsimp only
        split
        · exact c.log_lose _ _
        · rfl
      · rfl

theorem Ctx.log_resolve (c : Ctx) (f : RegField) (b : Bool) : (c.resolve f b).2.th.log = c.th.log := by
  unfold Ctx.resolve
  dsimp only
  split
  · split
    · rfl
    · exact c.log_loseWord
  · split
    · rfl
    · split
      · exact c.log_loseWord
      · split
        · rfl
        · exact c.log_lose _ _

theorem log_src (f : RegField) (c : Ctx) : (src f c).2.th.log = c.th.log := by
  refine Eq.trans ?_ (c.log_resolve f true)
  unfold src
  dsimp only
  cases (c.resolve f true).1 with
  | none => rfl
  | reg n => rfl
  | str k => exact Ctx.log_popStream _ _ _

theorem log_srcP (f : RegField) (c : Ctx) : (srcP f c).2.th.log = c.th.log := by
  refine Eq.trans ?_ (c.log_resolve f true)
  unfold srcP
  dsimp only
  cases (c.resolve f true).1 with
  | none => rfl
  | reg n =>
    unfold Ctx.rdp
    dsimp only
    split
    · rfl
    · exact Ctx.log_loseWord _
  | str k => exact Ctx.log_popStream _ _ _

theorem log_block (f : RegField) (m k : Nat) (c : Ctx) : (block f m k c).2.th.log = c.th.log := by
  refine Eq.trans ?_ (c.log_resolve f true)
  unfold block
  dsimp only
  split
  · split
    · rfl
    · exact Ctx.log_loseWord _
  · exact Ctx.log_loseWord _
  · rfl

theorem log_dstDeferred (f : RegField) (m k : Nat) (c : Ctx) : (dstDeferred f m k c).2.th.log = c.th.log := by
  refine Eq.trans ?_ (c.log_resolve f false)
  unfold dstDeferred
  dsimp only
  split
  · split
    · rfl
    · exact Ctx.log_loseWord _
  · exact Ctx.log_loseWord _
  · rfl

/-- What reading operands leaves as it was: the device, the word, how the issue ends, and the operand log. -/
structure Ctx.Reads (c r : Ctx) : Prop where
  keeps : c.Keeps r
  log : r.th.log = c.th.log

section Reads
variable {a b c c1 : Ctx} {f : RegField} {m k n : Nat}

theorem Ctx.Reads.trans (h : a.Reads b) (k : b.Reads c) : a.Reads c := ⟨h.keeps.trans k.keeps, k.log.trans h.log⟩

/-- Of a part of a description that keeps what reading keeps, by its value and context. -/
theorem Ctx.Reads.of_eq {α : Type} {i : Issue α} {x : α} (hk : c.Keeps (i c).2) (hl : (i c).2.th.log = c.th.log) (h : i c = (x, c1)) :
    c.Reads c1 := by
  rw [h] at hk hl
  exact ⟨hk, hl⟩

theorem Ctx.Reads.src {x : Word} (h : src f c = (x, c1)) : c.Reads c1 := .of_eq (src_keeps f c) (log_src f c) h
theorem Ctx.Reads.srcP {x : Dword} (h : srcP f c = (x, c1)) : c.Reads c1 := .of_eq (srcP_keeps f c) (log_srcP f c) h
theorem Ctx.Reads.block (h : block f m k c = (n, c1)) : c.Reads c1 := .of_eq (block_keeps f m k c) (log_block f m k c) h
theorem Ctx.Reads.dstDeferred (h : dstDeferred f m k c = (n, c1)) : c.Reads c1 :=
  .of_eq (dstDeferred_keeps f m k c) (log_dstDeferred f m k c) h

end Reads

end Sys2Proof.Machine

namespace Sys2Proof.Claims
open Sys2Proof.Machine

/-! ### The parts of a description -/

section Parts
variable {c c1 : Ctx}

/-- A part of a description hands its value and its context to what follows. -/
theorem bind_of {α β : Type} {m : Issue α} {f : α → Issue β} {x : α} (h : m c = (x, c1)) : (m >>= f) c = f x c1 := by
  change f (m c).1 (m c).2 = _
  rw [h]

theorem get_eq : (get : Issue Ctx) c = (c, c) := rfl

theorem flagIf_false {b : Bool} {cause : Cause} {v : Dword} (h : b = false) : flagIf b cause v c = ((), c) := by
  subst h
  rfl

theorem flagWordIf_false {b : Bool} {cause : Cause} (h : b = false) : flagWordIf b cause c = ((), c) := by
  subst h
  rfl

/-- An access takes an entry while there is room (R152). -/
theorem access_of_room {a : Access} (h : Room c.th) : access a c = ((), logged c a) := by
  change ((), if 16 ≤ (c.th.log.filter (fun e => decide (e.index < 16))).length then _ else _) = _
  rw [if_neg (Nat.not_le.mpr h)]
  rfl

/-- Reading operands leaves the room that there was. -/
theorem Room.of_reads (hr : Room c.th) (h : c.Reads c1) : Room c1.th := by
  rw [Room, h.log]
  exact hr

/-- A counter's number is in the low half of its register (R318). -/
theorem counterIndex_of {f : RegField} {x : Word} (h : src f c = (x, c1)) (hx : x.extractLsb' 16 16 = 0) :
    counterIndex f c = ((x.extractLsb' 0 16).toNat, c1) :=
  (bind_of h).trans (bind_of (flagWordIf_false (by simp [hx])))

end Parts

/-! ### The end of an issue -/

section Issue
variable {s : State} {v : Thread} {word : Word} {acc : Accepts} {body : Issue Unit} {c : Ctx}

/-- A plain instruction whose operands raised no fault retires after it has changed registers and the device. -/
theorem plain_retires {t : Thread} {u : State} (hi : Issues s word false v) (hr : (begin s v word acc).Reads c) (hc : Clean c)
    (hb : body (begin s v word acc) = ((), { c with th := t, s := u })) :
    plain word acc body s = .next (({ c with th := t, s := u } : Ctx).retired v.stepping) := by
  obtain ⟨w, hw, hi⟩ := hi
  obtain ⟨hflag, hstall, hstarve⟩ := hc
  exact plain_of hw hi hb hflag hstall hstarve hr.keeps.hold hr.keeps.park hr.keeps.late

/-- An instruction whose operands raised no fault parks. -/
theorem issue_parks {w : Wait} {sw : Bool} {post : State → State} (hi : Issues s word sw v) (hr : (begin s v word acc).Reads c)
    (hc : Clean c) (hb : body (begin s v word acc) = ((), { c with park := some w })) :
    issue word sw acc body post s = .next (post (s.setThread s.cur { c.th with wait := w })) := by
  obtain ⟨u, hu, hi⟩ := hi
  obtain ⟨hflag, hstall, hstarve⟩ := hc
  have hs : c.s = s := hr.keeps.s
  have hid : c.id = s.cur := hr.keeps.id
  rw [issue_of hu hi, State.runBody_parks hb hflag hstall hstarve hr.keeps.hold rfl hr.keeps.late, hs, hid]

end Issue

section Counters
variable {s : State} {v : Thread} {w : BitVec 1} {f g : RegField} {x : Word} {y : Dword} {k : Nat} {c c1 c2 : Ctx}

/-! ### cwait -/

/-- What a write shows depends on the device through its writes alone (R194). -/
theorem gives_congr {u : State} (h : u.hist = s.hist) : u.gives = s.gives := by
  have hs : u.shows = s.shows := by
    funext o i r
    rw [State.shows, State.shows, h]
  funext a b o i
  rw [State.gives, State.gives, hs]

theorem ctrViewFrom_congr {u : State} (h : u.hist = s.hist) {a : Agent} {b : Scope} {pa : Nat} : ∀ (ws : List Write) (z : View) (i : Nat),
    u.ctrViewFrom a b pa z i ws = s.ctrViewFrom a b pa z i ws
  | [], _, _ => rfl
  | r :: ws, z, i => by
    rw [State.ctrViewFrom, State.ctrViewFrom, gives_congr h]
    exact ctrViewFrom_congr h ws _ _

/-- What a counter shows is the same with the pod read buffer dropped. -/
theorem ctrView_clearPodBuf {core : Nat} {id : ThreadId} {b : Scope} : (s.clearPodBuf core).ctrView id k b = s.ctrView id k b :=
  ctrViewFrom_congr (s := s) (u := s.clearPodBuf core) rfl _ _ _

/-- A waiting thread that nothing keeps goes on where its counter is at or above n (R204, R323). -/
theorem counterStep_of {n : Dword} {scope : Scope} {t : Thread} {p : State} (hp : p = s.setThread s.cur { t with wait := .counter k n scope })
    (hg : GoesOn p) : p.counterStep s.cur = if n.toNat ≤ s.ctrValue k then
      ((acquires p scope).sees s.cur ((acquires p scope).ctrView s.cur k (waitScope scope))).complete s.cur else p := by
  have ht : p.thread? s.cur = some { t with wait := .counter k n scope } := by rw [hp, State.thread?_setThread]
  have hcur : p.cur = s.cur := by rw [hp, State.setThread_cur]
  have hval : p.ctrValue k = s.ctrValue k := by rw [hp]; rfl
  obtain ⟨u, hu, hput⟩ := hg
  rw [hcur] at hu hput
  obtain rfl : _ = u := Option.some.inj (ht.symm.trans hu)
  rw [State.counterStep, ht]
  dsimp only
  rw [hput, hval, acquires, hcur, if_neg Bool.false_ne_true]
  by_cases hs : scope = .pod ∨ scope = .glb
  · rw [if_pos hs, ctrView_clearPodBuf]
  · rw [if_neg hs]

theorem bodyCwait_of (hx : src f c = (x, c1)) (hy : srcP g c1 = (y, c2)) (hz : x.extractLsb' 16 16 = 0) :
    bodyCwait f g c = ((), { c2 with park := some (.counter (x.extractLsb' 0 16).toNat y (c2.hs.scopeOr .dev)) }) :=
  (bind_of (counterIndex_of hx hz)).trans ((bind_of hy).trans (bind_of get_eq))

theorem exec_cwait_of (hi : Issues s (Enc.cwait w f g) true v) (hx : src f (begin s v (Enc.cwait w f g) .scopeOnly) = (x, c1))
    (hy : srcP g c1 = (y, c2)) (hc : Clean c2) (hz : x.extractLsb' 16 16 = 0) :
    exec (.cwait w f g) s = .next ((s.setThread s.cur { c2.th with
      wait := .counter (x.extractLsb' 0 16).toNat y ((HintSet.of v.hints).scopeOr .dev) }).counterStep s.cur) := by
  have hr := (Ctx.Reads.src hx).trans (.srcP hy)
  have hhs : c2.hs = HintSet.of v.hints := hr.keeps.hs
  exact issue_parks hi hr hc (hhs ▸ bodyCwait_of hx hy hz)

/-! ### cadd and cpoll -/

theorem bodyCadd_of (hx : src f c = (x, c1)) (hy : srcP g c1 = (y, c2)) (hz : x.extractLsb' 16 16 = 0) (hr : Room c2.th) :
    bodyCadd f g c = ((), logged c2 (.cadd (x.extractLsb' 0 16).toNat y (c2.hs.scopeOr .dev))) :=
  (bind_of (counterIndex_of hx hz)).trans ((bind_of hy).trans ((bind_of get_eq).trans (access_of_room hr)))

theorem exec_cadd_of (hi : Issues s (Enc.cadd w f g) false v) (hx : src f (begin s v (Enc.cadd w f g) .scopeOnly) = (x, c1))
    (hy : srcP g c1 = (y, c2)) (hc : Clean c2) (hroom : Room v) (hz : x.extractLsb' 16 16 = 0) :
    exec (.cadd w f g) s
      = .next ((logged c2 (.cadd (x.extractLsb' 0 16).toNat y ((HintSet.of v.hints).scopeOr .dev))).retired v.stepping) := by
  have hr := (Ctx.Reads.src hx).trans (.srcP hy)
  have hhs : c2.hs = HintSet.of v.hints := hr.keeps.hs
  exact plain_retires hi hr hc (hhs ▸ bodyCadd_of hx hy hz (Room.of_reads hroom hr))

theorem bodyCpoll_of (hx : src g c = (x, c1)) (hz : x.extractLsb' 16 16 = 0) (hk : dstDeferred f 2 2 c1 = (k, c2)) (hr : Room c2.th) :
    bodyCpoll f g c = ((), logged c2 (.cpoll (x.extractLsb' 0 16).toNat k)) :=
  (bind_of (counterIndex_of hx hz)).trans ((bind_of hk).trans (access_of_room hr))

theorem exec_cpoll_of (hi : Issues s (Enc.cpoll w f g) false v) (hx : src g (begin s v (Enc.cpoll w f g) .nothing) = (x, c1))
    (hz : x.extractLsb' 16 16 = 0) (hk : dstDeferred f 2 2 c1 = (k, c2)) (hc : Clean c2) (hroom : Room v) :
    exec (.cpoll w f g) s = .next ((logged c2 (.cpoll (x.extractLsb' 0 16).toNat k)).retired v.stepping) :=
  have hr := (Ctx.Reads.src hx).trans (.dstDeferred hk)
  plain_retires hi hr hc (bodyCpoll_of hx hz hk (Room.of_reads hroom hr))

end Counters

/-! ### wsig -/

/-- The register block from k raises no cause at a `wsig` from `source` to `dest` (R57, R324). -/
structure WsigBlock (s : State) (t : Thread) (k : Nat) (source dest : Dword) : Prop where
  sourcePair : source = t.reg (k + 1) ++ t.reg k
  destPair : dest = t.reg (k + 3) ++ t.reg (k + 2)
  targetCounter : (t.reg (k + 5)).extractLsb' 16 16 = 0
  ownCounter : (t.reg (k + 6)).extractLsb' 17 15 = 0
  zero : t.reg (k + 7) = 0
  lenPos : 0 < (t.reg (k + 4)).toNat
  lenLe : (t.reg (k + 4)).toNat ≤ 2 ^ 24
  sourceOwn : source.extractLsb' 48 16 = 0
  destGlobal : dest.msb = true
  whole : s.straddles dest (t.reg (k + 4)).toNat = false
  ok : s.globalOk (s.asidOf s.cur.teamId) dest (t.reg (k + 4)).toNat = true

/-- The access of a `wsig` with that block. -/
def wsigAccess (t : Thread) (k : Nat) (source dest : Dword) : Access :=
  .wsig source dest (t.reg (k + 4)).toNat ((t.reg (k + 5)).extractLsb' 0 16).toNat
    (if (t.reg (k + 6)).getLsbD 16 then some ((t.reg (k + 6)).extractLsb' 0 16).toNat else none)

section Signals
variable {s : State} {v : Thread} {w : BitVec 1} {a : RegField} {k : Nat} {source dest : Dword} {c c1 : Ctx}

theorem bodyWsig_of (hk : block a 8 8 c = (k, c1)) (hs : c1.s = s) (hid : c1.id = s.cur) (hb : WsigBlock s c1.th k source dest)
    (hr : Room c1.th) : bodyWsig a c = ((), logged c1 (wsigAccess c1.th k source dest)) := by
  obtain ⟨rfl, rfl, htarget, hown, hzero, hpos, hle, hlow, hhigh, hwhole, hok⟩ := hb
  refine (bind_of hk).trans ((bind_of get_eq).trans ?_)
  refine (bind_of (flagWordIf_false ?_)).trans ((bind_of (flagIf_false ?_)).trans ((bind_of (flagIf_false ?_)).trans
    ((bind_of (flagIf_false ?_)).trans ((bind_of (flagIf_false ?_)).trans (access_of_room hr)))))
  · simp only [Bool.or_eq_false_iff]
    exact ⟨⟨⟨⟨decide_eq_false (not_not_intro htarget), decide_eq_false (not_not_intro hown)⟩, decide_eq_false (not_not_intro hzero)⟩,
      decide_eq_false (Nat.ne_of_gt hpos)⟩, decide_eq_false (Nat.not_lt.mpr hle)⟩
  · rw [hs]
    exact (congrArg _ hwhole).trans (Bool.and_false _)
  · exact decide_eq_false (not_not_intro hlow)
  · exact congrArg not hhigh
  · rw [hs, hid]
    exact congrArg not hok

theorem exec_wsig_of (hi : Issues s (Enc.wsig w a) false v) (hk : block a 8 8 (begin s v (Enc.wsig w a) .nothing) = (k, c1))
    (hc : Clean c1) (hroom : Room v) (hb : WsigBlock s c1.th k source dest) :
    exec (.wsig w a) s = .next ((logged c1 (wsigAccess c1.th k source dest)).retired v.stepping) :=
  have hr := Ctx.Reads.block hk
  plain_retires hi hr hc (bodyWsig_of hk hr.keeps.s hr.keeps.id hb (Room.of_reads hroom hr))

end Signals

/-! ### wred -/

/-- The register block from k raises no cause at a `wred` from `source` to group `gid` with entry e (R57, R74, R325). -/
structure WredBlock (s : State) (t : Thread) (k : Nat) (source : Dword) (gid e : Nat) : Prop where
  sourcePair : source = t.reg (k + 1) ++ t.reg k
  group : gid = ((t.reg (k + 2)).extractLsb' 0 16).toNat
  entry : e = s.groupEntry gid
  number : (t.reg (k + 2)).extractLsb' 16 16 = 0
  ownCounter : (t.reg (k + 3)).extractLsb' 17 15 = 0
  aligned : source.toNat % 4 = 0
  sourceOwn : source.extractLsb' 48 16 = 0
  member : bits e 17 17 = 1
  home : (s.rankCheck (s.asidOf s.cur.teamId) (bits e 97 81)).isSome = true
  stripe : stripeOk (s.stripe (bits e 165 160)) = true
  whole : s.straddles (BitVec.ofNat 64 (gAddr (bits e 97 81) (bits e 165 160) (bits e 231 192))) (4 * bits e 151 128) = false

/-- The access of a `wred` with that block. -/
def wredAccess (t : Thread) (k : Nat) (source : Dword) (gid e : Nat) : Access :=
  .wred source gid (BitVec.ofNat 8 (bits e 25 18))
    (if (t.reg (k + 3)).getLsbD 16 then some ((t.reg (k + 3)).extractLsb' 0 16).toNat else none)

/-- A context in which the generation of a group advances (R74). -/
def advanced (c : Ctx) (gid e : Nat) : Ctx := { c with s := c.s.advanceGen gid e }

section Contributions
variable {s : State} {v : Thread} {w : BitVec 1} {a : RegField} {k gid e : Nat} {source : Dword} {c c1 : Ctx}

theorem modDev_advanceGen : modDev (fun s => s.advanceGen gid e) c = ((), advanced c gid e) := rfl

theorem bodyWred_of (hk : block a 4 4 c = (k, c1)) (hs : c1.s = s) (hid : c1.id = s.cur) (hb : WredBlock s c1.th k source gid e)
    (hr : Room c1.th) : bodyWred a c = ((), advanced (logged c1 (wredAccess c1.th k source gid e)) gid e) := by
  obtain ⟨rfl, hgid, hentry, hnumber, hown, haligned, hlow, hmember, hhome, hstripe, hwhole⟩ := hb
  unfold bodyWred
  rw [bind_of hk, bind_of get_eq]
  dsimp only
  rw [← hgid, hs, hid, ← hentry]
  refine (bind_of (flagWordIf_false ?_)).trans ((bind_of (flagIf_false ?_)).trans ((bind_of (flagIf_false ?_)).trans
    ((bind_of (flagIf_false ?_)).trans ((bind_of (flagIf_false ?_)).trans ((bind_of (flagIf_false ?_)).trans
      ((bind_of (flagIf_false ?_)).trans ((bind_of (access_of_room hr)).trans modDev_advanceGen)))))))
  · exact Bool.or_eq_false_iff.mpr ⟨decide_eq_false (not_not_intro hnumber), decide_eq_false (not_not_intro hown)⟩
  · exact decide_eq_false (not_not_intro haligned)
  · exact hwhole
  · exact decide_eq_false (not_not_intro hlow)
  · exact decide_eq_false (by omega)
  · exact congrArg not hstripe
  · exact Option.isNone_eq_false_iff.mpr hhome

theorem exec_wred_of (hi : Issues s (Enc.wred w a) false v) (hk : block a 4 4 (begin s v (Enc.wred w a) .nothing) = (k, c1))
    (hc : Clean c1) (hroom : Room v) (hb : WredBlock s c1.th k source gid e) :
    exec (.wred w a) s = .next ((advanced (logged c1 (wredAccess c1.th k source gid e)) gid e).retired v.stepping) :=
  have hr := Ctx.Reads.block hk
  plain_retires (c := c1) hi hr hc (bodyWred_of hk hr.keeps.s hr.keeps.id hb (Room.of_reads hroom hr))

end Contributions

theorem counterInstructions : CounterInstructions := by
  unfold CounterInstructions
  refine ⟨?_, fun s v w f g x y c1 c2 hi hx hy hc hroom hz => exec_cadd_of hi hx hy hc hroom hz,
    fun s v w f g x k c1 c2 hi hx hz hk hc hroom => exec_cpoll_of hi hx hz hk hc hroom⟩
  rintro s v w f g x y c1 c2 scope hi hx hy hc hz rfl p hp hg
  rw [exec_cwait_of hi hx hy hc hz, ← hp, counterStep_of hp hg]
  exact ⟨fun h => by rw [if_pos h], fun h => by rw [if_neg (Nat.not_le.mpr h)]⟩

theorem signalsAndContributions : SignalsAndContributions := by
  unfold SignalsAndContributions
  refine ⟨?_, ?_⟩
  · intro s v w a k c1 source dest hi hk hc hroom hsource hdest htarget hown hzero hpos hle hlow hhigh hwhole hok
    exact exec_wsig_of hi hk hc hroom ⟨hsource, hdest, htarget, hown, hzero, hpos, hle, hlow, hhigh, hwhole, hok⟩
  · rintro s v w a k c1 source gid e hi hk hc hroom hsource hgid he hnumber hown haligned hlow hmember hhome hstripe hwhole c2 rfl
    exact exec_wred_of hi hk hc hroom ⟨hsource, hgid, he, hnumber, hown, haligned, hlow, hmember, hhome, hstripe, hwhole⟩

/-- Settles O30: the counters by what each description does on operands that raise no cause, the signals by their register blocks. -/
theorem countersAndSignals : Obligations.CountersAndSignals := ⟨counterInstructions, signalsAndContributions⟩

end Sys2Proof.Claims
end

section
/-! PROOFS. Administration of the work queues, fetching of commands and writing of completions (O46). -/
namespace Sys2Proof.Machine

theorem AMap.mem_of_get?_eq_some {α β : Type} [DecidableEq α] {m : AMap α β} {a : α} {b : β} (h : AMap.get? m a = some b) : (a, b) ∈ m := by
  induction m with
  | nil => cases h
  | cons p r ih =>
    rw [AMap.get?] at h
    split at h
    next hk =>
      cases h
      rw [hk]
      exact List.mem_cons_self
    next => exact List.mem_cons_of_mem _ (ih h)

theorem Memory.read_write_inside {m : Memory} {a k n : Nat} {bs : List Byte} (w : Memory.wf m = true) (h : k + n ≤ bs.length) :
    Memory.read (Memory.write m a bs) (a + k) n = (bs.drop k).take n := by
  rw [Memory.read_eq_map]
  refine List.ext_getElem (by simp; omega) fun i hi _ => ?_
  rw [List.length_map, List.length_range] at hi
  rw [List.getElem_map, List.getElem_range, List.getElem_take, List.getElem_drop, Nat.add_assoc]
  exact Memory.get_write_inside w (by omega)

/-- A number among the bytes of a write is read back. -/
theorem Memory.readLE_write_field {m : Memory} {a k n v : Nat} {bytes : List Byte} (w : Memory.wf m = true) (bs cs : List Byte)
    (e : bytes = bs ++ (natBytes n v ++ cs)) (hk : bs.length = k) : Memory.readLE (Memory.write m a bytes) (a + k) n = v % 256 ^ n := by
  subst e hk
  have hl : (bs ++ (natBytes n v ++ cs)).length = bs.length + (n + cs.length) := by simp
  rw [Memory.readLE, Memory.read_write_inside w (by omega), List.drop_left, List.take_left' (length_natBytes n v), leNat_natBytes]

theorem State.queue_setQueue_other {s : State} {q k : Nat} {v : Queue} (h : k ≠ q) : (s.setQueue q v).queue k = s.queue k := by
  rw [State.queue, AMap.getD, State.setQueue_queues, AMap.get?_set_other _ _ h]
  rfl

theorem State.queue_congr {s u : State} (h : u.queues = s.queues) (q : Nat) : u.queue q = s.queue q := by
  rw [State.queue, h, State.queue]

/-- A queue that is not as at reset is listed. -/
theorem State.mem_queues_of_mode {s : State} {q : Nat} (h : (s.queue q).mode ≠ .disabled) : (q, s.queue q) ∈ s.queues := by
  cases hv : AMap.get? s.queues q with
  | none =>
    rw [State.queue, AMap.getD, hv] at h
    exact absurd rfl h
  | some v =>
    rw [State.queue, AMap.getD, hv]
    exact AMap.mem_of_get?_eq_some hv

end Sys2Proof.Machine

namespace Sys2Proof.Claims
open Sys2Proof.Machine

section QueueAdministration
variable {s : State} {m q : Nat} {v : Word}

/-! ### Enabling (R84) -/

theorem bits_zero_zero (n : Nat) : bits n 0 0 = n % 2 := rfl

theorem queueEn_setQueueWord (hc : Canonical s) {n : Nat} : (s.setQueueWord q n).queueEn q = decide (n % 2 = 1) := by
  have hr : (s.setQueueWord q n).reg32 (0x200000 + 32 * q) = n % 256 ^ 4 := Memory.readLE_writeLE hc.mgmt _ _ _
  rw [State.queueEn, hr, bits_zero_zero, Nat.mod_mod_of_dvd n (by decide)]

theorem exec_queueEnable : exec (.queueEnable m q v) s = .next (s.byOwner m (fun s => s.enableQueue m q v.toNat)) := rfl

theorem enableQueue_of_ok {n : Nat} (hb : bits n 0 0 = 1) (hen : s.queueEn q = false) (hok : s.queueCfgOk q n = true) :
    s.enableQueue m q n = (s.setQueueWord q n).setQueue q { s.queue q with mode := .running, owner := m } := by
  rw [State.enableQueue, hb, hen, hok]
  rfl

theorem enableQueue_of_refused {n : Nat} (hb : bits n 0 0 = 1) (hen : s.queueEn q = false) (hok : s.queueCfgOk q n = false) :
    s.enableQueue m q n = (s.setQueueWord q (n - n % 2)).setQueue q { s.queue q with mode := .error, errstat := 1 } := by
  rw [State.enableQueue, hb, hen, hok]
  rfl

theorem exec_queueEnable_of_ok (ho : Owns s m) (hb : bits v.toNat 0 0 = 1) (hen : s.queueEn q = false) (hok : s.queueCfgOk q v.toNat = true) :
    ∃ t, exec (.queueEnable m q v) s = .next t ∧ t.queue q = { s.queue q with mode := .running, owner := m } ∧ t.mem = s.mem ∧
      (Canonical s → t.queueEn q = true) := by
  rw [exec_queueEnable, byOwner_of_owns _ ho, enableQueue_of_ok hb hen hok]
  exact ⟨_, rfl, State.queue_setQueue .., rfl, fun hc => (queueEn_setQueueWord hc).trans (decide_eq_true hb)⟩

theorem exec_queueEnable_of_refused (ho : Owns s m) (hb : bits v.toNat 0 0 = 1) (hen : s.queueEn q = false)
    (hok : s.queueCfgOk q v.toNat = false) : ∃ t, exec (.queueEnable m q v) s = .next t ∧
      t.queue q = { s.queue q with mode := .error, errstat := 1 } ∧ (Canonical s → t.queueEn q = false) := by
  rw [exec_queueEnable, byOwner_of_owns _ ho, enableQueue_of_refused hb hen hok]
  exact ⟨_, rfl, State.queue_setQueue .., fun hc => (queueEn_setQueueWord hc).trans (decide_eq_false (by omega))⟩

/-! ### Discarding the teams of a launch (R91) -/

/-- Nothing of a device differs but its teams and what works for them or waits for them. -/
def OnlyTeams (s u : State) : Prop := ∃ teams groups threads cores clusters buffer net service nextId,
  u = { s with teams := teams, groups := groups, threads := threads, cores := cores, clusters := clusters, buffer := buffer, net := net
               service := service, nextId := nextId }

theorem OnlyTeams.trans {u r : State} (h : OnlyTeams s u) (h' : OnlyTeams u r) : OnlyTeams s r := by
  obtain ⟨_, _, _, _, _, _, _, _, _, rfl⟩ := h
  obtain ⟨_, _, _, _, _, _, _, _, _, rfl⟩ := h'
  exact ⟨_, _, _, _, _, _, _, _, _, rfl⟩

theorem OnlyTeams.modTeam {id : TeamId} {f : Team → Team} : OnlyTeams s (s.modTeam id f) := by
  unfold State.modTeam
  split <;> exact ⟨_, _, _, _, _, _, _, _, _, rfl⟩

theorem OnlyTeams.of_onlySets {u : State} (h : OnlySets s u) : OnlyTeams s u := by
  obtain ⟨_, _, rfl⟩ := h
  exact ⟨_, _, _, _, _, _, _, _, _, rfl⟩

theorem OnlyTeams.dropCalls {id : TeamId} {p : ServiceBatch → Bool} : OnlyTeams s (s.dropCalls id p) := ⟨_, _, _, _, _, _, _, _, _, rfl⟩

theorem OnlyTeams.dropHeldMessages {ids : List TeamId} : OnlyTeams s (s.dropHeldMessages ids) := ⟨_, _, _, _, _, _, _, _, _, rfl⟩

theorem OnlyTeams.cutOff {id : TeamId} : OnlyTeams s (cutOff s id) :=
  OnlyTeams.trans ⟨_, _, _, _, _, _, _, _, _, rfl⟩ (((OnlyTeams.of_onlySets .leaveSets).trans .dropCalls).trans .modTeam)

theorem OnlyTeams.foldl_cutOff : ∀ {ids : List TeamId} {s : State}, OnlyTeams s (ids.foldl Claims.cutOff s)
  | [], _ => ⟨_, _, _, _, _, _, _, _, _, rfl⟩
  | _ :: _, _ => OnlyTeams.cutOff.trans OnlyTeams.foldl_cutOff

theorem OnlyTeams.discardTeams {ids : List TeamId} : OnlyTeams s (s.discardTeams ids) :=
  (OnlyTeams.dropHeldMessages (ids := ids)).trans (OnlyTeams.foldl_cutOff.trans ⟨_, _, _, _, _, _, _, _, _, rfl⟩)

/-! ### Resetting a queue (R91) -/

/-- The memory, the queues and the outcome of the last queue operation are those of another device. -/
structure KeepsQueues (s u : State) : Prop where
  mem : u.mem = s.mem
  queues : u.queues = s.queues
  qres : u.qres = s.qres

theorem discardLaunch_spec (n : Nat) : KeepsQueues s (s.discardLaunch n) ∧ (s.discardLaunch n).launches = AMap.erase s.launches n := by
  obtain ⟨_, _, _, _, _, _, _, _, _, h⟩ := OnlyTeams.discardTeams (s := s) (ids := s.launchTeams n)
  rw [State.discardLaunch, h]
  exact ⟨⟨rfl, rfl, rfl⟩, rfl⟩

/-- Launches that are discarded one after another are gone, and nothing is added. -/
theorem foldl_discardLaunch : ∀ (ns : List Nat) (s : State), KeepsQueues s (ns.foldl State.discardLaunch s) ∧
    ∀ p ∈ (ns.foldl State.discardLaunch s).launches, p ∈ s.launches ∧ p.1 ∉ ns
  | [], _ => ⟨⟨rfl, rfl, rfl⟩, fun _ hp => ⟨hp, List.not_mem_nil⟩⟩
  | n :: ns, s => by
    obtain ⟨hn, hl⟩ := discardLaunch_spec (s := s) n
    obtain ⟨hk, hp⟩ := foldl_discardLaunch ns (s.discardLaunch n)
    refine ⟨⟨hk.mem.trans hn.mem, hk.queues.trans hn.queues, hk.qres.trans hn.qres⟩, fun p h => ?_⟩
    obtain ⟨hmem, hns⟩ := hp p h
    rw [hl] at hmem
    obtain ⟨hs, hne⟩ := List.mem_filter.mp hmem
    exact ⟨hs, List.not_mem_cons_of_ne_of_not_mem (of_decide_eq_true hne) hns⟩

/-- A queue after its reset: owner and rejected count stay, and a new generation starts (R91). -/
def Queue.renewed (v : Queue) : Queue :=
  { Queue.atReset with owner := v.owner, gen := v.gen + 1, rejspawn := v.rejspawn, skip := v.skip }

/-- The launches of a queue. -/
def launchesOf (s : State) (q : Nat) : List Nat := (s.launches.filter (fun p => decide (p.2.queue = q))).map (fun p => p.1)

/-- The device without the launches of a queue. -/
def withoutLaunches (s : State) (q : Nat) : State := (launchesOf s q).foldl State.discardLaunch s

theorem resetQueue_eq : ∃ mgmt service,
    s.resetQueue q = ({ withoutLaunches s q with mgmt := mgmt, service := service } : State).setQueue q (Queue.renewed ((withoutLaunches s q).queue q)) :=
  ⟨_, _, rfl⟩

theorem queue_ne_of_mem_withoutLaunches {p : Nat × Launch} (h : p ∈ (withoutLaunches s q).launches) : p.2.queue ≠ q := fun hq => by
  obtain ⟨hs, hn⟩ := (foldl_discardLaunch (launchesOf s q) s).2 p h
  exact hn (List.mem_map_of_mem (List.mem_filter.mpr ⟨hs, decide_eq_true hq⟩))

/-- A queue of a device has been reset: its launches are gone, and no other queue has changed. -/
structure ResetOf (s : State) (q : Nat) (t : State) : Prop where
  mem : t.mem = s.mem
  qres : t.qres = s.qres
  launches : ∀ p ∈ t.launches, p.2.queue ≠ q
  self : t.queue q = Queue.renewed (s.queue q)
  others : ∀ k, k ≠ q → t.queue k = s.queue k

theorem resetQueue_spec : ResetOf s q (s.resetQueue q) := by
  obtain ⟨mgmt, service, h⟩ := resetQueue_eq (s := s) (q := q)
  have hk : KeepsQueues s (withoutLaunches s q) := (foldl_discardLaunch (launchesOf s q) s).1
  rw [h]
  refine ⟨hk.mem, hk.qres, fun p => queue_ne_of_mem_withoutLaunches, ?_, fun k hne => ?_⟩
  · rw [State.queue_setQueue, State.queue_congr hk.queues]
  · rw [State.queue_setQueue_other hne]
    exact State.queue_congr hk.queues k

theorem exec_queueDisable : exec (.queueDisable m q v) s = .next (s.byOwner m (fun s => s.disableQueue q v.toNat)) := rfl

theorem exec_queueReset : exec (.queueReset m q) s = .next (s.byOwner m (fun s => (s.resetQueue q).setQres 2)) := rfl

theorem exec_queueDisable_of_en (ho : Owns s m) (hb : bits v.toNat 0 0 = 0) (hen : s.queueEn q = true) :
    exec (.queueDisable m q v) s = .next (s.resetQueue q) := by
  rw [exec_queueDisable, byOwner_of_owns _ ho, State.disableQueue, hb, hen]
  rfl

/-! ### Adoption (R91) -/

theorem exec_queueAdopt_of_owns {g : Word} (ho : Owns s m) : exec (.queueAdopt m q g) s
    = .next (if ((s.queue q).mode = .orphaned ∨ (s.queue q).mode = .running) ∧ (s.queue q).gen = g then
        (s.setQueue q { s.queue q with mode := .running, owner := m }).setQres 1 else (s.resetQueue q).setQres 2) := by
  obtain ⟨-, -, hid⟩ := id ho
  change Host.Outcome.next (s.byOwner m _) = _
  rw [byOwner_of_owns _ ho, hid]

theorem exec_queueAdopt_of_failed {g : Word} (ho : Owns s m)
    (h : (s.queue q).gen ≠ g ∨ (s.queue q).mode = .disabled ∨ (s.queue q).mode = .error) :
    exec (.queueAdopt m q g) s = .next ((s.resetQueue q).setQres 2) := by
  rw [exec_queueAdopt_of_owns ho, if_neg]
  rintro ⟨hm, hg⟩
  obtain h | h | h := h
  · exact h hg
  · simp [h] at hm
  · simp [h] at hm

/-- Each operation that resets a queue resets it, with its outcome in qres. -/
theorem exec_of_resets (ho : Owns s m) {i : Instr} {out : BitVec 2}
    (h : (∃ v, i = .queueDisable m q v ∧ bits v.toNat 0 0 = 0 ∧ s.queueEn q = true ∧ out = s.qres) ∨ (i = .queueReset m q ∧ out = 2) ∨
      (∃ g, i = .queueAdopt m q g ∧ out = 2 ∧ ((s.queue q).gen ≠ g ∨ (s.queue q).mode = .disabled ∨ (s.queue q).mode = .error))) :
    exec i s = .next ((s.resetQueue q).setQres out) := by
  obtain ⟨v, rfl, hb, hen, rfl⟩ | ⟨rfl, rfl⟩ | ⟨g, rfl, rfl, hf⟩ := h
  · rw [exec_queueDisable_of_en ho hb hen, ← resetQueue_spec.qres]
    rfl
  · rw [exec_queueReset, byOwner_of_owns _ ho]
  · exact exec_queueAdopt_of_failed ho hf

/-! ### The end of reattachment (R91) -/

/-- Queues that are reset one after another are disabled, and no other queue has changed. -/
theorem foldl_resetQueue : ∀ (l : List (Nat × Queue)) (s : State),
    (l.foldl (fun s p => s.resetQueue p.1) s).mem = s.mem ∧
    (∀ k, (∀ p ∈ l, p.1 ≠ k) → (l.foldl (fun s p => s.resetQueue p.1) s).queue k = s.queue k) ∧
    ∀ p ∈ l, ((l.foldl (fun s p => s.resetQueue p.1) s).queue p.1).mode = .disabled
  | [], _ => ⟨rfl, fun _ _ => rfl, nofun⟩
  | p :: l, s => by
    have hr : ResetOf s p.1 (s.resetQueue p.1) := resetQueue_spec
    obtain ⟨hm, hother, hdis⟩ := foldl_resetQueue l (s.resetQueue p.1)
    refine ⟨hm.trans hr.mem, fun k hk => ?_, List.forall_mem_cons.mpr ⟨?_, hdis⟩⟩
    · obtain ⟨hp, hl⟩ := List.forall_mem_cons.mp hk
      exact (hother k hl).trans (hr.others k hp.symm)
    · by_cases hl : ∃ x ∈ l, x.1 = p.1
      · obtain ⟨x, hx, he⟩ := hl
        exact he ▸ hdis x hx
      · rw [List.foldl_cons, hother p.1 fun x hx he => hl ⟨x, hx, he⟩, hr.self]
        rfl

/-- The orphaned queues of a device. -/
def orphans (s : State) : List (Nat × Queue) := s.queues.filter (fun p => decide (p.2.mode = .orphaned))

theorem exec_endReattach_of_owns (ho : Owns s m) :
    exec (.endReattach m) s = .next (((orphans s).foldl (fun s p => s.resetQueue p.1) s).setQres 2) := by
  change Host.Outcome.next (s.byOwner m _) = _
  rw [byOwner_of_owns _ ho]
  rfl

theorem endReattach_disables (ho : Owns s m) : ∃ t, exec (.endReattach m) s = .next t ∧ t.qres = 2 ∧ t.mem = s.mem ∧
    (∀ q, (s.queue q).mode = .orphaned → (t.queue q).mode = .disabled) ∧
    ∀ q, (∀ p ∈ s.queues, p.1 = q → p.2.mode ≠ .orphaned) → t.queue q = s.queue q := by
  obtain ⟨hm, hother, hdis⟩ := foldl_resetQueue (orphans s) s
  refine ⟨_, exec_endReattach_of_owns ho, rfl, hm, fun q hq => ?_, fun q hq => hother q fun p hp he => ?_⟩
  · have hmem : (q, s.queue q) ∈ s.queues := State.mem_queues_of_mode (by simp [hq])
    exact hdis _ (List.mem_filter.mpr ⟨hmem, decide_eq_true hq⟩)
  · obtain ⟨hmem, ho⟩ := List.mem_filter.mp hp
    exact hq p hmem he (of_decide_eq_true ho)

/-! ### Doorbells and the spawn window (R85, R92) -/

theorem exec_commandDoorbell_of_running {k : Word} (hb : s.barsOpen = true) (hr : (s.queue q).mode = .running) :
    exec (.commandDoorbell q k) s = .next (s.setQueue q { s.queue q with sqtail := k.toNat % s.sqSize q }) := by
  change execCommandDoorbell q k s = _
  rw [execCommandDoorbell, hb, if_pos hr]
  rfl

theorem exec_completionDoorbell_of_running {k : Word} (hb : s.barsOpen = true) (hr : (s.queue q).mode = .running) :
    exec (.completionDoorbell q k) s = .next (s.setQueue q { s.queue q with cqhead := k.toNat % s.cqSize q }) := by
  change execCompletionDoorbell q k s = _
  rw [execCompletionDoorbell, hb, if_pos hr]
  rfl

theorem exec_spawnWindowStore_of_open {w : Bool} {b : List Byte} (hb : s.barsOpen = true) (hu : s.unitStopped .queues = false) :
    exec (.spawnWindowStore q w b) s = .next (s.offer q b (w && decide (b.length = 64)) none) := by
  change execSpawnWindowStore q w b s = _
  rw [execSpawnWindowStore, hb, hu]
  rfl

theorem offer_of_accepted {b : List Byte} {ok : Bool} {k : Option Bool} (h : (ok && s.acceptsSpawn q b) = true) :
    s.offer q b ok k = s.setQueue q { s.queue q with
      nextexp := (s.queue q).nextexp + 1, cmds := (s.queue q).cmds ++ [Cmd.mk (s.queue q).nextexp b k 0 .fetched] } := if_pos h

theorem offer_of_rejected {b : List Byte} {ok : Bool} {k : Option Bool} (h : (ok && s.acceptsSpawn q b) = false) :
    s.offer q b ok k = s.setQueue q { s.queue q with rejspawn := (s.queue q).rejspawn + 1 } := if_neg (by simp [h])

end QueueAdministration

section Fetching
variable {s : State} {q pa : Nat} {b : List Byte}

/-! ### Fetching (R87) -/

theorem exec_commandFetch_of (hf : s.mayFetch q = true) (hp : pa = ringPa (s.sqDev q) (s.reg64 (0x200010 + 32 * q)) (64 * (s.queue q).sqhead))
    (hh : s.held pa 64 = false) (hb : b = Memory.read s.mem pa 64) : exec (.commandFetch q) s
      = .next (if cmdSeq b ≠ (s.queue q).nextexp then s.setQueue q { s.queue q with waiting := (s.queue q).waiting ++ [(cmdSeq b, 2, 0)] }
          else s.setQueue q { s.queue q with
            sqhead := ((s.queue q).sqhead + 1) % s.sqSize q, nextexp := (s.queue q).nextexp + 1,
            cmds := (s.queue q).cmds ++ [Cmd.mk (s.queue q).nextexp b none 0 .fetched] }) := by
  subst hb hp
  change execCommandFetch q s = _
  rw [execCommandFetch, hf, if_neg (by decide)]
  dsimp only
  rw [hh]
  exact (apply_ite Host.Outcome.next _ _ _).symm

/-! ### Completions (R88, R89) -/

/-- The bytes of a completion (R88). -/
def completionBytes (seq : Word) (status : Nat) (phase : Bool) (result : Nat) : List Byte :=
  natBytes 4 seq.toNat ++ natBytes 2 status ++ natBytes 2 (b2n phase * 32768) ++ natBytes 8 result

theorem length_completionBytes (seq : Word) (status : Nat) (phase : Bool) (result : Nat) :
    (completionBytes seq status phase result).length = 16 := by simp [completionBytes]

/-- Each field of a completion is read back where R88 puts it. -/
theorem completion_fields {m : Memory} {seq : Word} {status result : Nat} {phase : Bool} {bytes : List Byte} (w : Memory.wf m = true)
    (hb : bytes = completionBytes seq status phase result) : Memory.readLE (Memory.write m pa bytes) pa 4 = seq.toNat ∧
    Memory.readLE (Memory.write m pa bytes) (pa + 4) 2 = status % 65536 ∧
    Memory.readLE (Memory.write m pa bytes) (pa + 6) 2 = (if phase then 32768 else 0) ∧
    Memory.readLE (Memory.write m pa bytes) (pa + 8) 8 = result % 2 ^ 64 := by
  simp only [completionBytes, List.append_assoc] at hb
  refine ⟨?_, ?_, ?_, ?_⟩
  · exact (Memory.readLE_write_field (k := 0) w [] _ (hb.trans (List.nil_append _).symm) rfl).trans (Nat.mod_eq_of_lt seq.isLt)
  · exact Memory.readLE_write_field w (natBytes 4 seq.toNat) _ hb (length_natBytes ..)
  · refine (Memory.readLE_write_field w (natBytes 4 seq.toNat ++ natBytes 2 status) _ (hb.trans (List.append_assoc ..).symm) (by simp)).trans ?_
    cases phase <;> rfl
  · exact Memory.readLE_write_field w (natBytes 4 seq.toNat ++ natBytes 2 status ++ natBytes 2 (b2n phase * 32768)) [] (by simp [hb]) (by simp)

/-- The queue once its oldest completion has been written. -/
def Queue.written (v : Queue) (status : Nat) (rest : List (Word × Nat × Nat)) (tail : Nat) : Queue :=
  { v.stoppedBy status with waiting := rest, cqtail := tail, phase := if tail = 0 then !v.phase else v.phase }

theorem Queue.written_eq (v : Queue) (status : Nat) (rest : List (Word × Nat × Nat)) (tail : Nat) : Queue.written v status rest tail =
    { v with
      waiting := rest, cqtail := tail, phase := if tail = 0 then !v.phase else v.phase,
      errstat := if status = 2 then 2 else v.errstat, fetching := if status = 2 then false else v.fetching,
      mode := if status = 2 ∧ v.mode = .running then .error else v.mode } := by
  unfold Queue.written Queue.stoppedBy
  by_cases h : status = 2
  · simp [h]
  · simp [h]

theorem exec_completionWrite_of {seq : Word} {status result tail : Nat} {rest : List (Word × Nat × Nat)} {bytes : List Byte}
    (hw : (s.queue q).waiting = (seq, status, result) :: rest) (ho : (s.queue q).mode = .orphaned → s.cqDev q = true)
    (ht : tail = ((s.queue q).cqtail + 1) % s.cqSize q) (hroom : tail ≠ (s.queue q).cqhead)
    (hp : pa = ringPa (s.cqDev q) (s.reg64 (0x200018 + 32 * q)) (16 * (s.queue q).cqtail)) (hh : s.held pa 16 = false)
    (hb : bytes = completionBytes seq status (s.queue q).phase result) :
    exec (.completionWrite q) s = .next ((s.store pa bytes).setQueue q (Queue.written (s.queue q) status rest tail)) := by
  subst ht hp hb
  have hd : (decide ((s.queue q).mode = .orphaned) && !s.cqDev q) = false := by
    by_cases h : (s.queue q).mode = .orphaned
    · simp [ho h]
    · simp [h]
  change execCompletionWrite q s = _
  rw [execCompletionWrite, hw]
  dsimp only
  rw [hd, hh, decide_eq_false hroom]
  rfl

theorem completionWrite_writes (hc : Canonical s) {seq : Word} {status result tail : Nat} {rest : List (Word × Nat × Nat)}
    (hw : (s.queue q).waiting = (seq, status, result) :: rest) (ho : (s.queue q).mode = .orphaned → s.cqDev q = true)
    (ht : tail = ((s.queue q).cqtail + 1) % s.cqSize q) (hroom : tail ≠ (s.queue q).cqhead)
    (hp : pa = ringPa (s.cqDev q) (s.reg64 (0x200018 + 32 * q)) (16 * (s.queue q).cqtail)) (hh : s.held pa 16 = false) :
    ∃ t, exec (.completionWrite q) s = .next t ∧
      t.queue q = { s.queue q with
        waiting := rest, cqtail := tail, phase := if tail = 0 then !(s.queue q).phase else (s.queue q).phase,
        errstat := if status = 2 then 2 else (s.queue q).errstat, fetching := if status = 2 then false else (s.queue q).fetching,
        mode := if status = 2 ∧ (s.queue q).mode = .running then .error else (s.queue q).mode } ∧
      t.read pa 4 = seq.toNat ∧ t.read (pa + 4) 2 = status % 65536 ∧ t.read (pa + 6) 2 = (if (s.queue q).phase then 32768 else 0) ∧
      t.read (pa + 8) 8 = result % 2 ^ 64 ∧ ∀ a, a < pa ∨ pa + 16 ≤ a → Memory.get t.mem a = Memory.get s.mem a := by
  obtain ⟨bytes, hb⟩ : ∃ bytes, bytes = completionBytes seq status (s.queue q).phase result := ⟨_, rfl⟩
  have hlen : bytes.length = 16 := hb ▸ length_completionBytes ..
  obtain ⟨hseq, hstatus, hphase, hresult⟩ := completion_fields (pa := pa) hc.mem hb
  exact ⟨_, exec_completionWrite_of hw ho ht hroom hp hh hb, (State.queue_setQueue ..).trans (Queue.written_eq ..), hseq, hstatus, hphase, hresult,
    fun a ha => Memory.get_write_other hc.mem (hlen.symm ▸ ha)⟩

/-! ### lastcomp (R89) -/

theorem Queue.advance_of_incomplete {v : Queue} (h : v.donemap.getLsbD 0 = false) : ∀ n, Queue.advance n v = v
  | 0 => rfl
  | n + 1 => by rw [Queue.advance, h]; rfl

/-- The queue with a command marked as completed. -/
def Queue.marked (v : Queue) (seq : Word) (status result : Nat) : Queue :=
  { v with cmds := v.cmds.filter (fun c => decide (c.seq ≠ seq)), waiting := v.waiting ++ [(seq, status, result)]
           donemap := v.donemap ||| (1#32 <<< (seq - v.lastcomp - 1).toNat) }

theorem Queue.finish_eq_advance (v : Queue) (seq : Word) (status result : Nat) :
    v.finish seq status result = Queue.advance 32 (Queue.marked v seq status result) := rfl

/-- The next command in order moves lastcomp on where no other has completed. -/
theorem Queue.finish_next {v : Queue} {seq : Word} {status result : Nat} (hs : seq = v.lastcomp + 1) (hd : v.donemap = 0) :
    (v.finish seq status result).lastcomp = v.lastcomp + 1 ∧ (v.finish seq status result).donemap = 0 := by
  have hm : (Queue.marked v seq status result).donemap = 1#32 := by
    have hk : seq - v.lastcomp - 1 = 0#32 := by
      rw [hs, BitVec.add_comm, BitVec.add_sub_cancel, BitVec.sub_self]
    change v.donemap ||| (1#32 <<< (seq - v.lastcomp - 1).toNat) = 1#32
    rw [hd, hk]
    rfl
  rw [Queue.finish_eq_advance, Queue.advance, hm, if_pos (by decide), Queue.advance_of_incomplete (by dsimp only; decide)]
  exact ⟨rfl, rfl⟩

/-- A later command is marked, and lastcomp waits for those before it. -/
theorem Queue.finish_later {v : Queue} {seq : Word} {status result k : Nat} (h : v.donemap.getLsbD 0 = false) (hk : 0 < k) (hk' : k < 32)
    (hs : seq = v.lastcomp + 1 + BitVec.ofNat 32 k) :
    (v.finish seq status result).lastcomp = v.lastcomp ∧ (v.finish seq status result).donemap = v.donemap ||| (1#32 <<< k) := by
  have hd : (seq - v.lastcomp - 1).toNat = k := by
    have he : seq - v.lastcomp - 1 = BitVec.ofNat 32 k := by
      rw [hs, BitVec.add_assoc, BitVec.add_comm, BitVec.add_sub_cancel, BitVec.add_comm, BitVec.add_sub_cancel]
    rw [he, BitVec.toNat_ofNat, Nat.mod_eq_of_lt (by omega)]
  have hm : (Queue.marked v seq status result).donemap = v.donemap ||| (1#32 <<< k) := by
    rw [← hd]
    rfl
  have h0 : (v.donemap ||| (1#32 <<< k)).getLsbD 0 = false := by
    rw [BitVec.getLsbD_or, h, BitVec.getLsbD_shiftLeft, decide_eq_true hk]
    simp
  rw [Queue.finish_eq_advance, Queue.advance_of_incomplete (hm ▸ h0)]
  exact ⟨rfl, hm⟩

end Fetching

theorem queueAdministration : QueueAdministration := by
  unfold QueueAdministration
  refine ⟨fun s m q v ho hb hen => ⟨exec_queueEnable_of_ok ho hb hen, exec_queueEnable_of_refused ho hb hen⟩, fun s m q ho i out hi => ?_,
    fun s m q ho hm => ?_, fun s m => endReattach_disables,
    fun s q k hb hr => ⟨exec_commandDoorbell_of_running hb hr, exec_completionDoorbell_of_running hb hr⟩,
    fun s q b hb hu => ⟨fun hl ha => ?_, fun w hw => ?_⟩⟩
  · have hr : ResetOf s q (s.resetQueue q) := resetQueue_spec
    exact ⟨_, exec_of_resets ho hi, rfl, hr.mem, hr.launches, hr.self, hr.others⟩
  · rw [exec_queueAdopt_of_owns ho, if_pos ⟨hm, rfl⟩]
    rfl
  · rw [exec_spawnWindowStore_of_open hb hu, offer_of_accepted (by simp [hl, ha])]
  · rw [exec_spawnWindowStore_of_open hb hu, offer_of_rejected]
    obtain rfl | h | h := hw
    · rfl
    · simp [h]
    · simp [h]

theorem fetchAndCompletion : FetchAndCompletion := by
  unfold FetchAndCompletion
  refine ⟨fun s q pa b hf hp hh hb => ⟨fun h => ?_, fun h => ?_⟩,
    fun s q seq status result rest pa tail hc hw ho ht hroom hp hh => completionWrite_writes hc hw ho ht hroom hp hh,
    fun v seq status result h => ⟨Queue.finish_next, fun k => Queue.finish_later h⟩⟩
  · rw [exec_commandFetch_of hf hp hh hb, if_neg (not_not_intro h)]
  · rw [exec_commandFetch_of hf hp hh hb, if_pos h]

/-- Settles O46: resets by `resetQueue_spec`, a completion's record by `completion_fields`, lastcomp by `Queue.advance_of_incomplete`. -/
theorem queueOperation : Obligations.QueueOperation := ⟨queueAdministration, fetchAndCompletion⟩

end Sys2Proof.Claims
end

section
/-! PROOFS. LAUNCH commands: their start, and their end with the join word (O48). -/
namespace Sys2Proof.Claims
open Sys2Proof.Machine

/-! ### Reading a header needs no queue (R100, R184) -/

/-- The device with other queues and another next number. -/
def requeued (s : State) (n : Nat) (qs : AMap Nat Queue) : State := { s with nextId := n, queues := qs }

section Requeued
variable {s : State} {n asid va : Nat} {qs : AMap Nat Queue}

theorem read_requeued {pa k : Nat} : (requeued s n qs).read pa k = s.read pa k := rfl

theorem entry1_requeued : (requeued s n qs).entry1 asid va = s.entry1 asid va := by
  simp only [State.entry1, read_requeued]
  rfl

theorem entry2_requeued {e : Nat} : (requeued s n qs).entry2 e va = s.entry2 e va := read_requeued

theorem leafBelow_requeued {e : Nat} : (requeued s n qs).leafBelow e va = s.leafBelow e va := by
  rw [State.leafBelow, State.leafBelow, read_requeued]

theorem walk_requeued : (requeued s n qs).walk asid va = s.walk asid va := by
  simp only [State.walk, entry1_requeued, entry2_requeued, leafBelow_requeued]

theorem cachedPointer_requeued {die level : Nat} : (requeued s n qs).cachedPointer die asid level va = s.cachedPointer die asid level va := rfl

theorem walkVia_requeued {die : Nat} : (requeued s n qs).walkVia die asid va = s.walkVia die asid va := by
  simp only [State.walkVia, walk_requeued, entry2_requeued, leafBelow_requeued, cachedPointer_requeued]

theorem cachedLeaf_requeued {w : Walker} : (requeued s n qs).cachedLeaf w asid va = s.cachedLeaf w asid va := rfl

theorem leaf_requeued {w : Walker} : (requeued s n qs).leaf w asid va = s.leaf w asid va := by
  simp only [State.leaf, walkVia_requeued, cachedLeaf_requeued]

theorem grainsMeet_requeued {w : Walker} {l : Nat × Nat} {pa k : Nat} :
    (requeued s n qs).grainsMeet w asid l pa k = s.grainsMeet w asid l pa k := by
  simp only [State.grainsMeet, leaf_requeued]

theorem held_requeued {pa k : Nat} : (requeued s n qs).held pa k = s.held pa k := by
  simp only [State.held, State.heldOther, State.ownedOther, grainsMeet_requeued]
  rfl

theorem headerPart_requeued {k : Nat} : (requeued s n qs).headerPart asid va k = s.headerPart asid va k := by
  simp only [State.headerPart, leaf_requeued, held_requeued]
  rfl

theorem headerAt_requeued : (requeued s n qs).headerAt asid va = s.headerAt asid va := by
  simp only [State.headerAt, headerPart_requeued]

theorem numberCmd_eq {q : Nat} {seq : Word} : ∃ qs, s.numberCmd q seq = requeued s (s.nextId + 1) qs := ⟨_, rfl⟩

theorem headerAt_numberCmd {q : Nat} {seq : Word} : (s.numberCmd q seq).headerAt asid va = s.headerAt asid va := by
  obtain ⟨qs, h⟩ := numberCmd_eq (s := s) (q := q) (seq := seq)
  rw [h, headerAt_requeued]

end Requeued

section Launch
variable {s : State} {q : Nat} {seq : Word} {c : Cmd}

/-! ### Starting a launch (R86, R100, R101) -/

theorem seq_eq_of_cmd? (hc : s.cmd? q seq = some c) : c.seq = seq := eq_of_beq (List.find?_some hc :)

/-- A well-formed LAUNCH that can start is checked for its address space, takes a number, and reads its header. -/
theorem exec_launch_of_starts (hc : s.cmd? q seq = some c) (ho : cmdOp c.bytes = 1) (hs : s.canStart q c = true) (hb : s.cmdBad c.bytes = false) :
    exec (.launch q seq) s = .next (if cmdField c.bytes 14 2 ≠ s.queueAsid q then s.completeLaunch q c 3 0
      else (s.numberCmd q seq).readHeader q { c with number := s.nextId }) := by
  change execLaunch q seq s = _
  rw [execLaunch, hc]
  dsimp only
  rw [if_neg (not_not_intro ho), if_pos hs, hb]
  rfl

theorem readHeader_of_refused (h : s.headerAt (cmdField c.bytes 14 2) (cmdField c.bytes 8 6) = .refused) :
    s.readHeader q c = s.finish q c.seq 1 0 := by
  rw [State.readHeader, h]

theorem readHeader_of_ok {b : List Byte} (h : s.headerAt (cmdField c.bytes 14 2) (cmdField c.bytes 8 6) = .ok b []) :
    s.readHeader q c = s.startLaunch q c b := by
  rw [State.readHeader, h]

theorem startLaunch_of_unparsed {b : List Byte} (h : parseHeader b = none) : s.startLaunch q c b = s.completeLaunch q c 4 0 := by
  rw [State.startLaunch, h]

section Parsed
variable {b : List Byte} {h : Header}

theorem startLaunch_of_not_accepted (hp : parseHeader b = some h)
    (ha : h.accepted (cmdField c.bytes 14 2) (cmdField c.bytes 56 2) (cmdField c.bytes 58 2) (cmdField c.bytes 60 2) = false) :
    s.startLaunch q c b = s.completeLaunch q c 4 0 := by
  rw [State.startLaunch, hp]
  dsimp only
  rw [ha]
  rfl

/-- The launch that a LAUNCH with an accepted header becomes (R101). -/
def readyLaunch (q : Nat) (c : Cmd) (h : Header) : Launch :=
  { queue := q, seq := c.seq, asid := cmdField c.bytes 14 2, entry := cmdField c.bytes 8 6, header := h
    words := (List.range 8).map (fun i => BitVec.ofNat 32 (cmdField c.bytes (16 + 4 * i) 4))
    gx := cmdField c.bytes 56 2, gy := cmdField c.bytes 58 2, gz := cmdField c.bytes 60 2, next := 0, returned := [], ended := 0, faulted := 0 }

theorem startLaunch_of_accepted (hp : parseHeader b = some h)
    (ha : h.accepted (cmdField c.bytes 14 2) (cmdField c.bytes 56 2) (cmdField c.bytes 58 2) (cmdField c.bytes 60 2) = true) :
    s.startLaunch q c b
      = ({ s with launches := insertLaunch c.number (readyLaunch q c h) s.launches } : State).setCmd q c.seq .running := by
  rw [State.startLaunch, hp]
  dsimp only
  rw [ha]
  rfl

end Parsed

/-- A LAUNCH of its queue's address space reads its header with its number taken. -/
theorem exec_launch_of_asid (hc : s.cmd? q seq = some c) (ho : cmdOp c.bytes = 1) (hs : s.canStart q c = true) (hb : s.cmdBad c.bytes = false)
    (ha : cmdField c.bytes 14 2 = s.queueAsid q) :
    exec (.launch q seq) s = .next ((s.numberCmd q seq).readHeader q { c with number := s.nextId }) := by
  rw [exec_launch_of_starts hc ho hs hb, if_neg (not_not_intro ha)]

/-- With a header that can be read, it goes on to the header's content. -/
theorem exec_launch_of_header (hc : s.cmd? q seq = some c) (ho : cmdOp c.bytes = 1) (hs : s.canStart q c = true) (hb : s.cmdBad c.bytes = false)
    (ha : cmdField c.bytes 14 2 = s.queueAsid q) {b : List Byte} (hh : s.headerAt (cmdField c.bytes 14 2) (cmdField c.bytes 8 6) = .ok b []) :
    exec (.launch q seq) s = .next ((s.numberCmd q seq).startLaunch q { c with number := s.nextId } b) := by
  rw [exec_launch_of_asid hc ho hs hb ha, readHeader_of_ok (c := { c with number := s.nextId }) (headerAt_numberCmd.trans hh)]

/-! ### The end of a launch (R87, R93) -/

section Complete
variable {n : Nat} {l : Launch} {status result : Nat}

theorem exec_launchComplete_of (hc : s.cmd? q seq = some c) (hr : c.state = .running) (hl : s.launchOfCmd q seq = some (n, l)) :
    exec (.launchComplete q seq) s = .next (if l.ended = l.gx * l.gy * l.gz ∧ s.launchStored n then
      ({ s with launches := AMap.erase s.launches n } : State).completeLaunch q c (if l.faulted = 0 then 0 else 5) l.faulted else s) := by
  change execLaunchComplete q seq s = _
  rw [execLaunchComplete, hc]
  dsimp only
  rw [hr, hl]

theorem exec_launchComplete_of_ended (hc : s.cmd? q seq = some c) (hr : c.state = .running) (hl : s.launchOfCmd q seq = some (n, l))
    (he : l.ended = l.gx * l.gy * l.gz) (hst : s.launchStored n = true) {u : State} (hu : u = { s with launches := AMap.erase s.launches n })
    (hs : status = if l.faulted = 0 then 0 else 5) : exec (.launchComplete q seq) s = .next (u.completeLaunch q c status l.faulted) := by
  rw [exec_launchComplete_of hc hr hl, if_pos (And.intro he hst), hu, hs]

theorem completeLaunch_of_none (h : s.joinAt q c status = .none) : s.completeLaunch q c status result = s.finish q c.seq status result := by
  rw [State.completeLaunch, h]

theorem completeLaunch_of_count (h : s.joinAt q c status = .count) :
    s.completeLaunch q c status result = (s.count 0x10A8).finish q c.seq status result := by
  rw [State.completeLaunch, h]

theorem completeLaunch_of_add {pa : Nat} (h : s.joinAt q c status = .add pa) : s.completeLaunch q c status result
    = (s.storeFrom { Origin.device with rmw := true } pa (natBytes 8 ((s.read pa 8 + 1) % 2 ^ 64))).finish q c.seq status result := by
  rw [State.completeLaunch, h]

end Complete
end Launch

/-- Settles O48: the checks of a start in their order by `exec_launch_of_starts` and `startLaunch`, the end by the cases of `completeLaunch`. -/
theorem launches : Obligations.Launches := by
  unfold Obligations.Launches
  refine ⟨fun s q seq c hc ho hs hb => ⟨fun ha => ?_, fun ha hh => ?_, fun b ha hh => ⟨fun hp => ?_, fun h hp hacc => ?_, fun h hp hacc => ?_⟩⟩,
    ?_, fun s q seq c n l hc hr hl h => ?_⟩
  · rw [exec_launch_of_starts hc ho hs hb, if_pos ha]
  · rw [exec_launch_of_asid hc ho hs hb ha, readHeader_of_refused (c := { c with number := s.nextId }) (headerAt_numberCmd.trans hh), ← seq_eq_of_cmd? hc]
  · rw [exec_launch_of_header hc ho hs hb ha hh, startLaunch_of_unparsed hp]
  · rw [exec_launch_of_header hc ho hs hb ha hh, startLaunch_of_not_accepted (c := { c with number := s.nextId }) hp hacc]
  · rw [exec_launch_of_header hc ho hs hb ha hh, startLaunch_of_accepted (c := { c with number := s.nextId }) hp hacc]
    exact ⟨_, readyLaunch q { c with number := s.nextId } h, rfl, rfl, rfl, rfl, rfl, rfl, rfl, rfl, rfl, rfl, rfl, rfl, rfl⟩
  · intro s q seq c n l u status hc hr hl he hst hu hs
    rw [exec_launchComplete_of_ended hc hr hl he hst hu hs]
    exact ⟨fun h => by rw [completeLaunch_of_none h], fun h => by rw [completeLaunch_of_count h], fun pa h => by rw [completeLaunch_of_add h]⟩
  · rw [exec_launchComplete_of hc hr hl, if_neg]
    rintro ⟨he, hst⟩
    exact h.elim (fun hne => hne he) (fun hf => Bool.false_ne_true (hf.symm.trans hst))

end Sys2Proof.Claims
end

section
/-! PROOFS. A step executes what the gang has fetched (O3). -/
namespace Sys2Proof.Claims
open Sys2Proof.Machine

/-! ### The start of a turn (R108, R109, R127) -/

section Begin
variable {s u : State} {g : GroupId} {turns : List (Nat × List Nat)}

/-- A fold keeps what each of its steps keeps. -/
theorem OnlySets.foldl {α : Type} {f : State → α → State} (hf : ∀ r a, OnlySets r (f r a)) :
    ∀ {l : List α} {s : State}, OnlySets s (l.foldl f s)
  | [], _ => .refl
  | a :: _, s => (hf s a).trans (OnlySets.foldl hf)

theorem OnlySets.countIssue : OnlySets s (s.countIssue g) :=
  OnlySets.modGroup.trans (.foldl fun _ _ => .modGroup)

theorem beginTurn_eq (s : State) (g : GroupId) (turns : List (Nat × List Nat)) (x : Bool) :
    ∃ cores groups issue stamp, s.beginTurn g turns x = { s with cores := cores, groups := groups, issue := issue, stamp := stamp } := by
  have h : OnlySets s ((turns.foldl (fun r p => r.serve g p.1 p.2) s).tookTurn g) :=
    (OnlySets.foldl fun _ _ => .modGroup).trans .modGroup
  unfold State.beginTurn
  dsimp only
  split
  · obtain ⟨cores, groups, hc⟩ := h.trans (.countIssue (g := g))
    rw [hc]
    exact ⟨cores, groups, _, _, rfl⟩
  · obtain ⟨cores, groups, hc⟩ := h
    exact ⟨cores, groups, s.issue, s.stamp, hc⟩

theorem thread?_beginTurn {x : Bool} (i : ThreadId) : (s.beginTurn g turns x).thread? i = s.thread? i := by
  obtain ⟨_, _, _, _, h⟩ := beginTurn_eq s g turns x
  rw [h]
  rfl

end Begin

/-! ### The members of a gang (R126 to R128) -/

/-- The members of a turn of a slice are ready members of it that stand at one pc. -/
theorem exists_pc_sliceTurn (u : State) (g : GroupId) (k : Nat) : ∃ pc, ∀ i ∈ u.sliceTurn g k, i ∈ u.sliceReady g k ∧ u.pcOf g i = pc := by
  unfold State.sliceTurn
  dsimp only
  split
  · exact ⟨0, fun _ h => absurd h List.not_mem_nil⟩
  next i _ _ => exact ⟨u.pcOf g i, fun j h => by simpa using h⟩

/-- The turns of a gang are turns of slices, whose first members stand at one pc. -/
theorem exists_pc_gangTurn (u : State) (g : GroupId) (slices : List Nat) :
    ∃ pc, ∀ p ∈ u.gangTurn g slices, p.2 = u.sliceTurn g p.1 ∧ u.pcOf g (p.2.headD 0) = pc := by
  unfold State.gangTurn
  dsimp only
  split
  · exact ⟨0, fun _ h => absurd h List.not_mem_nil⟩
  next l _ he =>
    refine ⟨u.pcOf g (l.headD 0), fun p h => ?_⟩
    obtain ⟨hp, hpc⟩ := List.mem_filter.mp h
    obtain ⟨k, _, rfl⟩ := List.mem_map.mp (List.mem_filter.mp hp).1
    exact ⟨rfl, of_decide_eq_true hpc⟩

/-- All members of a gang are ready members of their slices, at one pc. -/
theorem exists_pc_gang (u : State) (g : GroupId) (slices : List Nat) :
    ∃ pc, ∀ p ∈ u.gangTurn g slices, ∀ i ∈ p.2, i ∈ u.sliceReady g p.1 ∧ u.pcOf g i = pc := by
  obtain ⟨pc, hpc⟩ := exists_pc_gangTurn u g slices
  refine ⟨pc, fun p hp i hi => ?_⟩
  obtain ⟨hturn, hhead⟩ := hpc p hp
  obtain ⟨c, hc⟩ := exists_pc_sliceTurn u g p.1
  rw [← hturn] at hc
  obtain ⟨x, r, hx⟩ := List.exists_cons_of_ne_nil (List.ne_nil_of_mem hi)
  have hx : p.2.headD 0 ∈ p.2 := by rw [hx]; exact List.mem_cons_self
  exact ⟨(hc i hi).1, (hc i hi).2.trans ((hc _ hx).2.symm.trans hhead)⟩

/-! ### The turn of a gang (R126, R308) -/

section Turn
variable {s u : State} {g : GroupId} {slices : List Nat} {id : ThreadId} {t : Thread} {w : Word}

theorem memberTurn_of_running {r : FetchResult} (ht : u.thread? id = some t) (hw : t.wait ≠ .done) :
    memberTurn id r u = issueFetched t r { u with cur := id } := by
  have h : ({ u with cur := id } : State).thread? id = some t := ht
  rw [memberTurn, h]
  exact if_neg hw

theorem memberTurn_of_done {r : FetchResult} (ht : u.thread? id = some t) (hw : t.wait = .done) :
    memberTurn id r u = .next (({ u with cur := id } : State).release id t) := by
  have h : ({ u with cur := id } : State).thread? id = some t := ht
  rw [memberTurn, h]
  exact if_pos hw

theorem membersTurn_cons {r : FetchResult} {rest : List (ThreadId × FetchResult)} {v : State} (h : memberTurn id r u = .next v) :
    membersTurn ((id, r) :: rest) u = membersTurn rest v := by
  rw [membersTurn, h]

theorem issueFetched_of_decode {k : Instr} (h : decodeWord w = some k) : issueFetched t (.word w) u = exec k u := by
  rw [issueFetched, decodeFetched, h]

theorem issueFetched_of_illegal (h : decodeWord w = none) (hw : w.extractLsb' 25 7 ≠ 0x3E) : issueFetched t (.word w) u = illegalWord w u := by
  rw [issueFetched, decodeFetched, h]
  dsimp only
  rw [if_neg (by simpa using hw)]

theorem issueFetched_of_badHint (h : decodeWord w = none) (hw : w.extractLsb' 25 7 = 0x3E) : issueFetched t (.word w) u = hintWord .bad u := by
  rw [issueFetched, decodeFetched, h]
  dsimp only
  rw [if_pos (by simpa using hw)]

/-- A gang that stands somewhere begins its turn, and its members take their parts. -/
theorem gangStep_of_turn (h : u.gangTurn g slices ≠ []) {parts : List (ThreadId × FetchResult)}
    (hp : parts = (gangMembers (u.gangTurn g slices)).map (fun i => (memberOf g i, u.fetchFor (memberOf g i)))) :
    gangStep g slices u = membersTurn parts (u.beginTurn g (u.gangTurn g slices) (parts.any (fun p => p.2.isWord))) := by
  rw [hp, gangStep]
  exact if_neg (by simpa using h)

theorem gangStep_of_nil (h : u.gangTurn g slices = []) : gangStep g slices u = .next u := by
  rw [gangStep, h]
  rfl

/-- The gang of one member issues the word that it fetched. -/
theorem gangStep_of_one {i : Nat} (hm : gangMembers (u.gangTurn g slices) = [i]) (hid : id = memberOf g i) (ht : u.thread? id = some t)
    (hw : t.wait ≠ .done) (hf : u.fetch id t = .word w) {r : State}
    (hr : issueFetched t (.word w) { u.beginTurn g (u.gangTurn g slices) true with cur := id } = .next r) :
    gangStep g slices u = .next r := by
  have hne : u.gangTurn g slices ≠ [] := fun h => by
    rw [h] at hm
    cases hm
  have hfetch : u.fetchFor id = .word w := by
    rw [State.fetchFor, ht]
    exact (if_neg hw).trans hf
  rw [gangStep_of_turn hne rfl, hm, List.map_singleton, ← hid, hfetch]
  refine (membersTurn_cons (v := r) ?_).trans rfl
  rw [memberTurn_of_running ((thread?_beginTurn id).trans ht) hw]
  exact hr

end Turn

/-! ### A step (log entry 1) -/

section Step
variable {s u r : State} {g : GroupId} {slices : List Nat}

theorem step_of_agenda {a : Turn} {rest : List Turn} (ha : s.agenda = a :: rest) (h : takeTurn a { s with agenda := rest } = .next r) :
    step s = .next (settled r) := by
  rw [step, ha]
  dsimp only
  rw [h]
  rfl

/-- A step that is the turn of slices is what their gang does. -/
theorem step_of_gangStep (ht : TurnOf s u g slices) (h : gangStep g slices u = .next r) : step s = .next (settled r) := by
  obtain ⟨id, rest, ha, rfl, rfl, rfl⟩ | ⟨rest, ha, rfl⟩ := ht
  · obtain ⟨ha, rfl, rfl⟩ | ha := ha
    · have hs : ({ s with agenda := [], cur := s.cur } : State) = { s with cur := s.cur } := by rw [← ha]
      rw [hs] at h
      rw [step, ha]
      dsimp only
      rw [takeTurn, h]
      rfl
    · exact step_of_agenda ha h
  · exact step_of_agenda ha h

end Step

theorem fetch_of_ok {u : State} {id : ThreadId} {t : Thread} {pa e : Nat} (hi : u.mayIssue id t = true)
    (ht : u.translate (.core id.core) (u.asidOf id.teamId) t.pc.toNat .fetch t.kernel = .ok pa e) (hp : bits e 13 13 ≠ 1)
    (hh : u.held pa 4 = false) : u.fetch id t = .word (BitVec.ofNat 32 (u.read pa 4)) := by
  rw [State.fetch, hi, ht]
  dsimp only
  rw [if_neg hp, hh]
  rfl

/-- Settles O3: a step is what its gang does by `step_of_gangStep`, and a gang of one member issues its word by `gangStep_of_one`. -/
theorem stepRunsDecoded : Obligations.StepRunsDecoded := by
  unfold Obligations.StepRunsDecoded
  refine ⟨?_, ?_, fun s u g slices ht hn => step_of_gangStep ht (gangStep_of_nil hn), fun u id r rest v h => membersTurn_cons h,
    fun u id t w k ht hw hk => (memberTurn_of_running ht hw).trans (issueFetched_of_decode hk),
    fun u id t r ht hw => memberTurn_of_done ht hw, fun u g slices p q i j hp hq hi hj => ?_,
    fun u id t pa e hi ht hp hh => fetch_of_ok hi ht hp hh, fun u g turns x => ?_, fun s i rest r ha he hw hr => ?_,
    fun s k n rest ha => step_of_agenda ha rfl⟩
  · rintro s u g slices i id t w b turns hturn rfl hm hid ht hw hf rfl
    have run {r} (hr : issueFetched t (.word w) _ = .next r) : step s = .next (settled r) :=
      step_of_gangStep hturn (gangStep_of_one hm hid ht hw hf hr)
    exact ⟨fun k r hk hr => run ((issueFetched_of_decode hk).trans hr), fun r hd hn hr => run ((issueFetched_of_illegal hd hn).trans hr),
      fun r hd hn hr => run ((issueFetched_of_badHint hd hn).trans hr)⟩
  · rintro s u g slices turns parts r hturn rfl hne hp hr
    exact step_of_gangStep hturn ((gangStep_of_turn hne hp).trans hr)
  · obtain ⟨pc, hpc⟩ := exists_pc_gang u g slices
    exact ⟨(hpc p hp i hi).2.trans (hpc q hq j hj).2.symm, (hpc p hp i hi).1⟩
  · obtain ⟨_, _, _, _, h⟩ := beginTurn_eq u g turns x
    rw [h]
    exact ⟨rfl, rfl, rfl, rfl⟩
  · refine step_of_agenda ha ?_
    rw [takeTurn, he, hw]
    exact hr

end Sys2Proof.Claims
end

section
/-! PROOFS. Hint words, and the control of threads (O21). -/
namespace Sys2Proof.Machine

theorem Ctx.Reads.refl {c : Ctx} : c.Reads c := ⟨.refl c, rfl⟩

end Sys2Proof.Machine

namespace Sys2Proof.Claims
open Sys2Proof.Machine

/-! ### How an issue without operands ends -/

section Ends
variable {s : State} {v : Thread} {word : Word} {acc : Accepts} {sw : Bool} {body : Issue Unit} {post : State → State} {c : Ctx}

/-- An instruction without operands retires. -/
theorem issue_retires (hi : Issues s word sw v) (hc : Clean (begin s v word acc))
    (hb : body (begin s v word acc) = ((), begin s v word acc)) :
    issue word sw acc body post s = .next (post ((begin s v word acc).retired v.stepping)) := by
  obtain ⟨u, hu, hi⟩ := hi
  obtain ⟨hflag, hstall, hstarve⟩ := hc
  rw [issue_of hu hi, State.runBody_retires hb hflag hstall hstarve rfl rfl rfl]

/-- An instruction without operands raises its own fault, where no accesses are outstanding and no pending cause comes first. -/
theorem issue_faults {x : Cause} {val : Dword} (hi : Issues s word sw v) (hc : Clean (begin s v word acc))
    (hb : body (begin s v word acc) = ((), (begin s v word acc).raise x val)) (hl : v.log = []) (hd : s.deliver s.cur v = none) :
    issue word sw acc body post s = .next (s.trap s.cur v x.code val) := by
  obtain ⟨u, hu, hi⟩ := hi
  obtain ⟨hflag, _, hstarve⟩ := hc
  rw [Ctx.raise, hflag] at hb
  rw [issue_of hu hi, State.runBody_faults hb rfl hstarve hl hd]
  rfl

/-- An instruction that stalls leaves its thread as it is, with what happens to the device regardless. -/
theorem issue_stalls (hi : Issues s word sw v) (hb : body (begin s v word acc) = ((), c)) (hf : c.flag = none) (hv : c.starve = false)
    (hs : c.stall = true) : issue word sw acc body post s = .next ((c.always s).setThread s.cur v) := by
  obtain ⟨u, hu, hi⟩ := hi
  have hb : body (Ctx.start s s.cur v word acc) = ((), c) := hb
  rw [issue_of hu hi, State.runBody]
  simp [hb, hf, hv, hs]

end Ends

/-! ### Hint words (R251, R252) -/

theorem hintWord_of_issues {s : State} {u : Thread} (h : Hint) (hu : s.thread? s.cur = some u) (hw : u.wait.issues = true) :
    hintWord h s
      = .next (s.setThread s.cur { u with hints := u.hints ++ [h], pc := u.pc + 4, nret := u.nret + 1, wait := .run }) := by
  rw [hintWord, hu]
  dsimp only
  rw [if_pos hw]

theorem hintWords : HintWords := by
  rintro s u hu hw i h (⟨p, rfl, rfl⟩ | ⟨p, rfl, rfl⟩ | ⟨c, rfl, rfl⟩ | ⟨o, p, r, rfl, rfl⟩ | ⟨z, b, a, rfl, rfl⟩ | ⟨e, rfl, rfl⟩) <;>
    exact hintWord_of_issues _ hu hw

/-! ### park, brk and exit (R223, R299) -/

section Control
variable {s : State} {v : Thread} {w : BitVec 1} {c : Ctx}

theorem bodyPark_of_zero {n : BitVec 16} (h : c.hs.immU n.toNat 16 = 0) : bodyPark n c = ((), c) := by
  rw [bodyPark, bind_of get_eq, if_neg (not_not_intro h)]
  rfl

theorem bodyPark_of_ne_zero {n : BitVec 16} (h : c.hs.immU n.toNat 16 ≠ 0) :
    bodyPark n c = ((), { c with park := some (.park (c.s.ncyc c.id.teamId + c.hs.immU n.toNat 16)) }) := by
  rw [bodyPark, bind_of get_eq, if_pos h]
  rfl

theorem bodyBrk_of_not_catching {n : BitVec 20} (h : c.s.catching c.id = false) : bodyBrk n c = ((), c.raise .breakpoint (n.setWidth 64)) := by
  rw [bodyBrk, bind_of get_eq, h]
  rfl

theorem bodyBrk_of_catching {n : BitVec 20} (h : c.s.catching c.id = true) (hl : c.th.log = []) :
    bodyBrk n c = ((), { c with park := some .run }) := by
  rw [bodyBrk, bind_of get_eq, h, hl]
  rfl

/-- What a caught `brk` does to the device (R223, R225). -/
theorem catchHalt_of_catching {id : ThreadId} (h : s.catching id = true) : s.catchHalt id =
    { s.modGroup id.group (fun g => { g with halted := true }) with
      dbg := if s.dbg.target = some id.group then { s.dbg with stepping := s.dbg.stepping.filter (fun m => decide (m.1 ≠ id.mem)) } else s.dbg } :=
  if_pos h

theorem exec_brk_of_catching {n : BitVec 20} (hi : Issues s (Enc.brk w n) false v) (hc : Clean (begin s v (Enc.brk w n) .nothing))
    (hl : v.log = []) (h : s.catching s.cur = true) :
    exec (.brk w n) s = .next ((s.setThread s.cur { v with wait := .run }).catchHalt s.cur) :=
  issue_parks hi .refl hc (bodyBrk_of_catching h hl)

theorem bodyExit_of_stored (h : c.s.storesLeft c.id c.th = false) :
    bodyExit c = ((), { c with th := { c.th with nret := c.th.nret + 1 }, park := some .exited }) := by
  rw [bodyExit, bind_of get_eq, h]
  rfl

theorem bodyExit_of_storesLeft (h : c.s.storesLeft c.id c.th = true) :
    bodyExit c = ((), { c with th := { c.th with nret := c.th.nret + 1 }, park := some .exited, stall := true
                               always := fun s => s.landAll c.id c.th }) := by
  rw [bodyExit, bind_of get_eq, h]
  rfl

end Control

theorem threadControl : ThreadControl := by
  refine ⟨fun s v w hi hc => issue_retires hi hc rfl, fun s v w hi hc => issue_retires hi hc rfl,
    fun s v w n hi hc => ⟨fun h => issue_retires hi hc (bodyPark_of_zero h), fun h => issue_parks hi .refl hc (bodyPark_of_ne_zero h)⟩,
    fun s v w n hi hc hl => ⟨fun h hd => issue_faults hi hc (bodyBrk_of_not_catching h) hl hd, ?_⟩⟩
  rintro h r rfl
  exact (exec_brk_of_catching hi hc hl h).trans (congrArg Host.Outcome.next (catchHalt_of_catching h))

theorem exitRemoves : ExitRemoves := by
  intro s v w hi hc
  obtain ⟨hflag, hstall, hstarve⟩ := hc
  refine ⟨fun h => ?_, fun h => issue_stalls hi (bodyExit_of_storesLeft h) hflag hstarve rfl⟩
  obtain ⟨u, hu, hi⟩ := hi
  refine (issue_of hu hi).trans ?_
  rw [State.runBody_parks (bodyExit_of_stored h) hflag hstall hstarve rfl rfl rfl]
  rfl

/-- Settles O21: what each word issues as, and how its issue ends (`issue_retires`, `issue_parks`, `issue_faults`, `issue_stalls`). -/
theorem hintsAndThreadControl : Obligations.HintsAndThreadControl := ⟨hintWords, threadControl, exitRemoves⟩

end Sys2Proof.Claims
end

section
/-! PROOFS. Decisions of the scheduler, and the threads of a group that starts (O49). -/
namespace Sys2Proof.Machine

theorem AMap.getD_set {α β : Type} [DecidableEq α] (m : AMap α β) (a c : α) (b d : β) :
    AMap.getD (AMap.set m a b) c d = if c = a then b else AMap.getD m c d := by
  unfold AMap.getD
  split
  next h => rw [h, AMap.get?_set_self]; rfl
  next h => rw [AMap.get?_set_other m b h]

theorem bits_lt (v hi lo : Nat) : bits v hi lo < 2 ^ (hi + 1 - lo) := Nat.mod_lt _ (Nat.two_pow_pos _)

end Sys2Proof.Machine

namespace Sys2Proof.Claims
open Sys2Proof.Machine

/-! ### The withdrawal map (R102) -/

/-- What a copied map leaves behind. -/
def mapCopied (s : State) (v : Dword) : State :=
  { s with mgmt := Memory.writeLE s.mgmt 0x280010 8 (bits v.toNat 63 63 * 2 ^ 63 + bits v.toNat 47 0)
           withdrawn := if bits v.toNat 63 63 = 1 then mapMembers (Memory.read s.mem (bits v.toNat 47 6 * 64) 512) else [] }

theorem exec_pmapWrite {s : State} {m : Nat} {v : Dword} (h : Owns s m) : exec (.pmapWrite m v) s = .next (mapCopied s v) :=
  congrArg Host.Outcome.next (byOwner_of_owns _ h)

theorem reg64_mapCopied {s : State} (h : Canonical s) (v : Dword) :
    (mapCopied s v).reg64 0x280010 = bits v.toNat 63 63 * 2 ^ 63 + bits v.toNat 47 0 := by
  have hen := bits_lt v.toNat 63 63
  have hpa := bits_lt v.toNat 47 0
  exact (Memory.readLE_writeLE h.mgmt _ _ _).trans (Nat.mod_eq_of_lt (by omega))

/-! ### The deficit round robin (R106) -/

section RoundRobin
variable {cost weight : Nat → Nat} {qs : List Nat}

theorem roundRobin_of_paid {defs : AMap Nat Nat} {fuel cur : Nat} (hq : cur ∈ qs) (hc : cost cur ≤ AMap.getD defs cur 0) :
    roundRobin cost weight qs (fuel + 1) defs cur = some (cur, AMap.set defs cur (AMap.getD defs cur 0 - cost cur), cur) := by
  rw [roundRobin, if_pos ⟨List.contains_iff_mem.mpr hq, hc⟩]

theorem roundRobin_of_unpaid {defs : AMap Nat Nat} {fuel cur : Nat} (h : cur ∉ qs ∨ AMap.getD defs cur 0 < cost cur) :
    roundRobin cost weight qs (fuel + 1) defs cur = roundRobin cost weight qs fuel
      (AMap.set defs (nextAfter cur qs) (AMap.getD defs (nextAfter cur qs) 0 + weight (nextAfter cur qs))) (nextAfter cur qs) := by
  rw [roundRobin, if_neg]
  rintro ⟨hq, hc⟩
  exact h.elim (fun hn => hn (List.contains_iff_mem.mp hq)) (fun hl => Nat.not_le.mpr hl hc)

/-- What the round robin leaves of each deficit: all that the queue had and gained, less the cost of the one dispatched. -/
def Settles (cost weight : Nat → Nat) (defs d : AMap Nat Nat) (q : Nat) : Prop :=
  (∃ visits, AMap.getD d q 0 + cost q = AMap.getD defs q 0 + visits * weight q) ∧
  (∀ x, x ≠ q → ∃ visits, AMap.getD d x 0 = AMap.getD defs x 0 + visits * weight x)

theorem Settles.of_paid {defs : AMap Nat Nat} {q : Nat} (hc : cost q ≤ AMap.getD defs q 0) :
    Settles cost weight defs (AMap.set defs q (AMap.getD defs q 0 - cost q)) q := by
  refine ⟨⟨0, ?_⟩, fun x hx => ⟨0, ?_⟩⟩
  · rw [AMap.getD_set, if_pos rfl]
    omega
  · rw [AMap.getD_set, if_neg hx]
    omega

/-- A queue that gains its weight has one visit more. -/
theorem Settles.of_visit {defs d : AMap Nat Nat} {n q : Nat} (h : Settles cost weight (AMap.set defs n (AMap.getD defs n 0 + weight n)) d q) :
    Settles cost weight defs d q := by
  have gain (x k : Nat) : ∃ visits, AMap.getD (AMap.set defs n (AMap.getD defs n 0 + weight n)) x 0 + k * weight x
      = AMap.getD defs x 0 + visits * weight x := by
    rw [AMap.getD_set]
    split
    next hx => exact ⟨k + 1, by rw [hx, Nat.add_mul, Nat.one_mul]; omega⟩
    next => exact ⟨k, rfl⟩
  obtain ⟨⟨k, hk⟩, ho⟩ := h
  refine ⟨hk ▸ gain q k, fun x hx => ?_⟩
  obtain ⟨k, hk⟩ := ho x hx
  exact hk ▸ gain x k

/-- The round robin ends at a queue of its list, which is its cursor, with every deficit settled. -/
theorem roundRobin_settles {fuel : Nat} : ∀ {defs d : AMap Nat Nat} {cur q c : Nat}, roundRobin cost weight qs fuel defs cur = some (q, d, c) →
    c = q ∧ q ∈ qs ∧ Settles cost weight defs d q := by
  induction fuel with
  | zero =>
    intro _ _ _ _ _ h
    cases h
  | succ fuel ih =>
    intro defs d cur q c h
    by_cases hp : cur ∈ qs ∧ cost cur ≤ AMap.getD defs cur 0
    · rw [roundRobin_of_paid hp.1 hp.2] at h
      cases h
      exact ⟨rfl, hp.1, .of_paid hp.2⟩
    · rw [roundRobin_of_unpaid ((Decidable.not_and_iff_not_or_not.mp hp).imp_right Nat.not_le.mp)] at h
      obtain ⟨hc, hq, hs⟩ := ih h
      exact ⟨hc, hq, hs.of_visit⟩

end RoundRobin

/-! ### Queues without a ready cluster (R106) -/

section Deficits
variable {s : State} {q : Nat} {v : Queue}

/-- What becomes of a queue where those without a ready cluster lose their deficit. -/
def withoutIdleDeficit (s : State) (q : Nat) (v : Queue) : Queue := if s.readyQueues.contains q then v else { v with deficit := 0 }

theorem cmds_withoutIdleDeficit : (withoutIdleDeficit s q v).cmds = v.cmds := by
  unfold withoutIdleDeficit
  split <;> rfl

theorem get?_queues_zeroDeficits : AMap.get? s.zeroDeficits.queues q = (AMap.get? s.queues q).map (withoutIdleDeficit s q) := by
  have h : s.zeroDeficits.queues = s.queues.map (fun p => (p.1, withoutIdleDeficit s p.1 p.2)) :=
    List.map_congr_left fun p _ => by unfold withoutIdleDeficit; split <;> rfl
  rw [h]
  exact AMap.get?_map_values (withoutIdleDeficit s) s.queues q

theorem cmds_zeroDeficits : (s.zeroDeficits.queue q).cmds = (s.queue q).cmds := by
  rw [State.queue, State.queue, AMap.getD, AMap.getD, get?_queues_zeroDeficits]
  cases AMap.get? s.queues q with
  | none => rfl
  | some v => exact cmds_withoutIdleDeficit

theorem olderUnread_zeroDeficits {n : Nat} : s.zeroDeficits.olderUnread q n = s.olderUnread q n := by
  rw [State.olderUnread, cmds_zeroDeficits]
  rfl

theorem nextOf_zeroDeficits : s.zeroDeficits.nextOf q = s.nextOf q := by
  have hs : s.zeroDeficits.nextSaved q = s.nextSaved q := rfl
  rw [State.nextOf, State.nextOf, hs]
  simp only [olderUnread_zeroDeficits]
  rfl

theorem readyQueues_zeroDeficits : s.zeroDeficits.readyQueues = s.readyQueues := by
  rw [State.readyQueues, State.readyQueues]
  simp only [nextOf_zeroDeficits]
  rfl

theorem deficit_eq_zero (h : AMap.get? s.zeroDeficits.queues q = some v) (hq : q ∉ s.zeroDeficits.readyQueues) : v.deficit = 0 := by
  rw [readyQueues_zeroDeficits] at hq
  rw [get?_queues_zeroDeficits] at h
  obtain ⟨w, -, rfl⟩ := Option.map_eq_some_iff.mp h
  rw [withoutIdleDeficit, if_neg (by simpa using hq)]

end Deficits

/-! ### A decision (R101, R104 to R107) -/

section Decision
variable {s b : State} {q : Nat} {pos : AMap Nat (Nat × List Nat)}

theorem exec_dispatchDecision (h : s.unitStopped .queues = false) : exec .dispatchDecision s = .next s.dispatchOne.zeroDeficits := by
  change execDispatchDecision s = _
  rw [execDispatchDecision, h]
  rfl

theorem exec_dispatchDecision_of_stopped (h : s.unitStopped .queues = true) : exec .dispatchDecision s = .next s := by
  change execDispatchDecision s = _
  rw [execDispatchDecision, h]
  rfl

theorem dispatchOne_of_promoted (hb : b = s.beforeDecision) (h : b.promoted.find? (fun q => b.readyQueues.contains q) = some q)
    (hp : b.placeOf q = some pos) : s.dispatchOne = b.dispatch q pos b.readyQueues := by
  subst hb
  rw [State.dispatchOne]
  dsimp only
  rw [h]
  dsimp only
  rw [hp]

theorem dispatchOne_of_choice (hb : b = s.beforeDecision) {h : Nat} {hr : AMap Nat Nat × Nat × Nat} {defs : AMap Nat Nat} {cur p : Nat}
    (hn : b.promoted.find? (fun q => b.readyQueues.contains q) = none) (hh : b.choose b.readyQueues = some (h, hr))
    (hi : (b.placeOf h).isSome = true) (hc : b.choose (b.readyQueues.filter (fun q => (b.placeOf q).isSome)) = some (q, defs, cur, p))
    (hp : b.placeOf q = some pos) : s.dispatchOne
      = (({ b with cursors := AMap.set b.cursors p cur } : State).setDeficits defs).dispatch q pos b.readyQueues := by
  subst hb
  have hplaced : (s.beforeDecision.placeOf h).isNone = false := Option.isNone_eq_false_iff.mpr hi
  rw [State.dispatchOne]
  dsimp only
  rw [hn]
  dsimp only
  rw [hh]
  dsimp only
  rw [hplaced, if_neg Bool.false_ne_true, hc]
  dsimp only
  rw [hp]

theorem choose_nil : s.choose [] = none := rfl

theorem dispatchOne_of_no_ready (hb : b = s.beforeDecision) (h : b.readyQueues = []) : s.dispatchOne = b := by
  subst hb
  have hn : s.beforeDecision.promoted.find? (fun _ => false) = none := List.find?_eq_none.mpr fun _ _ => Bool.false_ne_true
  rw [State.dispatchOne]
  dsimp only
  rw [h]
  dsimp only [List.contains_nil, List.filter_nil]
  rw [hn]
  dsimp only
  rw [choose_nil]
  dsimp only
  rw [choose_nil]

end Decision

theorem dispatchDecisions : DispatchDecisions := by
  refine ⟨fun s m v ho => ⟨_, exec_pmapWrite ho, rfl, fun hc => reg64_mapCopied hc v, rfl, rfl⟩, fun s h => exec_dispatchDecision_of_stopped h,
    fun s b hs hb => ⟨fun q pos h hp => ?_, fun h hd hc hp q defs cur p pos hn hh hi hch hpl => ?_, fun h => ?_⟩, ?_, ?_,
    ?_, ?_, ?_⟩
  · rw [exec_dispatchDecision hs, dispatchOne_of_promoted hb h hp]
  · rw [exec_dispatchDecision hs, dispatchOne_of_choice hb hn hh hi hch hpl]
  · rw [exec_dispatchDecision hs, dispatchOne_of_no_ready hb h]
  · intro s t q v he hs hv hq
    rw [exec_dispatchDecision hs] at he
    cases he
    exact deficit_eq_zero hv hq
  · intro cost weight qs fuel defs cur q d c h
    obtain ⟨hc, hq, -⟩ := roundRobin_settles h
    exact ⟨hc, hq⟩
  · rintro cost weight qs fuel defs cur k rfl hq hk
    exact roundRobin_of_paid hq hk
  · rintro cost weight qs fuel defs cur n h rfl
    exact roundRobin_of_unpaid h
  · intro cost weight qs fuel defs cur q d c h
    obtain ⟨-, -, hs⟩ := roundRobin_settles h
    exact hs

/-! ### A group that starts (R103, R105, R138) -/

section Start
variable {s u : State} {g : GroupId} {l : Launch} {b i j : Nat}

/-- Starts one member of a group of a launch. -/
def startMember (g : GroupId) (l : Launch) (b : Nat) (s : State) (i : Nat) : State :=
  s.startThread (memberOf g i) (4 * b + i) l.header.regs l.words (BitVec.ofNat 48 ((l.entry + 64) / 4 * 4)) l.header.pin l.header.slice

/-- A member has started, and sees more than the writes of `s`. -/
def MemberStarted (s : State) (g : GroupId) (l : Launch) (b i : Nat) (u : State) : Prop := ∃ slot n,
  u.thread? (memberOf g i) = some { Thread.start (4 * b + i) slot l.header.regs l.words (BitVec.ofNat 48 ((l.entry + 64) / 4 * 4)) l.header.pin with
    view := View.upTo n } ∧ s.hist.length < n ∧ slot < 16 ∧
  ∀ a, a < l.header.slice → Memory.get u.mem (laneBase g.core (4 * b + i) slot + a) = 0

theorem freeThreadSlot_lt (core lane : Nat) : s.freeThreadSlot core lane < 16 := by
  unfold State.freeThreadSlot
  cases h : List.find? _ (List.range 16) with
  | none => decide
  | some k => exact List.mem_range.mp (List.mem_of_find?_eq_some h)

theorem hist_startMember : (startMember g l b u i).hist.length = u.hist.length + 1 := List.length_append

theorem teams_startMember : (startMember g l b u i).teams = u.teams := rfl

theorem memberStarted_startMember (h : s.hist.length ≤ u.hist.length) : MemberStarted s g l b i (startMember g l b u i) := by
  refine ⟨u.freeThreadSlot g.core (4 * b + i), _, State.thread?_setThread _ _ _, ?_, freeThreadSlot_lt _ _, fun a ha => ?_⟩
  · exact Nat.lt_of_le_of_lt h (by simp [State.pasteAt])
  · refine (Memory.get_clear u.mem _ _ _).trans (if_pos ⟨Nat.le_add_right _ _, ?_⟩)
    exact Nat.add_lt_add_left ha _

theorem memberOf_ne (h : i ≠ j) : memberOf g i ≠ memberOf g j := fun he => h (congrArg ThreadId.mem he)

/-- The start of another member leaves what has started. -/
theorem MemberStarted.startMember (h : MemberStarted s g l b i u) (hj : i ≠ j) : MemberStarted s g l b i (startMember g l b u j) := by
  obtain ⟨slot, n, ht, hn, hslot, hz⟩ := h
  refine ⟨slot, n, (State.thread?_setThread_other _ _ (memberOf_ne hj)).trans ht, hn, hslot, fun a ha => ?_⟩
  refine (Memory.get_clear u.mem _ _ _).trans ?_
  split
  · rfl
  · exact hz a ha

theorem membersStarted (s : State) (g : GroupId) (l : Launch) (b : Nat) (w : Nat) : ∀ u, u = (List.range w).foldl (startMember g l b) s →
    s.hist.length ≤ u.hist.length ∧ u.teams = s.teams ∧ ∀ i < w, MemberStarted s g l b i u := by
  induction w with
  | zero =>
    rintro u rfl
    exact ⟨Nat.le_refl _, rfl, fun i hi => absurd hi (Nat.not_lt_zero i)⟩
  | succ w ih =>
    rintro u rfl
    obtain ⟨hh, ht, hm⟩ := ih _ rfl
    rw [List.range_succ, List.foldl_append, List.foldl_cons, List.foldl_nil]
    refine ⟨?_, ht, fun i hi => ?_⟩
    · rw [hist_startMember]
      omega
    · by_cases he : i = w
      · rw [he]; exact memberStarted_startMember hh
      · exact (hm i (by omega)).startMember he

theorem startGroup_eq : ∃ groups cores, s.startGroup g l b =
    { (List.range l.header.width).foldl (startMember g l b) { s with groups := groups } with cores := cores } := ⟨_, _, rfl⟩

end Start

theorem groupStart : GroupStart := by
  intro s g l b i hi
  obtain ⟨groups, cores, hs⟩ := startGroup_eq (s := s) (g := g) (l := l) (b := b)
  obtain ⟨-, ht, hm⟩ := membersStarted { s with groups := groups } g l b l.header.width _ rfl
  obtain ⟨slot, n, hthread, hn, hslot, hz⟩ := hm i hi
  rw [hs]
  exact ⟨slot, n, hthread, hn, hslot, hz, ht⟩

/-- Settles O49: a decision by the cases of `dispatchOne` and by `roundRobin_settles`, a group's start by `membersStarted`. -/
theorem dispatch : Obligations.Dispatch := ⟨dispatchDecisions, groupStart⟩

end Sys2Proof.Claims
end

section
/-! PROOFS. Service batches, their answers, and table walks (O52). -/
namespace Sys2Proof.Claims
open Sys2Proof.Machine

/-! ### Stores of the device above an address -/

/-- Nothing of a device differs but what stores from an address on have changed. -/
def StoresFrom (lo : Nat) (s u : State) : Prop := ∃ mem poison hist, u = { s with mem := mem, poison := poison, hist := hist } ∧
  (Memory.wf s.mem = true → Memory.wf mem = true ∧ ∀ a, a < lo → Memory.get mem a = Memory.get s.mem a)

section Stores
variable {s u r : State} {lo : Nat}

theorem StoresFrom.refl : StoresFrom lo s s := ⟨s.mem, s.poison, s.hist, rfl, fun w => ⟨w, fun _ _ => rfl⟩⟩

theorem StoresFrom.trans (h : StoresFrom lo s u) (h' : StoresFrom lo u r) : StoresFrom lo s r := by
  obtain ⟨_, _, _, rfl, hm⟩ := h
  obtain ⟨mem, poison, hist, rfl, hn⟩ := h'
  refine ⟨mem, poison, hist, rfl, fun w => ?_⟩
  obtain ⟨wm, hm⟩ := hm w
  obtain ⟨wn, hn⟩ := hn wm
  exact ⟨wn, fun a ha => (hn a ha).trans (hm a ha)⟩

theorem StoresFrom.store {pa : Nat} {bs : List Byte} (h : lo ≤ pa) : StoresFrom lo s (s.store pa bs) :=
  ⟨_, _, _, rfl, fun w => ⟨Memory.wf_write w pa bs, fun _ ha => Memory.get_write_other w (.inl (Nat.lt_of_lt_of_le ha h))⟩⟩

theorem StoresFrom.write {pa n v : Nat} (h : lo ≤ pa) : StoresFrom lo s (s.write pa n v) := .store h

theorem StoresFrom.foldl {α : Type} {f : State → α → State} (hf : ∀ r a, StoresFrom lo r (f r a)) :
    ∀ {l : List α} {s : State}, StoresFrom lo s (l.foldl f s)
  | [], _ => .refl
  | a :: _, s => (hf s a).trans (StoresFrom.foldl hf)

theorem StoresFrom.writeSlot {b : ServiceBatch} {pa : Nat} : StoresFrom pa s (s.writeSlot b pa) := by
  have field {r : State} {k n v : Nat} : StoresFrom pa r (r.write (pa + k) n v) := .write (Nat.le_add_right pa k)
  exact (((((((field (k := 0)).trans field).trans field).trans field).trans field).trans field).trans
    (.foldl fun _ _ => .store (by omega))).trans field

end Stores

/-- A slot ends with state 1 (R112). -/
theorem read_writeSlot {s : State} (h : Canonical s) (b : ServiceBatch) (pa : Nat) : (s.writeSlot b pa).read (pa + 16) 4 = 1 :=
  State.read_storeFrom (Canonical.foldl (fun _ _ h => .store h) (.write (.write (.write (.write (.write (.write h))))))).mem

/-! ### Posting and answering (R111, R112, R113) -/

section Batches
variable {s : State} {k die slot ring next core : Nat} {b : ServiceBatch}

/-- A closed batch in a slot of its ring, whose next slot is the one after it. -/
def slotTaken (s : State) (k : Nat) (b : ServiceBatch) (ring core n : Nat) : State :=
  { s.writeSlot b (slotPa ring n) with service := { (s.writeSlot b (slotPa ring n)).service with
    rings := AMap.set (s.writeSlot b (slotPa ring n)).service.rings b.die (ring, (n + 1) % 64, core)
    batches := (s.writeSlot b (slotPa ring n)).service.batches.set k { b with slot := some n } } }

theorem exec_serviceBatchPost {n : Nat} (hb : s.service.batches[k]? = some b) (hc : b.closed = true) (hs : b.slot = none)
    (hr : AMap.get? s.service.rings b.die = some (ring, next, core)) (hn : s.freeSlot b.die ring next = some n) :
    exec (.serviceBatchPost k) s = .next ((slotTaken s k b ring core n).latchCore core) := by
  change execServiceBatchPost k s = _
  rw [execServiceBatchPost, hb]
  dsimp only
  rw [if_neg (by rw [hc, hs]; decide), hr]
  dsimp only
  rw [hn]
  rfl

theorem slotTaken_service {n : Nat} : (slotTaken s k b ring core n).service = { s.service with
    rings := AMap.set s.service.rings b.die (ring, (n + 1) % 64, core), batches := s.service.batches.set k { b with slot := some n } } := by
  obtain ⟨_, _, _, h, _⟩ := StoresFrom.writeSlot (s := s) (b := b) (pa := slotPa ring n)
  rw [slotTaken, h]

theorem slotTaken_threads {n : Nat} : (slotTaken s k b ring core n).threads = s.threads := by
  obtain ⟨_, _, _, h, _⟩ := StoresFrom.writeSlot (s := s) (b := b) (pa := slotPa ring n)
  rw [slotTaken, h]

theorem get_slotTaken_below {n a : Nat} (hc : Canonical s) (ha : a < slotPa ring n) :
    Memory.get (slotTaken s k b ring core n).mem a = Memory.get s.mem a := by
  obtain ⟨_, _, _, h, hm⟩ := StoresFrom.writeSlot (s := s) (b := b) (pa := slotPa ring n)
  rw [slotTaken, h]
  exact (hm hc.mem).2 a ha

theorem exec_serviceAnswer_of_cut (h : s.cut.stopping = true ∨ s.cut.isStopped = true) : exec (.serviceAnswer die slot) s = .next s := by
  change execServiceAnswer die slot s = _
  rw [execServiceAnswer]
  split
  · rfl
  · exact if_pos (.inr (.inr (by rwa [Bool.or_eq_true])))

/-- What the answer of a batch does before its slot is freed. -/
def afterAnswer (s : State) (die slot : Nat) (b : ServiceBatch) (pa : Nat) : State :=
  let u := { s with service := { s.service with batches := s.service.batches.filter (fun x => !(x.slot == some slot && x.die == die)) } }
  if b.kind = 2 then (if (s.answer pa 0).1 = 0 then u else u.denyEngine b.engine) else b.calls.foldl (fun r c => r.resumeMember b pa c) u

theorem exec_serviceAnswer (hr : AMap.get? s.service.rings die = some (ring, next, core)) (hs : slot < 64)
    (ha : s.read (slotPa ring slot + 16) 4 = 2) (hb : s.service.batches.find? (fun b => b.slot == some slot && b.die == die) = some b)
    (hstop : s.cut.stopping = false) (hstopped : s.cut.isStopped = false) (hh : s.batchHalted b = false) :
    exec (.serviceAnswer die slot) s = .next ((afterAnswer s die slot b (slotPa ring slot)).write (slotPa ring slot + 16) 4 0) := by
  have hgo : ¬ (64 ≤ slot ∨ s.read (slotPa ring slot + 16) 4 ≠ 2 ∨ (s.cut.stopping || s.cut.isStopped) = true) := by
    simp [hs, ha, hstop, hstopped]
  change execServiceAnswer die slot s = _
  rw [execServiceAnswer, hr]
  dsimp only
  rw [if_neg hgo, hb]
  dsimp only
  rw [hh]
  rfl

theorem batchHalted_iff : s.batchHalted b = true ↔ b.kind < 2 ∧ (∃ v, s.group? b.group = some v ∧ v.halted = true) ∧
    ∀ c ∈ b.calls, ∀ t, s.thread? (b.thread c) = some t → s.stepsNow (b.thread c) t = false := by
  rw [State.batchHalted, Bool.and_eq_true, Bool.and_eq_true, decide_eq_true_eq, Bool.not_eq_true', List.any_eq_false, and_assoc]
  refine and_congr_right fun _ => and_congr ?_ (forall₂_congr fun c _ => ?_)
  · cases s.group? b.group <;> simp
  · cases s.thread? (b.thread c) <;> simp

end Batches

/-! ### A member resumes (R113) -/

section Members
variable {s : State} {b : ServiceBatch} {pa : Nat} {c : Call} {t : Thread} {id : ThreadId}

/-- After an issue with accesses outstanding, only where the thread waits can have changed. -/
theorem thread?_afterIssue {stepping : Bool} (ht : s.thread? id = some t) (hl : t.log ≠ []) :
    ∃ w, (s.afterIssue id stepping).thread? id = some { t with wait := w } ∧ (stepping = false → w = t.wait) := by
  rw [State.afterIssue]
  cases stepping with
  | false => exact ⟨t.wait, ht, fun _ => rfl⟩
  | true =>
    rw [if_neg (by decide), ht]
    dsimp only
    rw [if_neg hl]
    split
    · exact ⟨t.wait, ht, fun _ => rfl⟩
    · exact ⟨.stepTrap, State.thread?_setThread _ _ _, nofun⟩

/-- A member of an answered batch, which has seen what came before the answer. -/
def informed (s : State) (t : Thread) : Thread := { t with view := t.view.join (View.upTo s.hist.length) }

theorem resumeMember_call (ht : s.thread? (b.thread c) = some t) (hw : t.wait = .call) (hk : b.kind = 0) (he : b.engine = .none) :
    s.resumeMember b pa c = if s.staysPut (b.thread c) (informed s t)
      then ({ s with stamp := s.stamp + 1 } : State).setThread (b.thread c)
        ((informed s t).heldCall c.dst s.stamp (s.answer pa c.member).1 (s.answer pa c.member).2)
      else (({ s with stamp := s.stamp + 1 } : State).setThread (b.thread c)
        ((informed s t).answerCall c.dst s.stamp (s.answer pa c.member).1 (s.answer pa c.member).2)).afterIssue (b.thread c) t.stepping := by
  rw [State.resumeMember, ht, informed]
  dsimp only
  rw [he, hw]
  dsimp only
  rw [if_neg (not_not_intro hk)]
  rfl

theorem staysPut_informed : s.staysPut id (informed s t) = s.staysPut id t := rfl

theorem resumeMember_fault {back : Wait} (ht : s.thread? (b.thread c) = some t) (hw : t.wait = .service back) (hk : b.kind = 1)
    (he : b.engine = .none) : s.resumeMember b pa c = if (s.answer pa c.member).1 = 0
      then s.setThread (b.thread c) ((informed s t).retryFault back) else s.denyFault (b.thread c) (informed s t) c.addr := by
  rw [State.resumeMember, ht, informed]
  dsimp only
  rw [he, hw]
  dsimp only
  rw [if_neg (by rw [hk]; decide)]

theorem flaggedOf_retryFault {back : Wait} : flaggedOf (t.retryFault back).log = [] := by
  refine List.filter_eq_nil_iff.mpr fun e he => ?_
  obtain ⟨d, -, rfl⟩ := List.mem_map.mp he
  split
  next h =>
    split at h
    · cases h
    next hd => exact absurd h (hd _ _)
  next => exact Bool.false_ne_true

theorem trapEntry_value (cause : Nat) (epc : Addr) (tval : Dword) (tlog : Word) :
    (t.trapEntry cause epc tval tlog).tvalHi ++ (t.trapEntry cause epc tval tlog).tval = tval := by
  rw [Thread.trapEntry_tval, Thread.trapEntry_tvalHi]
  exact (BitVec.extractLsb'_append_extractLsb'_eq_extractLsb' rfl).trans BitVec.extractLsb'_eq_self

theorem denyFault_traps {addr : Dword} (hh : t.handling = false) (ht : t.trapsOn = true) : s.denyFault id t addr
    = s.setThread id ({ t with kept := t.log, log := [] }.trapEntry 0x07 t.firstWord addr (tlogOf t.log)) := by
  refine if_neg ?_
  change ¬ (t.handling || !t.trapsOn) = true
  rw [hh, ht]
  exact Bool.false_ne_true

/-- An answered `svc` gets its words, and retires where nothing holds its thread. -/
theorem resumeMember_call_effect {w0 w1 : Word} (ht : s.thread? (b.thread c) = some t) (hw : t.wait = .call) (hk : b.kind = 0)
    (he : b.engine = .none) (ha : s.answer pa c.member = (w0, w1)) :
    ∃ u e, (s.resumeMember b pa c).thread? (b.thread c) = some u ∧ u.log = t.log ++ [e] ∧ e.state = .returned [(c.dst, w0), (c.dst + 1, w1)] ∧
      (s.staysPut (b.thread c) t = false → t.stepping = false → u.pc = t.pc + 4 ∧ u.nret = t.nret + 1 ∧ u.wait = .run) ∧
      (s.staysPut (b.thread c) t = true → u.pc = t.pc ∧ u.nret = t.nret ∧ u.wait = .done) := by
  rw [resumeMember_call ht hw hk he, ha, staysPut_informed]
  by_cases hp : s.staysPut (b.thread c) t = true
  · rw [if_pos hp]
    exact ⟨_, _, State.thread?_setThread _ _ _, rfl, rfl, fun h => absurd hp (by simp [h]), fun _ => ⟨rfl, rfl, rfl⟩⟩
  · rw [if_neg hp]
    obtain ⟨w, hu, hrun⟩ := thread?_afterIssue (stepping := t.stepping) (State.thread?_setThread { s with stamp := s.stamp + 1 } (b.thread c)
      ((informed s t).answerCall c.dst s.stamp w0 w1)) (List.append_ne_nil_of_right_ne_nil _ (List.cons_ne_nil _ _))
    exact ⟨_, _, hu, rfl, rfl, fun _ h => ⟨rfl, rfl, hrun h⟩, fun h => absurd h hp⟩

end Members

/-! ### Table walks (R187) -/

section Walks
variable {s u : State} {die asid page : Nat} {va : Nat} {l1 : Option Nat} {fresh : Bool}

/-- Nothing of a device differs but its translation caches. -/
def OnlyTlbs (s u : State) : Prop := ∃ tlb walks, u = { s with tlb := tlb, walks := walks }

theorem OnlyTlbs.refl : OnlyTlbs s s := ⟨s.tlb, s.walks, rfl⟩

theorem OnlyTlbs.trans {r : State} (h : OnlyTlbs s u) (h' : OnlyTlbs u r) : OnlyTlbs s r := by
  obtain ⟨_, _, rfl⟩ := h
  obtain ⟨tlb, walks, rfl⟩ := h'
  exact ⟨tlb, walks, rfl⟩

theorem OnlyTlbs.mem (h : OnlyTlbs s u) : u.mem = s.mem := by
  obtain ⟨_, _, rfl⟩ := h
  rfl

theorem OnlyTlbs.threads (h : OnlyTlbs s u) : u.threads = s.threads := by
  obtain ⟨_, _, rfl⟩ := h
  rfl

theorem OnlyTlbs.forgetIf : OnlyTlbs s (if fresh then s.forgetPage die asid va else s) := by
  split
  · exact ⟨_, _, rfl⟩
  · exact .refl

theorem OnlyTlbs.cachePointers : OnlyTlbs s (s.cachePointers die asid va) := by
  have add (r : State) (level index : Nat) (e : Option Nat) : OnlyTlbs r (match r.cachedPointer die asid level va, e with
      | none, some e => if pointerOk e
        then { r with walks := r.walks ++ [{ die := die, asid := asid, level := level, index := index, entry := e }] } else r
      | _, _ => r) := by
    split
    · split
      · exact ⟨_, _, rfl⟩
      · exact .refl
    · exact .refl
  exact (add _ _ _ _).trans (add _ _ _ _)

theorem OnlyTlbs.fillTlb {e : TlbEntry} : OnlyTlbs s (s.fillTlb e) := ⟨_, s.walks, rfl⟩

theorem mem_tlb_fillTlb {e : TlbEntry} : e ∈ (s.fillTlb e).tlb := List.mem_append_right _ List.mem_cons_self

/-- A fill leaves the entries of the other TLBs. -/
theorem mem_tlb_fillTlb_of_mem {e f : TlbEntry} (h : f ∈ s.tlb) (hf : f.holder ≠ e.holder) : f ∈ (s.fillTlb e).tlb :=
  List.mem_append_left _ (List.mem_append_left _ (List.mem_filter.mpr ⟨h, decide_eq_true hf⟩))

/-- What a walk that finds a page leaves in the caches. -/
def walked (s : State) (die asid page : Nat) (l1 : Option Nat) (e : Nat) (b : Bool) : State :=
  let u := (s.cachePointers die asid (page * 65536)).fillTlb ⟨.die die, asid, page, e, b⟩
  match l1 with
  | some c => u.fillTlb ⟨.core c, asid, page, e, b⟩
  | none => u

theorem walked_onlyTlbs {e : Nat} {b : Bool} : OnlyTlbs s (walked s die asid page l1 e b) := by
  have h : OnlyTlbs s ((s.cachePointers die asid (page * 65536)).fillTlb ⟨.die die, asid, page, e, b⟩) := OnlyTlbs.cachePointers.trans .fillTlb
  cases l1 with
  | none => exact h
  | some c => exact h.trans .fillTlb

theorem mem_tlb_walked {e : Nat} {b : Bool} : TlbEntry.mk (.die die) asid page e b ∈ (walked s die asid page l1 e b).tlb ∧
    ∀ c, l1 = some c → TlbEntry.mk (.core c) asid page e b ∈ (walked s die asid page l1 e b).tlb := by
  cases l1 with
  | none => exact ⟨mem_tlb_fillTlb, nofun⟩
  | some c =>
    refine ⟨mem_tlb_fillTlb_of_mem mem_tlb_fillTlb nofun, fun d hd => ?_⟩
    cases hd
    exact mem_tlb_fillTlb

theorem exec_translationWalk_of_invalid (h : 2 ^ 32 ≤ page ∨ ∃ c, l1 = some c ∧ dieOf c ≠ die) :
    exec (.translationWalk die asid ⟨page, l1, fresh⟩) s = .next s :=
  congrArg Host.Outcome.next (if_pos (h.imp id fun ⟨_, hc, hd⟩ => by simpa [hc] using hd))

theorem exec_translationWalk (hp : page < 2 ^ 32) (hl : ∀ c, l1 = some c → dieOf c = die)
    (hu : u = if fresh then s.forgetPage die asid (page * 65536) else s) :
    exec (.translationWalk die asid ⟨page, l1, fresh⟩) s = .next
      (match (u.cachedLeaf (.die die) asid (page * 65536)).orElse (fun _ => u.walkVia die asid (page * 65536)) with
      | none => u
      | some (e, b) => walked u die asid page l1 e b) := by
  have hvalid : ¬ (2 ^ 32 ≤ page ∨ l1.any (fun c => decide (dieOf c ≠ die)) = true) := by
    rintro (h | h)
    · omega
    · cases l1 with
      | none => cases h
      | some c => exact of_decide_eq_true h (hl c rfl)
  subst hu
  change execTranslationWalk die asid ⟨page, l1, fresh⟩ s = _
  rw [execTranslationWalk]
  dsimp only
  rw [if_neg hvalid]
  rfl

theorem cachedLeaf_forgetPage : (s.forgetPage die asid va).cachedLeaf (.die die) asid va = none := by
  rw [State.cachedLeaf, Option.map_eq_none_iff, List.find?_eq_none]
  intro t ht
  rw [Bool.not_eq_true, ← Bool.not_eq_true']
  exact (List.mem_filter.mp ht).2

end Walks

/-- Settles O52: a batch by `exec_serviceBatchPost` and `exec_serviceAnswer`, its members by the cases of `resumeMember`, and a walk by
`exec_translationWalk`. -/
theorem serviceEvents : Obligations.ServiceEvents := by
  unfold Obligations.ServiceEvents
  refine ⟨fun s g kind => ⟨_, rfl, rfl, rfl, fun k b hb => ?_⟩,
    fun s k b ring next core n hb hc hs hr hn => ⟨_, exec_serviceBatchPost hb hc hs hr hn, congrArg _ slotTaken_service,
      congrArg _ slotTaken_service, slotTaken_threads, fun hcan => ⟨read_writeSlot hcan b _, fun a ha => get_slotTaken_below hcan ha⟩⟩,
    ?_, fun s die slot h => exec_serviceAnswer_of_cut h, fun s b => batchHalted_iff,
    fun s b pa c t w0 w1 ht hw hk he ha => resumeMember_call_effect ht hw hk he ha,
    fun s b pa c t back ht hw hk he => ⟨fun ha => ?_, fun ha hh hon => ?_⟩,
    fun s die asid page l1 fresh h => exec_translationWalk_of_invalid h, ?_, ?_⟩
  · simp [hb, batchCycles]
  · rintro s die slot ring next core b hr hslot ha hb hstop hstopped hh u pa rfl rfl
    rw [exec_serviceAnswer hr hslot ha hb hstop hstopped hh, afterAnswer]
    exact ⟨fun hk => by rw [if_neg hk], fun hk h0 => by rw [if_pos hk, if_pos h0], fun hk h0 => by rw [if_pos hk, if_neg h0]⟩
  · rw [resumeMember_fault ht hw hk he, if_pos ha]
    exact ⟨_, State.thread?_setThread _ _ _, rfl, flaggedOf_retryFault, List.length_map _, rfl⟩
  · rw [resumeMember_fault ht hw hk he, if_neg ha, denyFault_traps (t := informed s t) hh hon]
    exact ⟨_, State.thread?_setThread _ _ _, rfl, rfl, trapEntry_value _ _ _ _, rfl, rfl⟩
  · intro s die asid page l1 fresh e b u hp hl hu hfound
    rw [exec_translationWalk hp hl hu, hfound]
    have h : OnlyTlbs s (walked u die asid page l1 e b) := OnlyTlbs.trans (hu ▸ .forgetIf) walked_onlyTlbs
    exact ⟨_, rfl, h.mem, h.threads, mem_tlb_walked.1, mem_tlb_walked.2⟩
  · rintro s die asid page l1 u hp hl rfl hnone
    rw [exec_translationWalk (u := s.forgetPage die asid (page * 65536)) hp hl rfl, cachedLeaf_forgetPage]
    dsimp only [Option.orElse]
    rw [hnone]

end Sys2Proof.Claims
end

section
/-! PROOFS. Fences, drains and flushes of a pod peer (O29). -/
namespace Sys2Proof.Claims
open Sys2Proof.Machine

/-! ### How an issue with an action of its own ends -/

section Ends
variable {s : State} {v : Thread} {word : Word} {acc : Accepts} {sw : Bool} {body : Issue Unit} {post : State → State} {c : Ctx}

/-- An instruction whose operands raised no fault parks with the device that it has changed. -/
theorem issue_parks_changed {u : State} {w : Wait} (hi : Issues s word sw v) (hr : (begin s v word acc).Reads c) (hc : Clean c)
    (hb : body (begin s v word acc) = ((), { c with s := u, park := some w })) :
    issue word sw acc body post s = .next (post (u.setThread s.cur { c.th with wait := w })) := by
  obtain ⟨t, ht, hi⟩ := hi
  obtain ⟨hflag, hstall, hstarve⟩ := hc
  have hid : c.id = s.cur := hr.keeps.id
  rw [issue_of ht hi, State.runBody_parks hb hflag hstall hstarve hr.keeps.hold rfl hr.keeps.late, hid]

/-- An instruction whose operands raised no fault retires, and what follows it happens then. -/
theorem issue_retires_of_reads (hi : Issues s word sw v) (hr : (begin s v word acc).Reads c) (hc : Clean c)
    (hb : body (begin s v word acc) = ((), c)) : issue word sw acc body post s = .next (post (c.retired v.stepping)) := by
  obtain ⟨t, ht, hi⟩ := hi
  obtain ⟨hflag, hstall, hstarve⟩ := hc
  rw [issue_of ht hi, State.runBody_retires hb hflag hstall hstarve hr.keeps.hold hr.keeps.park hr.keeps.late]

end Ends

/-! ### Where a thread is after a retirement -/

section Retired
variable {s : State} {id : ThreadId} {t u : Thread}

theorem thread?_doubleTrap {cause : Nat} {epc : Addr} {tval : Dword} :
    (s.doubleTrap id t cause epc tval).thread? id = some { t with wait := .stopped, hints := [] } := by
  have hstop : (s.setThread id { t with wait := .stopped, hints := [] }).thread? id = some { t with wait := .stopped, hints := [] } :=
    State.thread?_setThread _ _ _
  rw [State.doubleTrap]
  split
  · exact hstop
  · split
    · exact hstop
    · rw [State.thread?, State.count_threads, State.modGroup_threads]
      exact hstop

/-- A trap leaves its thread in no wait that begins again from the start: it runs on in its handler or has stopped (R211, R215). -/
theorem restarts_of_thread?_trap {cause : Nat} {tval : Dword} (h : (s.trap id t cause tval).thread? id = some u) :
    u.wait.restarts = false := by
  rw [State.trap, State.trapAt] at h
  split at h
  · rw [thread?_doubleTrap] at h
    obtain rfl := Option.some.inj h
    rfl
  · rw [State.thread?_setThread] at h
    obtain rfl := Option.some.inj h
    rfl

/-- The boundary after an issue puts a thread into no such wait either (R222). -/
theorem restarts_of_thread?_afterIssue {stepping : Bool} (ht : s.thread? id = some t) (hw : t.wait.restarts = false)
    (h : (s.afterIssue id stepping).thread? id = some u) : u.wait.restarts = false := by
  have same (h : s.thread? id = some u) : u.wait.restarts = false := Option.some.inj (ht.symm.trans h) ▸ hw
  rw [State.afterIssue] at h
  split at h
  · exact same h
  · rw [ht] at h
    dsimp only at h
    split at h
    · exact same h
    · split at h
      · exact restarts_of_thread?_trap h
      · rw [State.thread?_setThread] at h
        obtain rfl := Option.some.inj h
        rfl

theorem restarts_of_thread?_retired {c : Ctx} {stepping : Bool} (h : (c.retired stepping).thread? c.id = some u) :
    u.wait.restarts = false :=
  restarts_of_thread?_afterIssue (State.thread?_setThread _ _ _) rfl h

end Retired

/-! ### What a waiting thread does next (R320 to R322) -/

section Waits
variable {s p : State} {id : ThreadId} {t : Thread} {c : Scope} {n rank peer : Nat}

theorem fenceStep_of_fence (ht : p.thread? id = some t) (hput : p.staysPut id t = false) (hw : t.wait = .fence c n) :
    p.fenceStep id = p.stepFence id c n := by
  simp [State.fenceStep, ht, hput, hw]

theorem fenceStep_of_drain (ht : p.thread? id = some t) (hput : p.staysPut id t = false) (hw : t.wait = .drain) :
    p.fenceStep id = p.stepDrain id := by
  simp [State.fenceStep, ht, hput, hw]

theorem fenceStep_of_pflush {begun : Bool} (ht : p.thread? id = some t) (hput : p.staysPut id t = false)
    (hw : t.wait = .pflush rank peer n begun) : p.fenceStep id = p.stepPflush id t rank peer n begun := by
  simp [State.fenceStep, ht, hput, hw]

/-- Nothing goes on for a thread that is in none of the three waits. -/
theorem fenceStep_of_restarts_eq_false (h : ∀ t, p.thread? id = some t → t.wait.restarts = false) : p.fenceStep id = p := by
  rw [State.fenceStep]
  split
  · rfl
  next t ht =>
    have hw := h t ht
    split
    · rfl
    · split
      case h_1 e | h_2 e | h_3 e => simp [e, Wait.restarts] at hw
      case h_4 => rfl

/-- The thread `cur`, which has just parked as `t`, with nothing that keeps it. -/
theorem parked_of_goesOn (hp : p = s.setThread id t) (hcur : s.cur = id) (hg : GoesOn p) :
    p.cur = id ∧ p.thread? id = some t ∧ p.staysPut id t = false := by
  have hpcur : p.cur = id := by rw [hp, State.setThread_cur, hcur]
  have ht : p.thread? id = some t := by rw [hp, State.thread?_setThread]
  obtain ⟨u, hu, hput⟩ := hg
  rw [hpcur] at hu hput
  obtain rfl : t = u := Option.some.inj (ht.symm.trans hu)
  exact ⟨hpcur, ht, hput⟩

theorem flushing_eq_false_iff : p.flushing p.cur = false ↔ NoFlush p := Iff.rfl

/-! ### fence -/

theorem stepFence_of_earlier (h : p.doneBefore id n = false) : p.stepFence id c n = p.pursue id n := by
  simp [State.stepFence, h]

theorem stepFence_of_unreleased (h : p.doneBefore id n = true) (hr : p.releaseReady n c (some id) = false) :
    p.stepFence id c n = p.pursueRelease n c (id, 0) := by
  simp [State.stepFence, h, hr]

theorem stepFence_of_ready (h : p.doneBefore id n = true) (hr : p.releaseReady n c (some id) = true) : p.stepFence id c n
    = if p.flushing id then p else (((if c = .pod ∨ c = .glb then p.clearPodBuf id.core else p).passFence id c).pardon id).complete id := by
  simp [State.stepFence, h, hr]

/-! ### drain.nt -/

/-- A non-temporal store that has not left the thread keeps a `drain.nt` waiting. -/
theorem stepDrain_of_buffered (h : p.buffer.any (fun b => decide (b.thread = id) && b.access.nonTemporal) = true) :
    p.stepDrain id = p := if_pos h

/-- One that a pod member holds makes it flush that member (R201). -/
theorem stepDrain_of_awaited {l : List Tracked} (h : p.buffer.any (fun b => decide (b.thread = id) && b.access.nonTemporal) = false)
    (ha : p.awaited id p.stamp true = l) (hl : l ≠ []) : p.stepDrain id = p.flushMembers (l.map (fun x => x.member)) (id, 0) := by
  rw [State.stepDrain, h, ha]
  simp [hl]

theorem landed_of_not_unacked {nt : Bool} (ha : p.awaited id n nt = [])
    (hm : p.net.messages.any (fun m => m.unacked id n nt) = false) : p.landed id n nt = true := by
  rw [State.landed, ha, List.isEmpty_nil, Bool.true_and, List.all_eq_not_any_not]
  simpa using hm

/-- With every non-temporal store performed, they are ordered as plain ones from then on (R198), and the `drain.nt` retires. -/
theorem stepDrain_of_landed (ht : p.thread? id = some t)
    (h : p.buffer.any (fun b => decide (b.thread = id) && b.access.nonTemporal) = false) (ha : p.awaited id p.stamp true = [])
    (hl : p.landed id p.stamp true = true) (hf : p.flushing id = false) : p.stepDrain id
      = ((p.setThread id { t with wrote := max t.wrote (lastWrite (p.agent id) 0 p.hist) }).pardon id).complete id := by
  rw [State.stepDrain, h, ha, hl, hf, State.modThread, ht]
  rfl

/-! ### pflush -/

/-- A `pflush` starts its flush where no earlier store to the peer is left to send and no other flush of it is under way (R322). -/
theorem stepPflush_of_sent (hs : p.allSent n (fun q => match q with
      | .pod _ k _ _ => decide (k = peer)
      | _ => false) = true) (hw : p.podWaiting n (some peer) = false) (hf : p.net.flushes.any (fun f => f.member == peer) = false) :
    p.stepPflush id t rank peer n false
      = ((p.startFlush rank peer).useFlush peer (id, 0)).setThread id { t with wait := .pflush rank peer n true } := by
  rw [State.stepPflush, if_neg Bool.false_ne_true]
  refine if_neg ?_
  rw [hw, hf, Bool.or_false, Bool.or_false, Bool.not_eq_true]
  exact congrArg not hs

end Waits

/-! ### The instructions up to their waits -/

section Issued
variable {s p : State} {v : Thread} {w : BitVec 1} {a : RegField} {x : Word} {c c1 : Ctx} {m : Nat}

theorem exec_fence_of (hi : Issues s (Enc.fence w) true v) (hc : Clean (begin s v (Enc.fence w) .scopeOnly))
    (hp : p = (s.pardon s.cur).setThread s.cur { v with wait := .fence ((HintSet.of v.hints).scopeOr .dev) s.stamp }) :
    exec (.fence w) s = .next (p.fenceStep s.cur) :=
  hp ▸ issue_parks_changed hi .refl hc rfl

theorem exec_drainNt_of (hi : Issues s (Enc.drainNt w) true v) (hc : Clean (begin s v (Enc.drainNt w) .nothing))
    (hp : p = (s.pardon s.cur).setThread s.cur { v with wait := .drain }) : exec (.drainNt w) s = .next (p.fenceStep s.cur) :=
  hp ▸ issue_parks_changed hi .refl hc rfl

theorem bodyPflush_of_self (hx : src a c = (x, c1)) (hz : x.extractLsb' 17 15 = 0) (hself : (x.extractLsb' 0 17).toNat = c1.s.selfrank) :
    bodyPflush a c = ((), c1) := by
  rw [bodyPflush, bind_of hx, bind_of get_eq, bind_of (flagWordIf_false (decide_eq_false (not_not_intro hz))),
    if_neg (not_not_intro hself)]
  rfl

theorem bodyPflush_of_pod (hx : src a c = (x, c1)) (hz : x.extractLsb' 17 15 = 0) (hother : (x.extractLsb' 0 17).toNat ≠ c1.s.selfrank)
    (hpath : c1.s.rankCheck (c1.s.asidOf c1.id.teamId) (x.extractLsb' 0 17).toNat = some (.pod m)) :
    bodyPflush a c = ((), { c1 with park := some (.pflush (x.extractLsb' 0 17).toNat m c1.s.stamp false) }) := by
  rw [bodyPflush, bind_of hx, bind_of get_eq, bind_of (flagWordIf_false (decide_eq_false (not_not_intro hz))), if_pos hother, hpath]
  rfl

theorem exec_pflush_of_self (hi : Issues s (Enc.pflush w a) true v) (hx : src a (begin s v (Enc.pflush w a) .nothing) = (x, c1))
    (hc : Clean c1) (hz : x.extractLsb' 17 15 = 0) (hself : (x.extractLsb' 0 17).toNat = s.selfrank) :
    exec (.pflush w a) s = .next (c1.retired v.stepping) := by
  have hr := Ctx.Reads.src hx
  have hs : c1.s = s := hr.keeps.s
  have hid : c1.id = s.cur := hr.keeps.id
  have hexec := issue_retires_of_reads (post := fun p => p.fenceStep s.cur) hi hr hc (bodyPflush_of_self hx hz (hs ▸ hself))
  exact hexec.trans (congrArg _ (fenceStep_of_restarts_eq_false fun t ht => restarts_of_thread?_retired (hid ▸ ht)))

theorem exec_pflush_of_pod (hi : Issues s (Enc.pflush w a) true v) (hx : src a (begin s v (Enc.pflush w a) .nothing) = (x, c1))
    (hc : Clean c1) (hz : x.extractLsb' 17 15 = 0) (hother : (x.extractLsb' 0 17).toNat ≠ s.selfrank)
    (hpath : s.rankCheck (s.asidOf s.cur.teamId) (x.extractLsb' 0 17).toNat = some (.pod m))
    (hp : p = s.setThread s.cur { c1.th with wait := .pflush (x.extractLsb' 0 17).toNat m s.stamp false }) :
    exec (.pflush w a) s = .next (p.fenceStep s.cur) := by
  have hr := Ctx.Reads.src hx
  have hs : c1.s = s := hr.keeps.s
  have hid : c1.id = s.cur := hr.keeps.id
  have hb := bodyPflush_of_pod hx hz (hs ▸ hother) (by rw [hs, hid]; exact hpath)
  rw [hs] at hb
  exact hp ▸ issue_parks_changed hi hr hc hb

end Issued

/-- Settles O29: the wait that each instruction begins by `exec_fence_of`, `exec_drainNt_of` and `exec_pflush_of_pod`, and what the thread does
in it by the cases of `stepFence`, `stepDrain` and `stepPflush`. -/
theorem fencesAndDrains : Obligations.FencesAndDrains := by
  unfold Obligations.FencesAndDrains
  refine ⟨?_, ?_, fun s v w a x c1 hi hx hc hz => ⟨exec_pflush_of_self hi hx hc hz, ?_⟩⟩
  · rintro s v w scope p hi hc rfl hp hg
    obtain ⟨hcur, ht, hput⟩ := parked_of_goesOn hp rfl hg
    rw [exec_fence_of hi hc hp, fenceStep_of_fence ht hput rfl, acquires, ← flushing_eq_false_iff, hcur]
    refine ⟨fun hd hr hf => ?_, fun hd hr hf => ?_, fun hd hr => ?_, fun hd => ?_⟩
    · rw [stepFence_of_ready hd hr, hf, if_neg Bool.false_ne_true]
    · rw [stepFence_of_ready hd hr, if_pos (eq_true_of_ne_false hf)]
    · rw [stepFence_of_unreleased hd hr]
    · rw [stepFence_of_earlier hd]
  · rintro s v w p hi hc hp hg
    obtain ⟨hcur, ht, hput⟩ := parked_of_goesOn hp rfl hg
    rw [exec_drainNt_of hi hc hp, fenceStep_of_drain ht hput rfl, ← flushing_eq_false_iff, hcur]
    subst hp
    exact ⟨fun hb => congrArg _ (stepDrain_of_buffered hb), fun hb =>
      ⟨fun t u ha => congrArg _ (stepDrain_of_awaited hb ha (List.cons_ne_nil t u)),
       fun ha hm hf => congrArg _ (stepDrain_of_landed ht hb ha (landed_of_not_unacked ha hm) hf)⟩⟩
  · rintro m p hother hpath hp
    refine ⟨exec_pflush_of_pod hi hx hc hz hother hpath hp, fun hg hsent hwait hflush => ?_⟩
    obtain ⟨-, ht, hput⟩ := parked_of_goesOn hp rfl hg
    rw [fenceStep_of_pflush ht hput rfl]
    exact stepPflush_of_sent hsent hwait hflush

end Sys2Proof.Claims
end

section
/-! PROOFS. Entry to a trap, the double trap, and the return from a trap (O11). -/
namespace Sys2Proof.Machine

/-! ### Addresses and status words -/

/-- A program address from its two registers, with bits [1:0] zero (R210, R211). -/
theorem toNat_wordAligned (h : BitVec 16) (l : Word) :
    ((h ++ l) &&& ~~~3#48).toNat = 2 ^ 32 * h.toNat + l.toNat / 4 * 4 := by
  have halign : (h ++ l) &&& ~~~3#48 = ((h ++ l) >>> 2) <<< 2 := by
    ext k hk
    have hmask : (~~~3#48).getLsbD k = !decide (k < 2) := by
      revert k
      decide
    rw [← BitVec.getLsbD_eq_getElem, ← BitVec.getLsbD_eq_getElem, BitVec.getLsbD_and, hmask, BitVec.getLsbD_shiftLeft,
      BitVec.getLsbD_ushiftRight]
    by_cases h2 : k < 2
    · simp [h2]
    · simp [h2, hk, Nat.add_sub_cancel' (Nat.not_lt.mp h2)]
  have hl := l.isLt
  have hh := h.isLt
  rw [halign, BitVec.toNat_shiftLeft, BitVec.toNat_ushiftRight, BitVec.toNat_append, Nat.shiftLeft_eq, Nat.shiftRight_eq_div_pow,
    ← Nat.shiftLeft_add_eq_or_of_lt hl, Nat.shiftLeft_eq]
  omega

/-- The bits of tstat in a handler: H set, TE and D clear, and every other one as it was (R211). -/
theorem getLsbD_handlerStatus (w : Word) (k : Nat) : ((w ||| 1) &&& ~~~(0x82 : Word)).getLsbD k
    = if k = 0 then true else if k = 1 ∨ k = 7 then false else w.getLsbD k := by
  by_cases hk : k < 32
  · have hset : (1 : Word).getLsbD k = decide (k = 0) := by
      revert k
      decide
    have hmask : (~~~(0x82 : Word)).getLsbD k = !decide (k = 1 ∨ k = 7) := by
      revert k
      decide
    rw [BitVec.getLsbD_and, BitVec.getLsbD_or, hset, hmask]
    grind
  · rw [BitVec.getLsbD_of_ge _ _ (by omega), BitVec.getLsbD_of_ge w _ (by omega), if_neg (by omega), ite_self]

/-! ### Entry and return -/

section Trap
variable {s : State} {id : ThreadId} {t : Thread} {cause : Nat} {epc : Addr} {tval : Dword} {tlog : Word}

theorem trapAt_of_enters (hh : t.handling = false) (ht : t.trapsOn = true) :
    s.trapAt id t cause epc tval tlog = s.setThread id (t.trapEntry cause epc tval tlog) := by
  rw [State.trapAt, hh, ht]
  rfl

theorem trapAt_of_double (h : t.handling = true ∨ t.trapsOn = false) :
    s.trapAt id t cause epc tval tlog = s.doubleTrap id t cause epc tval := by
  refine if_pos ?_
  rwa [Bool.or_eq_true, Bool.not_eq_true']

/-- What a double trap records of its thread (R215). -/
def doubleTrapInfo (t : Thread) (cause : Nat) (epc : Addr) (tval : Dword) : FaultInfo :=
  FaultInfo.mk t.lane (BitVec.ofNat 8 cause) (if t.handling then t.tcause.extractLsb' 0 8 else 0) epc tval t.tstat

/-- The first double trap of a group fills its record and is counted (R215). -/
theorem doubleTrap_of_unfaulted {g : Group} (hg : s.group? id.group = some g) (hf : g.fault = none) :
    s.doubleTrap id t cause epc tval = ((s.setThread id { t with wait := .stopped, hints := [] }).modGroup id.group
      (fun g => { g with fault := some (doubleTrapInfo t cause epc tval) })).count 0x1098 := by
  have hg' : (s.setThread id { t with wait := .stopped, hints := [] }).group? id.group = some g := hg
  rw [State.doubleTrap, hg']
  dsimp only
  rw [hf]
  rfl

theorem thread?_count_modGroup {g : GroupId} {f : Group → Group} {k : Nat} : ((s.modGroup g f).count k).thread? id = s.thread? id := by
  rw [State.thread?, State.count_threads, State.modGroup_threads, State.thread?]

theorem trapReturn_of_status (h : t.badStatus = false) : t.trapReturn =
    { t with tstat := t.tsav
             log := reissue t.log (t.kept.filter (fun e => decide (e.index < 16) && t.tlog.getLsbD e.index))
             kept := []
             pc := (t.tepcHi ++ t.tepc) &&& ~~~3#48
             hints := [] } := by
  rw [Thread.trapReturn, h]
  rfl

end Trap

end Sys2Proof.Machine

namespace Sys2Proof.Claims
open Sys2Proof.Machine

/-- Settles O11: the thread in its handler is `Thread.trapEntry`, and the device after a double trap is that of `doubleTrap_of_unfaulted`. -/
theorem trapEntry : Obligations.TrapEntry := by
  refine ⟨fun s id t cause epc tval tlog hh ht => ⟨_, trapAt_of_enters hh ht, ?_⟩, fun s id t cause tval => rfl,
    fun s id t cause epc tval tlog g hd hg hf =>
      ⟨_, (trapAt_of_double hd).trans (doubleTrap_of_unfaulted hg hf), ?_⟩, fun t hb => ?_⟩
  · have hepc : epc.extractLsb' 32 16 ++ epc.extractLsb' 0 32 = epc :=
      (BitVec.extractLsb'_append_extractLsb'_eq_extractLsb' rfl).trans BitVec.extractLsb'_eq_self
    exact ⟨rfl, rfl, hepc, trapEntry_value cause epc tval tlog, rfl, getLsbD_handlerStatus t.tstat, toNat_wordAligned t.thdlHi t.thdl,
      rfl, rfl, rfl, rfl, rfl, rfl, rfl, rfl, rfl, rfl, rfl, rfl, rfl, rfl, rfl⟩
  · refine ⟨thread?_count_modGroup.trans (State.thread?_setThread s id _), ?_, ?_, ?_, ?_,
      fun i hi => thread?_count_modGroup.trans (State.thread?_setThread_other s _ hi)⟩
    · exact State.group?_modGroup.trans ((if_pos rfl).trans (congrArg (Option.map _) hg))
    · rw [State.count_errs, AMap.getD_set, if_pos rfl, State.modGroup_errs, State.setThread_errs]
    · rw [State.count_mem, State.modGroup_mem, State.setThread_mem]
    · rw [State.count_teams, State.modGroup_teams, State.setThread_teams]
  · rw [trapReturn_of_status hb]
    exact ⟨rfl, toNat_wordAligned t.tepcHi t.tepc, rfl, rfl, rfl, rfl, rfl⟩

end Sys2Proof.Claims
end

section
/-! PROOFS. `svc`, `trap`, `tret`, `wfe` and `tlbinv` (O39). -/
namespace Sys2Proof.Machine

/-! ### A thread while operands are read -/

/-- What reading operands does to the thread and to how the issue ends: index registers step, streams are drawn from and the thread sees what
they bring, and an operand is lost only where a cause is raised or a stream is waited for. -/
structure Ctx.Draws (c r : Ctx) : Prop where
  thread : r.th = { c.th with x := r.th.x, q := r.th.q, view := r.th.view }
  onFault : r.onFault = c.onFault
  quiet : r.flag = none → r.starve = false → c.flag = none ∧ c.starve = false ∧ r.unknown = c.unknown

section Draws
variable {a b c c1 : Ctx} {f : RegField} {m k n : Nat}

theorem Ctx.Draws.refl : c.Draws c := ⟨rfl, rfl, fun hf hv => ⟨hf, hv, rfl⟩⟩

theorem Ctx.Draws.trans (h : a.Draws b) (k : b.Draws c) : a.Draws c where
  thread := by rw [k.thread, h.thread]
  onFault := k.onFault.trans h.onFault
  quiet hf hv := by
    obtain ⟨hbf, hbv, hcu⟩ := k.quiet hf hv
    obtain ⟨haf, hav, hbu⟩ := h.quiet hbf hbv
    exact ⟨haf, hav, hcu.trans hbu⟩

theorem Ctx.flag_raise_ne_none (x : Cause) (t : Dword) : (c.raise x t).flag ≠ none := by
  rw [Ctx.raise]
  split
  next h =>
    split
    · exact Option.some_ne_none _
    · rw [h]; exact Option.some_ne_none _
  · exact Option.some_ne_none _

theorem Ctx.Draws.lose (x : Cause) (t : Dword) : c.Draws (c.lose x t) := by
  have hquiet : (c.lose x t).flag ≠ none := flag_raise_ne_none x t
  refine ⟨?_, ?_, fun hf => absurd hf hquiet⟩ <;>
  · rw [Ctx.lose, Ctx.raise]
    split
    · split <;> rfl
    · rfl

theorem Ctx.Draws.loseWord : c.Draws c.loseWord := .lose _ _

theorem Ctx.Draws.popStream (ok : Nat → Bool) : c.Draws (c.popStream k ok).2 := by
  unfold Ctx.popStream
  split
  · exact .loseWord
  · split
    · exact .loseWord
    · split
      · exact ⟨rfl, rfl, fun _ hv => nomatch hv⟩
      · dsimp only
        split
        · exact .lose _ _
        · exact ⟨rfl, rfl, fun _ hv => nomatch hv⟩
      · exact ⟨rfl, rfl, fun hf hv => ⟨hf, hv, rfl⟩⟩

theorem Ctx.Draws.resolve (f : RegField) (b : Bool) : c.Draws (c.resolve f b).2 := by
  unfold Ctx.resolve
  dsimp only
  split
  · split
    · exact .refl
    · exact .loseWord
  · split
    · exact .refl
    · split
      · exact .loseWord
      · split
        · exact ⟨rfl, rfl, fun hf hv => ⟨hf, hv, rfl⟩⟩
        · exact .lose _ _

theorem Ctx.Draws.rd (l : Loc) : c.Draws (c.rd l).2 := by
  cases l with
  | none => exact .refl
  | reg n => exact .refl
  | str k => exact .popStream _

theorem Ctx.Draws.src {x : Word} (h : src f c = (x, c1)) : c.Draws c1 := by
  have hd : c.Draws (Machine.src f c).2 := (Ctx.Draws.resolve f true).trans (.rd _)
  rwa [h] at hd

theorem Ctx.Draws.block (h : block f m k c = (n, c1)) : c.Draws c1 := by
  have hd : c.Draws (Machine.block f m k c).2 := by
    unfold Machine.block
    dsimp only
    split
    · split
      · exact .resolve f true
      · exact (Ctx.Draws.resolve f true).trans .loseWord
    · exact (Ctx.Draws.resolve f true).trans .loseWord
    · exact .resolve f true
  rwa [h] at hd

theorem Ctx.Draws.tstat (h : c.Draws c1) : c1.th.tstat = c.th.tstat := by rw [h.thread]

theorem Ctx.Draws.latch (h : c.Draws c1) : c1.th.latch = c.th.latch := by rw [h.thread]

theorem Ctx.Draws.kernel (h : c.Draws c1) : c1.th.kernel = c.th.kernel := by rw [Thread.kernel, h.tstat, Thread.kernel]

end Draws

theorem Ctx.raise_of_unflagged {c : Ctx} {x : Cause} {val : Dword} (h : c.flag = none) :
    c.raise x val = { c with flag := some (x, val) } := by
  rw [Ctx.raise, h]

/-- The hints of a thread are none of what reading operands keeps. -/
theorem Ctx.Reads.hints {c c1 : Ctx} (h : c.Reads c1) (hs : List Hint) : c.Reads { c1 with th := { c1.th with hints := hs } } :=
  ⟨⟨h.keeps.s, h.keeps.id, h.keeps.word, h.keeps.hs, h.keeps.hold, h.keeps.park, h.keeps.npc, h.keeps.late, h.keeps.always⟩, h.log⟩

theorem Cause.code_of_ofCode {n : Nat} {k : Cause} (h : Cause.ofCode n = some k) : k.code = n := by
  unfold Cause.ofCode at h
  split at h <;> cases h <;> rfl

end Sys2Proof.Machine

namespace Sys2Proof.Claims
open Sys2Proof.Machine

/-! ### How an issue ends after its operands -/

section Ends
variable {s : State} {v : Thread} {word : Word} {acc : Accepts} {sw : Bool} {body : Issue Unit} {post : State → State} {c : Ctx}

/-- An instruction whose operands raised no fault raises its own, where no accesses are outstanding and no pending cause comes first. -/
theorem issue_faults_of_reads {x : Cause} {val : Dword} {p : Option Wait} (hi : Issues s word sw v) (hr : (begin s v word acc).Reads c)
    (hd : (begin s v word acc).Draws c) (hc : Clean c)
    (hb : body (begin s v word acc) = ((), { c with flag := some (x, val), park := p })) (hl : v.log = [])
    (hdel : s.deliver s.cur v = none) : issue word sw acc body post s = .next (s.trap s.cur v x.code val) := by
  obtain ⟨u, hu, hi⟩ := hi
  obtain ⟨-, -, hstarve⟩ := hc
  have halways : c.always s = s := congrFun hr.keeps.always s
  have honfault : c.onFault = none := hd.onFault
  rw [issue_of hu hi, State.runBody_faults hb rfl hstarve hl (by rw [halways]; exact hdel), Ctx.faulting, honfault, halways]

/-- An instruction whose operands raised no fault retires with registers that it has changed, and what follows it happens then. -/
theorem issue_retires_changed {t : Thread} {npc : Addr} (hi : Issues s word sw v) (hr : (begin s v word acc).Reads c) (hc : Clean c)
    (hb : body (begin s v word acc) = ((), { c with th := t, npc := npc })) :
    issue word sw acc body post s = .next (post (({ c with th := t, npc := npc } : Ctx).retired v.stepping)) := by
  obtain ⟨u, hu, hi⟩ := hi
  obtain ⟨hflag, hstall, hstarve⟩ := hc
  rw [issue_of hu hi, State.runBody_retires hb hflag hstall hstarve hr.keeps.hold hr.keeps.park hr.keeps.late]

end Ends

section Instructions
variable {s : State} {v : Thread} {word : Word} {acc : Accepts} {w : BitVec 1} {a b : RegField} {x y : Word} {c c1 c2 : Ctx} {m : Nat}

/-! ### svc (R348) -/

/-- The call that an `svc` posts for a thread, with its six words from register m on. -/
def svcCall (id : ThreadId) (t : Thread) (number m : Nat) : Call :=
  Call.mk id.mem number [t.reg m, t.reg (m + 1), t.reg (m + 2), t.reg (m + 3), t.reg (m + 4), t.reg (m + 5)] 0 0 m

theorem bodySvc_of {n : BitVec 13} {number : Nat} (hnum : number = c.hs.immU n.toNat 13) (hn : number < 2 ^ 16)
    (hm : block a 2 6 c = (m, c1)) (hs : c1.s = s) (hid : c1.id = s.cur) : bodySvc a n c = ((), { c1 with
      s := s.joinBatch s.cur.group 0 (svcCall s.cur c1.th number m), th := { c1.th with hints := [] }, park := some .call }) := by
  subst hnum hs
  rw [bodySvc, bind_of get_eq, if_neg (Nat.not_le.mpr hn), ← hid]
  exact bind_of hm

theorem exec_svc_of {n : BitVec 13} {number : Nat} (hi : Issues s (Enc.svc w a n) true v)
    (hnum : number = (HintSet.of v.hints).immU n.toNat 13) (hn : number < 2 ^ 16)
    (hm : block a 2 6 (begin s v (Enc.svc w a n) .immOnly) = (m, c1)) (hc : Clean c1) :
    exec (.svc w a n) s = .next ((s.joinBatch s.cur.group 0 (svcCall s.cur c1.th number m)).setThread s.cur
      { c1.th with hints := [], wait := .call }) :=
  have hr := Ctx.Reads.block hm
  have hs : c1.s = s := hr.keeps.s
  issue_parks_changed hi (hr.hints []) hc (bodySvc_of hnum hn hm hs hr.keeps.id)

/-! ### trap (R349) -/

theorem bodyTrap_of {n : BitVec 8} {k : Cause} (hx : src a c = (x, c1)) (hk : Cause.ofCode n.toNat = some k) (ht : k.untrappable = false)
    (hword : c1.word = word) (hf : c1.flag = none) : bodyTrap n a c = ((), { c1 with flag := some (k, k.trapValue word x) }) := by
  subst hword
  rw [bodyTrap, bind_of hx, bind_of get_eq, hk]
  dsimp only
  rw [ht, if_neg Bool.false_ne_true]
  exact congrArg (Prod.mk ()) (Ctx.raise_of_unflagged hf)

theorem exec_trap_of {n : BitVec 8} {k : Cause} (hi : Issues s (Enc.trap w n a) false v)
    (hx : src a (begin s v (Enc.trap w n a) .nothing) = (x, c1)) (hc : Clean c1) (hk : Cause.ofCode n.toNat = some k)
    (ht : k.untrappable = false) (hl : v.log = []) (hd : s.deliver s.cur v = none) :
    exec (.trap w n a) s = .next (s.trap s.cur v n.toNat (k.trapValue (Enc.trap w n a) x)) := by
  have hr := Ctx.Reads.src hx
  have hb := bodyTrap_of hx hk ht hr.keeps.word hc.1
  exact Cause.code_of_ofCode hk ▸ issue_faults_of_reads hi hr (.src hx) hc hb hl hd

/-! ### tret (R216) -/

theorem bodyTret_of_not_handling (h : c.th.handling = false) : bodyTret c = ((), c.raise .illegalTret 0) := by
  rw [bodyTret, bind_of get_eq, h]
  rfl

theorem bodyTret_of_handling (h : c.th.handling = true) (hb : c.th.badStatus = false) :
    bodyTret c = ((), { c with th := c.th.trapReturn, npc := c.th.trapReturn.pc }) := by
  rw [bodyTret, bind_of get_eq, h, hb]
  rfl

theorem exec_tret_of_handling (hi : Issues s (Enc.tret w) true v) (hc : Clean (begin s v (Enc.tret w) .nothing)) (h : v.handling = true)
    (hb : v.badStatus = false) : exec (.tret w) s = .next ((({ begin s v (Enc.tret w) .nothing with
      th := v.trapReturn, npc := (v.tepcHi ++ v.tepc) &&& ~~~3#48 } : Ctx).retired v.stepping).modThread s.cur Thread.awaitReissued) := by
  have hpc : v.trapReturn.pc = (v.tepcHi ++ v.tepc) &&& ~~~3#48 := by rw [trapReturn_of_status hb]
  exact hpc ▸ issue_retires_changed hi .refl hc (bodyTret_of_handling h hb)

/-! ### wfe (R353) -/

theorem bodyWfe_of_latched (hx : src a c = (x, c1)) (h : c1.th.latch = true) :
    bodyWfe a c = ((), { c1 with th := { c1.th with latch := false } }) := by
  rw [bodyWfe, bind_of hx, bind_of get_eq, h]
  rfl

theorem bodyWfe_of_unlatched (hx : src a c = (x, c1)) (h : c1.th.latch = false) (hs : c1.s = s) (hid : c1.id = s.cur) :
    bodyWfe a c = ((), { c1 with park := some (.wfe (if x = 0 then none else some (s.ncyc s.cur.teamId + x.toNat))) }) := by
  subst hs
  rw [bodyWfe, bind_of hx, bind_of get_eq, h, ← hid]
  rfl

theorem exec_wfe_of_unlatched (hi : Issues s (Enc.wfe w a) true v) (hx : src a (begin s v (Enc.wfe w a) .nothing) = (x, c1))
    (hc : Clean c1) (h : c1.th.latch = false) : exec (.wfe w a) s = .next (s.setThread s.cur { c1.th with
      wait := .wfe (if x = 0 then none else some (s.ncyc s.cur.teamId + x.toNat)) }) := by
  have hr := Ctx.Reads.src hx
  exact issue_parks hi hr hc (bodyWfe_of_unlatched hx h hr.keeps.s hr.keeps.id)

/-! ### tlbinv (R352) -/

/-- A check on operands none of which was lost raises its cause where it fails. -/
theorem checkedWith_flagIf {q : Bool} {cause : Cause} {val : Dword} (hu : c.unknown = false) (hf : c.flag = none) :
    checkedWith false (flagIf q cause val) c = ((), if q then { c with flag := some (cause, val) } else c) := by
  cases c
  cases hu
  cases hf
  cases q <;> rfl

theorem bodyTlbinv_of (hk : block a 2 2 c = (m, c1)) (hy : src b c1 = (y, c2)) (h1 : c1.unknown = false) (h2 : c2.unknown = false)
    (hf : c2.flag = none) : bodyTlbinv a b c
      = ((), { (if !c2.th.kernel then { c2 with flag := some (.permission, c1.th.pair m) } else c2) with
          park := some (.tlbinv (c1.th.pair m) y) }) := by
  have hpair : Machine.pairOf m c1 = (c1.th.pair m, c1) := rfl
  have hlost : isLost c1 = (false, c1) := by rw [isLost, h1]
  rw [bodyTlbinv, bind_of hk, bind_of hpair, bind_of hlost, bind_of hy, bind_of get_eq, bind_of (checkedWith_flagIf h2 hf)]
  rfl

/-- Where the operands raised no fault, none was lost on the way. -/
theorem known_of_clean (hd1 : (begin s v word acc).Draws c1) (hd2 : c1.Draws c2) (hc : Clean c2) :
    c1.unknown = false ∧ c2.unknown = false := by
  obtain ⟨hflag, -, hstarve⟩ := hc
  obtain ⟨hflag1, hstarve1, h2⟩ := hd2.quiet hflag hstarve
  obtain ⟨-, -, h1⟩ := hd1.quiet hflag1 hstarve1
  exact ⟨h1, h2.trans h1⟩

end Instructions

theorem trapsAndServices : TrapsAndServices := by
  refine ⟨?_, ?_, fun s v w hi hc => ⟨exec_tret_of_handling hi hc, fun h => issue_faults hi hc (bodyTret_of_not_handling h)⟩, ?_⟩
  · exact fun s v w a n m c1 number hi hnum hn hm hc => exec_svc_of hi hnum hn hm hc
  · exact fun s v w n a x c1 k hi hx hc hk ht hl hd => exec_trap_of hi hx hc hk ht hl hd
  · intro s v w a x c1 hi hx hc
    have hlatch : c1.th.latch = v.latch := (Ctx.Draws.src hx).latch
    exact ⟨fun h => issue_retires_changed hi (.src hx) hc (bodyWfe_of_latched hx (hlatch.trans h)),
      fun h => exec_wfe_of_unlatched hi hx hc (hlatch.trans h)⟩

theorem tlbInvalidationPrivilege : TlbInvalidationPrivilege := by
  rintro s v w a b k x y c1 c2 hi hk rfl hy hc
  have hr := (Ctx.Reads.block hk).trans (.src hy)
  have hd1 := Ctx.Draws.block hk
  have hd2 := Ctx.Draws.src hy
  have hkernel : c2.th.kernel = v.kernel := (hd1.trans hd2).kernel
  obtain ⟨h1, h2⟩ := known_of_clean hd1 hd2 hc
  have hb := bodyTlbinv_of hk hy h1 h2 hc.1
  rw [hkernel] at hb
  refine ⟨fun h => ?_, fun h hl hdel => ?_⟩ <;> rw [h] at hb
  · exact issue_parks hi hr hc hb
  · exact issue_faults_of_reads hi hr (hd1.trans hd2) hc hb hl hdel

/-- Settles O39: what each description does with its operands, and how the issue then ends (`issue_parks_changed`, `issue_retires_changed`,
`issue_parks`, `issue_faults_of_reads`). -/
theorem trapsServicesAndEvents : Obligations.TrapsServicesAndEvents := ⟨trapsAndServices, tlbInvalidationPrivilege⟩

end Sys2Proof.Claims
end
